-- ==== Sys2Proof/Word.lean ====
section
/-! DEFINITION. The word types of the device and their names (R6). -/
namespace Sys2Proof

/-- A byte: 8 bits (R6). -/
abbrev Byte := BitVec 8

/-- A word: 32 bits (R6). -/
abbrev Word := BitVec 32

/-- A double word: 64 bits (R6). -/
abbrev Dword := BitVec 64

/-- A time-base value: 64 bits of nanoseconds above 16 bits of fraction (R324). -/
abbrev Time80 := BitVec 80

end Sys2Proof
end

