-- ==== Sys2Proof/Syntax.lean ====
section
/-! DEFINITION. The commands of the block: one constructor per row of the operation table.

The block takes its commands from outside: an instruction that a core (or the microsequencer) executes, an
access that a master issues, or an event at one of its units.
An operand is what the row leaves to the sender: the core, the register numbers and immediates of an
encoding, an address and a value, or what arrives from a pin, a link or an analogue block. -/
namespace Sys2Proof

/-- A core: 0 to 3 are the application cores, 4 is the lockstep pair of the Safety Island (R404). -/
abbrev CoreId := Fin 5

/-- An application core. -/
abbrev AppCore := Fin 4

/-- A general register number (R194). -/
abbrev GReg := Fin 32

/-- A floating-point register number (R195). -/
abbrev FReg := Fin 32

/-- A short-vector register number (R195). -/
abbrev QReg := Fin 16

/-- A vector context number. -/
abbrev CtxId := Fin 8

/-- A bus-matrix master port, M0 to M11 (R22). -/
abbrev Master := Fin 12

/-- An Idene Link packet: the four header words, the payload bytes, and the CRC that follows a payload (R351 to R353). -/
structure Packet where
  w0 : Word
  w1 : Word
  w2 : Word
  w3 : Word
  payload : List Byte
  crc : Word
  deriving DecidableEq, Repr

/-- What a HELLO says of the neighbour that sent it (R356). -/
structure Hello where
  uid : Dword
  id : BitVec 14
  valid : Bool
  port : BitVec 3
  role : BitVec 2
  locked : Bool
  deriving DecidableEq, Repr

/-- The port address of an MVB master frame as received, and whether its two copies disagree (R395). -/
structure MvbAddr where
  addr : BitVec 12
  disagree : Bool
  deriving DecidableEq, Repr

/-- A transmit buffer of a CAN FD controller, and whether its transmission ends well (R398, R401). -/
structure CanTx where
  buf : Fin 32
  ok : Bool
  deriving DecidableEq, Repr

/-- What the clock monitor counts in one window of 50 cycles of its own oscillator: the cycles of each monitored clock, and where a correction window of 1,024 REFCLK cycles ends
with it, the cycles of the monitor's own oscillator in that window (R416). -/
structure ClockWindow where
  refclk : Nat
  xclk : Nat
  vclk : Nat
  kclk : Nat
  sclk : Nat
  siosc : Option Nat
  deriving DecidableEq, Repr

/-- The commands, in the order of the operation table. -/
inductive Instr where
  /-- Release of PRST_N starts the device from step 1 of the start-up sequence, setting the safe-state latch with cause BOOT (R454). -/
  | prstNRelease (nvm : List (Nat×Byte))
  /-- PRST_N driven low puts the whole device in reset, with every signal pad at high impedance (R477). -/
  | prstNAssert
  /-- SRST_N resets everything except the Moth frames and retained fields, abandons vector groups and restarts the start-up sequence at step 2 (R454). -/
  | srstN
  /-- One second after a fatal failure with TRIES below BOOTRETRY, the device resets as by SRST_N and starts again at step 2 (R457). -/
  | bootRetry
  /-- Configuration record END ends the records (R453). -/
  | cfgEnd
  /-- Configuration record WRITE writes VALUE to ADDR, read-modify-write under MASK (R453). -/
  | cfgWrite
  /-- Configuration record WAIT polls ADDR every 1 us until the masked value matches (R453). -/
  | cfgWait
  /-- A WAIT record's N us expire without a match, failing boot with CFGWAIT or setting CFGWARN (R453). -/
  | cfgWaitTimeout
  /-- Configuration record DELAY starts a wait of N us (R453). -/
  | cfgDelay
  /-- The wait of a DELAY record ends and the next record follows (R453). -/
  | cfgDelayExpiry
  /-- Configuration record SKIP reads ADDR and skips the next N records when the comparison differs from NE (R453). -/
  | cfgSkip
  /-- A configuration record with a reserved OP fails boot with CFGOP (R453). -/
  | cfgop
  /-- The start-up checker self-test ends, taking failing bank groups, SI SRAM or DRAM out of service (R297). -/
  | miuSelftestDone (erg : BitVec 128) (si : Bool) (dmc : BitVec 2)
  /-- A PLL reaches lock and blocks waiting on it proceed (R429). -/
  | pllLock (p : Fin 5)
  /-- A write to a register field with no row of its own acts under its access code (R7). -/
  | regWrite (m : Master) (core : AppCore) (pa : Nat) (v : Word)
  /-- A master issues a read transaction that the XBM decodes, checks for reach and arbitrates at its target (R300). -/
  | xbmRead (m : Master) (core : AppCore) (pa : Nat) (len : Nat) (id : BitVec 6)
  /-- A master issues a write transaction that the XBM decodes, checks for reach and arbitrates at its target (R300). -/
  | xbmWrite (m : Master) (core : AppCore) (pa : Nat) (data : List (Option Byte)) (id : BitVec 6) (coll : List Nat)
  /-- A master issues an atomic transaction, performed by T0, T1, T6 or T7 on SI SRAM and refused elsewhere (R300). -/
  | xbmAtomic (m : Master) (core : AppCore) (pa : Nat) (fn : BitVec 2) (v : Word) (id : BitVec 6) (coll : Bool)
  /-- A target's response reaches its master, which acts on the response code (R309). -/
  | xbmResponse (m : Master) (id : BitVec 6)
  /-- A granted transaction without response for XBM_TMO.CYCLES XCLK ends with TARGET and is logged (R310). -/
  | xbmTimeout (m : Master) (id : BitVec 6)
  /-- A request that has waited XBM_AGE.CYCLES XCLK is treated as QOS 3 from then on (R305). -/
  | xbmAgeExpiry (m : Master) (id : BitVec 6)
  /-- The XBM delivers a held response to a deterministic-marked request at its tabulated time (R307). -/
  | detResponseRelease (m : Master) (id : BitVec 6)
  /-- A pending corrected-word write-back is performed in an idle bank cycle, unless a port has written the word (R283). -/
  | ceWriteback (bank : Fin 128)
  /-- The scrubber finishes a row once every in-service bank is read and the pace time has passed, and moves to the next (R294). -/
  | scrubRow
  /-- The scrubber completes row 49,151 and writes the lap duration to MIU_SCRUB_LAP (R295). -/
  | scrubLapEnd
  /-- The running lap first exceeds MIU_SCRUB_LIMIT, setting LAPSLOW, raising MIU_LAP and pulsing producer 160 (R295). -/
  | lapslow
  /-- Software sets a bank group's OOS bit, after which surveys touching it fail with PERM TARGET (R286). -/
  | ergBgctlOos (m : Master) (mask : BitVec 8)
  /-- A bank group marked out of service leaves service once no admitted group or port X access uses it (R286). -/
  | bankGroupLeaveService (g : Fin 8)
  /-- Software requests a zero-fill of a ready in-service bank group, which becomes not ready (R288). -/
  | ergInitFill (m : Master) (mask : BitVec 8)
  /-- A requested zero-fill starts once no admitted group or port X access uses the group (R288). -/
  | zeroFillStart (g : Fin 8)
  /-- A zero-fill ends, the group becomes ready and waiting accesses proceed (R288). -/
  | zeroFillDone (g : Fin 8)
  /-- On wake a bank group's power slot ends and the group becomes ready, or starts its zero-fill (R288). -/
  | bankGroupReady (g : Fin 8)
  /-- A change to ERG_HASH takes effect once accepted Erg accesses complete, remapping the region (R47). -/
  | ergHashWrite (m : Master) (v : Word)
  /-- A new port X share takes effect at the start of each bank's next 32-VCLK window (R60). -/
  | ergXqosWrite (m : Master) (v : Word)
  /-- Software arms one error injection at MIU_INJ_PA (R296). -/
  | miuInjArm (m : Master)
  /-- Writing DMC_CTL.EN to 1 checks the channel configuration, starts DPLL and training, and exits self-refresh (R289). -/
  | dmcEnable (m : Master) (v : Word)
  /-- Channel training ends, setting DMC_STAT.READY or TRFAIL (R289). -/
  | dmcTrainingDone (fail : BitVec 2)
  /-- A write to DMC_CAP sets the mapped DRAM capacity, clipped to the usable capacity (R290). -/
  | dmcCapWrite (m : Master) (v : Word)
  /-- The patrol reads the next 64-byte block and its check bytes every 2^PPACE us, writing back corrections (R293). -/
  | dmcPatrolRead (ch : Fin 2)
  /-- A translation walk of probe reads ends with a match, NOMAP, WALK_DEV or WALK_ECC (R257). -/
  | tableWalkDone (w : Nat)
  /-- TLBI drains the store buffer and removes matching TLB and walk-cache copies (R271). -/
  | tlbi (c : CoreId) (ga : GReg) (gb : GReg) (ty : BitVec 4)
  /-- TLBI completes once every walk in flight at the removal has finished (R271). -/
  | tlbiWalksDone (c : CoreId)
  /-- VINV drains the store buffer and removes matching VSE translation-cache copies (R272). -/
  | vinv (c : CoreId) (ga : GReg) (gb : GReg) (ty : BitVec 4)
  /-- VINV completes once no group holds a matching survey-table entry translated before the removal (R272). -/
  | vinvRelease (c : CoreId)
  /-- A source pulse makes an IDLE source PENDING, merges into a pending one or is lost while ACTIVE (R314). -/
  | icuEvent (n : Nat)
  /-- A claim of the normal class returns the highest eligible source and makes it ACTIVE (R316). -/
  | iclaimn (c : CoreId) (d : GReg)
  /-- A claim of the fast class returns the highest eligible source and makes it ACTIVE (R316). -/
  | iclaimf (c : CoreId) (d : GReg)
  /-- COMPLETE ends service of an owned ACTIVE source, which goes IDLE or PENDING by its level input (R317). -/
  | icomplete (c : CoreId) (a : GReg)
  /-- A write to ICU_SWI raises one event on each selected software-interrupt source (R313). -/
  | icuSwi (m : Master) (v : Word)
  /-- The core takes a normal-class interrupt at an instruction boundary and enters its handler (R227). -/
  | intN (c : CoreId)
  /-- The core takes a fast-class interrupt, switching to the shadow register bank as needed (R319). -/
  | intF (c : CoreId)
  /-- A store error that arrived after the store left the buffer is taken at M at the next boundary (R237). -/
  | storeErr (c : CoreId)
  /-- A pending enabled floating-point trap is taken at an instruction boundary with FTPC and TCAUSE set (R148). -/
  | fptrap (c : CoreId)
  /-- An open hold window ends and pending interrupts may be taken (R231). -/
  | holdWindowEnd (c : CoreId)
  /-- A gate probe walk that has not answered within 4,096 KCLK fails, raising GATE_ARG (R241). -/
  | gateProbeTimeout (c : CoreId)
  /-- The loop counter reaches zero at LEND, clearing ACTIVE and continuing at LEND + 4 (R213). -/
  | loopCountExpiry (c : CoreId)
  /-- After 10,000 KCLK without an SVU instruction the SVU datapath powers down (R220). -/
  | svuPowerDown (c : CoreId)
  /-- The 2 us SVU wake ends and the waiting SVU instruction proceeds (R220). -/
  | svuWakeDone (c : CoreId)
  /-- A write to FCSR waits for earlier FP and SVU instructions and pending traps before it takes effect (R132). -/
  | fcsrWrite (c : CoreId) (a : GReg)
  /-- A write to MVBASE or SVBASE captures the INT_N and INT_F entries of the table (R226). -/
  | vbaseWrite (c : CoreId) (sup : Bool) (a : GReg)
  /-- A write to LCTL sets the loop state, ending the loop at once when ACTIVE is 0 (R214). -/
  | lctlWrite (c : CoreId) (a : GReg)
  /-- A write to CTX_MODE switches deterministic mode, invalidating the L1 caches when DET becomes 0 (R249). -/
  | ctxModeWrite (c : CoreId) (a : GReg)
  /-- Gd gets Ga + Gb (R199). -/
  | add (c : CoreId) (d : GReg) (a : GReg) (b : GReg)
  /-- Gd gets Ga - Gb (R199). -/
  | sub (c : CoreId) (d : GReg) (a : GReg) (b : GReg)
  /-- Gd gets Ga AND Gb (R199). -/
  | and (c : CoreId) (d : GReg) (a : GReg) (b : GReg)
  /-- Gd gets Ga OR Gb (R199). -/
  | or (c : CoreId) (d : GReg) (a : GReg) (b : GReg)
  /-- Gd gets Ga XOR Gb (R199). -/
  | xor (c : CoreId) (d : GReg) (a : GReg) (b : GReg)
  /-- Gd gets Ga AND NOT Gb (R199). -/
  | andn (c : CoreId) (d : GReg) (a : GReg) (b : GReg)
  /-- Gd gets 1 if Ga < Gb signed (R199). -/
  | slt (c : CoreId) (d : GReg) (a : GReg) (b : GReg)
  /-- Gd gets 1 if Ga < Gb unsigned (R199). -/
  | sltu (c : CoreId) (d : GReg) (a : GReg) (b : GReg)
  /-- Gd gets Ga shifted left by Gb[4:0] (R199). -/
  | shl (c : CoreId) (d : GReg) (a : GReg) (b : GReg)
  /-- Gd gets Ga shifted right logically by Gb[4:0] (R199). -/
  | shr (c : CoreId) (d : GReg) (a : GReg) (b : GReg)
  /-- Gd gets Ga shifted right arithmetically by Gb[4:0] (R199). -/
  | sra (c : CoreId) (d : GReg) (a : GReg) (b : GReg)
  /-- Gd gets Ga rotated right by Gb[4:0] (R199). -/
  | ror (c : CoreId) (d : GReg) (a : GReg) (b : GReg)
  /-- Gd gets the leading zeros of Ga (R199). -/
  | clz (c : CoreId) (d : GReg) (a : GReg)
  /-- Gd gets the one bits of Ga (R199). -/
  | popc (c : CoreId) (d : GReg) (a : GReg)
  /-- Gd gets Ga[7:0] sign-extended (R199). -/
  | sexb (c : CoreId) (d : GReg) (a : GReg)
  /-- Gd gets Ga[15:0] sign-extended (R199). -/
  | sexh (c : CoreId) (d : GReg) (a : GReg)
  /-- Gd gets the signed minimum of Ga and Gb (R199). -/
  | min (c : CoreId) (d : GReg) (a : GReg) (b : GReg)
  /-- Gd gets the signed maximum of Ga and Gb (R199). -/
  | max (c : CoreId) (d : GReg) (a : GReg) (b : GReg)
  /-- Gd gets the unsigned minimum of Ga and Gb (R199). -/
  | minu (c : CoreId) (d : GReg) (a : GReg) (b : GReg)
  /-- Gd gets the unsigned maximum of Ga and Gb (R199). -/
  | maxu (c : CoreId) (d : GReg) (a : GReg) (b : GReg)
  /-- Gd gets Ga plus the sign-extended immediate (R199). -/
  | addi (c : CoreId) (d : GReg) (a : GReg) (imm : BitVec 16)
  /-- Gd gets Ga AND the zero-extended immediate (R199). -/
  | andi (c : CoreId) (d : GReg) (a : GReg) (imm : BitVec 16)
  /-- Gd gets Ga OR the zero-extended immediate (R199). -/
  | ori (c : CoreId) (d : GReg) (a : GReg) (imm : BitVec 16)
  /-- Gd gets Ga XOR the zero-extended immediate (R199). -/
  | xori (c : CoreId) (d : GReg) (a : GReg) (imm : BitVec 16)
  /-- Gd gets 1 if Ga is below the immediate, signed (R199). -/
  | slti (c : CoreId) (d : GReg) (a : GReg) (imm : BitVec 16)
  /-- Gd gets 1 if Ga is below the immediate, unsigned (R199). -/
  | sltiu (c : CoreId) (d : GReg) (a : GReg) (imm : BitVec 16)
  /-- Gd gets IMM shifted left by 16 (R199). -/
  | lui (c : CoreId) (d : GReg) (imm : BitVec 16)
  /-- Gd gets Ga shifted or rotated by an immediate count (R198). -/
  | shi (c : CoreId) (d : GReg) (a : GReg) (op : BitVec 2) (cnt : BitVec 5)
  /-- Gd gets the low 32 bits of Ga x Gb (R199). -/
  | mul (c : CoreId) (d : GReg) (a : GReg) (b : GReg)
  /-- Gd gets the high 32 bits of the signed product (R199). -/
  | mulh (c : CoreId) (d : GReg) (a : GReg) (b : GReg)
  /-- Gd gets the high 32 bits of the unsigned product (R199). -/
  | mulhu (c : CoreId) (d : GReg) (a : GReg) (b : GReg)
  /-- Gd gets the signed quotient in 34 KCLK, all ones on division by zero (R200). -/
  | div (c : CoreId) (d : GReg) (a : GReg) (b : GReg)
  /-- Gd gets the unsigned quotient in 34 KCLK (R200). -/
  | divu (c : CoreId) (d : GReg) (a : GReg) (b : GReg)
  /-- Gd gets the signed remainder in 34 KCLK (R200). -/
  | rem (c : CoreId) (d : GReg) (a : GReg) (b : GReg)
  /-- Gd gets the unsigned remainder in 34 KCLK (R200). -/
  | remu (c : CoreId) (d : GReg) (a : GReg) (b : GReg)
  /-- Loads a byte sign-extended into Gd (R201). -/
  | ldb (c : CoreId) (d : GReg) (a : GReg) (imm : BitVec 16)
  /-- Loads a byte zero-extended into Gd (R201). -/
  | ldbu (c : CoreId) (d : GReg) (a : GReg) (imm : BitVec 16)
  /-- Loads a half-word sign-extended into Gd (R201). -/
  | ldh (c : CoreId) (d : GReg) (a : GReg) (imm : BitVec 16)
  /-- Loads a half-word zero-extended into Gd (R201). -/
  | ldhu (c : CoreId) (d : GReg) (a : GReg) (imm : BitVec 16)
  /-- Loads a word into Gd (R201). -/
  | ldw (c : CoreId) (d : GReg) (a : GReg) (imm : BitVec 16)
  /-- Stores the low byte of a register through the store buffer (R201). -/
  | stb (c : CoreId) (d : GReg) (a : GReg) (imm : BitVec 16)
  /-- Stores the low half-word of a register through the store buffer (R201). -/
  | sth (c : CoreId) (d : GReg) (a : GReg) (imm : BitVec 16)
  /-- Stores a word through the store buffer (R201). -/
  | stw (c : CoreId) (d : GReg) (a : GReg) (imm : BitVec 16)
  /-- Loads a binary32 value into an F register (R201). -/
  | flds (c : CoreId) (d : FReg) (a : GReg) (imm : BitVec 16)
  /-- Loads 8 bytes into an F register (R201). -/
  | fldd (c : CoreId) (d : FReg) (a : GReg) (imm : BitVec 16)
  /-- Stores the binary32 value of an F register (R201). -/
  | fsts (c : CoreId) (d : FReg) (a : GReg) (imm : BitVec 16)
  /-- Stores 8 bytes of an F register (R201). -/
  | fstd (c : CoreId) (d : FReg) (a : GReg) (imm : BitVec 16)
  /-- Atomically writes Gb to the word at Ga and returns the old word (R203). -/
  | atomSwap (c : CoreId) (d : GReg) (a : GReg) (b : GReg)
  /-- Atomically adds Gb to the word at Ga and returns the old word (R203). -/
  | atomAdd (c : CoreId) (d : GReg) (a : GReg) (b : GReg)
  /-- Atomically ANDs Gb into the word at Ga and returns the old word (R203). -/
  | atomAnd (c : CoreId) (d : GReg) (a : GReg) (b : GReg)
  /-- Atomically ORs Gb into the word at Ga and returns the old word (R203). -/
  | atomOr (c : CoreId) (d : GReg) (a : GReg) (b : GReg)
  /-- Jumps by OFF words from its own address (R197). -/
  | br (c : CoreId) (off : BitVec 26)
  /-- Jumps by OFF words and writes its address + 4 to G31 (R197). -/
  | call (c : CoreId) (off : BitVec 26)
  /-- Branches when Ga equals Gb (R197). -/
  | beq (c : CoreId) (a : GReg) (b : GReg) (off : BitVec 16)
  /-- Branches when Ga differs from Gb (R197). -/
  | bne (c : CoreId) (a : GReg) (b : GReg) (off : BitVec 16)
  /-- Branches when Ga < Gb signed (R197). -/
  | blt (c : CoreId) (a : GReg) (b : GReg) (off : BitVec 16)
  /-- Branches when Ga >= Gb signed (R197). -/
  | bge (c : CoreId) (a : GReg) (b : GReg) (off : BitVec 16)
  /-- Branches when Ga < Gb unsigned (R197). -/
  | bltu (c : CoreId) (a : GReg) (b : GReg) (off : BitVec 16)
  /-- Branches when Ga >= Gb unsigned (R197). -/
  | bgeu (c : CoreId) (a : GReg) (b : GReg) (off : BitVec 16)
  /-- Jumps to Ga + IMM with low bits cleared and writes its address + 4 to Gd (R197). -/
  | jmpr (c : CoreId) (d : GReg) (a : GReg) (imm : BitVec 16)
  /-- Calls Ga and saves G31 and the masked registers in a probed stack frame (R206). -/
  | callm (c : CoreId) (a : GReg) (mask : BitVec 16)
  /-- Restores registers from the frame at G30 and returns through G31 (R208). -/
  | retm (c : CoreId)
  /-- Sets up a hardware loop of N instructions counted by Gc, or skips the body when Gc is 0 (R213). -/
  | loop (c : CoreId) (gc : GReg) (n1 : BitVec 6)
  /-- Stores G7 to G6 elements from G5, interruptible at each element (R211). -/
  | fills (c : CoreId) (sz : BitVec 2) (dstep : BitVec 4)
  /-- Copies G6 elements from G4 to G5 with signed steps (R211). -/
  | movs (c : CoreId) (sz : BitVec 2) (sstep : BitVec 4) (dstep : BitVec 4)
  /-- Scans elements from G4 for the first that meets COND against G7 (R211). -/
  | scans (c : CoreId) (sz : BitVec 2) (sstep : BitVec 4) (cond : BitVec 2)
  /-- Compares elements at G4 and G5 and leaves the first difference in G7 (R211). -/
  | cmps (c : CoreId) (sz : BitVec 2) (sstep : BitVec 4) (dstep : BitVec 4)
  /-- Fd gets Fa + Fb rounded by RM (R204). -/
  | fadd (c : CoreId) (d : FReg) (a : FReg) (b : FReg) (rm : BitVec 3) (p : Bool)
  /-- Fd gets Fa - Fb rounded by RM (R204). -/
  | fsub (c : CoreId) (d : FReg) (a : FReg) (b : FReg) (rm : BitVec 3) (p : Bool)
  /-- Fd gets Fa x Fb rounded by RM (R204). -/
  | fmul (c : CoreId) (d : FReg) (a : FReg) (b : FReg) (rm : BitVec 3) (p : Bool)
  /-- Fd gets Fa / Fb, stalling the pipe 58 or 30 KCLK (R147). -/
  | fdiv (c : CoreId) (d : FReg) (a : FReg) (b : FReg) (rm : BitVec 3) (p : Bool)
  /-- Fd gets the square root of Fa, stalling the pipe (R147). -/
  | fsqrt (c : CoreId) (d : FReg) (a : FReg) (rm : BitVec 3) (p : Bool)
  /-- Fd gets the IEEE minimum of Fa and Fb (R204). -/
  | fmin (c : CoreId) (d : FReg) (a : FReg) (b : FReg) (rm : BitVec 3) (p : Bool)
  /-- Fd gets the IEEE maximum of Fa and Fb (R204). -/
  | fmax (c : CoreId) (d : FReg) (a : FReg) (b : FReg) (rm : BitVec 3) (p : Bool)
  /-- Converts Fa between binary32 and binary64 (R133). -/
  | fcvt (c : CoreId) (d : FReg) (a : FReg) (rm : BitVec 3) (p : Bool)
  /-- Converts Fa to S32 in Gd (R133). -/
  | fcvts (c : CoreId) (d : GReg) (a : FReg) (rm : BitVec 3) (p : Bool)
  /-- Converts Fa to U32 in Gd (R133). -/
  | fcvtu (c : CoreId) (d : GReg) (a : FReg) (rm : BitVec 3) (p : Bool)
  /-- Converts S32 in Ga to float in Fd (R133). -/
  | fcvtfs (c : CoreId) (d : FReg) (a : GReg) (rm : BitVec 3) (p : Bool)
  /-- Converts U32 in Ga to float in Fd (R133). -/
  | fcvtfu (c : CoreId) (d : FReg) (a : GReg) (rm : BitVec 3) (p : Bool)
  /-- Gd gets 1 when Fa equals Fb (R204). -/
  | fcmpeq (c : CoreId) (d : GReg) (a : FReg) (b : FReg) (rm : BitVec 3) (p : Bool)
  /-- Gd gets 1 when Fa < Fb (R204). -/
  | fcmplt (c : CoreId) (d : GReg) (a : FReg) (b : FReg) (rm : BitVec 3) (p : Bool)
  /-- Gd gets 1 when Fa <= Fb (R204). -/
  | fcmple (c : CoreId) (d : GReg) (a : FReg) (b : FReg) (rm : BitVec 3) (p : Bool)
  /-- Gd gets the class bits of Fa (R204). -/
  | fclass (c : CoreId) (d : GReg) (a : FReg) (rm : BitVec 3) (p : Bool)
  /-- Moves the bits of Ga into Fd[31:0] (R204). -/
  | fmvgf (c : CoreId) (d : FReg) (a : GReg) (rm : BitVec 3) (p : Bool)
  /-- Moves Fa[31:0] into Gd (R204). -/
  | fmvfg (c : CoreId) (d : GReg) (a : FReg) (rm : BitVec 3) (p : Bool)
  /-- Fd gets Fa x Fb + Fc with one rounding (R204). -/
  | fma (c : CoreId) (d : FReg) (a : FReg) (b : FReg) (e : FReg) (rm : BitVec 3) (p : Bool)
  /-- Fd gets Fa x Fb - Fc with one rounding (R204). -/
  | fms (c : CoreId) (d : FReg) (a : FReg) (b : FReg) (e : FReg) (rm : BitVec 3) (p : Bool)
  /-- Fd gets -(Fa x Fb) + Fc with one rounding (R204). -/
  | fnma (c : CoreId) (d : FReg) (a : FReg) (b : FReg) (e : FReg) (rm : BitVec 3) (p : Bool)
  /-- Fd gets -(Fa x Fb) - Fc with one rounding (R204). -/
  | fnms (c : CoreId) (d : FReg) (a : FReg) (b : FReg) (e : FReg) (rm : BitVec 3) (p : Bool)
  /-- Reads a system register into Gd (R205). -/
  | srr (c : CoreId) (d : GReg) (sr : BitVec 12)
  /-- Writes Ga to a system register with no row of its own, serialising where named (R205). -/
  | srw (c : CoreId) (sr : BitVec 12) (a : GReg)
  /-- Waits for earlier FP instructions, their flags and pending traps, and drains store errors (R149). -/
  | fsync (c : CoreId)
  /-- Does what FSYNC does and also waits for every earlier SVU instruction and its SAT flag (R149). -/
  | vsync (c : CoreId)
  /-- Calls gate entry n after checking the entry and probing pointer arguments (R242). -/
  | gate (c : CoreId) (n : BitVec 12)
  /-- Returns from M to the saved level and return point (R229). -/
  | mret (c : CoreId)
  /-- Returns from S to the saved level and return point (R229). -/
  | sret (c : CoreId)
  /-- Closes any hold window and waits for a waking interrupt source (R320). -/
  | wait (c : CoreId)
  /-- Raises the BRK exception (R234). -/
  | brk (c : CoreId)
  /-- Opens a hold window of min(k, HLIMIT) KCLK (R232). -/
  | holdi (c : CoreId) (k : BitVec 10)
  /-- SVU lane-wise addition (R217). -/
  | qadd (c : CoreId) (d : QReg) (a : QReg) (b : QReg) (ty : BitVec 4) (rm : BitVec 3)
  /-- SVU lane-wise subtraction (R217). -/
  | qsub (c : CoreId) (d : QReg) (a : QReg) (b : QReg) (ty : BitVec 4) (rm : BitVec 3)
  /-- SVU lane-wise multiplication (R217). -/
  | qmul (c : CoreId) (d : QReg) (a : QReg) (b : QReg) (ty : BitVec 4) (rm : BitVec 3)
  /-- SVU lane-wise minimum (R217). -/
  | qmin (c : CoreId) (d : QReg) (a : QReg) (b : QReg) (ty : BitVec 4) (rm : BitVec 3)
  /-- SVU lane-wise maximum (R217). -/
  | qmax (c : CoreId) (d : QReg) (a : QReg) (b : QReg) (ty : BitVec 4) (rm : BitVec 3)
  /-- SVU lane-wise absolute value (R217). -/
  | qabs (c : CoreId) (d : QReg) (a : QReg) (b : QReg) (ty : BitVec 4) (rm : BitVec 3)
  /-- SVU lane-wise negation (R217). -/
  | qneg (c : CoreId) (d : QReg) (a : QReg) (b : QReg) (ty : BitVec 4) (rm : BitVec 3)
  /-- SVU lane-wise absolute difference (R217). -/
  | qabsd (c : CoreId) (d : QReg) (a : QReg) (b : QReg) (ty : BitVec 4) (rm : BitVec 3)
  /-- SVU Qd gets Qa x Qb + Qd with one rounding (R217). -/
  | qfma (c : CoreId) (d : QReg) (a : QReg) (b : QReg) (ty : BitVec 4) (rm : BitVec 3)
  /-- SVU Qd gets -(Qa x Qb) + Qd with one rounding (R217). -/
  | qfms (c : CoreId) (d : QReg) (a : QReg) (b : QReg) (ty : BitVec 4) (rm : BitVec 3)
  /-- SVU saturating multiply-accumulate (R217). -/
  | qmacs (c : CoreId) (d : QReg) (a : QReg) (b : QReg) (ty : BitVec 4) (rm : BitVec 3)
  /-- SVU saturating multiply-subtract (R217). -/
  | qmsubs (c : CoreId) (d : QReg) (a : QReg) (b : QReg) (ty : BitVec 4) (rm : BitVec 3)
  /-- SVU saturating addition (R217). -/
  | qadds (c : CoreId) (d : QReg) (a : QReg) (b : QReg) (ty : BitVec 4) (rm : BitVec 3)
  /-- SVU saturating subtraction (R217). -/
  | qsubs (c : CoreId) (d : QReg) (a : QReg) (b : QReg) (ty : BitVec 4) (rm : BitVec 3)
  /-- SVU saturating multiplication (R217). -/
  | qmuls (c : CoreId) (d : QReg) (a : QReg) (b : QReg) (ty : BitVec 4) (rm : BitVec 3)
  /-- SVU rounding arithmetic shift right (R217). -/
  | qrshr (c : CoreId) (d : QReg) (a : QReg) (b : QReg) (ty : BitVec 4) (rm : BitVec 3)
  /-- SVU lane-wise AND (R217). -/
  | qand (c : CoreId) (d : QReg) (a : QReg) (b : QReg) (ty : BitVec 4) (rm : BitVec 3)
  /-- SVU lane-wise OR (R217). -/
  | qor (c : CoreId) (d : QReg) (a : QReg) (b : QReg) (ty : BitVec 4) (rm : BitVec 3)
  /-- SVU lane-wise XOR (R217). -/
  | qxor (c : CoreId) (d : QReg) (a : QReg) (b : QReg) (ty : BitVec 4) (rm : BitVec 3)
  /-- SVU lane-wise AND NOT (R217). -/
  | qandn (c : CoreId) (d : QReg) (a : QReg) (b : QReg) (ty : BitVec 4) (rm : BitVec 3)
  /-- SVU lane-wise shift left by Qb (R217). -/
  | qshl (c : CoreId) (d : QReg) (a : QReg) (b : QReg) (ty : BitVec 4) (rm : BitVec 3)
  /-- SVU lane-wise logical shift right by Qb (R217). -/
  | qshr (c : CoreId) (d : QReg) (a : QReg) (b : QReg) (ty : BitVec 4) (rm : BitVec 3)
  /-- SVU lane-wise arithmetic shift right by Qb (R217). -/
  | qsra (c : CoreId) (d : QReg) (a : QReg) (b : QReg) (ty : BitVec 4) (rm : BitVec 3)
  /-- SVU lane-wise rotate left by Qb (R217). -/
  | qrol (c : CoreId) (d : QReg) (a : QReg) (b : QReg) (ty : BitVec 4) (rm : BitVec 3)
  /-- SVU lane-wise compare equal (R217). -/
  | qcmpeq (c : CoreId) (d : QReg) (a : QReg) (b : QReg) (ty : BitVec 4) (rm : BitVec 3)
  /-- SVU lane-wise compare not equal (R217). -/
  | qcmpne (c : CoreId) (d : QReg) (a : QReg) (b : QReg) (ty : BitVec 4) (rm : BitVec 3)
  /-- SVU lane-wise compare less than (R217). -/
  | qcmplt (c : CoreId) (d : QReg) (a : QReg) (b : QReg) (ty : BitVec 4) (rm : BitVec 3)
  /-- SVU lane-wise compare less or equal (R217). -/
  | qcmple (c : CoreId) (d : QReg) (a : QReg) (b : QReg) (ty : BitVec 4) (rm : BitVec 3)
  /-- SVU lane-wise compare greater than (R217). -/
  | qcmpgt (c : CoreId) (d : QReg) (a : QReg) (b : QReg) (ty : BitVec 4) (rm : BitVec 3)
  /-- SVU lane-wise compare greater or equal (R217). -/
  | qcmpge (c : CoreId) (d : QReg) (a : QReg) (b : QReg) (ty : BitVec 4) (rm : BitVec 3)
  /-- SVU lane-wise select by the top bit of Qd (R217). -/
  | qsel (c : CoreId) (d : QReg) (a : QReg) (b : QReg) (ty : BitVec 4) (rm : BitVec 3)
  /-- SVU interleave of low halves (R217). -/
  | qzipl (c : CoreId) (d : QReg) (a : QReg) (b : QReg) (ty : BitVec 4) (rm : BitVec 3)
  /-- SVU interleave of high halves (R217). -/
  | qziph (c : CoreId) (d : QReg) (a : QReg) (b : QReg) (ty : BitVec 4) (rm : BitVec 3)
  /-- SVU de-interleave of even lanes (R217). -/
  | quzpe (c : CoreId) (d : QReg) (a : QReg) (b : QReg) (ty : BitVec 4) (rm : BitVec 3)
  /-- SVU de-interleave of odd lanes (R217). -/
  | quzpo (c : CoreId) (d : QReg) (a : QReg) (b : QReg) (ty : BitVec 4) (rm : BitVec 3)
  /-- SVU broadcast of one lane of Qa (R217). -/
  | qdup (c : CoreId) (d : QReg) (a : QReg) (b : QReg) (ty : BitVec 4) (rm : BitVec 3)
  /-- SVU conversion of lanes at equal width (R217). -/
  | qcvt (c : CoreId) (d : QReg) (a : QReg) (b : QReg) (ty : BitVec 4) (rm : BitVec 3)
  /-- SVU conversion of lanes to half width (R217). -/
  | qcvtn (c : CoreId) (d : QReg) (a : QReg) (b : QReg) (ty : BitVec 4) (rm : BitVec 3)
  /-- SVU widening multiply of the low lanes (R219). -/
  | qmulwl (c : CoreId) (d : QReg) (a : QReg) (b : QReg) (ty : BitVec 4) (rm : BitVec 3)
  /-- SVU widening multiply of the high lanes (R219). -/
  | qmulwh (c : CoreId) (d : QReg) (a : QReg) (b : QReg) (ty : BitVec 4) (rm : BitVec 3)
  /-- SVU widening multiply-accumulate of the low lanes (R219). -/
  | qmacwl (c : CoreId) (d : QReg) (a : QReg) (b : QReg) (ty : BitVec 4) (rm : BitVec 3)
  /-- SVU widening multiply-accumulate of the high lanes (R219). -/
  | qmacwh (c : CoreId) (d : QReg) (a : QReg) (b : QReg) (ty : BitVec 4) (rm : BitVec 3)
  /-- SVU dot product of lane groups added into wider lanes (R219). -/
  | qdot (c : CoreId) (d : QReg) (a : QReg) (b : QReg) (ty : BitVec 4) (rm : BitVec 3)
  /-- SVU dot product with Qa signed and Qb unsigned (R219). -/
  | qdotsu (c : CoreId) (d : QReg) (a : QReg) (b : QReg) (ty : BitVec 4) (rm : BitVec 3)
  /-- Loads 16 bytes into a Q register (R218). -/
  | ldq (c : CoreId) (d : QReg) (a : GReg) (off : BitVec 12)
  /-- Stores 16 bytes of a Q register (R218). -/
  | stq (c : CoreId) (d : QReg) (a : GReg) (off : BitVec 12)
  /-- Loads 32 bytes de-interleaved into two Q registers (R218). -/
  | lds2 (c : CoreId) (d : QReg) (a : GReg) (esz : BitVec 2) (off : BitVec 12)
  /-- Loads 48 bytes de-interleaved into three Q registers (R218). -/
  | lds3 (c : CoreId) (d : QReg) (a : GReg) (esz : BitVec 2) (off : BitVec 12)
  /-- Loads 64 bytes de-interleaved into four Q registers (R218). -/
  | lds4 (c : CoreId) (d : QReg) (a : GReg) (esz : BitVec 2) (off : BitVec 12)
  /-- Stores two Q registers interleaved (R218). -/
  | sts2 (c : CoreId) (d : QReg) (a : GReg) (esz : BitVec 2) (off : BitVec 12)
  /-- Stores three Q registers interleaved (R218). -/
  | sts3 (c : CoreId) (d : QReg) (a : GReg) (esz : BitVec 2) (off : BitVec 12)
  /-- Stores four Q registers interleaved (R218). -/
  | sts4 (c : CoreId) (d : QReg) (a : GReg) (esz : BitVec 2) (off : BitVec 12)
  /-- Writes one part of a descriptor or a length register from general registers, stalling if a closed group names it (R64). -/
  | vsd (c : CoreId) (gs : GReg) (gt : GReg) (sd : BitVec 6) (w : BitVec 3)
  /-- Loads n consecutive descriptors from memory after checking the whole range (R65). -/
  | vldd (c : CoreId) (gs : GReg) (sd : BitVec 6) (n1 : BitVec 6)
  /-- A VSD or VLDD stalled on a closed group is performed once that group has completed (R35). -/
  | descWriteRelease (c : CoreId)
  /-- Drains stores, checks a vector command, appends it to the context queue and returns its issue number (R66). -/
  | vissue (c : CoreId) (gd : GReg) (gs : GReg) (gt : GReg)
  /-- A VISSUE stalled on a full command queue proceeds once an entry is free (R67). -/
  | vissueQueueRoom (c : CoreId)
  /-- Allocates the lowest free vector context with reset values (R114). -/
  | vctxAlloc (c : CoreId) (gd : GReg)
  /-- Frees a context, discarding queued commands and releasing its accumulators (R116). -/
  | vctxFree (c : CoreId) (gd : GReg) (gs : GReg)
  /-- Binds or unbinds the issuing core to a context (R112). -/
  | vbind (c : CoreId) (gd : GReg) (gs : GReg)
  /-- Stalls the core until the named groups of its context have completed (R104). -/
  | vfence (c : CoreId) (gs : GReg)
  /-- A stalled VFENCE completes once the groups it waits for have completed (R104). -/
  | vfenceRelease (c : CoreId)
  /-- Grants and releases accumulators for the bound context, clearing those that change owner (R115). -/
  | veaown (c : CoreId) (gd : GReg) (gs : GReg)
  /-- Saves a suspended context to a save image (R118). -/
  | vcsave (c : CoreId) (gd : GReg) (gs : GReg) (gt : GReg)
  /-- Restores a save image into a newly allocated context (R119). -/
  | vcrst (c : CoreId) (gd : GReg) (gs : GReg)
  /-- Suspends a context, stopping new surveys and holding its queued commands (R172). -/
  | vsusp (c : CoreId) (gd : GReg) (gs : GReg)
  /-- Resumes a halted or suspended context, optionally discarding its retained group (R164). -/
  | vresume (c : CoreId) (gd : GReg) (gs : GReg) (gt : GReg)
  /-- Once nothing of a suspended context runs, it sets SUSP and HALT and writes one SUSPENDED record (R172). -/
  | suspendEffect (x : CtxId)
  /-- A group that needs more than eight Caravan slots reaches its queue head and ends with CHAIN_FULL (R93). -/
  | chainFullReport (x : CtxId)
  /-- The engine surveys a closed group: samples, checks, translates, forms the ordering and obtains the ELG verdict (R152). -/
  | groupSurvey (x : CtxId)
  /-- A survey waiting on the previous group continues with index reads and steps 4 to 6 once that group completes with OK (R91). -/
  | surveyResume (x : CtxId)
  /-- A survey waiting in step 5 for in-flight estimates to fall takes its verdict once enough groups have ended (R436). -/
  | elgInflightWaitEnd (x : CtxId)
  /-- A group waiting in step 6 claims all its survey-table entries once enough are free (R155). -/
  | surveyTableClaim (x : CtxId)
  /-- A surveyed group receives its Caravan slots in survey order and starts streaming (R94). -/
  | caravanSlotClaim (x : CtxId)
  /-- A group's writes are visible, remote writes acknowledged and caches invalidated, and it ends with OK or FPTRAP (R102). -/
  | groupComplete (x : CtxId)
  /-- A write to VC_CRTAIL that frees a full ring writes the held record and clears CRFULL (R108). -/
  | vcCrtailWrite (m : Master) (x : CtxId) (v : Word)
  /-- A write to VC_CRBASE_LO resets the ring head, tail and phase to the first lap (R106). -/
  | vcCrbaseLoWrite (m : Master) (x : CtxId) (v : Word)
  /-- An uncorrectable error in a word a streaming group reads stops the group at the next POLL point with MCHK (R169). -/
  | groupMchk (x : CtxId)
  /-- A word starting 64 VCLK or more after the last POLL point takes pending requests as a forced POLL (R183). -/
  | forcedPoll (x : CtxId)
  /-- An uncorrectable control-store error stops the engine, ends streaming groups with MCHK and holds surveying groups (R186). -/
  | vmsCserr (uaddr : BitVec 13)
  /-- A corrected patch-RAM word is written back in the next VCLK without a patch-RAM fetch (R185). -/
  | patchRamWriteback (a : BitVec 10)
  /-- Setting VMS_LOCK.LOCK locks patch RAM and the redirect table until reset (R190). -/
  | vmsLockSet (m : Master)
  /-- Vector command that does nothing (R77). -/
  | vnop (x : CtxId)
  /-- Vector element-wise A + B (R77). -/
  | vadd (x : CtxId)
  /-- Vector element-wise A - B (R77). -/
  | vsub (x : CtxId)
  /-- Vector element-wise A x B (R77). -/
  | vmul (x : CtxId)
  /-- Vector A x B + C with one rounding (R77). -/
  | vfma (x : CtxId)
  /-- Vector A x B - C with one rounding (R77). -/
  | vfms (x : CtxId)
  /-- Vector -(A x B) + C with one rounding (R77). -/
  | vfnma (x : CtxId)
  /-- Vector -(A x B) - C with one rounding (R77). -/
  | vfnms (x : CtxId)
  /-- Vector minimum of A and B (R77). -/
  | vmin (x : CtxId)
  /-- Vector maximum of A and B (R77). -/
  | vmax (x : CtxId)
  /-- Vector absolute value of A (R77). -/
  | vabs (x : CtxId)
  /-- Vector negation of A (R77). -/
  | vneg (x : CtxId)
  /-- Vector absolute difference of A and B (R77). -/
  | vabsd (x : CtxId)
  /-- Vector copy of A (R77). -/
  | vcpy (x : CtxId)
  /-- Vector magnitude of A with the sign of B (R77). -/
  | vcpsgn (x : CtxId)
  /-- Vector min(max(A, B), C) (R77). -/
  | vclamp (x : CtxId)
  /-- Vector A AND B (R77). -/
  | vand (x : CtxId)
  /-- Vector A OR B (R77). -/
  | vor (x : CtxId)
  /-- Vector A XOR B (R77). -/
  | vxor (x : CtxId)
  /-- Vector A AND NOT B (R77). -/
  | vandn (x : CtxId)
  /-- Vector NOT A (R77). -/
  | vnot (x : CtxId)
  /-- Vector shift left by c (R76). -/
  | vshl (x : CtxId)
  /-- Vector logical shift right by c (R76). -/
  | vshr (x : CtxId)
  /-- Vector arithmetic shift right by c (R76). -/
  | vsra (x : CtxId)
  /-- Vector rotate left by c (R76). -/
  | vrol (x : CtxId)
  /-- Vector rotate right by c (R76). -/
  | vror (x : CtxId)
  /-- Vector leading-zero count of A (R77). -/
  | vclz (x : CtxId)
  /-- Vector one-bit count of A (R77). -/
  | vpopc (x : CtxId)
  /-- Vector rounded average of A and B (R77). -/
  | vavg (x : CtxId)
  /-- Vector upper half of the double-width product (R77). -/
  | vmulh (x : CtxId)
  /-- Vector byte reversal of A (R77). -/
  | vbswap (x : CtxId)
  /-- Vector bit reversal of A (R77). -/
  | vbrev (x : CtxId)
  /-- Vector mask of A = B (R77). -/
  | vcmpeq (x : CtxId)
  /-- Vector mask of A != B (R77). -/
  | vcmpne (x : CtxId)
  /-- Vector mask of A < B (R77). -/
  | vcmplt (x : CtxId)
  /-- Vector mask of A <= B (R77). -/
  | vcmple (x : CtxId)
  /-- Vector mask of A > B (R77). -/
  | vcmpgt (x : CtxId)
  /-- Vector mask of A >= B (R77). -/
  | vcmpge (x : CtxId)
  /-- Vector mask where A or B is NaN (R77). -/
  | vcmpun (x : CtxId)
  /-- Vector mask where neither A nor B is NaN (R77). -/
  | vcmpor (x : CtxId)
  /-- Vector select M ? A : B (R77). -/
  | vsel (x : CtxId)
  /-- Vector compress of A at mask ones, reporting the count (R85). -/
  | vcomp (x : CtxId)
  /-- Vector expand of A to mask-one positions (R85). -/
  | vexpd (x : CtxId)
  /-- Vector count of ones of a mask (R77). -/
  | vmcnt (x : CtxId)
  /-- Vector index of the first one of a mask (R77). -/
  | vmfirst (x : CtxId)
  /-- Vector D = i (R77). -/
  | viota (x : CtxId)
  /-- Vector class bits of A (R77). -/
  | vclass (x : CtxId)
  /-- Vector zero-crossing mask (R77). -/
  | vzcross (x : CtxId)
  /-- Vector mask set before the first one (R77). -/
  | vmsbf (x : CtxId)
  /-- Vector mask set up to and including the first one (R77). -/
  | vmsif (x : CtxId)
  /-- Vector conversion of A to the type of D (R133). -/
  | vcvt (x : CtxId)
  /-- Vector scaled conversion of A by 2^s (R133). -/
  | vcvtx (x : CtxId)
  /-- Vector rounding of A to an integral value (R133). -/
  | vrint (x : CtxId)
  /-- Vector A x 2^B with one rounding (R77). -/
  | vscale (x : CtxId)
  /-- Vector unbiased exponent of A (R77). -/
  | vlogb (x : CtxId)
  /-- Vector widening multiply (R77). -/
  | vmulw (x : CtxId)
  /-- Vector widening multiply-accumulate (R77). -/
  | vmacw (x : CtxId)
  /-- Vector widening signed-by-unsigned multiply (R77). -/
  | vmulwsu (x : CtxId)
  /-- Vector widening square (R77). -/
  | vsqrw (x : CtxId)
  /-- Vector dot product over groups of G elements into wider lanes (R82). -/
  | vdotw (x : CtxId)
  /-- Vector group dot product added to C (R82). -/
  | vdotwa (x : CtxId)
  /-- Vector group dot product, A signed and B unsigned (R82). -/
  | vdotwsu (x : CtxId)
  /-- Vector sum of A over each group (R82). -/
  | vsumw (x : CtxId)
  /-- Exact accumulation of the sum of A x B into EA (R136). -/
  | vexdot (x : CtxId)
  /-- Exact subtraction of the sum of A x B from EA (R136). -/
  | vexdotn (x : CtxId)
  /-- Exact accumulation of the sum of A into EA (R136). -/
  | vexsum (x : CtxId)
  /-- Exact accumulation of the sum of squares of A (R136). -/
  | vexssq (x : CtxId)
  /-- Exact complex dot product into an accumulator pair (R136). -/
  | vexcdot (x : CtxId)
  /-- Clears an accumulator's value and state (R137). -/
  | veaclr (x : CtxId)
  /-- Reads an accumulator out rounded once into D[0], optionally clearing it (R141). -/
  | veard (x : CtxId)
  /-- Sets an accumulator to the exact value of A[0] (R137). -/
  | veawr (x : CtxId)
  /-- Adds another accumulator exactly into EA (R137). -/
  | veaadd (x : CtxId)
  /-- Exact accumulation of the sum of magnitudes of A (R136). -/
  | vexsuma (x : CtxId)
  /-- Exact accumulation of the sum of squared differences (R136). -/
  | vexdiff2 (x : CtxId)
  /-- Vector prefix sum, each element rounded once from the exact sum (R86). -/
  | vscanadd (x : CtxId)
  /-- Vector running minimum (R77). -/
  | vscanmin (x : CtxId)
  /-- Vector running maximum (R77). -/
  | vscanmax (x : CtxId)
  /-- Vector running XOR (R77). -/
  | vscanxor (x : CtxId)
  /-- Vector reduction to the minimum (R77). -/
  | vredmin (x : CtxId)
  /-- Vector reduction to the maximum (R77). -/
  | vredmax (x : CtxId)
  /-- Vector reduction by OR (R77). -/
  | vredor (x : CtxId)
  /-- Vector reduction by AND (R77). -/
  | vredand (x : CtxId)
  /-- Vector index of the first minimum (R77). -/
  | vargmin (x : CtxId)
  /-- Vector index of the first maximum (R77). -/
  | vargmax (x : CtxId)
  /-- Vector reduction by XOR (R77). -/
  | vredxor (x : CtxId)
  /-- Vector wrapping integer sum (R77). -/
  | vredsum (x : CtxId)
  /-- Vector FIR filter over T taps (R81). -/
  | vfir (x : CtxId)
  /-- Vector decimating FIR filter (R81). -/
  | vfird (x : CtxId)
  /-- Vector complex multiply (R83). -/
  | vcmul (x : CtxId)
  /-- Vector complex multiply by the conjugate (R83). -/
  | vcmulc (x : CtxId)
  /-- Vector complex multiply-accumulate (R83). -/
  | vcmac (x : CtxId)
  /-- Vector squared complex magnitude (R83). -/
  | vcabs2 (x : CtxId)
  /-- Vector radix-4 decimation-in-frequency stage (R84). -/
  | vfft4 (x : CtxId)
  /-- Vector inverse radix-4 stage (R84). -/
  | vifft4 (x : CtxId)
  /-- Vector radix-2 stage (R84). -/
  | vfft2 (x : CtxId)
  /-- Vector complex conjugate (R77). -/
  | vconj (x : CtxId)
  /-- Vector linear interpolation (R77). -/
  | vlerp (x : CtxId)
  /-- Vector first difference (R77). -/
  | vdiff (x : CtxId)
  /-- Vector complex magnitude with one rounding (R147). -/
  | vcmag (x : CtxId)
  /-- Vector division (R147). -/
  | vdiv (x : CtxId)
  /-- Vector square root (R147). -/
  | vsqrt (x : CtxId)
  /-- Vector reciprocal square root (R147). -/
  | vrsqrt (x : CtxId)
  /-- Vector reciprocal (R147). -/
  | vrec (x : CtxId)
  /-- Vector integer remainder (R76). -/
  | vmod (x : CtxId)
  /-- Vector saturating addition (R77). -/
  | vadds (x : CtxId)
  /-- Vector saturating subtraction (R77). -/
  | vsubs (x : CtxId)
  /-- Vector saturating multiplication (R77). -/
  | vmuls (x : CtxId)
  /-- Vector saturating negation (R77). -/
  | vnegs (x : CtxId)
  /-- Vector saturating absolute value (R77). -/
  | vabss (x : CtxId)
  /-- Vector saturating shift left (R76). -/
  | vshls (x : CtxId)
  /-- Vector rounding arithmetic shift right (R76). -/
  | vrshr (x : CtxId)
  /-- Vector saturating multiply-accumulate (R77). -/
  | vmacs (x : CtxId)
  /-- A producer edge becomes a channel event that its consumer acts on or loses when busy (R335). -/
  | evrEvent (p : BitVec 8) (joins : List Nat)
  /-- A consumer selection write is refused and logged when another enabled consumer holds the channel (R334). -/
  | evrCselWrite (m : Master) (cons : BitVec 8) (v : Word)
  /-- A write to EVR_SWP pulses the selected software producers (R331). -/
  | evrSwp (m : Master) (v : Word)
  /-- The 20 ns pulse of an EVOUT consumer ends and the consumer is no longer busy (R332). -/
  | evoutPulseEnd (n : Fin 16)
  /-- A window of 1,024 MOTHCLK cycles ends and TB_MCAL.PERIOD is updated (R326). -/
  | mothclkCalWindow (period : Word)
  /-- Software replaces the TB rate correction when DISC is 0b00 (R327). -/
  | tbRateWrite (m : Master) (v : Word)
  /-- Software adds a signed offset to the pending TB slew when DISC is 0b00 (R327). -/
  | tbAdjWrite (m : Master) (v : Word)
  /-- A write to TB_STEP_HI steps TB forward, setting STEPPED and raising TB_STEPPED (R327). -/
  | tbStep (m : Master) (v : Word)
  /-- An armed wake compare fires once TB_NS reaches its value (R330). -/
  | wakeCompareFire (n : Fin 2)
  /-- A reload timer's count passes RELOAD, returns to zero and performs its wrap action (R340). -/
  | timerWrap (n : Fin 48)
  /-- A reload timer's count reaches MATCH and performs its match action (R340). -/
  | timerMatch (n : Fin 48)
  /-- Global command starts every selected timer and compare channel (R343). -/
  | tmuGcmdStart (m : Master)
  /-- Global command stops every selected channel (R343). -/
  | tmuGcmdStop (m : Master)
  /-- Global command resets and starts every selected channel (R343). -/
  | tmuGcmdResetStart (m : Master)
  /-- A machine compare channel fires when TB reaches its value, acting and re-arming by its period (R345). -/
  | mcFire (k : Fin 4)
  /-- An SI compare channel fires when TB reaches its value (R421). -/
  | scFire (k : Fin 4)
  /-- A capture input edge pulses its producer and replaces the capture set with a TB stamp (R346). -/
  | captureEdge (n : Fin 16) (rising : Bool)
  /-- A read of CAPn_NS_HI clears the NEW flag of the capture set (R347). -/
  | capNsHiRead (m : Master) (n : Fin 16)
  /-- Setting IDL_PnCTL.EN starts port bring-up from DETECT (R354). -/
  | idlPortEnable (m : Master) (p : Fin 6) (v : Word)
  /-- A port completes its current bring-up state and moves to the next (R354). -/
  | portStateAdvance (p : Fin 6)
  /-- A bring-up state exceeds its longest time and the port returns to DETECT (R354). -/
  | portStateTimeout (p : Fin 6)
  /-- A lane without block lock for 64 block times takes the port down (R355). -/
  | blockLockLoss (p : Fin 6)
  /-- No HELLO for 16 us takes the port down (R355). -/
  | helloSilence (p : Fin 6)
  /-- Writing RETRAIN takes the port down and restarts training (R355). -/
  | retrain (m : Master) (p : Fin 6)
  /-- Every 1 us a port in HELLO or UP sends a HELLO (R356). -/
  | helloSend (p : Fin 6)
  /-- A received HELLO is recorded in IDL_PnSTAT and IDL_PnNBRUID (R356). -/
  | hello (p : Fin 6) (h : Hello)
  /-- An acknowledgement frees acknowledged packets from the replay buffer (R351). -/
  | linkAck (p : Fin 6) (seq : BitVec 8)
  /-- A retry request resends a packet, taking the port down after 8 consecutive retries (R351). -/
  | linkRetry (p : Fin 6) (seq : BitVec 8)
  /-- A transit node routes a non-local packet by DST and TTL, or discards and NACKs it (R360). -/
  | packetForward (p : Fin 6) (pkt : Packet)
  /-- An inbound READ is checked against the export and performed through M5, answered by RDRESP (R371). -/
  | read (p : Fin 6) (pkt : Packet)
  /-- An inbound WRITE is checked against the export and performed through M5, answered by WRACK (R371). -/
  | write (p : Fin 6) (pkt : Packet)
  /-- An inbound ATOMIC is checked and performed through M5, answered by RDRESP (R371). -/
  | atomic (p : Fin 6) (pkt : Packet)
  /-- An inbound class-0 write is checked and performed at QOS 3 with no response (R371). -/
  | c0write (p : Fin 6) (pkt : Packet)
  /-- A read or atomic response ends its request with the response code (R369). -/
  | rdresp (p : Fin 6) (pkt : Packet)
  /-- A write acknowledgement ends its request with the response code (R369). -/
  | wrack (p : Fin 6) (pkt : Packet)
  /-- A NACK ends its request with LINK (R369). -/
  | nack (p : Fin 6) (pkt : Packet)
  /-- A routed management packet is delivered as a record to the management ring or discarded (R359). -/
  | mgmt (p : Fin 6) (pkt : Packet)
  /-- A directed management packet follows its hop list and is delivered or forwarded (R358). -/
  | mgmtdir (p : Fin 6) (pkt : Packet)
  /-- A packet of a reserved TYPE is discarded and counted (R353). -/
  | reservedPacket (p : Fin 6) (pkt : Packet)
  /-- A remote request unanswered within IDL_RTMO.US ends with LINK (R370). -/
  | remoteRequestTimeout (tag : BitVec 10)
  /-- Setting GO sends the management packet in IDL_MTXBUF (R358). -/
  | idlMtxgo (m : Master)
  /-- A write to IDL_NODEID sets the node ID and its VALID bit (R357). -/
  | idlNodeidWrite (m : Master) (v : Word)
  /-- 256 ns after a class-0 slot start the device launches the C0WRITE packet or drops it (R365). -/
  | c0Launch (k : Fin 32)
  /-- Every 2^SINT us a slave runs a two-way exchange and corrects TB from the offset (R372). -/
  | timeExchange (t1 : BitVec 80) (t2 : BitVec 80) (t3 : BitVec 80) (t4 : BitVec 80)
  /-- An UP port answers an exchange from its neighbour (R372). -/
  | timeExchangeReply (p : Fin 6)
  /-- Setting SCE_CTL.EN starts the engine at the first boundary at or after TB (R381). -/
  | sceEnable (m : Master)
  /-- A macrocycle boundary restarts the active bank, skips unperformed entries and decides a pending swap (R381). -/
  | sceBoundary
  /-- Writing REQ starts the CRC check of the shadow bank, or is refused with BUSY (R386). -/
  | sceSwapReq (m : Master)
  /-- The shadow-bank check finishes, swapping at once when the engine is disabled (R386). -/
  | sceCheckDone
  /-- SCE action NOP does nothing (R383). -/
  | nop
  /-- SCE action GATE sets a MAC's transmit gates with a guard band (R391). -/
  | sceGate
  /-- SCE action TXTRIG releases one frame of a triggered queue (R383). -/
  | txtrig
  /-- SCE action C0SLOT starts a class-0 slot with a descriptor (R365). -/
  | c0slot
  /-- SCE action EVENT pulses EVR producer 104 + e (R383). -/
  | sceEvent
  /-- SCE action WRITE writes a word through M10 without waiting for the response (R385). -/
  | sceWrite
  /-- A non-OKAY response to a WRITE action sets WRERR and logs the address (R385). -/
  | sceWrerr (pa : Word) (resp : BitVec 3)
  /-- SCE action MVBMF sends an MVB master frame (R396). -/
  | mvbmf
  /-- SCE action CANTX requests transmission of a CAN buffer (R398). -/
  | cantx
  /-- SCE action SGATE opens or closes stream-gate groups (R391). -/
  | sgate
  /-- An entry with a reserved ACT acts as NOP and is counted (R383). -/
  | sceBadact
  /-- A received frame is matched against stream filters and stored to a receive ring or dropped (R392). -/
  | ethFrameReceive (n : Fin 4) (frame : List Byte) (crcOk : Bool)
  /-- A queue starts a frame when its gate is open and the frame fits before CLOSE (R391). -/
  | ethFrameTransmit (n : Fin 4) (q : Fin 8)
  /-- An 802.1AS Sync corrects TB and updates lock state in the slave servo (R393). -/
  | asSync (offset : BitVec 64) (rate : Word)
  /-- Three Sync intervals without a Sync clear LOCKED (R393). -/
  | asSyncTimeout
  /-- A TTDP HELLO timeout on MAC0 or MAC1 raises TTDP and pulses producer 147 (R394). -/
  | ttdp (n : Fin 2)
  /-- A received master frame for a source port is answered with a slave frame (R395). -/
  | mvbMasterFrame (fcode : BitVec 4) (addr : MvbAddr)
  /-- A slave frame for a sink port is copied to its buffer with FRESH and SEQ updated (R396). -/
  | mvbSlaveFrame (data : List Byte) (disagree : Bool)
  /-- A master frame without a reply within TREPLY counts as unanswered (R397). -/
  | mvbReplyTimeout
  /-- A received CAN frame is stamped and written to its receive ring (R398); no bytes stand for a frame received with an error. -/
  | canFrameReceive (c : Fin 4) (frame : Option (List Byte))
  /-- The UART receive idle timeout expires and raises RX (R399). -/
  | uartIdleTimeout (u : Fin 4)
  /-- A UART transmit starts with DE asserted DELEAD bits before the start bit (R399). -/
  | uartTransmit (u : Fin 4)
  /-- Writing HOLD drives BYP_HOLD high and starts the bypass watchdog, or releases it (R400). -/
  | tncBypHold (m : Master) (v : Word)
  /-- A kick restarts the bypass watchdog (R400). -/
  | bypwdKick (m : Master)
  /-- A write to PERIOD restarts the bypass watchdog count with the new period (R400). -/
  | bypwdPeriodWrite (m : Master) (v : Word)
  /-- The bypass watchdog expires, driving BYP_HOLD low with cause 2 (R400). -/
  | bypWatchdogExpiry
  /-- The comparator finds a difference, halts the pair and triggers the safe state (R405). -/
  | lockstepMismatch
  /-- Writing TEST injects a comparator mismatch that sets TESTOK without triggering (R405). -/
  | siLsctlTest (m : Master)
  /-- The SI writes FORCE to set the safe-state latch (R410). -/
  | siSscForce (m : Master) (v : Word)
  /-- The SI writes KEY 0xA5 to release the latch, refused if a cause remains (R412). -/
  | siSscRelease (m : Master) (v : Word)
  /-- Setting EN starts the watchdog and freezes its period and window (R414). -/
  | siWdctlEn (m : Master) (v : Word)
  /-- A write to SI_WDKICK is a good kick or a bad kick that triggers WD (R415). -/
  | siWdkick (m : Master) (v : Word)
  /-- The watchdog count reaches PERIOD - WARN and raises WDWARN (R415). -/
  | wdwarn
  /-- The watchdog count reaches PERIOD and triggers WD (R415). -/
  | wdExpiry
  /-- A 1 us monitor window ends and each clock's count is compared, declaring faults (R416). -/
  | clkmonWindow (w : ClockWindow)
  /-- A write to SI_A2SDB raises SIC source A2S (R417). -/
  | siA2sdbWrite (m : Master) (v : Word)
  /-- A write to SI_S2ADB raises ICU source SI_S2A (R417). -/
  | siS2adbWrite (m : Master) (v : Word)
  /-- A SIC source pulse makes it pending for the SI cores (R418). -/
  | sicEvent (n : Nat)
  /-- A write placing a function on a pin is performed or refused and logged in PCU_CLASH (R474). -/
  | pcuFuncWrite (m : Master) (n : Nat) (v : Word)
  /-- The device enters DOZE when every core waits and no vector work runs (R424). -/
  | dozeEntry
  /-- A waking core or VSE trigger returns the device to RUN (R424). -/
  | dozeExit
  /-- GO with TARGET COCOON requests COCOON and the PMU checks its conditions (R425). -/
  | pmuSleepCocoon (m : Master) (core : AppCore)
  /-- GO with TARGET DORMANT requests DORMANT and the PMU checks its conditions (R425). -/
  | pmuSleepDormant (m : Master) (core : AppCore)
  /-- GO with TARGET 0b00 or 0b11 is refused with REFUSE 0x0 (R425). -/
  | pmuSleepInvalid (m : Master) (core : AppCore) (t : BitVec 2)
  /-- Cores not all in WAIT within 1 ms of the request make the PMU refuse it (R425). -/
  | sleepWaitTimeout
  /-- Once the conditions hold the PMU enters COCOON or DORMANT in its five steps (R426). -/
  | sleepEntry
  /-- A wake event cancels an entry or wakes the device from COCOON into RUN (R427). -/
  | wakeEvent (src : Option (Fin 8))
  /-- A wake from DORMANT starts the device from step 2 with DORMWAKE set (R428). -/
  | dormantWake (k : Fin 8)
  /-- At each refill instant the ELG adds RATE to the credit up to CAP and samples every channel (R433). -/
  | elgRefill (e : List Nat)
  /-- In DORMANT channel 4 is sampled every 1,024 MOTHCLK cycles (R431). -/
  | elgDormantSample (e : Nat)
  /-- Each 1 ms the average power is compared with PLIM, setting or clearing HOLDOFF (R438). -/
  | elgPlimWindow (e : List Nat)
  /-- Writing GO copies every energy counter and TB_NS into the snapshot registers (R432). -/
  | elgSnap (m : Master)
  /-- A write to ELG_CREDIT_LO sets the whole credit from the staging register and the written value (R437). -/
  | elgCreditWrite (m : Master) (v : Word)
  /-- PWRFAIL_N falls and the 200 ns filter time starts (R439). -/
  | pwrfailNFall
  /-- After the filter time the sequence starts: no admission, alerts, check-line write-back and store commit (R439). -/
  | pwrfailT0
  /-- On commit done, the PFE limit or TMAX the PMU signals the safe-state latch with cause PWRFAIL (R439). -/
  | pfSafeSignal
  /-- 100 ns after step 3 BYP_HOLD is driven low with cause 4 (R439). -/
  | pfBypassRelease
  /-- Vector groups are abandoned, clocks stop, pads go Hi-Z and PF is set (R439). -/
  | pfShutdown
  /-- PWRFAIL_N high for RESTART ms after step 5 restarts the device as from DORMANT (R441). -/
  | pfRestart
  /-- GO with OP COMMIT stages the payload and writes a store record to the other bank (R465). -/
  | bcuCommit (m : Master)
  /-- GO with OP ERASE erases the NVM range unless protected (R468). -/
  | bcuErase (m : Master)
  /-- GO with OP PROGRAM writes up to 64 KiB to the NVM unless protected (R468). -/
  | bcuProgram (m : Master)
  /-- GO with OP 0b11 is refused with ECODE LEN (R468). -/
  | bcuOpInvalid (m : Master)
  /-- A commit programs COMMIT, sets DONE, updates STSEL and raises BCU_STDONE (R465). -/
  | bcuStdone
  /-- The next slot of the other bank is erased and READY is set (R465). -/
  | bcuReady
  /-- An ERASE or PROGRAM operation ends, setting DONE or ERR (R468). -/
  | nvmOpDone
  /-- A page program or erase exceeds its timeout and the operation ends with NVMTMO (R465). -/
  | nvmtmo
  /-- A write to BCU_REL releases the selected cores at their entry point (R455). -/
  | bcuRel (m : Master) (v : Word)
  /-- A write to KSU_REVOKE burns KEYREV bits, effective from the next start (R443). -/
  | ksuRevoke (m : Master) (v : Word)
  /-- A character arrives on UARTu_RX and is taken into the receive path, restarting the idle timeout (R399). -/
  | uartReceive (u : Fin 4) (ch : BitVec 9) (bad : Bool)
  /-- DLAG bit times after the last stop bit, UARTu_DE is released and the transmit completes (R399). -/
  | uartTransmitDone (u : Fin 4)
  /-- A CAN FD controller sends a requested transmit buffer on the bus when it wins arbitration, and raises TX on completion (R398). -/
  | canFrameTransmit (c : Fin 4) (b : CanTx)
  /-- A transmit frame finishes on the wire, the descriptor's OWN is cleared with its STAMP, TX is raised and producer 132 pulses (R389). -/
  | ethFrameTransmitDone (n : Fin 4) (q : Fin 8)
  /-- The link of a MAC goes up or down, raising the LINK change source and, for the 802.1AS port, clearing LOCKED (R401). -/
  | ethLinkChange (n : Fin 4) (up : Bool)
  /-- Each enabled MAC in PDMASK sends its periodic 802.1AS Pdelay request in hardware (R390). -/
  | asPdelayRequest (n : Fin 4)
  /-- An 802.1CB recovery function's reset timer of RESET ms runs out and its history is reset (R390). -/
  | frerResetTimeout (r : BitVec 8)
  /-- A link receiver finds a bad HCRC or CRC, discards the packet, counts CRCERR and requests a retry (R351). -/
  | linkCrcError (p : Fin 6)
  /-- The 8 ns dead time after a stamp ends and the capture input, and its consumer 184 + n, may stamp again (R346). -/
  | captureDeadTimeEnd (n : Fin 16)
  /-- PWRFAIL_N rises, cancelling a filter time in progress or starting the RESTART count after step 5 (R441). -/
  | pwrfailNRise
  deriving DecidableEq, Repr

end Sys2Proof
end

