-- ==== Sys2Proof/Decode.lean ====
section
/-! DEFINITION. Commands by the bits of the operation table.

The table lists commands that act on the block from outside and gives no row any bits. -/
namespace Sys2Proof

/-- The command that `nbits` bits of value `w` spell: none, since no row of the table has an encoding. -/
def decodeTableWord (_nbits _w : Nat) : Option Instr := none

end Sys2Proof
end

