-- ==== Sys2Proof/Machine/Flags.lean ====
section
/-! DEFINITION. The floating-point and saturation flags (R129, FCSR.FLAGS and VSE_FPSn.FLAGS).

Bits 5 to 0 are SAT, NV, DZ, OF, UF and NX. -/
namespace Sys2Proof.Machine

/-- A set of flags, in the order of FCSR.FLAGS (R129). -/
abbrev FFlags := BitVec 6

/-- No flag. -/
def noFlag : FFlags := 0
/-- NX, inexact (R129). -/
def fNX : FFlags := 1
/-- UF, underflow (R129). -/
def fUF : FFlags := 2
/-- OF, overflow (R129). -/
def fOF : FFlags := 4
/-- DZ, divide by zero (R129). -/
def fDZ : FFlags := 8
/-- NV, invalid (R129). -/
def fNV : FFlags := 16
/-- SAT, saturation (R129). -/
def fSAT : FFlags := 32

/-- The flag, when the condition holds. -/
def flagIf (b : Bool) (f : FFlags) : FFlags := if b then f else 0

/-- A result with its flags. -/
abbrev Res := Nat × FFlags

/-- A result with more flags. -/
def Res.raise (r : Res) (f : FFlags) : Res := (r.1, r.2 ||| f)

/-- The OR of the flags of several results: flags are sticky (R129, R131). -/
def orFlags (l : List Res) : FFlags := l.foldl (fun f r => f ||| r.2) 0

/-- FCSR.FLAGS after an instruction raised `f`: sticky (R132). -/
def fcsrRaise (fcsr : Word) (f : FFlags) : Word := fcsr ||| BitVec.ofNat 32 f.toNat

/-- The raised flags whose FCSR.TE bit is set: TE holds NV to NX in bits 12 to 8 and has no bit for SAT (R148). -/
def fcsrTrapping (fcsr : Word) (f : FFlags) : Nat := (f.toNat % 32) &&& ((fcsr.toNat >>> 8) % 32)

end Sys2Proof.Machine
end

