-- ==== Sys2Proof/Config.lean ====
section
/-! DEFINITION. What the manual leaves open: free values.

Each is an opaque constant, so no proof can see what it is and a statement holds whatever it is.
A value that may differ from one occasion to the next takes a number that the state counts (`State.fresh`). -/
namespace Sys2Proof.Config

/-- The level input of ICU source `n` when it is sampled at a COMPLETE (R314): the manual gives the input but
not its level. -/
opaque levelInput : Nat → Nat → Bool

/-- The level input of SIC source `n` when it is sampled (R314, R418). -/
opaque sicLevelInput : Nat → Nat → Bool

/-- The level a return takes from a previous-level field that holds 0b10, a code that is never a level (R223). -/
opaque reservedLevel : Nat → Nat

/-- The contents of the boot ROM (R12). -/
opaque bootRom : Nat → Byte

/-- INFO.SIZE of a walk that ends with NOMAP without having searched any page size (R253, R264): the manual gives the field as
the size of the last search. -/
opaque noSearchSize : Nat → Nat

/-- What an entry writes to xFVAL for a cause whose FVAL the manual gives as none (R227, R234). -/
opaque noFval : Nat → Word

/-- The type that QCVT (equal width) and QCVTN (twice the width) read their source lanes as, by the TYPE code of the result and the
choice's number among the types of that width (R217): the manual names the result type alone. -/
opaque qcvtSource : Nat → Nat → Nat

/-- The lane that QCVTN's upper half holds, from Qa, Qb and the old Qd, the TYPE code and the lane number (R217): the manual says what
the converted lanes are, and not what fills the other half of Qd. -/
opaque qcvtnUpper : Nat → Nat → Nat → Nat → Nat → Nat

/-- The lane that QDUP copies when Qb[3:0] names none, from the register Qa, the index and the TYPE code (R217). -/
opaque qdupOutside : Nat → Nat → Nat → Nat

/-- Whether a vector instruction reads a source element whose mask element is 0, by the choice's number and the element (R40): the manual
allows both. -/
opaque readsMasked : Nat → Nat → Bool

/-- How far beyond the slowest stream of its group a stream has read when an uncorrectable error stops the group: at most 128 of its elements,
where the manual leaves the moment open (R51, R492). -/
opaque lookahead : Nat → Nat

/-- How many elements an instruction has written when an uncorrectable error or a remote failure stops its group (R166, R167): the manual
gives only that no element depends on the failing word. -/
opaque stopExtent : Nat → Nat

/-- Whether an element above a refused write, or a point of a stopped FFT stage, holds its new value (R167, R168). -/
opaque aheadWritten : Nat → Nat → Bool

/-- The flags that a group stopped by MCHK or REMOTE has raised, out of those its elements could raise (R131, R167). -/
opaque stopFlags : Nat → BitVec 6

/-- The value V and the state S of an accumulator after its group was stopped or abandoned (R167, R173): the manual calls them undefined. -/
opaque eauUndefined : Nat → BitVec 4320 × BitVec 3

/-- An element of a chained stream that its producer never formed, because its length was 0 (R34, R96). -/
opaque unproduced : Nat → Nat

/-- The PHASE that a restored context's ring goes on with (R106, R119): the save image does not hold it. -/
opaque restoredPhase : Nat → Bool

/-- A byte of a destination of an abandoned group (R173): the manual calls it undefined. -/
opaque abandonedByte : Nat → Nat → Byte

/-- Where a capture stamp falls, in steps of 62.5 ps from two steps below TB of the last XCLK before the edge (R346): the edge lies anywhere in the
step of TB that follows, at most 28.4 of these, and the stamp within two of them from the edge. -/
opaque captureStep : Nat → Fin 33

/-- The level that a pad senses when nothing in the device drives it (R475, R477, R483): an input of the board. -/
opaque padLevel : Nat → Nat → Bool

/-- The SHA-384 digest of bytes (R187, R447): the manual names the algorithm. -/
opaque sha384 : List Byte → BitVec 384

/-- Whether an ECDSA P-384 signature verifies: the public key, the digest, and the 96 bytes of r and s (R187, R447). -/
opaque ecdsaOk : BitVec 768 → BitVec 384 → List Byte → Bool

/-- Whether an AES-256-GCM tag verifies: key, initialisation vector, additional data, ciphertext, tag (R187, R447). -/
opaque gcmOk : BitVec 256 → List Byte → List Byte → List Byte → List Byte → Bool

/-- Byte `i` of the plaintext of an AES-256-GCM ciphertext: key, initialisation vector, ciphertext (R187, R447). -/
opaque gcmByte : BitVec 256 → List Byte → List Byte → Nat → Byte

/-- A microword as its CHK corrects it, none when its error is uncorrectable: the manual calls CHK a SEC-DED code and gives no matrix (R179,
R185, R188 step 7). -/
opaque microFix : BitVec 176 → Option (BitVec 176)

/-- A word of the ROM of the control store, by microaddress: the microcode is not part of the manual (R177). -/
opaque romWord : Nat → BitVec 176

/-- The result of ALU operation `op` of a control word on its two operands and its immediate: the manual gives the field, and no code of it
(R180). -/
opaque microAlu : BitVec 6 → Word → Word → Word → Word

/-- Whether a condition of a microword holds that turns on what a bank, a pipe, a slot or the survey does within a VCLK, by the choice's number and the
COND code (R182). -/
opaque microCond : Nat → Nat → Bool

/-- How many elements an issue of a data word moves (R181): at most its ECNT. -/
opaque microMoved : Nat → Nat

/-- How many VCLK in which an access waited for its bank have passed since ERG_VCONF or ERG_XWAIT was last counted (R60). -/
opaque bankWaits : Nat → Nat

/-- Whether reading the patch image from the NVM fails (R188 step 1): the manual gives the result code and no way in which a read fails. -/
opaque nvmReadFails : Nat → Bool

/-- Whether a write through port X to the Erg word at an address meets a port V write of the same cycle, by the choice's number (R280). -/
opaque collision : Nat → Nat → Bool

/-- Whether a transit node has forwarded the head of a packet when its CRC fails (R351). -/
opaque cutThrough : Nat → Bool

/-- Whether two events of one count of XCLK fall in the same cycle: two claims, a step of TB and a capture, a release of the latch and a trigger, a GO and a
wake event (R316, R349, R412, R442). -/
opaque sameCycle : Nat → Bool

/-- Whether the L2 still holds a line dirty that cores have stored to, by the choice's number and the line (R249): when it writes one back is left to
it. -/
opaque l2Dirty : Nat → Nat → Bool

/-- Whether the board keeps the LPDDR5 supplies up over DORMANT (R292). -/
opaque dramKept : Nat → Bool

/-- How many whole pages or erase units a program or an erase of the NVM had done when it was cut short (R466, R467). -/
opaque nvmUnits : Nat → Nat

/-- A byte of the NVM after a program or an erase of it was cut short (R466, R467). -/
opaque nvmTorn : Nat → Nat → Byte

/-- Whether a record that a commit has programmed reads back with a wrong CRC (R465). -/
opaque verifyFails : Nat → Bool

/-- Whether software has loaded a CAN transmit buffer by the time its transmission is requested: the manual gives the buffers no registers (R398). -/
opaque canLoaded : Nat → Bool

/-- The line, B or A, that the MVB controller selects for a frame that it receives (R395): the manual leaves it to IEC 61375-3-1. -/
opaque mvbLine : Nat → Bool

/-- How many bytes of a received frame reach a buffer that is too small for it (R389). -/
opaque rxPart : Nat → Nat

/-- Whether the acceptance filters of CAN controller `c` pass a frame: the manual gives no register for them (R398). -/
opaque canAccepts : Nat → List Byte → Bool

/-- Whether a half unit of a measured link delay or offset rounds up (R372): the manual gives the quotient and the unit, not the rounding. -/
opaque halfUp : Nat → Bool

/-- The rate correction that a servo writes (R372, R393): the manual gives no formula. -/
opaque servoRate : Nat → BitVec 32

/-- TAG of a management packet that this device sends (R358): the device fills it, and no rule gives its value. -/
opaque mgmtTag : Nat → BitVec 10

/-- The ingress port recorded for a management packet that a node sends to itself (R359). -/
opaque selfPort : Nat → BitVec 3

/-- Whether a write of PCU_PINn that is refused still writes the fields beside FUNC: R474 says both that it leaves every field unchanged
and that the other fields are written whatever the outcome of FUNC. -/
opaque refusedPinWrites : Bool

/-- Whether a transaction of M2 that no stream descriptor names goes in class 2 at T6, and not in class 1 (R368). -/
opaque m2Class : Nat → Bool

/-- Whether a master frame that the MVB controller receives in its administrator role shows that another administrator holds the mastership
(R395, R401). -/
opaque mvbMastership : Nat → Bool

/-- Whether the recovery functions of a stream show a latent error (R390, R401): the manual leaves the test to IEEE 802.1CB. -/
opaque frerLatent : Nat → Bool

/-- The MAC onto which a frame with an R-TAG is replicated, if any, and the queue that carries the copy (R390): no register names them. -/
opaque frerSecond : Nat → Option (BitVec 2 × BitVec 3)

/-- An 802.1AS message that the device forms, and the queue that carries it (R390): the manual leaves its bytes to IEEE 802.1AS. -/
opaque asFrame : Nat → List Byte × BitVec 3

/-- Whether software has requested the transmission of a CAN buffer by now (R398): the manual gives it no register. -/
opaque canReleased : Nat → Bool

/-- Whether a CAN controller that went bus-off has recovered by now (R398): the time is left to ISO 11898-1. -/
opaque canRecovered : Nat → Bool

/-- Whether software has started the transmit ring of a UART by now (R399): the manual gives it no register. -/
opaque uartStarted : Nat → Bool

/-- The time, in units of 2^-16 ns, from the stamp of a neighbour's exchange to the stamp of its answer (R372). -/
opaque replyTime : Nat → BitVec 32

/-- Whether a measured offset below its unit rounds up (R393). -/
opaque offsetUp : Nat → Bool

end Sys2Proof.Config
end

