-- ==== Sys2Proof/Machine/Bits.lean ====
section
/-! DEFINITION. Bit fields, sign extension and byte order (R4, R5). -/
namespace Sys2Proof.Machine

/-- The field `[hi:lo]` of a natural number (R5). -/
def nfld (x hi lo : Nat) : Nat := (x >>> lo) % 2 ^ (hi + 1 - lo)

/-- The field `[hi:lo]` of a word (R5). -/
def fld (w : Word) (hi lo : Nat) : Nat := nfld w.toNat hi lo

/-- Bit `b` of a word (R5). -/
def wbit (w : Word) (b : Nat) : Bool := w.getLsbD b

/-- The word whose bits `[hi:lo]` are ones. -/
def fmask (hi lo : Nat) : Word := BitVec.ofNat 32 ((2 ^ (hi + 1 - lo) - 1) <<< lo)

/-- `w` with field `[hi:lo]` replaced by `x`. -/
def putFld (w : Word) (hi lo x : Nat) : Word :=
  (w &&& ~~~ fmask hi lo) ||| (BitVec.ofNat 32 (x <<< lo) &&& fmask hi lo)

/-- `w` with bit `b` set to `v`. -/
def putBit (w : Word) (b : Nat) (v : Bool) : Word := putFld w b b (if v then 1 else 0)

/-- The word of a truth value: 1 or 0. -/
def boolWord (b : Bool) : Word := if b then 1 else 0

/-- The number of a truth value: 1 or 0. -/
def b2n (b : Bool) : Nat := if b then 1 else 0

/-- `x` read as an `n`-bit two's-complement number. -/
def sgn (n x : Nat) : Int := if x % 2 ^ n < 2 ^ (n - 1) then (x % 2 ^ n : Nat) else (x % 2 ^ n : Nat) - (2 ^ n : Nat)

/-- `x` modulo `2^n`, as a natural number. -/
def wrapTo (n : Nat) (x : Int) : Nat := (x % (2 ^ n : Nat)).toNat

/-- A word from an integer, modulo 2^32. -/
def wordOf (x : Int) : Word := BitVec.ofInt 32 x

/-- The `n` bytes of `x`, least significant first (R4). -/
def leBytes : Nat → Nat → List Byte
  | 0, _ => []
  | n + 1, x => BitVec.ofNat 8 x :: leBytes n (x / 256)

/-- The number that bytes spell, least significant first (R4). -/
def leNat : List Byte → Nat
  | [] => 0
  | b :: t => b.toNat + 256 * leNat t

/-- The word that bytes spell, least significant first (R4). -/
def leWord (l : List Byte) : Word := BitVec.ofNat 32 (leNat l)

/-- The `n` bytes of `x`, most significant first. -/
def beBytes (n x : Nat) : List Byte := (leBytes n x).reverse

/-- The number that bytes spell, most significant first. -/
def beNat (l : List Byte) : Nat := leNat l.reverse

/-- Word `k` of a byte string (R4). -/
def wordAt (l : List Byte) (k : Nat) : Word := leWord ((l.drop (4 * k)).take 4)

/-- The `n` bits of `x`, least significant first. -/
def bitList : Nat → Nat → List Bool
  | 0, _ => []
  | n + 1, x => (x % 2 == 1) :: bitList n (x / 2)

/-- The number that bits spell, least significant first. -/
def bitsNat : List Bool → Nat
  | [] => 0
  | b :: t => b2n b + 2 * bitsNat t

/-- How many of the low `n` bits of `x` are ones. -/
def popCount (n x : Nat) : Nat := (bitList n x).countP id

/-- The number of bits of `x`: one more than the place of its leading one, and 0 for 0. -/
def bitLen (x : Nat) : Nat := if x = 0 then 0 else Nat.log2 x + 1

/-- `x` rounded up to a multiple of `n`. -/
def alignUp (x n : Nat) : Nat := (x + n - 1) / n * n

/-- `x` but no more than `cap`: a counter that stops. -/
def capAt (cap x : Nat) : Nat := if cap < x then cap else x

/-- The indices below `n` at which bit of `x` is set, rising. -/
def onesOf (n x : Nat) : List Nat := (List.range n).filter fun i => x.testBit i

/-- One bit of the CRC-32C register, in the reflected form of 0x1EDC_6F41 (R351). -/
def crc32cBit (c : Nat) : Nat := if c % 2 = 1 then (c / 2) ^^^ 0x82F63B78 else c / 2

/-- One byte taken into the CRC-32C register. -/
def crc32cByte (c : Nat) (b : Byte) : Nat :=
  (List.range 8).foldl (fun x _ => crc32cBit x) (c ^^^ b.toNat)

/-- CRC-32C of bytes: initial value and final XOR all ones (R351). -/
def crc32c (l : List Byte) : Nat := (l.foldl crc32cByte 0xFFFFFFFF) ^^^ 0xFFFFFFFF

/-- Element `i` of a list, or `d`. -/
def getAt {α : Type} (d : α) (l : List α) (i : Nat) : α := l.getD i d

end Sys2Proof.Machine
end

