-- ==== Sys2Proof/Machine/RegTable.lean ====
section
/-! DEFINITION. The register tables of every control-space frame and of the SI register frame.

One record per register row group of the chapters' tables: its offset, how often it repeats, its value at
PRST_N release (R9) and which of its bits a write changes, by access code (R7).
Bits in no mask are RO, reserved (R8) or WO (WO bits read as zero and hold nothing).
Beside the records stand the physical addresses of the registers, named as the manual names them (R17). -/
namespace Sys2Proof.Machine

/-- What the tables say of one register, or of `cnt` equal registers `stride` bytes apart in one frame. -/
structure RegSpec where
  off : Nat
  stride : Nat
  cnt : Nat
  rst : Nat
  rw : Nat
  w1c : Nat
  w1s : Nat
  siw : Nat
  deriving DecidableEq, Repr

/-- VC_LN: LEN[20:0] (02_vector_streams). -/
def VC_LN (i : Nat) (k : Nat) : Nat := 0x20111800 + 0x10000 * i + 4 * k
/-- VC_SD_CW: TRANS[31], REMOTE[30], RCLS[29], HASH[28], IDX[21:16], IDXEN[15], FIELD[11:10], FCNT[9:8], TYPE[3:0] (02_vector_streams). -/
def VC_SD_CW (i : Nat) (k : Nat) : Nat := 0x20111010 + 0x10000 * i + 32 * k
/-- VC_SHINT: UNALIGNED[1], HASHMISS[0] (02_vector_streams). -/
def VC_SHINT (i : Nat) : Nat := 0x20111840 + 0x10000 * i
/-- ERG_HASH: REGION[23:0] (02_vector_streams). -/
def ERG_HASH : Nat := 0x20300040
/-- ERG_XQOS: SHARE[1:0] (02_vector_streams). -/
def ERG_XQOS : Nat := 0x20300044
/-- ERG_VCONF: COUNT[31:0] (02_vector_streams). -/
def ERG_VCONF : Nat := 0x20300048
/-- ERG_XWAIT: COUNT[31:0] (02_vector_streams). -/
def ERG_XWAIT : Nat := 0x2030004c
/-- VC_CTL: CEV[5], CIE[4], TRIG[3:2] (04_chain_groups). -/
def VC_CTL (i : Nat) : Nat := 0x20110000 + 0x10000 * i
/-- VC_STAT: ALLOC[31], OPEN[30], RUNNING[29], HALT[28], CRFULL[27], SUSP[26], CRERR[25], QCNT[22:16], ISSUE[15:0] (04_chain_groups). -/
def VC_STAT (i : Nat) : Nat := 0x20110004 + 0x10000 * i
/-- VC_XLAT: PART[11:8], ASID[7:0] (04_chain_groups). -/
def VC_XLAT (i : Nat) : Nat := 0x20110008 + 0x10000 * i
/-- VC_EAOWN: OWN[7:0] (04_chain_groups). -/
def VC_EAOWN (i : Nat) : Nat := 0x2011000c + 0x10000 * i
/-- VC_BINDS: CORE[3:0] (04_chain_groups). -/
def VC_BINDS (i : Nat) : Nat := 0x20110010 + 0x10000 * i
/-- VC_DONE: STATUS[23:16], ISSUE[15:0] (04_chain_groups). -/
def VC_DONE (i : Nat) : Nat := 0x20110014 + 0x10000 * i
/-- VC_CRBASE_LO: BASE[31:5] (04_chain_groups). -/
def VC_CRBASE_LO (i : Nat) : Nat := 0x20110020 + 0x10000 * i
/-- VC_CRBASE_HI: BASE[15:0] (04_chain_groups). -/
def VC_CRBASE_HI (i : Nat) : Nat := 0x20110024 + 0x10000 * i
/-- VC_CRSIZE: LOG2[3:0] (04_chain_groups). -/
def VC_CRSIZE (i : Nat) : Nat := 0x20110028 + 0x10000 * i
/-- VC_CRHEAD: HEAD[11:0] (04_chain_groups). -/
def VC_CRHEAD (i : Nat) : Nat := 0x2011002c + 0x10000 * i
/-- VC_CRTAIL: TAIL[11:0] (04_chain_groups). -/
def VC_CRTAIL (i : Nat) : Nat := 0x20110030 + 0x10000 * i
/-- VSE_FPS: DRM[25:24], TE[13:8], FLAGS[5:0] (05_exact_arithmetic). -/
def VSE_FPS (k : Nat) : Nat := 0x20100100 + 4 * k
/-- EAU_OWNER: OWNER[31:0] (05_exact_arithmetic). -/
def EAU_OWNER : Nat := 0x20100200
/-- EAU_ECC: UE[31], UEA[26:24], CECNT[15:0] (05_exact_arithmetic). -/
def EAU_ECC : Nat := 0x20100204
/-- VC_FINFO: VALID[31], CAUSE[27:24], STATUS[23:16], STAGE[15], PROBE[14:12], ISRC[11:9], STREAM[8:6], INSTR[5:3] (06_vector_faults). -/
def VC_FINFO (i : Nat) : Nat := 0x20110040 + 0x10000 * i
/-- VC_FELEM: ELEM[20:0] (06_vector_faults). -/
def VC_FELEM (i : Nat) : Nat := 0x20110044 + 0x10000 * i
/-- VC_FVA: VA[31:0] (06_vector_faults). -/
def VC_FVA (i : Nat) : Nat := 0x20110048 + 0x10000 * i
/-- VC_FIPA_LO: IPA[31:0] (06_vector_faults). -/
def VC_FIPA_LO (i : Nat) : Nat := 0x2011004c + 0x10000 * i
/-- VC_FIPA_HI: IPA[7:0] (06_vector_faults). -/
def VC_FIPA_HI (i : Nat) : Nat := 0x20110050 + 0x10000 * i
/-- VC_FPA_LO: PA[31:0] (06_vector_faults). -/
def VC_FPA_LO (i : Nat) : Nat := 0x20110054 + 0x10000 * i
/-- VC_FPA_HI: PA[15:0] (06_vector_faults). -/
def VC_FPA_HI (i : Nat) : Nat := 0x20110058 + 0x10000 * i
/-- VC_SLOWCNT: COUNT[31:0] (06_vector_faults). -/
def VC_SLOWCNT (i : Nat) : Nat := 0x2011005c + 0x10000 * i
/-- VC_WCNT: COUNT[20:0] (06_vector_faults). -/
def VC_WCNT (i : Nat) (k : Nat) : Nat := 0x20110080 + 0x10000 * i + 4 * k
/-- VMS_ID: DEVREV[31:16], ROMREV[15:0] (07_microsequencer). -/
def VMS_ID : Nat := 0x20200000
/-- VMS_PSTAT: LOCK[31], ENABLED[30], NWORDS[26:16], NRDIR[14:8], RESULT[7:0] (07_microsequencer). -/
def VMS_PSTAT : Nat := 0x20200004
/-- VMS_PVER: SVN[31:24], CTR[23:16], BUILD[15:0] (07_microsequencer). -/
def VMS_PVER : Nat := 0x20200008
/-- VMS_ERR: UE[31], STOP[30], UADDR[12:0] (07_microsequencer). -/
def VMS_ERR : Nat := 0x2020000c
/-- VMS_CECNT: COUNT[15:0] (07_microsequencer). -/
def VMS_CECNT : Nat := 0x20200010
/-- VMS_POLLSTAT: FORCED[31:16], MAX[6:0] (07_microsequencer). -/
def VMS_POLLSTAT : Nat := 0x20200014
/-- VMS_LOCK: LOCK[0] (07_microsequencer). -/
def VMS_LOCK : Nat := 0x20200018
/-- VMS_UPC: VALID[31], WAITING[13], UPC[12:0] (07_microsequencer). -/
def VMS_UPC (k : Nat) : Nat := 0x20200020 + 4 * k
/-- VMS_REDIR: VALID[31], TARGET[28:16], SOURCE[12:0] (07_microsequencer). -/
def VMS_REDIR (k : Nat) : Nat := 0x20200400 + 4 * k
/-- MMU_CTL: ADHW[0] (10_translation). -/
def MMU_CTL : Nat := 0x20500000
/-- MMU_SURV: INUSE[10:0] (10_translation). -/
def MMU_SURV : Nat := 0x20500004
/-- MMU_WERR_INFO: VALID[31], MORE[30], STAGE[8], AGENT[3:0] (10_translation). -/
def MMU_WERR_INFO : Nat := 0x20500010
/-- MMU_WERR_PA_LO: PA[31:0] (10_translation). -/
def MMU_WERR_PA_LO : Nat := 0x20500014
/-- MMU_WERR_PA_HI: PA[15:0] (10_translation). -/
def MMU_WERR_PA_HI : Nat := 0x20500018
/-- MMU_S2BASE_LO: BASE[31:12] (10_translation). -/
def MMU_S2BASE_LO : Nat := 0x20500020
/-- MMU_S2BASE_HI: BASE[15:0] (10_translation). -/
def MMU_S2BASE_HI : Nat := 0x20500024
/-- MMU_S2CFG: LOG2[4:0] (10_translation). -/
def MMU_S2CFG : Nat := 0x20500028
/-- MMU_PT0: S1BASE[31:12] (10_translation). -/
def MMU_PT0 (k : Nat) : Nat := 0x20500100 + 16 * k
/-- MMU_PT1: S1EN[31], S2EN[30], S1SIZES[26:24], S1LOG2[20:16], S1BASE[7:0] (10_translation). -/
def MMU_PT1 (k : Nat) : Nat := 0x20500104 + 16 * k
/-- MMU_PT2: S2SIZES[2:0] (10_translation). -/
def MMU_PT2 (k : Nat) : Nat := 0x20500108 + 16 * k
/-- ERG_BGSTAT: FAIL[23:16], OOS[15:8], READY[7:0] (11_memory_integrity). -/
def ERG_BGSTAT : Nat := 0x20300000
/-- ERG_BGCTL: OOS[7:0] (11_memory_integrity). -/
def ERG_BGCTL : Nat := 0x20300004
/-- ERG_RET: KEEP[7:0] (11_memory_integrity). -/
def ERG_RET : Nat := 0x20300008
/-- ERG_INIT: FILL[7:0] (11_memory_integrity). -/
def ERG_INIT : Nat := 0x2030000c
/-- ERG_COLLCNT: COUNT[15:0] (11_memory_integrity). -/
def ERG_COLLCNT : Nat := 0x20300010
/-- MIU_CTL: PACE[11:8], CEWB[1], SCRUBEN[0] (11_memory_integrity). -/
def MIU_CTL : Nat := 0x20310000
/-- MIU_SCRUB_LAP: VALID[31], LAP[15:0] (11_memory_integrity). -/
def MIU_SCRUB_LAP : Nat := 0x20310004
/-- MIU_SCRUB_LIMIT: LIMIT[15:0] (11_memory_integrity). -/
def MIU_SCRUB_LIMIT : Nat := 0x20310008
/-- MIU_SCRUB_POS: ELAPSED[31:16], ROW[15:0] (11_memory_integrity). -/
def MIU_SCRUB_POS : Nat := 0x2031000c
/-- MIU_STAT: UE[31], MORE[30], LAPSLOW[29], INJDONE[28] (11_memory_integrity). -/
def MIU_STAT : Nat := 0x20310010
/-- MIU_CECNT: THRESH[31:16], COUNT[15:0] (11_memory_integrity). -/
def MIU_CECNT : Nat := 0x20310020
/-- MIU_STEST: DONE[31], SIFAIL[24], DMCFAIL[17:16], ERGFAIL[15:8] (11_memory_integrity). -/
def MIU_STEST : Nat := 0x20310090
/-- MIU_ELOG_INFO: BANK[22:16], BYTES[15:8], SRC[1:0] (11_memory_integrity). -/
def MIU_ELOG_INFO : Nat := 0x20310014
/-- MIU_ELOG_PA_LO: PA[31:0] (11_memory_integrity). -/
def MIU_ELOG_PA_LO : Nat := 0x20310018
/-- MIU_ELOG_PA_HI: PA[15:0] (11_memory_integrity). -/
def MIU_ELOG_PA_HI : Nat := 0x2031001c
/-- MIU_GCECNT: UE[31:16], COUNT[15:0] (11_memory_integrity). -/
def MIU_GCECNT (k : Nat) : Nat := 0x20310040 + 4 * k
/-- MIU_SICNT: UE[31:16], COUNT[15:0] (11_memory_integrity). -/
def MIU_SICNT : Nat := 0x20310060
/-- MIU_INJ: ARMED[0] (11_memory_integrity). -/
def MIU_INJ : Nat := 0x20310070
/-- MIU_INJ_PA_LO: PA[31:3] (11_memory_integrity). -/
def MIU_INJ_PA_LO : Nat := 0x20310074
/-- MIU_INJ_PA_HI:  (11_memory_integrity). -/
def MIU_INJ_PA_HI : Nat := 0x20310078
/-- MIU_INJ_DMASK_LO: D[31:0] (11_memory_integrity). -/
def MIU_INJ_DMASK_LO : Nat := 0x2031007c
/-- MIU_INJ_DMASK_HI: D[31:0] (11_memory_integrity). -/
def MIU_INJ_DMASK_HI : Nat := 0x20310080
/-- MIU_INJ_CMASK_LO: C[31:0] (11_memory_integrity). -/
def MIU_INJ_CMASK_LO : Nat := 0x20310084
/-- MIU_INJ_CMASK_HI: C[7:0] (11_memory_integrity). -/
def MIU_INJ_CMASK_HI : Nat := 0x20310088
/-- DMC_CTL: PATROL[12], PPACE[11:8], EN[0] (11_memory_integrity). -/
def DMC_CTL : Nat := 0x20400000
/-- DMC_CAP: SIZE[9:0] (11_memory_integrity). -/
def DMC_CAP : Nat := 0x20400004
/-- DMC_STAT: READY[31], TRFAIL[17:16], CFGERR[9], STFAIL[8] (11_memory_integrity). -/
def DMC_STAT : Nat := 0x20400008
/-- DMC_CH_CFG: DENS[7:4], SPEED[1:0] (11_memory_integrity). -/
def DMC_CH_CFG (i : Nat) : Nat := 0x20410000 + 0x10000 * i
/-- DMC_CH_ELOG_INFO: UE[31], MORE[30], SRC[1:0] (11_memory_integrity). -/
def DMC_CH_ELOG_INFO (i : Nat) : Nat := 0x20410010 + 0x10000 * i
/-- DMC_CH_ELOG_PA_LO: PA[31:3] (11_memory_integrity). -/
def DMC_CH_ELOG_PA_LO (i : Nat) : Nat := 0x20410014 + 0x10000 * i
/-- DMC_CH_ELOG_PA_HI: PA[15:0] (11_memory_integrity). -/
def DMC_CH_ELOG_PA_HI (i : Nat) : Nat := 0x20410018 + 0x10000 * i
/-- DMC_CH_CECNT: THRESH[31:16], COUNT[15:0] (11_memory_integrity). -/
def DMC_CH_CECNT (i : Nat) : Nat := 0x2041001c + 0x10000 * i
/-- XBM_MQOS: QOS[1:0] (12_bus_and_interrupts). -/
def XBM_MQOS (k : Nat) : Nat := 0x20600000 + 4 * k
/-- XBM_AGE: CYCLES[11:0] (12_bus_and_interrupts). -/
def XBM_AGE : Nat := 0x20600040
/-- XBM_TMO: CYCLES[19:0] (12_bus_and_interrupts). -/
def XBM_TMO : Nat := 0x20600044
/-- XBM_MEN: M11[11], M10[10], M9, M8[9:8], M7–M5[7:5], M4–M0[4:0] (12_bus_and_interrupts). -/
def XBM_MEN : Nat := 0x20600048
/-- XBM_ELOG_INFO: VALID[31], MORE[30], TMO[29], TGT[19:16], MST[15:12], ID[9:4], WR[3], RESP[2:0] (12_bus_and_interrupts). -/
def XBM_ELOG_INFO : Nat := 0x20600050
/-- XBM_ELOG_PA_LO: PA[31:0] (12_bus_and_interrupts). -/
def XBM_ELOG_PA_LO : Nat := 0x20600054
/-- XBM_ELOG_PA_HI: PA[15:0] (12_bus_and_interrupts). -/
def XBM_ELOG_PA_HI : Nat := 0x20600058
/-- ICU_SRC: EN[31], CLASS[30], LVL[29], TARGET[11:8], PEND[7], ACTIVE[6], OWNER[5:4] (12_bus_and_interrupts). -/
def ICU_SRC (k : Nat) : Nat := 0x20700000 + 4 * k
/-- ICU_PEND: PEND[31:0] (12_bus_and_interrupts). -/
def ICU_PEND (k : Nat) : Nat := 0x20700c00 + 4 * k
/-- ICU_LOST: LOST[31:0] (12_bus_and_interrupts). -/
def ICU_LOST (k : Nat) : Nat := 0x20700d00 + 4 * k
/-- ICU_SWI: SWI[3:0] (12_bus_and_interrupts). -/
def ICU_SWI : Nat := 0x20700e00
/-- ICU_CTL: MASKF[1], MASKN[0] (12_bus_and_interrupts). -/
def ICU_CTL (i : Nat) : Nat := 0x20710000 + 0x10000 * i
/-- ICU_CLAIM_N: NUM[9:0] (12_bus_and_interrupts). -/
def ICU_CLAIM_N (i : Nat) : Nat := 0x20710004 + 0x10000 * i
/-- ICU_CLAIM_F: NUM[9:0] (12_bus_and_interrupts). -/
def ICU_CLAIM_F (i : Nat) : Nat := 0x20710008 + 0x10000 * i
/-- ICU_COMPLETE: NUM[9:0] (12_bus_and_interrupts). -/
def ICU_COMPLETE (i : Nat) : Nat := 0x2071000c + 0x10000 * i
/-- ICU_PEEK: F[25:16], N[9:0] (12_bus_and_interrupts). -/
def ICU_PEEK (i : Nat) : Nat := 0x20710010 + 0x10000 * i
/-- ICU_CSTAT: BADCOMP[0] (12_bus_and_interrupts). -/
def ICU_CSTAT (i : Nat) : Nat := 0x20710014 + 0x10000 * i
/-- EVR_CSEL: EN[31], MODE[30], CHAN[7:0] (13_events_and_time). -/
def EVR_CSEL (k : Nat) : Nat := 0x20800000 + 4 * k
/-- EVR_SEEN: SEEN[31:0] (13_events_and_time). -/
def EVR_SEEN (k : Nat) : Nat := 0x20800800 + 4 * k
/-- EVR_MERGE: MERGE[31:0] (13_events_and_time). -/
def EVR_MERGE (k : Nat) : Nat := 0x20800820 + 4 * k
/-- EVR_OVR: OVR[31:0] (13_events_and_time). -/
def EVR_OVR (k : Nat) : Nat := 0x20800840 + 4 * k
/-- EVR_SWP: PULSE[7:0] (13_events_and_time). -/
def EVR_SWP : Nat := 0x20800880
/-- EVR_CLASH: VALID[31], MORE[30], CHAN[15:8], CONS[7:0] (13_events_and_time). -/
def EVR_CLASH : Nat := 0x20800884
/-- EVR_PMASK: PROD[31:0] (13_events_and_time). -/
def EVR_PMASK (k : Nat) : Nat := 0x20801000 + 4 * k
/-- TB_FRAC: NS[31:16], FRAC[15:0] (13_events_and_time). -/
def TB_FRAC : Nat := 0x20900000
/-- TB_NS_LO: NS[31:0] (13_events_and_time). -/
def TB_NS_LO : Nat := 0x20900004
/-- TB_NS_HI: NS[31:0] (13_events_and_time). -/
def TB_NS_HI : Nat := 0x20900008
/-- TB_CTL: SLEW[11:8], DISC[1:0] (13_events_and_time). -/
def TB_CTL : Nat := 0x20900010
/-- TB_RATE: RATE[31:0] (13_events_and_time). -/
def TB_RATE : Nat := 0x20900014
/-- TB_ADJ: OFFSET[31:0] (13_events_and_time). -/
def TB_ADJ : Nat := 0x20900018
/-- TB_ADJREM: PEND[31:0] (13_events_and_time). -/
def TB_ADJREM : Nat := 0x2090001c
/-- TB_STEP_LO: NS[31:0] (13_events_and_time). -/
def TB_STEP_LO : Nat := 0x20900020
/-- TB_STEP_HI: NS[31:0] (13_events_and_time). -/
def TB_STEP_HI : Nat := 0x20900024
/-- TB_STAT: LOCKED[31], CLK[30:29], MCALV[2], UNLOCK[1], STEPPED[0] (13_events_and_time). -/
def TB_STAT : Nat := 0x20900028
/-- TB_MCAL: PERIOD[31:0] (13_events_and_time). -/
def TB_MCAL : Nat := 0x2090002c
/-- TB_WK_CTL: ARM[31] (13_events_and_time). -/
def TB_WK_CTL (k : Nat) : Nat := 0x20900040 + 16 * k
/-- TB_WK_CMP_LO: NS[31:0] (13_events_and_time). -/
def TB_WK_CMP_LO (k : Nat) : Nat := 0x20900044 + 16 * k
/-- TB_WK_CMP_HI: NS[31:0] (13_events_and_time). -/
def TB_WK_CMP_HI (k : Nat) : Nat := 0x20900048 + 16 * k
/-- TM_CTL: RUN[31], SRC[30:28], DIV[26:22], LINK[21:16] (13_events_and_time). -/
def TM_CTL (i : Nat) (k : Nat) : Nat := 0x20910000 + 0x10000 * i + 64 * k
/-- TM_ACT: EVACT[23:16], WRAPACT[15:8], MATCHACT[7:0] (13_events_and_time). -/
def TM_ACT (i : Nat) (k : Nat) : Nat := 0x20910004 + 0x10000 * i + 64 * k
/-- TM_RELOAD: RELOAD[31:0] (13_events_and_time). -/
def TM_RELOAD (i : Nat) (k : Nat) : Nat := 0x20910008 + 0x10000 * i + 64 * k
/-- TM_MATCH: MATCH[31:0] (13_events_and_time). -/
def TM_MATCH (i : Nat) (k : Nat) : Nat := 0x2091000c + 0x10000 * i + 64 * k
/-- TM_CNT: CNT[31:0] (13_events_and_time). -/
def TM_CNT (i : Nat) (k : Nat) : Nat := 0x20910010 + 0x10000 * i + 64 * k
/-- TM_PRE: PRE[31:0] (13_events_and_time). -/
def TM_PRE (i : Nat) (k : Nat) : Nat := 0x20910014 + 0x10000 * i + 64 * k
/-- TM_STAT: EVIN[2], WRAP[1], MATCH[0] (13_events_and_time). -/
def TM_STAT (i : Nat) (k : Nat) : Nat := 0x20910018 + 0x10000 * i + 64 * k
/-- TMU_GMASK_LO: MASK[31:0] (13_events_and_time). -/
def TMU_GMASK_LO : Nat := 0x20910400
/-- TMU_GMASK_HI: MASK[23:20], MASK[19:0] (13_events_and_time). -/
def TMU_GMASK_HI : Nat := 0x20910404
/-- TMU_GCMD: OP[1:0] (13_events_and_time). -/
def TMU_GCMD : Nat := 0x20910408
/-- MC_CTL: ARM[31], LINK[21:16], ACT[7:0] (13_events_and_time). -/
def MC_CTL (k : Nat) : Nat := 0x20970000 + 32 * k
/-- MC_CMP_FRAC: FRAC[15:0] (13_events_and_time). -/
def MC_CMP_FRAC (k : Nat) : Nat := 0x20970004 + 32 * k
/-- MC_CMP_LO: NS[31:0] (13_events_and_time). -/
def MC_CMP_LO (k : Nat) : Nat := 0x20970008 + 32 * k
/-- MC_CMP_HI: NS[31:0] (13_events_and_time). -/
def MC_CMP_HI (k : Nat) : Nat := 0x2097000c + 32 * k
/-- MC_PER_FRAC: FRAC[15:0] (13_events_and_time). -/
def MC_PER_FRAC (k : Nat) : Nat := 0x20970010 + 32 * k
/-- MC_PER_LO: NS[31:0] (13_events_and_time). -/
def MC_PER_LO (k : Nat) : Nat := 0x20970014 + 32 * k
/-- MC_PER_HI: NS[31:0] (13_events_and_time). -/
def MC_PER_HI (k : Nat) : Nat := 0x20970018 + 32 * k
/-- SC_CTL: ARM[31], LINK[21:16], ACT[7:0] (13_events_and_time). -/
def SC_CTL (k : Nat) : Nat := 0x38000400 + 32 * k
/-- SC_CMP_FRAC: FRAC[15:0] (13_events_and_time). -/
def SC_CMP_FRAC (k : Nat) : Nat := 0x38000404 + 32 * k
/-- SC_CMP_LO: NS[31:0] (13_events_and_time). -/
def SC_CMP_LO (k : Nat) : Nat := 0x38000408 + 32 * k
/-- SC_CMP_HI: NS[31:0] (13_events_and_time). -/
def SC_CMP_HI (k : Nat) : Nat := 0x3800040c + 32 * k
/-- SC_PER_FRAC: FRAC[15:0] (13_events_and_time). -/
def SC_PER_FRAC (k : Nat) : Nat := 0x38000410 + 32 * k
/-- SC_PER_LO: NS[31:0] (13_events_and_time). -/
def SC_PER_LO (k : Nat) : Nat := 0x38000414 + 32 * k
/-- SC_PER_HI: NS[31:0] (13_events_and_time). -/
def SC_PER_HI (k : Nat) : Nat := 0x38000418 + 32 * k
/-- MC_STAT: PRIVWR[8], FIRED[3:0] (13_events_and_time). -/
def MC_STAT : Nat := 0x20970080
/-- CAP_CTL: EN[31], IRQ[8], EDGE[5:4], SRC[2:0] (13_events_and_time). -/
def CAP_CTL (k : Nat) : Nat := 0x20980000 + 32 * k
/-- CAP_STAT: NEW[31], OVR[30], POL[8], SEQ[7:0] (13_events_and_time). -/
def CAP_STAT (k : Nat) : Nat := 0x20980004 + 32 * k
/-- CAP_FRAC: NS[31:16], FRAC[15:0] (13_events_and_time). -/
def CAP_FRAC (k : Nat) : Nat := 0x20980008 + 32 * k
/-- CAP_NS_LO: NS[31:0] (13_events_and_time). -/
def CAP_NS_LO (k : Nat) : Nat := 0x2098000c + 32 * k
/-- CAP_NS_HI: NS[31:0] (13_events_and_time). -/
def CAP_NS_HI (k : Nat) : Nat := 0x20980010 + 32 * k
/-- IDL_ROUTE: V[31], ALTEN[30], PORT[26:24], ALT[22:20] (14_idene_link). -/
def IDL_ROUTE (k : Nat) : Nat := 0x20a10000 + 4 * k
/-- IDL_NODEID: VALID[31], ID[13:0] (14_idene_link). -/
def IDL_NODEID : Nat := 0x20a00000
/-- IDL_UID_LO: UID[31:0] (14_idene_link). -/
def IDL_UID_LO : Nat := 0x20a00004
/-- IDL_UID_HI: UID[31:0] (14_idene_link). -/
def IDL_UID_HI : Nat := 0x20a00008
/-- IDL_EXPORT_BASE_LO: BASE[31:26] (14_idene_link). -/
def IDL_EXPORT_BASE_LO : Nat := 0x20a00010
/-- IDL_EXPORT_BASE_HI: BASE[15:0] (14_idene_link). -/
def IDL_EXPORT_BASE_HI : Nat := 0x20a00014
/-- IDL_EXPORT_CTL: ERGEN[31], DRAMEN[30], WREN[29], DSIZE[5:0] (14_idene_link). -/
def IDL_EXPORT_CTL : Nat := 0x20a00018
/-- IDL_RTMO: US[19:0] (14_idene_link). -/
def IDL_RTMO : Nat := 0x20a00020
/-- IDL_OUTST: COUNT[8:0] (14_idene_link). -/
def IDL_OUTST : Nat := 0x20a00024
/-- IDL_LATE: COUNT[15:0] (14_idene_link). -/
def IDL_LATE : Nat := 0x20a00028
/-- IDL_C0DROP: COUNT[15:0] (14_idene_link). -/
def IDL_C0DROP : Nat := 0x20a0002c
/-- IDL_OLOG: VALID[31], MORE[30], NODE[29:16], CAUSE[15:12], MST[3:0] (14_idene_link). -/
def IDL_OLOG : Nat := 0x20a00030
/-- IDL_ILOG: VALID[31], MORE[30], NODE[29:16], CAUSE[15:12], MST[3:0] (14_idene_link). -/
def IDL_ILOG : Nat := 0x20a00034
/-- IDL_ILOG_ADDR: ADDR[31:0] (14_idene_link). -/
def IDL_ILOG_ADDR : Nat := 0x20a00038
/-- IDL_TCTL: ROLE[31:30], UPORT[26:24], SINT[19:16] (14_idene_link). -/
def IDL_TCTL : Nat := 0x20a00040
/-- IDL_TSTAT: LOCKED[31], OFFSET[23:0] (14_idene_link). -/
def IDL_TSTAT : Nat := 0x20a00044
/-- IDL_MTXBUF: DATA[31:0] (14_idene_link). -/
def IDL_MTXBUF (k : Nat) : Nat := 0x20a00100 + 4 * k
/-- IDL_MTXGO: BUSY[31], ERR[1], GO[0] (14_idene_link). -/
def IDL_MTXGO : Nat := 0x20a00180
/-- IDL_MRX_BASE_LO: BASE[31:7] (14_idene_link). -/
def IDL_MRX_BASE_LO : Nat := 0x20a00190
/-- IDL_MRX_BASE_HI:  (14_idene_link). -/
def IDL_MRX_BASE_HI : Nat := 0x20a00194
/-- IDL_MRX_CTL: LOG2[3:0] (14_idene_link). -/
def IDL_MRX_CTL : Nat := 0x20a00198
/-- IDL_MRX_HEAD: HEAD[9:0] (14_idene_link). -/
def IDL_MRX_HEAD : Nat := 0x20a0019c
/-- IDL_MRX_TAIL: TAIL[9:0] (14_idene_link). -/
def IDL_MRX_TAIL : Nat := 0x20a001a0
/-- IDL_MRX_DROP: COUNT[15:0] (14_idene_link). -/
def IDL_MRX_DROP : Nat := 0x20a001a4
/-- IDL_C0D0: VALID[31], DST[13:0] (14_idene_link). -/
def IDL_C0D0 (k : Nat) : Nat := 0x20a00200 + 16 * k
/-- IDL_C0D1: OFFS[31:0] (14_idene_link). -/
def IDL_C0D1 (k : Nat) : Nat := 0x20a00204 + 16 * k
/-- IDL_C0D2: EADDR[25:0] (14_idene_link). -/
def IDL_C0D2 (k : Nat) : Nat := 0x20a00208 + 16 * k
/-- IDL_C0D3: LEN[6:0] (14_idene_link). -/
def IDL_C0D3 (k : Nat) : Nat := 0x20a0020c + 16 * k
/-- IDL_P_CTL: EN[31], RETRAIN[30], C1MAX[27:24], THRESH[15:0] (14_idene_link). -/
def IDL_P_CTL (i : Nat) : Nat := 0x20a20000 + 0x10000 * i
/-- IDL_P_STAT: STATE[31:29], NBRV[28], NBRLOCK[27], NBRPORT[26:24], NBRID[13:0] (14_idene_link). -/
def IDL_P_STAT (i : Nat) : Nat := 0x20a20004 + 0x10000 * i
/-- IDL_P_NBRUID_LO: UID[31:0] (14_idene_link). -/
def IDL_P_NBRUID_LO (i : Nat) : Nat := 0x20a20008 + 0x10000 * i
/-- IDL_P_NBRUID_HI: UID[31:0] (14_idene_link). -/
def IDL_P_NBRUID_HI (i : Nat) : Nat := 0x20a2000c + 0x10000 * i
/-- IDL_P_DELAY: DELAY[23:0] (14_idene_link). -/
def IDL_P_DELAY (i : Nat) : Nat := 0x20a20010 + 0x10000 * i
/-- IDL_P_ASYM: ASYM[15:0] (14_idene_link). -/
def IDL_P_ASYM (i : Nat) : Nat := 0x20a20014 + 0x10000 * i
/-- IDL_P_CRCERR: COUNT[15:0] (14_idene_link). -/
def IDL_P_CRCERR (i : Nat) : Nat := 0x20a20020 + 0x10000 * i
/-- IDL_P_RETRY: COUNT[15:0] (14_idene_link). -/
def IDL_P_RETRY (i : Nat) : Nat := 0x20a20024 + 0x10000 * i
/-- IDL_P_STOMP: COUNT[15:0] (14_idene_link). -/
def IDL_P_STOMP (i : Nat) : Nat := 0x20a20028 + 0x10000 * i
/-- IDL_P_C0DROP: COUNT[15:0] (14_idene_link). -/
def IDL_P_C0DROP (i : Nat) : Nat := 0x20a2002c + 0x10000 * i
/-- IDL_P_DROP: COUNT[15:0] (14_idene_link). -/
def IDL_P_DROP (i : Nat) : Nat := 0x20a20030 + 0x10000 * i
/-- IDL_P_DOWNCNT: COUNT[15:0] (14_idene_link). -/
def IDL_P_DOWNCNT (i : Nat) : Nat := 0x20a20034 + 0x10000 * i
/-- SCE_CTL: EN[0] (15_train_network). -/
def SCE_CTL : Nat := 0x20c00000
/-- SCE_BASE_LO: NS[31:0] (15_train_network). -/
def SCE_BASE_LO : Nat := 0x20c00004
/-- SCE_BASE_HI: NS[31:0] (15_train_network). -/
def SCE_BASE_HI : Nat := 0x20c00008
/-- SCE_MCYCLE: NS[31:0] (15_train_network). -/
def SCE_MCYCLE : Nat := 0x20c0000c
/-- SCE_SHMCYCLE: NS[31:0] (15_train_network). -/
def SCE_SHMCYCLE : Nat := 0x20c00010
/-- SCE_SHCRC: CRC[31:0] (15_train_network). -/
def SCE_SHCRC : Nat := 0x20c00014
/-- SCE_SWAP: REQ[0] (15_train_network). -/
def SCE_SWAP : Nat := 0x20c00018
/-- SCE_STAT: ACTBANK[31], CHECK[30], REFCAUSE[7:6], SWAP_REFUSED[5], WRERR[4], LATE[3] (15_train_network). -/
def SCE_STAT : Nat := 0x20c0001c
/-- SCE_INDEX: INDEX[14:0] (15_train_network). -/
def SCE_INDEX : Nat := 0x20c00020
/-- SCE_SKIPCNT: COUNT[31:0] (15_train_network). -/
def SCE_SKIPCNT : Nat := 0x20c00024
/-- SCE_LATECNT: COUNT[31:0] (15_train_network). -/
def SCE_LATECNT : Nat := 0x20c00028
/-- SCE_BADACT: COUNT[31:0] (15_train_network). -/
def SCE_BADACT : Nat := 0x20c0002c
/-- SCE_WLOG: ADDR[31:0] (15_train_network). -/
def SCE_WLOG : Nat := 0x20c00030
/-- SCE_WLOG_INFO: RESP[2:0] (15_train_network). -/
def SCE_WLOG_INFO : Nat := 0x20c00034
/-- TNC_AS_CTL: EN[31], SLAVE[30], ASPORT[29:28], PDMASK[3:0] (15_train_network). -/
def TNC_AS_CTL : Nat := 0x20b00000
/-- TNC_AS_STAT: LOCKED[31], OFFSET[23:0] (15_train_network). -/
def TNC_AS_STAT : Nat := 0x20b00004
/-- TNC_BYP: HOLD[31], CAUSE[2:0] (15_train_network). -/
def TNC_BYP : Nat := 0x20b00010
/-- TNC_BYPWD: KICK[31], PERIOD[15:0] (15_train_network). -/
def TNC_BYPWD : Nat := 0x20b00014
/-- TNC_TTDP: TMO1[31:16], TMO0[15:0] (15_train_network). -/
def TNC_TTDP : Nat := 0x20b00018
/-- TNC_FLT0: ADDR[31:0] (15_train_network). -/
def TNC_FLT0 (k : Nat) : Nat := 0x20b01000 + 16 * k
/-- TNC_FLT1: V[31], SMAC[30], VID[27:16], ADDR[15:0] (15_train_network). -/
def TNC_FLT1 (k : Nat) : Nat := 0x20b01004 + 16 * k
/-- TNC_FLT2: PORTS[31:28], IPV[26:24], GGRP[23:20], GEN[19], MAXSDU[13:0] (15_train_network). -/
def TNC_FLT2 (k : Nat) : Nat := 0x20b01008 + 16 * k
/-- TNC_FLT3: CIR[31:16], CBS[15:0] (15_train_network). -/
def TNC_FLT3 (k : Nat) : Nat := 0x20b0100c + 16 * k
/-- TNC_REC0: V[31], FILTER[25:16], HIST[5:0] (15_train_network). -/
def TNC_REC0 (k : Nat) : Nat := 0x20b08000 + 16 * k
/-- TNC_REC1: RESET[15:0] (15_train_network). -/
def TNC_REC1 (k : Nat) : Nat := 0x20b08004 + 16 * k
/-- TNC_SGATE: OPEN[15:0] (15_train_network). -/
def TNC_SGATE : Nat := 0x20b00020
/-- TNC_QCI_SDU: COUNT[31:0] (15_train_network). -/
def TNC_QCI_SDU : Nat := 0x20b00024
/-- TNC_QCI_GATE: COUNT[31:0] (15_train_network). -/
def TNC_QCI_GATE : Nat := 0x20b00028
/-- TNC_QCI_METER: COUNT[31:0] (15_train_network). -/
def TNC_QCI_METER : Nat := 0x20b0002c
/-- MAC_CTL: EN[31], FDX[30], SPEED[29:28], IF[27], BX[26], EVQ[10:8], DEFPRI[2:0] (15_train_network). -/
def MAC_CTL (i : Nat) : Nat := 0x20b10000 + 0x10000 * i
/-- MAC_TSADJ: RX[31:16], TX[15:0] (15_train_network). -/
def MAC_TSADJ (i : Nat) : Nat := 0x20b10010 + 0x10000 * i
/-- MAC_TX_BASE_LO: BASE[31:4] (15_train_network). -/
def MAC_TX_BASE_LO (i : Nat) (k : Nat) : Nat := 0x20b10100 + 0x10000 * i + 32 * k
/-- MAC_TX_BASE_HI: BASE[15:0] (15_train_network). -/
def MAC_TX_BASE_HI (i : Nat) (k : Nat) : Nat := 0x20b10104 + 0x10000 * i + 32 * k
/-- MAC_TX_SIZE: LOG2[3:0] (15_train_network). -/
def MAC_TX_SIZE (i : Nat) (k : Nat) : Nat := 0x20b10108 + 0x10000 * i + 32 * k
/-- MAC_TX_HEAD: HEAD[11:0] (15_train_network). -/
def MAC_TX_HEAD (i : Nat) (k : Nat) : Nat := 0x20b1010c + 0x10000 * i + 32 * k
/-- MAC_TX_TAIL: TAIL[11:0] (15_train_network). -/
def MAC_TX_TAIL (i : Nat) (k : Nat) : Nat := 0x20b10110 + 0x10000 * i + 32 * k
/-- MAC_RX_BASE_LO: BASE[31:4] (15_train_network). -/
def MAC_RX_BASE_LO (i : Nat) (k : Nat) : Nat := 0x20b10200 + 0x10000 * i + 32 * k
/-- MAC_RX_BASE_HI: BASE[15:0] (15_train_network). -/
def MAC_RX_BASE_HI (i : Nat) (k : Nat) : Nat := 0x20b10204 + 0x10000 * i + 32 * k
/-- MAC_RX_SIZE: LOG2[3:0] (15_train_network). -/
def MAC_RX_SIZE (i : Nat) (k : Nat) : Nat := 0x20b10208 + 0x10000 * i + 32 * k
/-- MAC_RX_HEAD: HEAD[11:0] (15_train_network). -/
def MAC_RX_HEAD (i : Nat) (k : Nat) : Nat := 0x20b1020c + 0x10000 * i + 32 * k
/-- MAC_RX_TAIL: TAIL[11:0] (15_train_network). -/
def MAC_RX_TAIL (i : Nat) (k : Nat) : Nat := 0x20b10210 + 0x10000 * i + 32 * k
/-- MAC_QCFG: TRIG[0] (15_train_network). -/
def MAC_QCFG (i : Nat) (k : Nat) : Nat := 0x20b10300 + 0x10000 * i + 4 * k
/-- MVB_CTL: EN[31], BA[30], EMD[29], TREPLY[23:16], EVMF[15:0] (15_train_network). -/
def MVB_CTL : Nat := 0x20b50000
/-- MVB_STAT: LDIS[31], ACTLINE[30] (15_train_network). -/
def MVB_STAT : Nat := 0x20b50004
/-- MVB_ERRCNT: COUNT[31:0] (15_train_network). -/
def MVB_ERRCNT : Nat := 0x20b50008
/-- CAN_CTL: EN[31], EVBUF[4:0] (15_train_network). -/
def CAN_CTL (i : Nat) : Nat := 0x20b70000 + 0x10000 * i
/-- CAN_TXMISS: COUNT[31:0] (15_train_network). -/
def CAN_TXMISS (i : Nat) : Nat := 0x20b70004 + 0x10000 * i
/-- UART_CTL: EN[31], ECHO[30], DELEAD[15:12], DLAG[11:8], IDLE[7:0] (15_train_network). -/
def UART_CTL (i : Nat) : Nat := 0x20bb0000 + 0x10000 * i
/-- UART_ERRCNT: COUNT[31:0] (15_train_network). -/
def UART_ERRCNT (i : Nat) : Nat := 0x20bb0004 + 0x10000 * i
/-- SI_STAT: LSHALT[31], TESTOK[30], CORELOCK[3:0] (16_safety_island). -/
def SI_STAT : Nat := 0x38000004
/-- SI_SSC: KEY[31:24], ACTIVE[23], RELREF[17], FORCE[16], CAUSE[15:0] (16_safety_island). -/
def SI_SSC : Nat := 0x38000008
/-- SI_TRIGEN: SC[15:12], EVIN[11:8], CORELOCK[7], CLKMON[4], WD[3] (16_safety_island). -/
def SI_TRIGEN : Nat := 0x3800000c
/-- SI_SAFELVL: LVLn[2n+1:2n] (16_safety_island). -/
def SI_SAFELVL : Nat := 0x38000010
/-- SI_RUNLVL: LVLn[2n+1:2n] (16_safety_island). -/
def SI_RUNLVL : Nat := 0x38000014
/-- SI_SAFEIN: PIN[15:0] (16_safety_island). -/
def SI_SAFEIN : Nat := 0x38000018
/-- SI_WDCTL: EN[31], PERIOD[15:0] (16_safety_island). -/
def SI_WDCTL : Nat := 0x38000020
/-- SI_WDWIN: WARN[31:16], OPEN[15:0] (16_safety_island). -/
def SI_WDWIN : Nat := 0x38000024
/-- SI_WDKICK: KEY[7:0] (16_safety_island). -/
def SI_WDKICK : Nat := 0x38000028
/-- SI_WDCNT: COUNT[15:0] (16_safety_island). -/
def SI_WDCNT : Nat := 0x3800002c
/-- SI_CMCTL: LIMIT[11:8], EN[4:0] (16_safety_island). -/
def SI_CMCTL : Nat := 0x38000030
/-- SI_CMSTAT: SIOSC[5], FAULT[4:0] (16_safety_island). -/
def SI_CMSTAT : Nat := 0x38000034
/-- SI_LSCTL: TEST[0] (16_safety_island). -/
def SI_LSCTL : Nat := 0x38000040
/-- SI_VLOG_INFO: VALID[31], MORE[30], MST[3:0] (16_safety_island). -/
def SI_VLOG_INFO : Nat := 0x38000044
/-- SI_VLOG_ADDR: ADDR[31:0] (16_safety_island). -/
def SI_VLOG_ADDR : Nat := 0x38000048
/-- SI_XWIN: BASE[19:0] (16_safety_island). -/
def SI_XWIN : Nat := 0x38000050
/-- SI_MIR: EN[31], NUM[9:0] (16_safety_island). -/
def SI_MIR (k : Nat) : Nat := 0x38000200 + 4 * k
/-- SI_A2S: DATA[31:0] (16_safety_island). -/
def SI_A2S (k : Nat) : Nat := 0x38000100 + 4 * k
/-- SI_A2SDB: SEQ[15:0] (16_safety_island). -/
def SI_A2SDB : Nat := 0x38000140
/-- SI_S2A: DATA[31:0] (16_safety_island). -/
def SI_S2A (k : Nat) : Nat := 0x38000180 + 4 * k
/-- SI_S2ADB: SEQ[15:0] (16_safety_island). -/
def SI_S2ADB : Nat := 0x380001c0
/-- SIC_SRC: EN[31], CLASS[30], LVL[29], PEND[7], ACTIVE[6] (16_safety_island). -/
def SIC_SRC (k : Nat) : Nat := 0x38000800 + 4 * k
/-- PMU_SLEEP: GO[16], SIOK[8], TARGET[1:0] (17_power_and_energy). -/
def PMU_SLEEP : Nat := 0x20e00000
/-- PMU_STAT: PF[31], DORMWAKE[30], PFSTEP[26:24], REFUSE[19:16], WAKESRC[15:8], STATE[2:0] (17_power_and_energy). -/
def PMU_STAT : Nat := 0x20e00004
/-- PMU_WAKEEN: EN[7:0] (17_power_and_energy). -/
def PMU_WAKEEN : Nat := 0x20e00008
/-- PMU_PLL: LOCK[4:0] (17_power_and_energy). -/
def PMU_PLL : Nat := 0x20e0000c
/-- PMU_PFCTL: RESTART[23:16], TMAX[15:0] (17_power_and_energy). -/
def PMU_PFCTL : Nat := 0x20e00010
/-- ELG_CTL: EN[31] (17_power_and_energy). -/
def ELG_CTL : Nat := 0x20e10000
/-- ELG_POLICY: SLOW[0] (17_power_and_energy). -/
def ELG_POLICY : Nat := 0x20e10004
/-- ELG_STAT: HOLDOFF[31], OVERCAP[30], LOW[29] (17_power_and_energy). -/
def ELG_STAT : Nat := 0x20e10008
/-- ELG_CREDIT_LO: NJ[31:0] (17_power_and_energy). -/
def ELG_CREDIT_LO : Nat := 0x20e10010
/-- ELG_CREDIT_HI: NJ[31:0] (17_power_and_energy). -/
def ELG_CREDIT_HI : Nat := 0x20e10014
/-- ELG_RATE: MW[23:0] (17_power_and_energy). -/
def ELG_RATE : Nat := 0x20e10018
/-- ELG_CAP: NJ[31:0] (17_power_and_energy). -/
def ELG_CAP : Nat := 0x20e1001c
/-- ELG_LOW: NJ[31:0] (17_power_and_energy). -/
def ELG_LOW : Nat := 0x20e10020
/-- ELG_DEBTMAX: NJ[31:0] (17_power_and_energy). -/
def ELG_DEBTMAX : Nat := 0x20e10024
/-- ELG_PLIM: MW[23:0] (17_power_and_energy). -/
def ELG_PLIM : Nat := 0x20e10028
/-- ELG_INFLIGHT: NJ[31:0] (17_power_and_energy). -/
def ELG_INFLIGHT : Nat := 0x20e1002c
/-- ELG_EHOLD: NJ[31:0] (17_power_and_energy). -/
def ELG_EHOLD : Nat := 0x20e10030
/-- ELG_ECOMMIT: NJ[31:0] (17_power_and_energy). -/
def ELG_ECOMMIT : Nat := 0x20e10034
/-- ELG_ESAFE: NJ[31:0] (17_power_and_energy). -/
def ELG_ESAFE : Nat := 0x20e10038
/-- ELG_PFE_LO: NJ[31:0] (17_power_and_energy). -/
def ELG_PFE_LO : Nat := 0x20e10040
/-- ELG_PFE_HI: NJ[31:0] (17_power_and_energy). -/
def ELG_PFE_HI : Nat := 0x20e10044
/-- ELG_GRPFIX: PJ[31:0] (17_power_and_energy). -/
def ELG_GRPFIX : Nat := 0x20e10048
/-- ELG_MEMTAB: REMOTE[23:16], DRAM[15:8], ERG[7:0] (17_power_and_energy). -/
def ELG_MEMTAB : Nat := 0x20e1004c
/-- ELG_E_LO: NJ[31:0] (17_power_and_energy). -/
def ELG_E_LO (k : Nat) : Nat := 0x20e10100 + 8 * k
/-- ELG_E_HI: NJ[31:0] (17_power_and_energy). -/
def ELG_E_HI (k : Nat) : Nat := 0x20e10104 + 8 * k
/-- ELG_SNAP: GO[0] (17_power_and_energy). -/
def ELG_SNAP : Nat := 0x20e10180
/-- ELG_SNAPD_LO: NJ[31:0] (17_power_and_energy). -/
def ELG_SNAPD_LO (k : Nat) : Nat := 0x20e10200 + 8 * k
/-- ELG_SNAPD_HI: NJ[31:0] (17_power_and_energy). -/
def ELG_SNAPD_HI (k : Nat) : Nat := 0x20e10204 + 8 * k
/-- ELG_SNAPTB_LO: NS[31:0] (17_power_and_energy). -/
def ELG_SNAPTB_LO : Nat := 0x20e10240
/-- ELG_SNAPTB_HI: NS[31:0] (17_power_and_energy). -/
def ELG_SNAPTB_HI : Nat := 0x20e10244
/-- BCU_BSTAT: STAGE[31:28], TRIES[27:26], SIFAIL[25], DMCFAIL[24], ERGFAIL[23:16], SLOT[15], FALLBACK[14], CFGWARN[13], RESULT[7:0] (18_boot_and_store). -/
def BCU_BSTAT : Nat := 0x20d00000
/-- BCU_BINFO: SVN[23:16], CAUSE1[15:8], CAUSE0[7:0] (18_boot_and_store). -/
def BCU_BINFO : Nat := 0x20d00004
/-- BCU_VERSION: VERSION[31:0] (18_boot_and_store). -/
def BCU_VERSION : Nat := 0x20d00008
/-- BCU_STSEL: VALID[31], BANK[30], SLOT[29:24], OLDER[23], LEN[16:0] (18_boot_and_store). -/
def BCU_STSEL : Nat := 0x20d0000c
/-- BCU_STSEQ: SEQ[31:0] (18_boot_and_store). -/
def BCU_STSEQ : Nat := 0x20d00010
/-- BCU_CFGPOS: INDEX[12:0] (18_boot_and_store). -/
def BCU_CFGPOS : Nat := 0x20d00014
/-- BCU_ST_SRC: ADDR[31:3] (18_boot_and_store). -/
def BCU_ST_SRC : Nat := 0x20d00020
/-- BCU_ST_DST: OFFS[31:0] (18_boot_and_store). -/
def BCU_ST_DST : Nat := 0x20d00024
/-- BCU_ST_LEN: LEN[16:0] (18_boot_and_store). -/
def BCU_ST_LEN : Nat := 0x20d00028
/-- BCU_ST_CTL: GO[31], AUTO[30], OP[1:0] (18_boot_and_store). -/
def BCU_ST_CTL : Nat := 0x20d0002c
/-- BCU_ST_STAT: BUSY[31], STAGED[30], DONE[29], ERR[28], READY[27], ECODE[26:24], NBANK[23], NSLOT[16:11] (18_boot_and_store). -/
def BCU_ST_STAT : Nat := 0x20d00030
/-- BCU_REL: CORE[3:0] (18_boot_and_store). -/
def BCU_REL : Nat := 0x20d00034
/-- BCU_NVMCMD: SE[15:8], PP[7:0] (18_boot_and_store). -/
def BCU_NVMCMD : Nat := 0x20d00038
/-- BCU_NVMT: TSE[31:16], TPP[15:0] (18_boot_and_store). -/
def BCU_NVMT : Nat := 0x20d0003c
/-- KSU_LCS: KEYREV[19:16], KEYV[15:12], BOOTRETRY[9:8], PATCHREQ[4], LCS[2:0] (18_boot_and_store). -/
def KSU_LCS : Nat := 0x20d10000
/-- KSU_CTR: PATCHCTR[14:8], IMGCTR[6:0] (18_boot_and_store). -/
def KSU_CTR : Nat := 0x20d10004
/-- KSU_REVOKE: REV[3:0] (18_boot_and_store). -/
def KSU_REVOKE : Nat := 0x20d10008
/-- PCU_PIN: SAFEACT[31:30], FUNC[25:16], PULL[15:14], DRIVE[13:12], SLEW[11], IE[10], SMT[9], OE[8], OUT[7], IN[0] (19_pins_and_electrical). -/
def PCU_PIN (k : Nat) : Nat := 0x20f00000 + 4 * k
/-- PCU_FPIN: PLACED[31], PIN[8:0] (19_pins_and_electrical). -/
def PCU_FPIN (k : Nat) : Nat := 0x20f00840 + 4 * k
/-- PCU_CLASH: VALID[31], MORE[30], CAUSE[29:28], FUNC[25:16], PIN[8:0] (19_pins_and_electrical). -/
def PCU_CLASH : Nat := 0x20f00c00
/-- PCU_IOCTL: TXDLY3[1], TXDLY2[0] (19_pins_and_electrical). -/
def PCU_IOCTL : Nat := 0x20f00c04
/-- SC_STAT: FIRED[3:0] (16_safety_island). -/
def SC_STAT : Nat := 0x38000480
/-- VC_SD: word w of descriptor d at 8d+w (R36, R58)[31:0] (02_vector_streams). -/
def VC_SD (i : Nat) (k : Nat) : Nat := 0x20111000 + 0x10000 * i + 4 * k
/-- ELG_OPTABc word w (17_power_and_energy). -/
def ELG_OPTAB (c w : Nat) : Nat := 0x20e10080 + 8 * c + 4 * w
/-- Registers of the frame at 0x20100000. -/
def specs_20100000_1 : List RegSpec := [
  ⟨0x100, 4, 8, 0, 0x3003f00, 0x3f, 0, 0⟩,
  ⟨0x200, 4, 1, 0, 0, 0, 0, 0⟩,
  ⟨0x204, 4, 1, 0, 0xffff, 0x80000000, 0, 0⟩]
/-- Registers of the frame at 0x20110000 and the 7 after it. -/
def specs_20110000_8 : List RegSpec := [
  ⟨0x1800, 4, 0x10, 0, 0, 0, 0, 0⟩,
  ⟨0x1840, 4, 1, 0, 0, 3, 0, 0⟩,
  ⟨0, 4, 1, 0, 0x3c, 0, 0, 0⟩,
  ⟨4, 4, 1, 0, 0, 0x2000000, 0, 0⟩,
  ⟨8, 4, 1, 0, 0xfff, 0, 0, 0⟩,
  ⟨0xc, 4, 1, 0, 0, 0, 0, 0⟩,
  ⟨0x10, 4, 1, 0, 0, 0, 0, 0⟩,
  ⟨0x14, 4, 1, 0, 0, 0, 0, 0⟩,
  ⟨0x20, 4, 1, 0, 0xffffffe0, 0, 0, 0⟩,
  ⟨0x24, 4, 1, 0, 0xffff, 0, 0, 0⟩,
  ⟨0x28, 4, 1, 0, 0xf, 0, 0, 0⟩,
  ⟨0x2c, 4, 1, 0, 0, 0, 0, 0⟩,
  ⟨0x30, 4, 1, 0, 0xfff, 0, 0, 0⟩,
  ⟨0x40, 4, 1, 0, 0, 0, 0, 0⟩,
  ⟨0x44, 4, 1, 0, 0, 0, 0, 0⟩,
  ⟨0x48, 4, 1, 0, 0, 0, 0, 0⟩,
  ⟨0x4c, 4, 1, 0, 0, 0, 0, 0⟩,
  ⟨0x50, 4, 1, 0, 0, 0, 0, 0⟩,
  ⟨0x54, 4, 1, 0, 0, 0, 0, 0⟩,
  ⟨0x58, 4, 1, 0, 0, 0, 0, 0⟩,
  ⟨0x5c, 4, 1, 0, 0xffffffff, 0, 0, 0⟩,
  ⟨0x80, 4, 8, 0, 0, 0, 0, 0⟩,
  ⟨0x1000, 4, 0x200, 0, 0, 0, 0, 0⟩]
/-- Registers of the frame at 0x20200000. -/
def specs_20200000_1 : List RegSpec := [
  ⟨0, 4, 1, 0xb10003, 0, 0, 0, 0⟩,
  ⟨4, 4, 1, 0xff, 0, 0, 0, 0⟩,
  ⟨8, 4, 1, 0, 0, 0, 0, 0⟩,
  ⟨0xc, 4, 1, 0, 0, 0x80000000, 0, 0⟩,
  ⟨0x10, 4, 1, 0, 0xffff, 0, 0, 0⟩,
  ⟨0x14, 4, 1, 0, 0xffff007f, 0, 0, 0⟩,
  ⟨0x18, 4, 1, 0, 0, 0, 1, 0⟩,
  ⟨0x20, 4, 8, 0, 0, 0, 0, 0⟩,
  ⟨0x400, 4, 0x40, 0, 0x9fff1fff, 0, 0, 0⟩]
/-- Registers of the frame at 0x20300000. -/
def specs_20300000_1 : List RegSpec := [
  ⟨0x40, 4, 1, 0, 0xffffff, 0, 0, 0⟩,
  ⟨0x44, 4, 1, 1, 3, 0, 0, 0⟩,
  ⟨0x48, 4, 1, 0, 0, 0, 0, 0⟩,
  ⟨0x4c, 4, 1, 0, 0, 0, 0, 0⟩,
  ⟨0, 4, 1, 0, 0, 0, 0, 0⟩,
  ⟨4, 4, 1, 0, 0, 0, 0xff, 0⟩,
  ⟨8, 4, 1, 0xff, 0xff, 0, 0, 0⟩,
  ⟨0xc, 4, 1, 0, 0, 0, 0xff, 0⟩,
  ⟨0x10, 4, 1, 0, 0xffff, 0, 0, 0⟩]
/-- Registers of the frame at 0x20310000. -/
def specs_20310000_1 : List RegSpec := [
  ⟨0, 4, 1, 0x603, 0xf03, 0, 0, 0⟩,
  ⟨4, 4, 1, 0, 0, 0, 0, 0⟩,
  ⟨8, 4, 1, 0, 0xffff, 0, 0, 0⟩,
  ⟨0xc, 4, 1, 0, 0, 0, 0, 0⟩,
  ⟨0x10, 4, 1, 0, 0, 0xf0000000, 0, 0⟩,
  ⟨0x20, 4, 1, 0, 0xffffffff, 0, 0, 0⟩,
  ⟨0x90, 4, 1, 0, 0, 0, 0, 0⟩,
  ⟨0x14, 4, 1, 0, 0, 0, 0, 0⟩,
  ⟨0x18, 4, 1, 0, 0, 0, 0, 0⟩,
  ⟨0x1c, 4, 1, 0, 0, 0, 0, 0⟩,
  ⟨0x40, 4, 8, 0, 0xffff, 0, 0, 0⟩,
  ⟨0x60, 4, 1, 0, 0xffff, 0, 0, 0⟩,
  ⟨0x70, 4, 1, 0, 0, 0, 1, 0⟩,
  ⟨0x74, 4, 1, 0, 0xfffffff8, 0, 0, 0⟩,
  ⟨0x78, 4, 1, 0, 0, 0, 0, 0⟩,
  ⟨0x7c, 4, 1, 0, 0xffffffff, 0, 0, 0⟩,
  ⟨0x80, 4, 1, 0, 0xffffffff, 0, 0, 0⟩,
  ⟨0x84, 4, 1, 0, 0xffffffff, 0, 0, 0⟩,
  ⟨0x88, 4, 1, 0, 0xff, 0, 0, 0⟩]
/-- Registers of the frame at 0x20400000. -/
def specs_20400000_1 : List RegSpec := [
  ⟨0, 4, 1, 0x600, 0x1f01, 0, 0, 0⟩,
  ⟨4, 4, 1, 0, 0x3ff, 0, 0, 0⟩,
  ⟨8, 4, 1, 0, 0, 0, 0, 0⟩]
/-- Registers of the frame at 0x20410000 and the 1 after it. -/
def specs_20410000_2 : List RegSpec := [
  ⟨0, 4, 1, 0, 0xf3, 0, 0, 0⟩,
  ⟨0x10, 4, 1, 0, 0, 0xc0000000, 0, 0⟩,
  ⟨0x14, 4, 1, 0, 0, 0, 0, 0⟩,
  ⟨0x18, 4, 1, 0, 0, 0, 0, 0⟩,
  ⟨0x1c, 4, 1, 0, 0xffffffff, 0, 0, 0⟩]
/-- Registers of the frame at 0x20500000. -/
def specs_20500000_1 : List RegSpec := [
  ⟨0, 4, 1, 0, 1, 0, 0, 0⟩,
  ⟨4, 4, 1, 0, 0, 0, 0, 0⟩,
  ⟨0x10, 4, 1, 0, 0, 0xc0000000, 0, 0⟩,
  ⟨0x14, 4, 1, 0, 0, 0, 0, 0⟩,
  ⟨0x18, 4, 1, 0, 0, 0, 0, 0⟩,
  ⟨0x20, 4, 1, 0, 0xfffff000, 0, 0, 0⟩,
  ⟨0x24, 4, 1, 0, 0xffff, 0, 0, 0⟩,
  ⟨0x28, 4, 1, 0, 0x1f, 0, 0, 0⟩,
  ⟨0x100, 0x10, 0x10, 0, 0xfffff000, 0, 0, 0⟩,
  ⟨0x104, 0x10, 0x10, 0, 0xc71f00ff, 0, 0, 0⟩,
  ⟨0x108, 0x10, 0x10, 0, 7, 0, 0, 0⟩]
/-- Registers of the frame at 0x20600000. -/
def specs_20600000_1 : List RegSpec := [
  ⟨0, 4, 0xc, 1, 3, 0, 0, 0⟩,
  ⟨0x40, 4, 1, 0x100, 0xfff, 0, 0, 0⟩,
  ⟨0x44, 4, 1, 0x10000, 0xfffff, 0, 0, 0⟩,
  ⟨0x48, 4, 1, 0x300, 0x4e0, 0, 0x1f, 0⟩,
  ⟨0x50, 4, 1, 0, 0, 0xc0000000, 0, 0⟩,
  ⟨0x54, 4, 1, 0, 0, 0, 0, 0⟩,
  ⟨0x58, 4, 1, 0, 0, 0, 0, 0⟩]
/-- Registers of the frame at 0x20700000. -/
def specs_20700000_1 : List RegSpec := [
  ⟨4, 4, 0x280, 0, 0xe0000f00, 0, 0, 0⟩,
  ⟨0xc00, 4, 0x15, 0, 0, 0, 0, 0⟩,
  ⟨0xd00, 4, 0x15, 0, 0, 0xffffffff, 0, 0⟩,
  ⟨0xe00, 4, 1, 0, 0, 0, 0xf, 0⟩]
/-- Registers of the frame at 0x20710000 and the 3 after it. -/
def specs_20710000_4 : List RegSpec := [
  ⟨0, 4, 1, 0, 3, 0, 0, 0⟩,
  ⟨4, 4, 1, 0, 0, 0, 0, 0⟩,
  ⟨8, 4, 1, 0, 0, 0, 0, 0⟩,
  ⟨0xc, 4, 1, 0, 0, 0, 0, 0⟩,
  ⟨0x10, 4, 1, 0, 0, 0, 0, 0⟩,
  ⟨0x14, 4, 1, 0, 0, 1, 0, 0⟩]
/-- Registers of the frame at 0x20800000. -/
def specs_20800000_1 : List RegSpec := [
  ⟨0, 4, 0x100, 0, 0xc00000ff, 0, 0, 0⟩,
  ⟨0x800, 4, 6, 0, 0, 0xffffffff, 0, 0⟩,
  ⟨0x820, 4, 6, 0, 0, 0xffffffff, 0, 0⟩,
  ⟨0x840, 4, 8, 0, 0, 0xffffffff, 0, 0⟩,
  ⟨0x880, 4, 1, 0, 0, 0, 0xff, 0⟩,
  ⟨0x884, 4, 1, 0, 0, 0xc0000000, 0, 0⟩,
  ⟨0x1000, 4, 0x600, 0, 0xffffffff, 0, 0, 0⟩]
/-- Registers of the frame at 0x20900000. -/
def specs_20900000_1 : List RegSpec := [
  ⟨0, 4, 1, 0, 0, 0, 0, 0⟩,
  ⟨4, 4, 1, 0, 0, 0, 0, 0⟩,
  ⟨8, 4, 1, 0, 0, 0, 0, 0⟩,
  ⟨0x10, 4, 1, 0xa00, 0xf03, 0, 0, 0⟩,
  ⟨0x14, 4, 1, 0, 0xffffffff, 0, 0, 0⟩,
  ⟨0x18, 4, 1, 0, 0, 0, 0, 0⟩,
  ⟨0x1c, 4, 1, 0, 0, 0, 0, 0⟩,
  ⟨0x20, 4, 1, 0, 0xffffffff, 0, 0, 0⟩,
  ⟨0x24, 4, 1, 0, 0, 0, 0, 0⟩,
  ⟨0x28, 4, 1, 0, 0, 3, 0, 0⟩,
  ⟨0x2c, 4, 1, 0x77359400, 0, 0, 0, 0⟩,
  ⟨0x40, 0x10, 2, 0, 0x80000000, 0, 0, 0⟩,
  ⟨0x44, 0x10, 2, 0, 0xffffffff, 0, 0, 0⟩,
  ⟨0x48, 0x10, 2, 0, 0xffffffff, 0, 0, 0⟩]
/-- Registers of the frame at 0x20910000. -/
def specs_20910000_1 : List RegSpec := [
  ⟨0x400, 4, 1, 0, 0xffffffff, 0, 0, 0⟩,
  ⟨0x404, 4, 1, 0, 0xfffff, 0, 0, 0xf00000⟩,
  ⟨0x408, 4, 1, 0, 0, 0, 0, 0⟩]
/-- Registers of the frame at 0x20910000 and the 5 after it. -/
def specs_20910000_6 : List RegSpec := [
  ⟨0, 0x40, 8, 0x3f0000, 0xf7ff0000, 0, 0, 0⟩,
  ⟨4, 0x40, 8, 0, 0xf7f7f7, 0, 0, 0⟩,
  ⟨8, 0x40, 8, 0xffffffff, 0xffffffff, 0, 0, 0⟩,
  ⟨0xc, 0x40, 8, 0xffffffff, 0xffffffff, 0, 0, 0⟩,
  ⟨0x10, 0x40, 8, 0, 0xffffffff, 0, 0, 0⟩,
  ⟨0x14, 0x40, 8, 0x100, 0xffffffff, 0, 0, 0⟩,
  ⟨0x18, 0x40, 8, 0, 0, 7, 0, 0⟩]
/-- Registers of the frame at 0x20970000. -/
def specs_20970000_1 : List RegSpec := [
  ⟨0, 0x20, 4, 0x3f0000, 0x803f00f7, 0, 0, 0⟩,
  ⟨4, 0x20, 4, 0, 0xffff, 0, 0, 0⟩,
  ⟨8, 0x20, 4, 0, 0xffffffff, 0, 0, 0⟩,
  ⟨0xc, 0x20, 4, 0, 0xffffffff, 0, 0, 0⟩,
  ⟨0x10, 0x20, 4, 0, 0xffff, 0, 0, 0⟩,
  ⟨0x14, 0x20, 4, 0, 0xffffffff, 0, 0, 0⟩,
  ⟨0x18, 0x20, 4, 0, 0xffffffff, 0, 0, 0⟩,
  ⟨0x80, 4, 1, 0, 0, 0x10f, 0, 0⟩]
/-- Registers of the frame at 0x20980000. -/
def specs_20980000_1 : List RegSpec := [
  ⟨0, 0x20, 0x10, 0x10, 0x80000137, 0, 0, 0⟩,
  ⟨4, 0x20, 0x10, 0, 0, 0x40000000, 0, 0⟩,
  ⟨8, 0x20, 0x10, 0, 0, 0, 0, 0⟩,
  ⟨0xc, 0x20, 0x10, 0, 0, 0, 0, 0⟩,
  ⟨0x10, 0x20, 0x10, 0, 0, 0, 0, 0⟩]
/-- Registers of the frame at 0x20A00000, part 1. -/
def specs_20a00000_1_a : List RegSpec := [
  ⟨0, 4, 1, 0, 0x80003fff, 0, 0, 0⟩,
  ⟨4, 4, 1, 0, 0, 0, 0, 0⟩,
  ⟨8, 4, 1, 0, 0, 0, 0, 0⟩,
  ⟨0x10, 4, 1, 0, 0xfc000000, 0, 0, 0⟩,
  ⟨0x14, 4, 1, 0, 0xffff, 0, 0, 0⟩,
  ⟨0x18, 4, 1, 0, 0xe000003f, 0, 0, 0⟩,
  ⟨0x20, 4, 1, 0x64, 0xfffff, 0, 0, 0⟩,
  ⟨0x24, 4, 1, 0, 0, 0, 0, 0⟩,
  ⟨0x28, 4, 1, 0, 0xffff, 0, 0, 0⟩,
  ⟨0x2c, 4, 1, 0, 0xffff, 0, 0, 0⟩,
  ⟨0x30, 4, 1, 0, 0, 0xc0000000, 0, 0⟩,
  ⟨0x34, 4, 1, 0, 0, 0xc0000000, 0, 0⟩,
  ⟨0x38, 4, 1, 0, 0, 0, 0, 0⟩,
  ⟨0x40, 4, 1, 0x40000, 0xc70f0000, 0, 0, 0⟩,
  ⟨0x44, 4, 1, 0, 0, 0, 0, 0⟩,
  ⟨0x100, 4, 0x1c, 0, 0xffffffff, 0, 0, 0⟩,
  ⟨0x180, 4, 1, 0, 0, 2, 1, 0⟩,
  ⟨0x190, 4, 1, 0, 0xffffff80, 0, 0, 0⟩,
  ⟨0x194, 4, 1, 0, 0, 0, 0, 0⟩,
  ⟨0x198, 4, 1, 0, 0xf, 0, 0, 0⟩,
  ⟨0x19c, 4, 1, 0, 0, 0, 0, 0⟩,
  ⟨0x1a0, 4, 1, 0, 0x3ff, 0, 0, 0⟩,
  ⟨0x1a4, 4, 1, 0, 0xffff, 0, 0, 0⟩,
  ⟨0x200, 0x10, 0x20, 0, 0x80003fff, 0, 0, 0⟩]
/-- Registers of the frame at 0x20A00000, part 2. -/
def specs_20a00000_1_b : List RegSpec := [
  ⟨0x204, 0x10, 0x20, 0, 0xffffffff, 0, 0, 0⟩,
  ⟨0x208, 0x10, 0x20, 0, 0x3ffffff, 0, 0, 0⟩,
  ⟨0x20c, 0x10, 0x20, 0, 0x7f, 0, 0, 0⟩]
def specs_20a00000_1 : List RegSpec := specs_20a00000_1_a ++ specs_20a00000_1_b
/-- Registers of the frame at 0x20A10000. -/
def specs_20a10000_1 : List RegSpec := [
  ⟨0, 4, 0x4000, 0, 0xc7700000, 0, 0, 0⟩]
/-- Registers of the frame at 0x20A20000 and the 5 after it. -/
def specs_20a20000_6 : List RegSpec := [
  ⟨0, 4, 1, 0x8000000, 0x8f00ffff, 0, 0x40000000, 0⟩,
  ⟨4, 4, 1, 0, 0, 0, 0, 0⟩,
  ⟨8, 4, 1, 0, 0, 0, 0, 0⟩,
  ⟨0xc, 4, 1, 0, 0, 0, 0, 0⟩,
  ⟨0x10, 4, 1, 0, 0, 0, 0, 0⟩,
  ⟨0x14, 4, 1, 0, 0xffff, 0, 0, 0⟩,
  ⟨0x20, 4, 1, 0, 0xffff, 0, 0, 0⟩,
  ⟨0x24, 4, 1, 0, 0xffff, 0, 0, 0⟩,
  ⟨0x28, 4, 1, 0, 0xffff, 0, 0, 0⟩,
  ⟨0x2c, 4, 1, 0, 0xffff, 0, 0, 0⟩,
  ⟨0x30, 4, 1, 0, 0xffff, 0, 0, 0⟩,
  ⟨0x34, 4, 1, 0, 0xffff, 0, 0, 0⟩]
/-- Registers of the frame at 0x20B00000. -/
def specs_20b00000_1 : List RegSpec := [
  ⟨0, 4, 1, 0, 0xf000000f, 0, 0, 0⟩,
  ⟨4, 4, 1, 0, 0, 0, 0, 0⟩,
  ⟨0x10, 4, 1, 0, 0x80000000, 0, 0, 0⟩,
  ⟨0x14, 4, 1, 0x64, 0xffff, 0, 0x80000000, 0⟩,
  ⟨0x18, 4, 1, 0, 0xffffffff, 0, 0, 0⟩,
  ⟨0x1000, 0x10, 0x400, 0, 0xffffffff, 0, 0, 0⟩,
  ⟨0x1004, 0x10, 0x400, 0, 0xcfffffff, 0, 0, 0⟩,
  ⟨0x1008, 0x10, 0x400, 0x3fff, 0xf7f83fff, 0, 0, 0⟩,
  ⟨0x100c, 0x10, 0x400, 0, 0xffffffff, 0, 0, 0⟩,
  ⟨0x8000, 0x10, 0x100, 0x20, 0x83ff003f, 0, 0, 0⟩,
  ⟨0x8004, 0x10, 0x100, 0x64, 0xffff, 0, 0, 0⟩,
  ⟨0x20, 4, 1, 0xffff, 0, 0, 0, 0⟩,
  ⟨0x24, 4, 1, 0, 0xffffffff, 0, 0, 0⟩,
  ⟨0x28, 4, 1, 0, 0xffffffff, 0, 0, 0⟩,
  ⟨0x2c, 4, 1, 0, 0xffffffff, 0, 0, 0⟩]
/-- Registers of the frame at 0x20B10000 and the 3 after it. -/
def specs_20b10000_4 : List RegSpec := [
  ⟨0, 4, 1, 0x60000000, 0xf4000707, 0, 0, 0⟩,
  ⟨0x10, 4, 1, 0, 0xffffffff, 0, 0, 0⟩,
  ⟨0x100, 0x20, 8, 0, 0xfffffff0, 0, 0, 0⟩,
  ⟨0x104, 0x20, 8, 0, 0xffff, 0, 0, 0⟩,
  ⟨0x108, 0x20, 8, 0, 0xf, 0, 0, 0⟩,
  ⟨0x10c, 0x20, 8, 0, 0, 0, 0, 0⟩,
  ⟨0x110, 0x20, 8, 0, 0xfff, 0, 0, 0⟩,
  ⟨0x200, 0x20, 8, 0, 0xfffffff0, 0, 0, 0⟩,
  ⟨0x204, 0x20, 8, 0, 0xffff, 0, 0, 0⟩,
  ⟨0x208, 0x20, 8, 0, 0xf, 0, 0, 0⟩,
  ⟨0x20c, 0x20, 8, 0, 0, 0, 0, 0⟩,
  ⟨0x210, 0x20, 8, 0, 0xfff, 0, 0, 0⟩,
  ⟨0x300, 4, 8, 0, 1, 0, 0, 0⟩]
/-- Registers of the frame at 0x20B50000. -/
def specs_20b50000_1 : List RegSpec := [
  ⟨0, 4, 1, 0x400000, 0xe0ffffff, 0, 0, 0⟩,
  ⟨4, 4, 1, 0, 0, 0x80000000, 0, 0⟩,
  ⟨8, 4, 1, 0, 0xffffffff, 0, 0, 0⟩]
/-- Registers of the frame at 0x20B70000 and the 3 after it. -/
def specs_20b70000_4 : List RegSpec := [
  ⟨0, 4, 1, 0, 0x8000001f, 0, 0, 0⟩,
  ⟨4, 4, 1, 0, 0xffffffff, 0, 0, 0⟩]
/-- Registers of the frame at 0x20BB0000 and the 3 after it. -/
def specs_20bb0000_4 : List RegSpec := [
  ⟨0, 4, 1, 0x1104, 0xc000ffff, 0, 0, 0⟩,
  ⟨4, 4, 1, 0, 0xffffffff, 0, 0, 0⟩]
/-- Registers of the frame at 0x20C00000. -/
def specs_20c00000_1 : List RegSpec := [
  ⟨0, 4, 1, 0, 1, 0, 0, 0⟩,
  ⟨4, 4, 1, 0, 0xffffffff, 0, 0, 0⟩,
  ⟨8, 4, 1, 0, 0xffffffff, 0, 0, 0⟩,
  ⟨0xc, 4, 1, 0xf4240, 0, 0, 0, 0⟩,
  ⟨0x10, 4, 1, 0xf4240, 0xffffffff, 0, 0, 0⟩,
  ⟨0x14, 4, 1, 0, 0xffffffff, 0, 0, 0⟩,
  ⟨0x18, 4, 1, 0, 0, 0, 1, 0⟩,
  ⟨0x1c, 4, 1, 0, 0, 0x38, 0, 0⟩,
  ⟨0x20, 4, 1, 0, 0, 0, 0, 0⟩,
  ⟨0x24, 4, 1, 0, 0xffffffff, 0, 0, 0⟩,
  ⟨0x28, 4, 1, 0, 0xffffffff, 0, 0, 0⟩,
  ⟨0x2c, 4, 1, 0, 0xffffffff, 0, 0, 0⟩,
  ⟨0x30, 4, 1, 0, 0, 0, 0, 0⟩,
  ⟨0x34, 4, 1, 0, 0, 0, 0, 0⟩]
/-- Registers of the frame at 0x20D00000. -/
def specs_20d00000_1 : List RegSpec := [
  ⟨0, 4, 1, 0, 0, 0, 0, 0⟩,
  ⟨4, 4, 1, 0, 0, 0, 0, 0⟩,
  ⟨8, 4, 1, 0, 0, 0, 0, 0⟩,
  ⟨0xc, 4, 1, 0, 0, 0, 0, 0⟩,
  ⟨0x10, 4, 1, 0, 0, 0, 0, 0⟩,
  ⟨0x14, 4, 1, 0, 0, 0, 0, 0⟩,
  ⟨0x20, 4, 1, 0, 0xfffffff8, 0, 0, 0⟩,
  ⟨0x24, 4, 1, 0, 0xffffffff, 0, 0, 0⟩,
  ⟨0x28, 4, 1, 0, 0x1ffff, 0, 0, 0⟩,
  ⟨0x2c, 4, 1, 0, 0x40000003, 0, 0x80000000, 0⟩,
  ⟨0x30, 4, 1, 0, 0, 0x30000000, 0, 0⟩,
  ⟨0x34, 4, 1, 0, 0, 0, 0xf, 0⟩,
  ⟨0x38, 4, 1, 0x2112, 0xffff, 0, 0, 0⟩,
  ⟨0x3c, 4, 1, 0x19007d0, 0xffffffff, 0, 0, 0⟩]
/-- Registers of the frame at 0x20D10000. -/
def specs_20d10000_1 : List RegSpec := [
  ⟨0, 4, 1, 0, 0, 0, 0, 0⟩,
  ⟨4, 4, 1, 0, 0, 0, 0, 0⟩,
  ⟨8, 4, 1, 0, 0, 0, 0, 0xf⟩]
/-- Registers of the frame at 0x20E00000. -/
def specs_20e00000_1 : List RegSpec := [
  ⟨0, 4, 1, 0, 3, 0, 0x10000, 0x100⟩,
  ⟨4, 4, 1, 0, 0, 0x80000000, 0, 0⟩,
  ⟨8, 4, 1, 0, 0xff, 0, 0, 0⟩,
  ⟨0xc, 4, 1, 0, 0, 0, 0, 0⟩,
  ⟨0x10, 4, 1, 0xa07d0, 0xffffff, 0, 0, 0⟩]
/-- Registers of the frame at 0x20E10000, part 1. -/
def specs_20e10000_1_a : List RegSpec := [
  ⟨0, 4, 1, 0, 0x80000000, 0, 0, 0⟩,
  ⟨4, 4, 1, 0, 1, 0, 0, 0⟩,
  ⟨8, 4, 1, 0, 0, 0x40000000, 0, 0⟩,
  ⟨0x10, 4, 1, 0, 0xffffffff, 0, 0, 0⟩,
  ⟨0x14, 4, 1, 0, 0xffffffff, 0, 0, 0⟩,
  ⟨0x18, 4, 1, 0, 0xffffff, 0, 0, 0⟩,
  ⟨0x1c, 4, 1, 0, 0xffffffff, 0, 0, 0⟩,
  ⟨0x20, 4, 1, 0, 0xffffffff, 0, 0, 0⟩,
  ⟨0x24, 4, 1, 0, 0xffffffff, 0, 0, 0⟩,
  ⟨0x28, 4, 1, 0, 0xffffff, 0, 0, 0⟩,
  ⟨0x2c, 4, 1, 0, 0, 0, 0, 0⟩,
  ⟨0x30, 4, 1, 0, 0xffffffff, 0, 0, 0⟩,
  ⟨0x34, 4, 1, 0, 0xffffffff, 0, 0, 0⟩,
  ⟨0x38, 4, 1, 0, 0xffffffff, 0, 0, 0⟩,
  ⟨0x40, 4, 1, 0, 0, 0, 0, 0⟩,
  ⟨0x44, 4, 1, 0, 0, 0, 0, 0⟩,
  ⟨0x48, 4, 1, 0x4e20, 0xffffffff, 0, 0, 0⟩,
  ⟨0x4c, 4, 1, 0x281403, 0xffffff, 0, 0, 0⟩,
  ⟨0x100, 8, 8, 0, 0, 0, 0, 0⟩,
  ⟨0x104, 8, 8, 0, 0, 0, 0, 0⟩,
  ⟨0x180, 4, 1, 0, 0, 0, 1, 0⟩,
  ⟨0x200, 8, 8, 0, 0, 0, 0, 0⟩,
  ⟨0x204, 8, 8, 0, 0, 0, 0, 0⟩,
  ⟨0x240, 4, 1, 0, 0, 0, 0, 0⟩]
/-- Registers of the frame at 0x20E10000, part 2. -/
def specs_20e10000_1_b : List RegSpec := [
  ⟨0x244, 4, 1, 0, 0, 0, 0, 0⟩,
  ⟨0x80, 4, 1, 0, 0xffffffff, 0, 0, 0⟩,
  ⟨0x84, 4, 1, 0, 0xffffffff, 0, 0, 0⟩,
  ⟨0x88, 4, 1, 0x30002, 0xffffffff, 0, 0, 0⟩,
  ⟨0x8c, 4, 1, 0x80005, 0xffffffff, 0, 0, 0⟩,
  ⟨0x90, 4, 1, 0x50003, 0xffffffff, 0, 0, 0⟩,
  ⟨0x94, 4, 1, 0x12000a, 0xffffffff, 0, 0, 0⟩,
  ⟨0x98, 4, 1, 0xa0006, 0xffffffff, 0, 0, 0⟩,
  ⟨0x9c, 4, 1, 0x3c0019, 0xffffffff, 0, 0, 0⟩,
  ⟨0xa0, 4, 1, 0x30002, 0xffffffff, 0, 0, 0⟩,
  ⟨0xa4, 4, 1, 0x80005, 0xffffffff, 0, 0, 0⟩,
  ⟨0xa8, 4, 1, 0x50003, 0xffffffff, 0, 0, 0⟩,
  ⟨0xac, 4, 1, 0x12000a, 0xffffffff, 0, 0, 0⟩,
  ⟨0xb0, 4, 1, 0x80004, 0xffffffff, 0, 0, 0⟩,
  ⟨0xb4, 4, 1, 0x280014, 0xffffffff, 0, 0, 0⟩,
  ⟨0xb8, 4, 1, 0xf000a, 0xffffffff, 0, 0, 0⟩,
  ⟨0xbc, 4, 1, 0x46001e, 0xffffffff, 0, 0, 0⟩,
  ⟨0xc0, 4, 1, 0x50003, 0xffffffff, 0, 0, 0⟩,
  ⟨0xc4, 4, 1, 0x14000a, 0xffffffff, 0, 0, 0⟩,
  ⟨0xc8, 4, 1, 0xa0006, 0xffffffff, 0, 0, 0⟩,
  ⟨0xcc, 4, 1, 0x3c0019, 0xffffffff, 0, 0, 0⟩,
  ⟨0xd0, 4, 1, 0, 0xffffffff, 0, 0, 0⟩,
  ⟨0xd4, 4, 1, 0x82003c, 0xffffffff, 0, 0, 0⟩,
  ⟨0xd8, 4, 1, 0, 0xffffffff, 0, 0, 0⟩]
/-- Registers of the frame at 0x20E10000, part 3. -/
def specs_20e10000_1_c : List RegSpec := [
  ⟨0xdc, 4, 1, 0xaa0050, 0xffffffff, 0, 0, 0⟩,
  ⟨0xe0, 4, 1, 0x1e0014, 0xffffffff, 0, 0, 0⟩,
  ⟨0xe4, 4, 1, 0x96003c, 0xffffffff, 0, 0, 0⟩,
  ⟨0xe8, 4, 1, 0, 0, 0, 0, 0⟩,
  ⟨0xec, 4, 1, 0, 0, 0, 0, 0⟩,
  ⟨0xf0, 4, 1, 0, 0, 0, 0, 0⟩,
  ⟨0xf4, 4, 1, 0, 0, 0, 0, 0⟩,
  ⟨0xf8, 4, 1, 0, 0, 0, 0, 0⟩,
  ⟨0xfc, 4, 1, 0, 0, 0, 0, 0⟩]
def specs_20e10000_1 : List RegSpec := specs_20e10000_1_a ++ specs_20e10000_1_b ++ specs_20e10000_1_c
/-- Registers of the frame at 0x20F00000. -/
def specs_20f00000_1 : List RegSpec := [
  ⟨0, 4, 0x19c, 0x1200, 0x3ffff80, 0, 0, 0xc0000000⟩,
  ⟨0x840, 4, 0x90, 0, 0, 0, 0, 0⟩,
  ⟨0xc00, 4, 1, 0, 0, 0xc0000000, 0, 0⟩,
  ⟨0xc04, 4, 1, 0, 3, 0, 0, 0⟩]
/-- Registers of the frame at 0x38000000, part 1. -/
def specs_38000000_1_a : List RegSpec := [
  ⟨0x400, 0x20, 4, 0x3f0000, 0x803f00f7, 0, 0, 0⟩,
  ⟨0x404, 0x20, 4, 0, 0xffff, 0, 0, 0⟩,
  ⟨0x408, 0x20, 4, 0, 0xffffffff, 0, 0, 0⟩,
  ⟨0x40c, 0x20, 4, 0, 0xffffffff, 0, 0, 0⟩,
  ⟨0x410, 0x20, 4, 0, 0xffff, 0, 0, 0⟩,
  ⟨0x414, 0x20, 4, 0, 0xffffffff, 0, 0, 0⟩,
  ⟨0x418, 0x20, 4, 0, 0xffffffff, 0, 0, 0⟩,
  ⟨4, 4, 1, 0, 0, 0x40000000, 0, 0⟩,
  ⟨8, 4, 1, 0x800001, 0, 0x20000, 0, 0⟩,
  ⟨0xc, 4, 1, 0x7f, 0xff98, 0, 0, 0⟩,
  ⟨0x10, 4, 1, 0xaaaaaaaa, 0xffffffff, 0, 0, 0⟩,
  ⟨0x14, 4, 1, 0xaaaaaaaa, 0xffffffff, 0, 0, 0⟩,
  ⟨0x18, 4, 1, 0, 0, 0, 0, 0⟩,
  ⟨0x20, 4, 1, 0x3e8, 0xffff, 0, 0x80000000, 0⟩,
  ⟨0x24, 4, 1, 0x640000, 0xffffffff, 0, 0, 0⟩,
  ⟨0x28, 4, 1, 0, 0, 0, 0, 0⟩,
  ⟨0x2c, 4, 1, 0, 0, 0, 0, 0⟩,
  ⟨0x30, 4, 1, 0x51f, 0xf1f, 0, 0, 0⟩,
  ⟨0x34, 4, 1, 0, 0, 0x3f, 0, 0⟩,
  ⟨0x40, 4, 1, 0, 0, 0, 1, 0⟩,
  ⟨0x44, 4, 1, 0, 0, 0xc0000000, 0, 0⟩,
  ⟨0x48, 4, 1, 0, 0, 0, 0, 0⟩,
  ⟨0x50, 4, 1, 0, 0xfffff, 0, 0, 0⟩,
  ⟨0x200, 4, 0x10, 0, 0x800003ff, 0, 0, 0⟩]
/-- Registers of the frame at 0x38000000, part 2. -/
def specs_38000000_1_b : List RegSpec := [
  ⟨0x100, 4, 0x10, 0, 0xffffffff, 0, 0, 0⟩,
  ⟨0x140, 4, 1, 0, 0xffff, 0, 0, 0⟩,
  ⟨0x180, 4, 0x10, 0, 0xffffffff, 0, 0, 0⟩,
  ⟨0x1c0, 4, 1, 0, 0xffff, 0, 0, 0⟩,
  ⟨0x804, 4, 0x3f, 0, 0xe0000000, 0, 0, 0⟩,
  ⟨0x480, 4, 1, 0, 0, 0xf, 0, 0⟩]
def specs_38000000_1 : List RegSpec := specs_38000000_1_a ++ specs_38000000_1_b

/-- Every frame with registers: its first frame base divided by 64 KiB, how many equal frames follow one
another, and its registers. -/
def frameTable : List (Nat × Nat × List RegSpec) := [
  (0x2010, 1, specs_20100000_1),
  (0x2011, 8, specs_20110000_8),
  (0x2020, 1, specs_20200000_1),
  (0x2030, 1, specs_20300000_1),
  (0x2031, 1, specs_20310000_1),
  (0x2040, 1, specs_20400000_1),
  (0x2041, 2, specs_20410000_2),
  (0x2050, 1, specs_20500000_1),
  (0x2060, 1, specs_20600000_1),
  (0x2070, 1, specs_20700000_1),
  (0x2071, 4, specs_20710000_4),
  (0x2080, 1, specs_20800000_1),
  (0x2090, 1, specs_20900000_1),
  (0x2091, 1, specs_20910000_1),
  (0x2091, 6, specs_20910000_6),
  (0x2097, 1, specs_20970000_1),
  (0x2098, 1, specs_20980000_1),
  (0x20a0, 1, specs_20a00000_1),
  (0x20a1, 1, specs_20a10000_1),
  (0x20a2, 6, specs_20a20000_6),
  (0x20b0, 1, specs_20b00000_1),
  (0x20b1, 4, specs_20b10000_4),
  (0x20b5, 1, specs_20b50000_1),
  (0x20b7, 4, specs_20b70000_4),
  (0x20bb, 4, specs_20bb0000_4),
  (0x20c0, 1, specs_20c00000_1),
  (0x20d0, 1, specs_20d00000_1),
  (0x20d1, 1, specs_20d10000_1),
  (0x20e0, 1, specs_20e00000_1),
  (0x20e1, 1, specs_20e10000_1),
  (0x20f0, 1, specs_20f00000_1),
  (0x3800, 1, specs_38000000_1)]

/-- The record of the register at offset `o`, when the list has one. -/
def findSpec : List RegSpec → Nat → Option RegSpec
  | [], _ => none
  | r :: rs, o =>
    if decide (r.off ≤ o) && ((o - r.off) % r.stride == 0) && decide ((o - r.off) / r.stride < r.cnt) then some r
    else findSpec rs o

/-- The registers of frame `f` (a frame base divided by 64 KiB). -/
def frameSpecs : List (Nat × Nat × List RegSpec) → Nat → List RegSpec
  | [], _ => []
  | (b, n, rs) :: t, f => if decide (b ≤ f) && decide (f < b + n) then rs ++ frameSpecs t f else frameSpecs t f

/-- The record of the register at physical address `pa`, when a chapter defines one there (R16). -/
def regSpec (pa : Nat) : Option RegSpec := findSpec (frameSpecs frameTable (pa / 0x10000)) (pa % 0x10000)

/-- The value of the register at `pa` right after PRST_N (R9). -/
def regReset (pa : Nat) : Word :=
  match regSpec pa with
  | some r => BitVec.ofNat 32 r.rst
  | none => 0

end Sys2Proof.Machine
end

