-- ==== Sys2Proof/Machine/SMap.lean ====
section
/-! DEFINITION. Sparse data by key: a list of key and value pairs in one canonical form.

The keys rise strictly and no entry holds what an unlisted key reads as, so equal contents are equal lists.
`d` says what an unlisted key reads as. -/
namespace Sys2Proof.Machine

/-- The value at key `k`: the entry's, or what an unlisted key reads as. -/
def smGet {α : Type} (d : Nat → α) : List (Nat × α) → Nat → α
  | [], k => d k
  | (j, v) :: t, k => if j = k then v else smGet d t k

/-- The entries of other keys than `k`. -/
def smErase {α : Type} (m : List (Nat × α)) (k : Nat) : List (Nat × α) := m.filter fun e => e.1 != k

/-- An entry put in its place by key. -/
def smInsert {α : Type} (k : Nat) (v : α) : List (Nat × α) → List (Nat × α)
  | [] => [(k, v)]
  | (j, w) :: t => if k < j then (k, v) :: (j, w) :: t else (j, w) :: smInsert k v t

/-- The value at key `k` made `v`, in canonical form: writing what an unlisted key reads as removes the entry. -/
def smPut {α : Type} [DecidableEq α] (d : Nat → α) (m : List (Nat × α)) (k : Nat) (v : α) : List (Nat × α) :=
  if v = d k then smErase m k else smInsert k v (smErase m k)

/-- Every key of the list lies above `b`, the keys rise, and no entry holds the value of an unlisted key. -/
def smWfFrom {α : Type} [DecidableEq α] (d : Nat → α) : Option Nat → List (Nat × α) → Bool
  | _, [] => true
  | b, (k, v) :: t =>
    (match b with | none => true | some x => decide (x < k)) && decide (v ≠ d k) && smWfFrom d (some k) t

/-- The canonical form. -/
def smWf {α : Type} [DecidableEq α] (d : Nat → α) (m : List (Nat × α)) : Bool := smWfFrom d none m

/-- The entries whose key satisfies `p` dropped: those keys read as unlisted again. -/
def smDrop {α : Type} (p : Nat → Bool) (m : List (Nat × α)) : List (Nat × α) := m.filter fun e => !p e.1

end Sys2Proof.Machine
end

