-- ==== Sys2Proof/Machine/State.lean ====
section
/-! DEFINITION. The state of the device, its fault and refusal reasons, and the state after reset.

Registers that software reaches through control space or through the SI register frame live in one sparse
map by physical address, `State.regs`; an unlisted register holds its reset value.
Everything else the manual gives the device has a field of its own. -/
namespace Sys2Proof.Machine

/-- Privilege levels (R223). LVL 0b10 is never held. -/
inductive Level where
  | u | s | m
  deriving DecidableEq, Repr

/-- A captured vector entry: INT_N or INT_F of one table (R226). `ok` is false when its read failed. -/
structure VecEntry where
  ok : Bool
  handler : Word
  hold : Nat
  deriving DecidableEq, Repr

/-- A copy of a combined translation (R266). `ubit` is none where stage 1 is bare (R252). -/
structure TlbEntry where
  va : Nat
  sz : Nat
  asid : Nat
  part : Nat
  pa : Nat
  r : Bool
  w : Bool
  x : Bool
  ubit : Option Bool
  attr : Nat
  sdev : Bool
  d : Bool
  ipa : Nat
  ipaSz : Nat
  deriving DecidableEq, Repr

/-- A walk-cache entry: a stage-2 translation (R266). -/
structure S2Entry where
  ipa : Nat
  sz : Nat
  part : Nat
  pa : Nat
  r : Bool
  w : Bool
  x : Bool
  attr : Nat
  a : Bool
  d : Bool
  depth : Nat
  entryPa : Nat
  deriving DecidableEq, Repr

/-- The MMU registers of one partition as a walk samples them at its start (R254); `tmo` says that the time of the read it waits for has expired
(R310). -/
structure MmuCfg where
  adhw : Bool
  s2base : Nat
  s2log : Nat
  s1base : Nat
  s1en : Bool
  s2en : Bool
  s1sizes : Nat
  s1log : Nat
  s2sizes : Nat
  tmo : Bool
  deriving DecidableEq, Repr

/-- The accesses that R259 tells apart. -/
inductive AccKind where
  | fetch | load | store | atom | probeR | probeW | vsrc | vdst
  deriving DecidableEq, Repr

/-- Why a translation failed, as R264 reports it: `s2` says stage 2, `cause` is WCAUSE, `ipa` what MTIPA or VC_FIPA records. -/
structure WalkFail where
  s2 : Bool
  probe : Nat
  cause : Nat
  size : Nat
  table : Bool
  ipa : Nat
  deriving DecidableEq, Repr

/-- The outcome of a translation. `align` is the alignment failure that follows from the device attribute, in a page of size `sz` (R236). -/
inductive XRes where
  | ok (e : TlbEntry)
  | fail (f : WalkFail)
  | align (sz : Nat)
  | wait
  deriving DecidableEq, Repr

/-- The answer to a request that left through the Idene Link, not yet taken by its requester. -/
structure LinkRsp where
  pa : Nat
  len : Nat
  resp : Nat
  bytes : List Byte
  deriving DecidableEq, Repr

/-- A walk whose probe reads wait, for agent `ag` (a core's number, or 8 and a context's): what it translates, the registers it
sampled, whether it may leave a copy (R271), whether its requester still wants it, the cores whose TLBI waits for it, whether it still waits for
a place among the walks that run (R265), its result once done, and the answers that its accesses have had. -/
structure WalkRec where
  ag : Nat
  va : Nat
  asid : Nat
  part : Nat
  kind : AccKind
  user : Bool
  misal : Bool
  cfg : MmuCfg
  keep : Bool
  wanted : Bool
  tlbi : List Nat
  queued : Bool
  res : Option XRes
  rsp : List LinkRsp
  deriving DecidableEq, Repr

/-- A byte of a line that the L2 may hold dirty: its address, what memory itself holds, and what the cores' cacheable accesses see (R249). -/
structure L2Byte where
  pa : Nat
  old : Byte
  new : Byte
  deriving DecidableEq, Repr

/-- A retired store that has not yet drained (R248); `out` says that it has been issued and waits at its target. -/
structure BufStore where
  pa : Nat
  bytes : List Byte
  lvl : Nat
  m : Nat
  out : Bool
  deriving DecidableEq, Repr

/-- A stretch of an access that lies in one page: its physical address, its length, whether it has the device attribute, whether
it is cacheable, and its virtual address. -/
structure Piece where
  pa : Nat
  len : Nat
  dev : Bool
  cached : Bool
  va : Nat
  deriving DecidableEq, Repr

/-- An access of an engine that its port has issued and that waits at its target (R302, R312); `live` says that the engine has asked for it since
the last XCLK began, `tmo` that its time has expired (R310). -/
structure BusHeld where
  m : Nat
  wr : Bool
  pa : Nat
  len : Nat
  live : Bool
  tmo : Bool
  deriving DecidableEq, Repr

/-- A transaction on the bus matrix, from its request to its response (R300 to R312): `kind` 0 read, 1 write, 2 atomic.
`todo` holds the runs of enabled bytes not yet performed, with their addresses; `data` is what a read has returned, no byte where a beat
carried none (R308).
`granted` says that its target has taken it, `auto` that no command takes its response, and `gone` that its time has expired. -/
structure Xact where
  m : Nat
  core : Nat
  id : Nat
  kind : Nat
  pa : Nat
  len : Nat
  fn : Nat
  lvl : Level
  qos : Nat
  coll : List Nat
  todo : List (Nat × List Byte)
  data : List (Option Byte)
  granted : Bool
  answered : Bool
  resp : Nat
  aged : Bool
  det : Bool
  auto : Bool
  gone : Bool
  deriving DecidableEq, Repr

/-- One AQ32 core (R194, R195 and the chapters' private system registers). `marked` says that the instruction in progress has named
what it waits for (R35, R104, R271, R272).
Of the instruction in progress, `fetched` says that it has been fetched, `rsp` holds the answers to its accesses so far in order, `nacc` how many
of them the present attempt has used, and `await` the access that waits at its target.
`tr` holds the translations of its accesses, kept while one of them has been made (R235).
`lbuf` is the loop buffer, address and word, `lcap` what the pass in progress captures, and `lold` the bytes that the active loop's own stores have
overwritten in its body, as they were (R215); `fblk` is the block that deterministic mode has fetched (R249).
`entWin` is the window that opens when the first instruction of a handler issues, and whether one was open at the entry (R231). -/
structure Core where
  g : Vector Word 32
  gs : Vector Word 10
  f : Vector Dword 32
  pc : Word
  lvl : Level
  sr : List (Nat × Word)
  released : Bool
  lockup : Bool
  waiting : Bool
  hold : Nat
  loopDone : Bool
  sbuf : List BufStore
  stPend : Bool
  fpTrap : Option (Word × Nat)
  stall : Option Instr
  vecMN : VecEntry
  vecMF : VecEntry
  vecSN : VecEntry
  vecSF : VecEntry
  itlb : List TlbEntry
  dtlb : List TlbEntry
  tlb2 : List TlbEntry
  svuWaking : Bool
  marked : Bool
  rsp : List LinkRsp
  nacc : Nat
  fetched : Bool
  await : Option Xact
  lbuf : List (Word × Word)
  lcap : Option (List (Word × Word))
  fblk : Option (Nat × List Byte)
  tr : List (Nat × Nat × AccKind × List Piece)
  lold : List (Nat × Byte)
  entWin : Option (Nat × Bool)
  entN : Nat
  entF : Nat
  deriving DecidableEq, Repr

/-- Who waits for the answer to a request that left through the Idene Link: a core's load, a core's store, a bus
transaction of a master, a vector context, the completion record of a context, or nobody. -/
inductive ReqOwner where
  | load (c : CoreId)
  | store (c : CoreId) (lvl : Nat)
  | xact (m : Nat) (id : Nat)
  | vse (x : Nat)
  | record (x : Nat)
  | nobody
  deriving DecidableEq, Repr

/-- A request outstanding on the Idene Link (R368, R370): `kind` 0 read, 1 write, 2 atomic; `port` 6 is a request to the
node's own window that M5 has not performed yet (R20), with what it writes and the Erg words named as losing a collision. -/
structure OutReq where
  tag : Nat
  kind : Nat
  pa : Nat
  len : Nat
  m : Nat
  owner : ReqOwner
  port : Nat
  gone : Bool
  fn : Nat
  data : List Byte
  coll : List Nat
  deriving DecidableEq, Repr

/-- A packet at the output of a port: `sent` says that it has been transmitted, with its link sequence number, and is in the replay buffer
until it is acknowledged (R351, R364); `mtx` that it is the packet of IDL_MTXBUF (R358). -/
structure LinkOut where
  port : Nat
  seq : BitVec 8
  pkt : Packet
  sent : Bool
  mtx : Bool
  deriving DecidableEq, Repr

/-- A stream descriptor (R36), as its words give it; TAG has no meaning to the engine. -/
structure Desc where
  base : Nat
  stride : Int
  modlen : Nat
  modpos : Nat
  trans : Bool
  remote : Bool
  rcls : Bool
  hash : Bool
  idx : Nat
  idxen : Bool
  field : Nat
  fcnt : Nat
  ty : Nat
  deriving DecidableEq, Repr

/-- A vector command with its issue number (R66, R69). -/
structure QCmd where
  w : Dword
  issue : Nat
  deriving DecidableEq, Repr

/-- A closed chain group in its queue (R89). `tooMany` is the position and the slot count of a group that needs more than eight slots at
its close (R93); `fences` names the cores whose VFENCE, VSD or VLDD waits for it (R35, R104). -/
structure Grp where
  cmds : List QCmd
  tooMany : Option (Nat × Nat)
  fences : List Nat
  deriving DecidableEq, Repr

/-- A translation that a survey found, or its failure, as the group keeps it (R155); `old` names the cores whose VINV removed copies
after it was found (R272). -/
structure Found where
  va : Nat
  kind : AccKind
  res : XRes
  old : List Nat
  deriving DecidableEq, Repr

/-- An instruction of a group with what step 1 of its survey sampled (R152): each named descriptor, and the index descriptor that it
names in turn. -/
structure SInstr where
  w : Dword
  len : Nat
  a : Option Desc
  b : Option Desc
  c : Option Desc
  m : Option Desc
  d : Option Desc
  ai : Desc
  bi : Desc
  ci : Desc
  mi : Desc
  di : Desc
  deriving DecidableEq, Repr

/-- Where a group is between the start of its survey and its end: `survey` until step 5 has its verdict, `prev` with steps 1 to 3 done and
the previous group still running (R91), `inflight` in step 5 (R436), `table` and `slots` in step 6 (R155, R94), then streaming. -/
inductive RunPhase where
  | survey | prev | inflight | table | slots | stream
  deriving DecidableEq, Repr

/-- Why a group stops, as its record and fault registers report it (R159 to R161). -/
structure Cond where
  status : Nat
  cause : Nat
  instr : Nat
  stream : Nat
  isrc : Nat
  elem : Nat
  count : Nat
  stage : Bool
  probe : Nat
  va : Option Nat
  ipa : Option Nat
  pa : Option Nat
  deriving DecidableEq, Repr

/-- A destination write of a streaming group that was refused: the instruction, the element, its addresses, and the CAUSE (R161, R166). -/
structure WrRefused where
  k : Nat
  elem : Nat
  va : Nat
  pa : Nat
  cause : Nat
  deriving DecidableEq, Repr

/-- A remote write that no request has carried yet: its traffic class, the instruction and element it belongs to, its addresses and bytes. -/
structure PendWrite where
  cls : Nat
  k : Nat
  elem : Nat
  va : Nat
  pa : Nat
  bytes : List Byte
  deriving DecidableEq, Repr

/-- An accumulator: the value V, the bits NAN, PINF, NINF of S (R135), and what its code holds: 0 good, 1 a correctable error, 2 an
uncorrectable one (R151, R169). -/
structure EauAcc where
  v : BitVec 4320
  s : BitVec 3
  err : Nat
  deriving DecidableEq, Repr

/-- A byte of a destination before an instruction of a streaming group wrote it: the instruction, its element, the physical address, the byte, and what
the memory held of its code. -/
structure OldByte where
  k : Nat
  elem : Nat
  pa : Nat
  b : Byte
  ecc : BitVec 13
  dram : Nat
  deriving DecidableEq, Repr

/-- A group in survey or streaming.
`conds` holds the conditions that its survey has met while the previous group ran, and `ended` says that they ended it (R91); `checked` that step 2
is done. `refused` holds the writes of the group that were refused, `eard` what VEARD instructions have cleared, by instruction and
accumulator, `undo` the bytes that its instructions wrote over, oldest first, `fls` the flags that each instruction raised, and `masks` the masks that they took.
`found` holds the translations of its pages, `idx` the index values by position and stream, `vals` the elements that each instruction
run so far has produced, `stamp` its order of arrival in step 6 and then at the slots. -/
structure Run where
  ins : List SInstr
  drm : Nat
  te : Nat
  asid : Nat
  part : Nat
  phase : RunPhase
  found : List Found
  idx : List (Nat × Nat × List Nat)
  pages : Nat
  energy : Nat
  slow : Bool
  slots : Nat
  stamp : Nat
  pos : Nat
  vals : List (List Nat)
  wcnt : List Nat
  flags : BitVec 6
  trap : Option (Nat × Nat × Nat)
  vcomp : Nat
  stopped : Option Cond
  refused : List WrRefused
  eard : List (Nat × Nat × EauAcc)
  conds : List Cond
  ended : Bool
  checked : Bool
  undo : List OldByte
  fls : List (BitVec 6)
  masks : List (List Bool)
  deriving DecidableEq, Repr

/-- A completion record that is to be written (R107); `sent` says that its write has left through the Idene Link and is not answered. -/
structure CRec where
  words : List Word
  status : Nat
  issue : Nat
  sent : Bool
  deriving DecidableEq, Repr

/-- What a data word asks of the lanes (R181): the lane operation, the element type, the ports of the sources A, B, C, of the mask and of the
destination, the elements per issue, the rounding selector, whether flags go into the group, and how many elements the issue moved. -/
structure DataOp where
  lop : Nat
  ty : Nat
  pa : Nat
  pb : Nat
  pc : Nat
  pm : Nat
  pd : Nat
  ecnt : Nat
  rmsel : Nat
  flgen : Bool
  moved : Nat
  deriving DecidableEq, Repr

/-- The microsequencer's work for one context (R179 to R183): whether a routine is under way, the microaddress of its current word, the
micro-stack, the micro-registers U0 to U31 and the last ALU result, the unit request (UNIT, UOP, IMM) that no unit has answered, the lane
configuration, whether the word is a waiting data word, the VCLK since the last POLL point, and the last data word issued.
`word` is the word under way and `left` its VCLK to come; `ins` is the instruction that the routine carries out and `done` the elements it has
moved; `miss` and `fault` say that the last translation request missed and that the last unit request found a fault. -/
structure USeq where
  live : Bool
  upc : BitVec 13
  stack : List (BitVec 13)
  u : Vector Word 32
  alu : Word
  req : Option (Nat × Nat × Word)
  setup : BitVec 36
  waiting : Bool
  since : Nat
  issued : Option DataOp
  word : BitVec 176
  left : Nat
  ins : Nat
  done : Nat
  miss : Bool
  fault : Bool
  deriving DecidableEq, Repr

/-- A vector context beyond its frame registers.
`held` counts the commands at the front of the queue that a suspension holds (R172), `rule` is the start rule that the head group met and
`trigd` says that its trigger has come (R111), `suspPend` that a VSUSP has not taken effect yet, `unsent` the remote writes that no request
has carried yet. -/
structure VCtx where
  closed : List Grp
  opened : List QCmd
  held : Nat
  rule : Nat
  trigd : Bool
  retained : Bool
  suspPend : Bool
  cur : Option Run
  sv : Option Run
  recs : List CRec
  lap : Bool
  rsp : List LinkRsp
  unsent : List PendWrite
  useq : USeq
  deriving DecidableEq, Repr

/-- The OTP of the key and signature unit (R443): `lcs` is the lifecycle state, `keyDig` holds KEYDIG0 to KEYDIG3 (all zero: not
provisioned), the counters hold how many of their 64 bits are burnt. -/
structure Otp where
  lcs : BitVec 3
  imgKey : BitVec 256
  keyDig : Vector (BitVec 384) 4
  keyRev : BitVec 4
  patchKey : BitVec 768
  patchAes : BitVec 256
  imgCtr : Nat
  patchCtr : Nat
  patchReq : Bool
  bootRetry : BitVec 2
  uid : BitVec 64
  deriving DecidableEq, Repr

/-- An item of the image in use, as its table entry gives it (R448). -/
structure BootItem where
  ty : Nat
  clear : Bool
  dest : Nat
  offs : Nat
  len : Nat
  deriving DecidableEq, Repr

/-- A configuration record (R452). -/
structure CfgRec where
  op : Nat
  flag : Bool
  n : Nat
  addr : Nat
  value : Word
  mask : Word
  deriving DecidableEq, Repr

/-- Where a start is (R454): `off` before any start, `locks` in step 2 until the PLLs have locked, `selftest` with an image chosen until the
self-test has ended, `fill` in step 3 until the Erg is zero-filled, `records` while configuration records are applied, `delay` in a DELAY record,
`imgCounter` while IMGCTR advances, `patch` before the patch is loaded, `counter` in step 9 of patch processing (R189) and before the SI is released,
`cores` before the cores are, `done`, `failed`, and `retry` while the BCU waits before a retry (R457). -/
inductive BootPhase where
  | off | locks | selftest | fill | records | delay | imgCounter | patch | counter | cores | done | failed | retry
  deriving DecidableEq, Repr

/-- The start in progress: the NVM offset of the image in use, its items not yet processed, the CONFIG item's records not yet applied, and
the index of the next one; `t0` is TB_NS at its failure. -/
structure BootSt where
  phase : BootPhase
  t0 : Nat
  img : Nat
  items : List BootItem
  recs : List CfgRec
  idx : Nat
  deriving DecidableEq, Repr

/-- The xSPI host (R445, R457): the mode, the divisor of 600 MHz, the dummy cycles and the opcode of its reads, and whether its pins are at high
impedance. -/
structure Xspi where
  mode : Nat
  div : Nat
  dummy : Nat
  cmd : Nat
  hiz : Bool
  deriving DecidableEq, Repr

/-- The ledger's instants (R433, R438): a refill instant, or the end of 1 ms, has come and is not served; the nJ of all channels in the present 1 ms. -/
structure ElgSt where
  due : Bool
  plimDue : Bool
  win : Nat
  deriving DecidableEq, Repr

/-- The PMU beyond its registers: the XCLK of the last GO and of the last wake event (R442), and what the pads have held since COCOON was entered, by
the number of a free choice (R477). -/
structure PmuSt where
  goAt : Option Nat
  wakeAt : Option Nat
  padHold : Option Nat
  deriving DecidableEq, Repr

/-- The Safety Island beyond its registers: the XCLK of the last trigger and whether a release of the latch is to be performed (R412), the XCLK from
which the watchdog counts (R414), and the cycles of the SI oscillator in 1,024 of REFCLK: as measured last, and as they time the monitor's
windows (R416). -/
structure SiSt where
  trigAt : Option Nat
  relPend : Bool
  wdT0 : Nat
  oscLast : Option Nat
  oscCorr : Nat
  deriving DecidableEq, Repr

/-- The store unit's operation (R465, R468): none, a commit, an erase, a program, or the erase of the slot that the next commit takes. -/
inductive NvmOp where
  | idle
  | commit (slot : Nat) (seq : Word) (data : List Byte)
  | erase (lo hi : Nat)
  | program (dst : Nat) (data : List Byte)
  | prepare (slot : Nat)
  deriving DecidableEq, Repr

/-- The schedule engine beyond its registers (R381 to R387): `first` the next boundary before any macrocycle began, `begun` whether one has,
`bnd` the boundary of the macrocycle in progress, `ended` that its END entry has been performed, `stale` that the shadow bank was written since
REQ, `crc` the check's result, `wr` the writes that M10 has not taken yet, `errs` the error responses not yet reported. -/
structure SceSt where
  first : Nat
  begun : Bool
  bnd : Nat
  ended : Bool
  stale : Bool
  crc : Nat
  wr : List (Nat × Word)
  errs : List (Nat × Nat)
  deriving DecidableEq, Repr

/-- A ring descriptor that the device has read (R389). -/
structure RingDesc where
  addr : Nat
  len : Nat
  w2 : Word
  deriving DecidableEq, Repr

/-- A frame that a MAC transmits: its queue, its descriptors, the STATUS of the one whose buffer access failed and which that is, its stamp and
its bytes. -/
structure TxFrame where
  q : Nat
  descs : List RingDesc
  status : Nat
  bad : Nat
  stamp : Nat
  frame : List Byte
  deriving DecidableEq, Repr

/-- A transmit frame that M6 fetches: its queue, the descriptors read so far and whether the last of them has EOF, and of how many buffers the bytes
have been read (R389). -/
structure TxFetch where
  q : Nat
  descs : List RingDesc
  whole : Bool
  bufs : Nat
  data : List Byte
  deriving DecidableEq, Repr

/-- An Ethernet MAC beyond its registers: its gates with the CLOSING bits and CLOSE point of the last GATE action (R391), how many frames
of each queue are released (R383), the frame being fetched, the frame on the wire, and by queue the frames of the device's own: copies of another
MAC's frames (802.1CB) and 802.1AS messages (R390). -/
structure MacSt where
  gates : BitVec 8
  closing : BitVec 8
  closeAt : Option Nat
  rel : List (Nat × Nat)
  fetch : Option TxFetch
  tx : Option TxFrame
  own : List (Nat × List Byte)
  up : Bool
  deriving DecidableEq, Repr

/-- An 802.1CB recovery function: the highest sequence number, the history bits below it, and whether it has taken a number since its reset (while it has not, any number is taken). -/
structure FrerSt where
  seq : Nat
  hist : Nat
  live : Bool
  deriving DecidableEq, Repr

/-- A CAN FD controller beyond its registers: buffers that hold a frame, buffers requested, the received frames with the TB_NS of their
start, and the transmit error counter, bus-off from 256 on (R398). -/
structure CanSt where
  held : BitVec 32
  req : BitVec 32
  rx : List (Nat × List Byte)
  tec : Nat
  deriving DecidableEq, Repr

/-- A UART beyond its registers: DE asserted, characters received, the idle timeout running, and a transmission started (R399, R402). -/
structure UartSt where
  de : Bool
  rx : List (BitVec 9)
  idle : Bool
  go : Bool
  deriving DecidableEq, Repr

/-- What the train networks' DMA has still to store, because its port is disabled or its target makes it wait (R22, R312): a sink port's process data,
a received frame of a MAC with its queue and the time of its arrival, its descriptor once read and the STATUS word to write back once its
bytes are stored, the descriptors of a transmitted frame given back, from index `h` of the ring on, of which `i` are written; a CAN
frame with the TB_NS of its start, a character of a UART. -/
inductive Dma where
  | mvb (port : Nat) (data : List Byte)
  | rx (n q : Nat) (frame : List Byte) (crcOk : Bool) (at_ : Time80) (got : Option RingDesc) (fin : Option Word)
  | back (n : Nat) (t : TxFrame) (h i : Nat)
  | can (c t : Nat) (frame : List Byte)
  | uart (u : Nat) (ch : BitVec 9)
  deriving DecidableEq, Repr

/-- A class-0 slot that has started: its descriptor, the slot's start, whether the payload read is still under way, and what it has returned
(R365). -/
structure C0Slot where
  k : Nat
  start : Nat
  reads : Bool
  data : Option (List Byte)
  deriving DecidableEq, Repr

/-- A servo of the time base: how many good exchanges in a row, and whether an exchange has come since the source was unlocked (R372, R373, R393). -/
structure Servo where
  good : Nat
  fresh : Bool
  deriving DecidableEq, Repr

/-- Why the machine stops. No meaning of this model raises a fault: the one reason is kept for a state that the
model itself would call broken, and stopping there is safe. -/
inductive Fault where
  /-- Raised by nothing; stopping is safe. -/
  | broken
  deriving DecidableEq, Repr

/-- Why a command has no meaning here. -/
inductive Refusal where
  /-- Raised by `exec` for a command whose meaning is not written yet; stopping is safe. -/
  | notModelled (mnemonic : String)
  deriving DecidableEq, Repr

/-- The state of the device. `pwr` is the power state: 0 RUN, 1 DOZE, 2 COCOON, 3 DORMANT, 4 stopped by a power failure, 5 held in reset by
PRST_N (R423, R439, R477). -/
structure State where
  pending : List Instr
  regs : List (Nat × Word)
  cores : Vector Core 5
  mem : List (Nat × Byte)
  ecc : List (Nat × BitVec 13)
  dramErr : List (Nat × Nat)
  ceWb : List (Nat × Nat)
  fresh : Nat
  icuHeld : List Nat
  edges : List Nat
  tb : Time80
  tbSub : Nat
  adjPend : Int
  xclk : Nat
  tmAcc : List (Nat × Nat)
  evrHeld : List Nat
  evoutBusy : BitVec 16
  evoutLvl : BitVec 16
  capDead : BitVec 16
  fillRun : BitVec 8
  ergSlots : BitVec 8
  scrubT0 : Nat
  lapLate : Bool
  vclkStop : Option Nat
  dmcTraining : Bool
  patrol : List (Nat × Nat)
  pwrfailN : Bool
  cmNow : BitVec 6
  outst : List OutReq
  linkTx : List LinkOut
  xacts : List Xact
  walkCache : List S2Entry
  walks : List WalkRec
  vseTlb : List TlbEntry
  vctx : Vector VCtx 8
  eau : Vector EauAcc 8
  stamps : Nat
  pwr : Nat
  pfFilter : Bool
  elgCredit : Int
  elgStage : Word
  pfT0 : Nat
  wakeReq : BitVec 8
  bypT0 : Nat
  otp : Otp
  nvm : List (Nat × Byte)
  boot : BootSt
  nvmOp : NvmOp
  sceBank0 : List (Nat × Word)
  sceBank1 : List (Nat × Word)
  sce : SceSt
  c0 : List C0Slot
  mac : Vector MacSt 4
  qciDebt : List (Nat × Nat)
  qciLast : List (Nat × Nat)
  frer : List (Nat × FrerSt)
  genSeq : List (Nat × Nat)
  can : Vector CanSt 4
  uart : Vector UartSt 4
  mvbWait : Option Nat
  mvbRead : Option Nat
  mvbSent : Option (List Byte)
  txSeq : Vector (BitVec 8) 6
  retries : Vector (BitVec 8 × Nat) 6
  helloIn : BitVec 6
  ended : List (OutReq × Nat × List Byte)
  inHeld : List (Nat × Packet)
  mgmtHeld : List (List Byte)
  helloSent : Vector (Option Hello) 6
  exchSent : Vector (Option (Time80 × Time80)) 6
  ft : Servo
  as : Servo
  microWb : List Nat
  claimed : List Nat
  arb : List (Nat × Nat)
  retryReq : BitVec 6
  c1Share : Vector (Nat × Nat) 6
  chkDirty : List Nat
  linkActs : Option (List (Nat × Nat × Nat))
  stepFrom : Option (Bool × Nat × List Nat)
  stepMark : Option Time80
  dmaHeld : List Dma
  held : List BusHeld
  lateTags : List Nat
  xspi : Xspi
  wtape : List LinkRsp
  wtapeN : Nat
  l2Old : List L2Byte
  elg : ElgSt
  pmu : PmuSt
  si : SiSt
  deriving DecidableEq, Repr

/-- A captured entry that names no handler. -/
def VecEntry.reset : VecEntry := ⟨true, 0, 0⟩

/-- A core after reset, held until the BCU releases it (R196, R455). -/
def Core.reset : Core :=
  { g := Vector.replicate 32 0, gs := Vector.replicate 10 0, f := Vector.replicate 32 0, pc := 0, lvl := .m,
    sr := [], released := false, lockup := false, waiting := false, hold := 0, loopDone := false, sbuf := [],
    stPend := false, fpTrap := none, stall := none, vecMN := .reset, vecMF := .reset, vecSN := .reset,
    vecSF := .reset, itlb := [], dtlb := [], tlb2 := [], svuWaking := false, marked := false, rsp := [], nacc := 0, fetched := false,
    await := none, lbuf := [], lcap := none, fblk := none, tr := [], lold := [], entWin := none, entN := 0, entF := 0 }

/-- No routine under way. -/
def USeq.reset : USeq :=
  { live := false, upc := 0, stack := [], u := Vector.replicate 32 0, alu := 0, req := none, setup := 0, waiting := false, since := 0,
    issued := none, word := 0, left := 0, ins := 0, done := 0, miss := false, fault := false }

/-- A context that is not allocated. -/
def VCtx.reset : VCtx :=
  { closed := [], opened := [], held := 0, rule := 0, trigd := false, retained := false, suspPend := false, cur := none,
    sv := none, recs := [], lap := true, rsp := [], unsent := [], useq := .reset }

/-- A cleared accumulator. -/
def EauAcc.zero : EauAcc := ⟨0, 0, 0⟩

/-- An OTP in which nothing is programmed. -/
def Otp.blank : Otp :=
  { lcs := 0, imgKey := 0, keyDig := Vector.replicate 4 0, keyRev := 0, patchKey := 0, patchAes := 0, imgCtr := 0, patchCtr := 0,
    patchReq := false, bootRetry := 0, uid := 0 }

/-- No start in progress. -/
def BootSt.reset : BootSt := { phase := .off, t0 := 0, img := 0, items := [], recs := [], idx := 0 }

/-- The first reads: 1S-1S-1S at 12.5 MHz with command 0x13 (R445). -/
def Xspi.reset : Xspi := { mode := 0, div := 48, dummy := 0, cmd := 0x13, hiz := false }

/-- No instant to serve. -/
def ElgSt.reset : ElgSt := { due := false, plimDue := false, win := 0 }

/-- No request and no wake event. -/
def PmuSt.reset : PmuSt := { goAt := none, wakeAt := none, padHold := none }

/-- No trigger, no release, and the oscillator at its nominal 50 MHz. -/
def SiSt.reset : SiSt := { trigAt := none, relPend := false, wdT0 := 0, oscLast := none, oscCorr := 2048 }

/-- The schedule engine stopped. -/
def SceSt.reset : SceSt := { first := 0, begun := false, bnd := 0, ended := false, stale := false, crc := 0, wr := [], errs := [] }

/-- A MAC after reset: every gate is open (R391). -/
def MacSt.reset : MacSt := { gates := 0xFF, closing := 0, closeAt := none, rel := [], fetch := none, tx := none, own := [], up := false }

/-- A recovery function with no history. -/
def FrerSt.reset : FrerSt := { seq := 0, hist := 0, live := false }

/-- A CAN FD controller with empty buffers. -/
def CanSt.reset : CanSt := { held := 0, req := 0, rx := [], tec := 0 }

/-- A UART at rest. -/
def UartSt.reset : UartSt := { de := false, rx := [], idle := false, go := false }

/-- A servo that has seen nothing. -/
def Servo.reset : Servo := { good := 0, fresh := true }

/-- The device right after PRST_N. -/
def State.reset : State :=
  { pending := [], regs := [], cores := Vector.replicate 5 Core.reset, mem := [], ecc := [],
    dramErr := [], ceWb := [], fresh := 0, icuHeld := [], edges := [], tb := 0, tbSub := 0, adjPend := 0, xclk := 0, tmAcc := [], evrHeld := [],
    evoutBusy := 0, evoutLvl := 0, capDead := 0, fillRun := 0, ergSlots := 0, scrubT0 := 0, lapLate := false, vclkStop := none, dmcTraining := false, patrol := [],
    pwrfailN := true, cmNow := 0, outst := [], linkTx := [], xacts := [], walkCache := [],
    walks := [], vseTlb := [], vctx := Vector.replicate 8 VCtx.reset, eau := Vector.replicate 8 EauAcc.zero,
    stamps := 0, pwr := 0, pfFilter := false, elgCredit := 0, elgStage := 0, pfT0 := 0, wakeReq := 0, bypT0 := 0, otp := .blank, nvm := [],
    boot := .reset, nvmOp := .idle, sceBank0 := [], sceBank1 := [], sce := .reset, c0 := [], mac := Vector.replicate 4 MacSt.reset,
    qciDebt := [], qciLast := [], frer := [], genSeq := [], can := Vector.replicate 4 CanSt.reset, uart := Vector.replicate 4 UartSt.reset,
    mvbWait := none, mvbRead := none, mvbSent := none, txSeq := Vector.replicate 6 0, retries := Vector.replicate 6 (0, 0), helloIn := 0, ended := [], inHeld := [], mgmtHeld := [], helloSent := Vector.replicate 6 none,
    exchSent := Vector.replicate 6 none, ft := .reset, as := .reset, microWb := [], claimed := [], arb := [], retryReq := 0,
    c1Share := Vector.replicate 6 (0, 0), chkDirty := [], linkActs := none, stepFrom := none, stepMark := none, dmaHeld := [], held := [], lateTags := [], wtape := [], wtapeN := 0, l2Old := [], xspi := .reset, elg := .reset, pmu := .reset,
    si := .reset }

end Sys2Proof.Machine
end

