-- ==== Sys2Proof/Machine/Regs.lean ====
section
/-! DEFINITION. Access to registers, core by core and by physical address, and the one rule of a register write (R7, R8). -/
namespace Sys2Proof.Machine

/-- The stored value of the register at physical address `a`. -/
def State.reg (s : State) (a : Nat) : Word := smGet regReset s.regs a

/-- The register at `a` made `v`. -/
def State.setReg (s : State) (a : Nat) (v : Word) : State := { s with regs := smPut regReset s.regs a v }

/-- Field `[hi:lo]` of the register at `a`. -/
def State.rf (s : State) (a hi lo : Nat) : Nat := fld (s.reg a) hi lo

/-- Field `[hi:lo]` of the register at `a` made `x`. -/
def State.setRf (s : State) (a hi lo x : Nat) : State := s.setReg a (putFld (s.reg a) hi lo x)

/-- Bit `b` of the register at `a`. -/
def State.rb (s : State) (a b : Nat) : Bool := wbit (s.reg a) b

/-- Bit `b` of the register at `a` made `v`. -/
def State.setRb (s : State) (a b : Nat) (v : Bool) : State := s.setReg a (putBit (s.reg a) b v)

/-- A record written into log register `a`: its MORE, bit 30, is cleared by nothing but a written 1 (R7). -/
def State.logWord (s : State) (a w : Nat) : State := s.setReg a (BitVec.ofNat 32 w ||| (s.reg a &&& 0x40000000#32))

/-- The counter in field `[hi:lo]` of `a` counted up by `n`, stopping at all ones. -/
def State.countUp (s : State) (a hi lo n : Nat) : State :=
  s.setRf a hi lo (capAt (2 ^ (hi + 1 - lo) - 1) (s.rf a hi lo + n))

/-- A 64-bit value held in a LO and a HI register. -/
def State.reg64 (s : State) (lo hi : Nat) : Nat := (s.reg lo).toNat + 2 ^ 32 * (s.reg hi).toNat

/-- A 64-bit value written to a LO and a HI register. -/
def State.setReg64 (s : State) (lo hi x : Nat) : State :=
  (s.setReg lo (BitVec.ofNat 32 x)).setReg hi (BitVec.ofNat 32 (x / 2 ^ 32))

/-- Every register at an address with `p` back at its reset value. -/
def State.resetRegs (s : State) (p : Nat → Bool) : State := { s with regs := smDrop p s.regs }

/-- What a write of `v` leaves in a register that holds `old`: each bit by its access code (R7, R8).
`siw` says whether a protected write is accepted from this master (R408). -/
def regWritten (r : RegSpec) (siw : Bool) (old v : Word) : Word :=
  let rw := BitVec.ofNat 32 r.rw ||| (if siw then BitVec.ofNat 32 r.siw else 0)
  (((old &&& ~~~rw) ||| (v &&& rw)) &&& ~~~(v &&& BitVec.ofNat 32 r.w1c)) ||| (v &&& BitVec.ofNat 32 r.w1s)

/-- A free value's number, and the state with the next one to come. -/
def State.draw (s : State) : Nat × State := (s.fresh, { s with fresh := s.fresh + 1 })

/-- Core `c`. -/
def State.core (s : State) (c : CoreId) : Core := s.cores[c]

/-- Core `c` made `k`. -/
def State.setCore (s : State) (c : CoreId) (k : Core) : State := { s with cores := s.cores.set c k }

/-- Core `c` changed by `f`. -/
def State.modCore (s : State) (c : CoreId) (f : Core → Core) : State := s.setCore c (f (s.core c))

/-- An application core as a core. -/
def appCore (c : AppCore) : CoreId := ⟨c.val, Nat.lt_succ_of_lt c.isLt⟩

/-- The core numbered `n` modulo 5. -/
def coreNo (n : Nat) : CoreId := ⟨n % 5, Nat.mod_lt _ (by decide)⟩

/-- The Safety Island pair. -/
def siCore : CoreId := 4

/-- The Safety Island pair runs different rules (R404). -/
def isSI (c : CoreId) : Bool := c == siCore

/-- The code of a level, as STATUS.LVL (R223). -/
def Level.code : Level → Nat
  | .u => 0 | .s => 1 | .m => 3

/-- The level of a code; 0b10 is never a level and leaves a free choice (R223). -/
def Level.ofCode (n : Nat) : Level :=
  match n with
  | 0 => .u | 1 => .s | 3 => .m
  | _ => match Config.reservedLevel n % 3 with | 0 => .u | 1 => .s | _ => .m

/-- What is said of a system register: the lowest level that reads it and that writes it, the bits a write at S
(or below) and a write at M change, and the bits that clear on a written 1. -/
structure SrSpec where
  num : Nat
  rlev : Level
  wlev : Level
  rwS : Nat
  rwM : Nat
  w1c : Nat
  deriving DecidableEq, Repr

/-- The system registers (R205, and the register tables of 05, 08, 09, 10 and 12).
ICLAIMN, ICLAIMF and ICOMPLETE act and hold nothing (R318). -/
def srTable : List SrSpec := [
  ⟨0x010, .u, .u, 0x061F1F3F, 0x061F1F3F, 0⟩, ⟨0x011, .u, .u, 0xFFFFFFFC, 0xFFFFFFFC, 0⟩,
  ⟨0x020, .u, .u, 0xFFFFFFFC, 0xFFFFFFFC, 0⟩, ⟨0x021, .u, .u, 0xFFFFFFFC, 0xFFFFFFFC, 0⟩,
  ⟨0x022, .u, .u, 0x8000001F, 0x8000001F, 0⟩, ⟨0x030, .u, .s, 0x40000000, 0x40000000, 0⟩,
  ⟨0x100, .u, .s, 0x80000000, 0x80000000, 0⟩, ⟨0x101, .u, .s, 0x00010100, 0x00033100, 0⟩,
  ⟨0x102, .u, .s, 0, 0x3FF, 0⟩, ⟨0x103, .m, .m, 0, 0xC07F1FFE, 0⟩,
  ⟨0x104, .m, .m, 0, 0xFFFFFFFF, 0⟩, ⟨0x105, .m, .m, 0, 0x7FF, 0⟩,
  ⟨0x106, .m, .m, 0, 0, 0xC0000000⟩, ⟨0x107, .m, .m, 0, 0, 0⟩, ⟨0x108, .m, .m, 0, 0, 0⟩,
  ⟨0x110, .m, .m, 0, 0xFFFF003F, 0⟩, ⟨0x111, .m, .m, 0, 0xFFFFFFFF, 0⟩, ⟨0x112, .m, .m, 0, 0xFFFFFFFF, 0⟩,
  ⟨0x113, .m, .m, 0, 0xFFFFFFFF, 0⟩, ⟨0x114, .m, .m, 0, 0xFFFFFFFF, 0⟩, ⟨0x115, .m, .m, 0, 0xFFFFFFFF, 0⟩,
  ⟨0x116, .m, .m, 0, 0xFFFFFFFF, 0⟩,
  ⟨0x120, .s, .s, 0xFFFF003F, 0xFFFF003F, 0⟩, ⟨0x121, .s, .s, 0xFFFFFFFF, 0xFFFFFFFF, 0⟩,
  ⟨0x122, .s, .s, 0xFFFFFFFF, 0xFFFFFFFF, 0⟩, ⟨0x123, .s, .s, 0xFFFFFFFF, 0xFFFFFFFF, 0⟩,
  ⟨0x124, .s, .s, 0xFFFFFFFF, 0xFFFFFFFF, 0⟩, ⟨0x125, .s, .s, 0xFFFFFFFF, 0xFFFFFFFF, 0⟩,
  ⟨0x130, .s, .s, 0xFF, 0xFFF, 0⟩, ⟨0x131, .m, .m, 0, 0xFFF, 0⟩,
  ⟨0x140, .s, .s, 0, 0, 0⟩, ⟨0x141, .s, .s, 0, 0, 0⟩, ⟨0x142, .s, .s, 0, 0, 0⟩, ⟨0x143, .s, .s, 3, 7, 0⟩]

/-- The record of system register `n`, when a chapter defines one. -/
def srSpec (n : Nat) : Option SrSpec := srTable.find? fun r => r.num == n

/-- A system register's value after reset: every one of them resets to zero; STATUS.LVL is held as the level. -/
def srReset (_ : Nat) : Word := 0

/-- The stored value of system register `n` of core `c`. -/
def State.sr (s : State) (c : CoreId) (n : Nat) : Word := smGet srReset (s.core c).sr n

/-- System register `n` of core `c` made `v`. -/
def State.setSr (s : State) (c : CoreId) (n : Nat) (v : Word) : State :=
  s.modCore c fun k => { k with sr := smPut srReset k.sr n v }

/-- Field `[hi:lo]` of a system register. -/
def State.srf (s : State) (c : CoreId) (n hi lo : Nat) : Nat := fld (s.sr c n) hi lo

/-- Field `[hi:lo]` of a system register made `x`. -/
def State.setSrf (s : State) (c : CoreId) (n hi lo x : Nat) : State := s.setSr c n (putFld (s.sr c n) hi lo x)

/-- The bank G20 to G29 come from: the shadow bank while IBANK.SHADOW is set (R319). -/
def State.shadow (s : State) (c : CoreId) : Bool := wbit (s.sr c 0x143) 0

/-- General register `r` of core `c`: G0 reads as zero (R194), G20 to G29 as R319 banks them. -/
def State.g (s : State) (c : CoreId) (r : GReg) : Word :=
  let k := s.core c
  if r.val = 0 then 0
  else if s.shadow c && decide (20 ≤ r.val) && decide (r.val < 30) then k.gs.toList.getD (r.val - 20) 0
  else k.g[r]

/-- General register `r` of core `c` made `v`; a write to G0 is discarded (R194). -/
def State.setG (s : State) (c : CoreId) (r : GReg) (v : Word) : State :=
  if r.val = 0 then s
  else if s.shadow c && decide (20 ≤ r.val) && decide (r.val < 30) then
    s.modCore c fun k => { k with gs := k.gs.setIfInBounds (r.val - 20) v }
  else s.modCore c fun k => { k with g := k.g.set r v }

/-- General register number `n` modulo 32. -/
def gno (n : Nat) : GReg := ⟨n % 32, Nat.mod_lt _ (by decide)⟩

/-- Floating-point register `r` of core `c` (R195). -/
def State.f (s : State) (c : CoreId) (r : FReg) : Dword := (s.core c).f[r]

/-- Floating-point register `r` of core `c` made `v` (R195). -/
def State.setF (s : State) (c : CoreId) (r : FReg) (v : Dword) : State :=
  s.modCore c fun k => { k with f := k.f.set r v }

/-- The floating-point register that holds the low (`h` = 0) or high (`h` = 1) half of a Q register (R195). -/
def qHalf (q : QReg) (h : Fin 2) : FReg := ⟨2 * q.val + h.val, by omega⟩

/-- Short-vector register `q`: F(2q) below F(2q + 1) (R195). -/
def State.q (s : State) (c : CoreId) (q : QReg) : BitVec 128 := s.f c (qHalf q 1) ++ s.f c (qHalf q 0)

/-- Short-vector register `q` made `v` (R195). -/
def State.setQ (s : State) (c : CoreId) (q : QReg) (v : BitVec 128) : State :=
  (s.setF c (qHalf q 0) (v.extractLsb' 0 64)).setF c (qHalf q 1) (v.extractLsb' 64 64)

/-- The program counter of core `c`. -/
def State.pc (s : State) (c : CoreId) : Word := (s.core c).pc

/-- The program counter of core `c` made `v`. -/
def State.setPc (s : State) (c : CoreId) (v : Word) : State := s.modCore c fun k => { k with pc := v }

/-- The level of core `c`. -/
def State.lvl (s : State) (c : CoreId) : Level := (s.core c).lvl

end Sys2Proof.Machine
end

