-- ==== Sys2Proof/Machine/Signals.lean ====
section
/-! DEFINITION. Events between blocks: interrupt sources (R313 to R320), the Safety Island's sources (R418, R419), event-router
producers (R331), and the safe-state latch (R410). -/
namespace Sys2Proof.Machine

/-- The power state: 0 RUN, 1 DOZE, 2 COCOON, 3 DORMANT, 4 stopped by a power failure. -/
def State.power (s : State) : Nat := s.pwr

/-- What a block of the Core domain does: nothing while its clocks are stopped or its power is off (R27, R29). -/
def clocked (f : State → State) (s : State) : State := if s.pwr ≤ 1 then f s else s

/-- The state with an event on SIC source `n` (R314, R418): IDLE becomes PENDING, PENDING merges, ACTIVE loses it.
The SIC has no lost-event register, and is off with the Safety domain. -/
def sicEvent (n : Nat) (s : State) : State :=
  if n = 0 ∨ 63 < n ∨ 3 ≤ s.pwr then s
  else if s.rb (SIC_SRC n) 6 then s
  else s.setRb (SIC_SRC n) 7 true

/-- The copies of an ICU event that the mirror delivers to the SIC, before the ICU's own state machine (R419). -/
def mirrorEvent (n : Nat) (s : State) : State :=
  (List.range 16).foldl (fun t k =>
    if t.rb (SI_MIR k) 31 && t.rf (SI_MIR k) 9 0 == n then sicEvent (32 + k) t else t) s

/-- The cores that a source names in TARGET resume from WAIT when it is PENDING and enabled, whatever their masks (R320). -/
def wakeFor (n : Nat) (s : State) : State :=
  if s.rb (ICU_SRC n) 7 && s.rb (ICU_SRC n) 31 then
    (List.range 4).foldl (fun t c =>
      if s.rb (ICU_SRC n) (8 + c) then t.modCore (coreNo c) fun k => { k with waiting := false } else t) s
  else s

/-- An event at the ICU's own state machine (R314), with the wake of R320. -/
def icuAccept (n : Nat) (s : State) : State :=
  if n = 0 ∨ 640 < n then s
  else if s.rb (ICU_SRC n) 6 then s.setRb (ICU_LOST (n / 32)) (n % 32) true
  else wakeFor n (s.setRb (ICU_SRC n) 7 true)

/-- An event on ICU source `n` (R314, R319): mirrored to the SIC, then accepted.
In COCOON the wake logic holds it until XCLK runs (R321); where the ICU is off or held in reset it is lost. -/
def icuEvent (n : Nat) (s : State) : State :=
  if n = 0 ∨ 640 < n then s
  else if s.power = 2 then { s with icuHeld := s.icuHeld ++ [n] }
  else if 3 ≤ s.power then s
  else icuAccept n (mirrorEvent n s)

/-- The chapters assign ICU source `n` (R109, R174, R186, R263, R284, R293, R295, R296, R313, R328, R330, R331, R334, R341, R345, R347, R378,
R401, R417, R425, R438, R439, R469, R474): any other number is reserved. -/
def icuAssigned (n : Nat) : Bool :=
  decide (1 ≤ n) && decide (n ≤ 4) || n == 8 || n == 9
  || decide (64 ≤ n) && decide (n ≤ 127) && decide (n % 8 ≤ 4)
  || [128, 129, 130, 131, 136, 137, 138, 139, 188, 191].contains n
  || decide (192 ≤ n) && decide (n ≤ 239) && decide (n % 8 ≤ 3) || decide (240 ≤ n) && decide (n ≤ 244)
  || decide (320 ≤ n) && decide (n ≤ 351) && decide (n % 8 ≤ 4) || decide (352 ≤ n) && decide (n ≤ 355) || decide (360 ≤ n) && decide (n ≤ 363)
  || decide (368 ≤ n) && decide (n ≤ 399) && decide (n % 4 ≤ 2) || decide (400 ≤ n) && decide (n ≤ 404)
  || decide (448 ≤ n) && decide (n ≤ 520) || decide (544 ≤ n) && decide (n ≤ 612) || decide (620 ≤ n) && decide (n ≤ 622) || n == 632 || n == 633

/-- A pulse of event-router producer `p` (R331): its edge awaits the channels. -/
def pulse (p : Nat) (s : State) : State := { s with edges := s.edges ++ [p] }

/-- Source `n` asserts the class-`k` line of core `c`, leaving the core's mask aside (R315, R320). -/
def icuMeetsNoMask (s : State) (c k n : Nat) : Bool :=
  let w := s.reg (ICU_SRC n)
  wbit w 7 && wbit w 31 && (fld w 30 30 == k) && wbit w (8 + c)

/-- The class-`k` mask of core `c` (R315). -/
def icuMasked (s : State) (c k : Nat) : Bool := s.rb (ICU_CTL c) k

/-- The numbers of the ICU sources that a register map lists: a source not listed is in its reset state, IDLE. -/
def listedSrc (base last : Nat) (s : State) : List Nat :=
  s.regs.filterMap fun e =>
    if decide (base < e.1) && decide (e.1 ≤ base + 4 * last) && (e.1 - base) % 4 == 0 then some ((e.1 - base) / 4) else none

/-- The highest of a list of numbers, 0 when it is empty. -/
def highest (l : List Nat) : Nat := l.foldl Nat.max 0

/-- What a claim of class `k` by core `c` would return now: the highest source that meets R315, or 0 (R316). -/
def icuBest (s : State) (c k : Nat) : Nat :=
  if icuMasked s c k then 0 else highest ((listedSrc (ICU_SRC 0) 640 s).filter (icuMeetsNoMask s c k))

/-- Some source meets R315 for core `c` in either class, masks aside: a WAIT does not wait (R320). -/
def icuWakes (s : State) (c : Nat) : Bool :=
  (listedSrc (ICU_SRC 0) 640 s).any fun n => icuMeetsNoMask s c 0 n || icuMeetsNoMask s c 1 n

/-- The source the core entered its handler for, by class: 0 once claimed. -/
def State.entSrc (s : State) (c : CoreId) (k : Nat) : Nat := if k = 0 then (s.core c).entN else (s.core c).entF

/-- The record of the entered source forgotten or set. -/
def State.setEntSrc (s : State) (c : CoreId) (k n : Nat) : State :=
  s.modCore c fun x => if k = 0 then { x with entN := n } else { x with entF := n }

/-- The record of a core whose source another core took. -/
def entTaken : Nat := 0x3FF

/-- A source that another core claimed would have stood for core `c` in class `k` (R315). -/
def claimable (s : State) (c k n : Nat) : Bool :=
  let w := s.reg (ICU_SRC n)
  wbit w 31 && (fld w 30 30 == k) && wbit w (8 + c) && decide (fld w 5 4 < c) && !icuMasked s c k

/-- Source `n` taken by core `c`: ACTIVE with OWNER c, and lost to every other core that entered for it (R316, R323). -/
def takeSource (c k n : Nat) (s : State) : State :=
  let s1 := { s.setReg (ICU_SRC n) (putFld (putFld (s.reg (ICU_SRC n)) 7 6 1) 5 4 c) with claimed := n :: s.claimed }
  (List.range 4).foldl (fun t d => if d != c && t.entSrc (coreNo d) k == n then t.setEntSrc (coreNo d) k entTaken else t) s1

/-- A claim of class `k` by application core `c`: the number, and the source made ACTIVE with OWNER c (R316).
With no source left it returns 0x3FF when another core took the one the core entered for, else 0 (R323).
It also returns 0x3FF when a core has taken a higher source that stood for this core too, in the same XCLK: whether an earlier claim falls in
this one's XCLK is a free choice, and the claims of one XCLK stand in the queue lower core first (log 1). -/
def icuClaim (c k : Nat) (s : State) : Nat × State :=
  let n := icuBest s c k
  let e := s.entSrc (coreNo c) k
  let s1 := s.setEntSrc (coreNo c) k 0
  if (highest (s.claimed.filter fun m => claimable s c k m)) ≤ n then
    if n = 0 then (if e = entTaken then 0x3FF else 0, s1) else (n, takeSource c k n s1)
  else
    let (q, s2) := s1.draw
    if Config.sameCycle q then (0x3FF, s2)
    else if n = 0 then (if e = entTaken then 0x3FF else 0, s2) else (n, takeSource c k n s2)

/-- COMPLETE of source `n` by application core `c` (R317), sampling the level input under LVL (R314). -/
def icuComplete (c n : Nat) (s : State) : State :=
  if 0 < n ∧ n ≤ 640 ∧ s.rb (ICU_SRC n) 6 ∧ s.rf (ICU_SRC n) 5 4 = c then
    if s.rb (ICU_SRC n) 29 then
      let (j, s1) := s.draw
      wakeFor n (s1.setRf (ICU_SRC n) 7 6 (if Config.levelInput n j then 2 else 0))
    else s.setRf (ICU_SRC n) 7 6 0
  else s.setRb (ICU_CSTAT c) 0 true

/-- What a claim of class `k` at the SIC would return (R418). -/
def sicBest (s : State) (k : Nat) : Nat :=
  highest ((listedSrc (SIC_SRC 0) 63 s).filter fun n =>
    let w := s.reg (SIC_SRC n)
    wbit w 7 && wbit w 31 && (fld w 30 30 == k))

/-- A claim at the SIC (R418). -/
def sicClaim (k : Nat) (s : State) : Nat × State :=
  let n := sicBest s k
  if n = 0 then (0, s) else (n, s.setRf (SIC_SRC n) 7 6 1)

/-- A COMPLETE at the SIC (R418); the SIC has no BADCOMP. -/
def sicComplete (n : Nat) (s : State) : State :=
  if 0 < n ∧ n ≤ 63 ∧ s.rb (SIC_SRC n) 6 then
    if s.rb (SIC_SRC n) 29 then
      let (j, s1) := s.draw
      s1.setRf (SIC_SRC n) 7 6 (if Config.sicLevelInput n j then 2 else 0)
    else s.setRf (SIC_SRC n) 7 6 0
  else s

/-- An interrupt of class `k` is pending at core `c` (R315, R418). -/
def intLine (s : State) (c : CoreId) (k : Nat) : Nat :=
  if isSI c then sicBest s k else icuBest s c.val k

/-- BYP_HOLD driven low: HOLD clears, the cause is recorded and BYP is raised (R400). -/
def bypRelease (cause : Nat) (s : State) : State :=
  if s.rb TNC_BYP 31 then icuEvent 404 (s.setReg TNC_BYP (putFld (putBit (s.reg TNC_BYP) 31 false) 2 0 cause)) else s

/-- The release of the latch performed: CAUSE clears, and a latch that was set raises SI_SAFE (R412, R417). -/
def latchClear (s : State) : State :=
  let s0 : State := { s with si := { s.si with relPend := false } }
  let s1 := s0.setReg SI_SSC (putFld (putBit (s.reg SI_SSC) 23 false) 15 0 0)
  if s.rb SI_SSC 23 then icuEvent 633 s1 else s1

/-- A trigger meets a release that is not performed yet: in one oscillator cycle with it, it wins and the release is refused; whether they fall in one
cycle is a free choice (R412, R422, log 54). -/
def releaseMeets (s : State) : State :=
  if s.si.relPend then
    let (q, s1) := s.draw
    if Config.sameCycle q then { s1 with si := { s1.si with relPend := false } }.setRb SI_SSC 17 true else latchClear s1
  else s

/-- A trigger of the safe-state latch, by its CAUSE bit, when its enable is set (R410): the CAUSE bit and ACTIVE
are set, a latch newly set raises SI_SAFE (R417), and any cause but PWRFAIL releases BYP_HOLD (R400). -/
def safeTrigger (bit : Nat) (s₀ : State) : State :=
  if s₀.rb SI_TRIGEN bit then
    let s := releaseMeets { s₀ with si := { s₀.si with trigAt := some s₀.xclk } }
    let was := s.rb SI_SSC 23
    let s1 := s.setReg SI_SSC (putBit (putBit (s.reg SI_SSC) bit true) 23 true)
    let s2 := if was then s1 else icuEvent 633 s1
    if bit = 5 then s2 else bypRelease 3 s2
  else s₀

/-- An application core is in lockup (R230). -/
def anyLockup (s : State) : Bool := (List.range 4).any fun c => (s.core (coreNo c)).lockup

/-- Core `c` enters lockup: it stops fetching; SIC source 5 and the CORELOCK trigger follow for an application core (R230, R410, R418). -/
def enterLockup (c : CoreId) (s : State) : State :=
  let s1 := s.modCore c fun k => { k with lockup := true }
  if isSI c then s1 else safeTrigger 7 (sicEvent 5 s1)

/-- A protected write refused: recorded in SI_VLOG and reported on SIC source 4 (R409). -/
def siRefuse (m : Nat) (pa : Nat) (s : State) : State :=
  let s1 := if s.rb SI_VLOG_INFO 31 then s.setRb SI_VLOG_INFO 30 true
    else (s.setReg SI_VLOG_INFO (putFld (putBit (s.reg SI_VLOG_INFO) 31 true) 3 0 m)).setReg SI_VLOG_ADDR (BitVec.ofNat 32 pa)
  sicEvent 4 s1

end Sys2Proof.Machine
end

