-- ==== Sys2Proof/Machine/Memory.lean ====
section
/-! DEFINITION. The memories behind targets T0, T1, T2 and T7 and their codes (R46, R278 to R293).

`State.mem` holds the data bits as stored and `State.ecc` which of the 13 stored bits of a byte are wrong: bits
7 to 0 are data bits and bits 12 to 8 the check bits c[4:0] of R282.
`State.dramErr` holds the state of a DRAM word's code: 0 good, 1 a single-bit error, 2 uncorrectable. -/
namespace Sys2Proof.Machine

/-- What a byte of memory that nothing has written reads as: zero.
The Erg is zero-filled at every start (R288); for DRAM and SI SRAM this is a DESIGN CHOICE (log 2). -/
def memDefault (_ : Nat) : Byte := 0

/-- A byte whose code nothing has disturbed. -/
def eccDefault (_ : Nat) : BitVec 13 := 0

/-- A DRAM word whose code is good, and a bank with no write-back pending. -/
def zeroDefault (_ : Nat) : Nat := 0

/-- The data bits stored at physical address `a`. -/
def State.byte (s : State) (a : Nat) : Byte := smGet memDefault s.mem a

/-- The data bits at `a` made `v`. -/
def State.setByte (s : State) (a : Nat) (v : Byte) : State := { s with mem := smPut memDefault s.mem a v }

/-- The wrong bits of the stored byte at `a` made `v`. -/
def State.setEcc (s : State) (a : Nat) (v : BitVec 13) : State := { s with ecc := smPut eccDefault s.ecc a v }

/-- Bytes stored from `a` on, with good codes. -/
def State.storeBytes (s : State) (a : Nat) : List Byte → State
  | [] => s
  | b :: t => ((s.setByte a b).setEcc a 0).storeBytes (a + 1) t

/-- The wrong stored bits of the byte at `a`. -/
def State.wrong (s : State) (a : Nat) : BitVec 13 := smGet eccDefault s.ecc a

/-- The memory in canonical form. -/
abbrev Memory.wf (s : State) : Prop := smWf memDefault s.mem = true ∧ smWf eccDefault s.ecc = true

/-- The physical address is in the Erg (R12). -/
def isErg (pa : Nat) : Bool := decide (pa < 0x3000000)

/-- The physical address is in SI SRAM (R12). -/
def isSiSram (pa : Nat) : Bool := decide (0x30000000 ≤ pa) && decide (pa < 0x30200000)

/-- The fitted DRAM in bytes: DMC_CAP.SIZE in units of 64 MiB (R14, R290). -/
def dramSize (s : State) : Nat := s.rf DMC_CAP 9 0 * 0x4000000

/-- The physical address is in the range of the map that DRAM may fill (R12). -/
def inDramRange (pa : Nat) : Bool := decide (0x100000000 ≤ pa) && decide (pa < 0x900000000)

/-- The physical address is one that the DRAM controller answers: the mapped DRAM (R14), and before READY the whole range, whatever
DMC_CAP holds (R289). -/
def isDram (s : State) (pa : Nat) : Bool :=
  decide (0x100000000 ≤ pa) && decide (pa < 0x100000000 + dramSize s) || !s.rb DMC_STAT 31 && inDramRange pa

/-- Hashing is on for the 2 MiB region that holds `pa` (R46). -/
def hashed (s : State) (pa : Nat) : Bool := s.rb ERG_HASH (pa / 0x200000)

/-- The bank of an Erg word (R46). -/
def ergBank (s : State) (pa : Nat) : Nat :=
  if hashed s pa then nfld pa 9 3 ^^^ nfld pa 16 10 else nfld pa 9 3

/-- The bank group of an Erg word (R285). -/
def ergGroup (s : State) (pa : Nat) : Nat := ergBank s pa / 16

/-- Bank group `g` is out of service (R286). -/
def groupOos (s : State) (g : Nat) : Bool := s.rb ERG_BGSTAT (8 + g)

/-- Bank group `g` is powered and ready (R288). -/
def groupReady (s : State) (g : Nat) : Bool := s.rb ERG_BGSTAT g

/-- The shift of a page size: 12, 16 or 21 (R257). -/
def szShift (sz : Nat) : Nat := if sz = 0 then 12 else if sz = 1 then 16 else 21

/-- The bytes of a page. -/
def szBytes (sz : Nat) : Nat := 2 ^ szShift sz

/-- An address with the bits below a page size cleared. -/
def pageOf (sz a : Nat) : Nat := a / szBytes sz * szBytes sz

/-- The addresses of the Erg words, or DRAM words, that `len` bytes from `pa` touch. -/
def wordsOf (pa len : Nat) : List Nat :=
  (List.range (((pa % 8) + len + 7) / 8)).map fun i => pa / 8 * 8 + 8 * i

/-- The syndrome of wrong bits: the data bits d0 to d7 lie at positions 3, 5, 6, 7, 9, 10, 11 and 12 and the check bits
c[3:0] at 1, 2, 4 and 8 (R282). -/
def eccSyndrome (w : BitVec 13) : Nat :=
  let place := [3, 5, 6, 7, 9, 10, 11, 12, 1, 2, 4, 8, 0]
  (List.range 13).foldl (fun x i => if w.getLsbD i then x ^^^ place.getD i 0 else x) 0

/-- Overall parity is wrong: an odd number of stored bits is wrong (R283). -/
def eccOdd (w : BitVec 13) : Bool := popCount 13 w.toNat % 2 == 1

/-- The outcome of decoding a byte (R283): the data bits to flip, whether it was corrected, whether it is uncorrectable.
An odd error whose syndrome names no stored bit flips nothing (DESIGN CHOICE, log 3). -/
structure EccOut where
  flip : Byte
  corrected : Bool
  bad : Bool
  deriving DecidableEq, Repr

/-- A byte with wrong bits `w` decoded (R283). -/
def eccDecode (w : BitVec 13) : EccOut :=
  let syn := eccSyndrome w
  if eccOdd w then
    match syn with
    | 3 => ⟨1, true, false⟩ | 5 => ⟨2, true, false⟩ | 6 => ⟨4, true, false⟩ | 7 => ⟨8, true, false⟩
    | 9 => ⟨16, true, false⟩ | 10 => ⟨32, true, false⟩ | 11 => ⟨64, true, false⟩ | 12 => ⟨128, true, false⟩
    | _ => ⟨0, true, false⟩
  else if syn = 0 then ⟨0, false, false⟩ else ⟨0, false, true⟩

/-- The byte a read of `a` delivers, its code decoded. -/
def readByte (s : State) (a : Nat) : Byte := s.byte a ^^^ (eccDecode (s.wrong a)).flip

/-- The bits that would be wrong after a corrected write-back: none. -/
def correctByte (s : State) (a : Nat) : State := s.storeBytes a [readByte s a]

/-- A counter with a threshold counted up by one: the source is raised when COUNT reaches a nonzero THRESH (MIU_CECNT, DMC_CHn_CECNT). -/
def countThresh (a src : Nat) (s : State) : State :=
  let old := s.rf a 15 0
  let s1 := s.countUp a 15 0 1
  if s.rf a 31 16 != 0 && old != s1.rf a 15 0 && s1.rf a 15 0 == s.rf a 31 16 then icuEvent src s1 else s1

/-- An uncorrectable Erg error reported (R284): MIU_STAT.UE, the first one's log, MORE for a further one, MIU_UE. -/
def miuReport (src : Nat) (wa : Nat) (bytes : Nat) (s : State) : State :=
  let s1 := if s.rb MIU_STAT 31 then s.setRb MIU_STAT 30 true
    else
      let info := BitVec.ofNat 32 (ergBank s wa * 2 ^ 16 + bytes * 2 ^ 8 + src)
      (((s.setRb MIU_STAT 31 true).setReg MIU_ELOG_INFO info).setReg MIU_ELOG_PA_LO (BitVec.ofNat 32 wa)).setReg MIU_ELOG_PA_HI 0
  icuEvent 128 s1

/-- An Erg word read by port `src` (0 port V, 1 port X, 2 scrubber): every byte is decoded, corrected bytes are counted and
a write-back may become pending, and an uncorrectable byte is reported (R283, R284).
The answer says whether a needed byte failed. -/
def ergWordRead (src wa : Nat) (need : Nat → Bool) (s : State) : Bool × State :=
  let outs := (List.range 8).map fun k => (k, eccDecode (s.wrong (wa + k)))
  let bad := outs.filter fun o => o.2.bad
  let cor := outs.filter fun o => o.2.corrected
  let g := ergGroup s wa
  let s1 := cor.foldl (fun t _ => (countThresh MIU_CECNT 129 t).countUp (MIU_GCECNT g) 15 0 1) s
  let b := ergBank s wa
  let s2 := if cor.isEmpty || src == 2 || !s.rb MIU_CTL 1 || smGet zeroDefault s1.ceWb b != 0 then s1
    else { s1 with ceWb := smPut zeroDefault s1.ceWb b (wa + 1) }
  let s3 := if bad.isEmpty then s2 else miuReport src wa (bad.foldl (fun x o => x + 2 ^ o.1) 0) s2
  (bad.any fun o => need (wa + o.1), s3)

/-- Bytes of one Erg word written by either port: fresh codes for the bytes written, or the injected ones (R282, R296);
a write-back pending on the word is dropped (R283). -/
def ergWordWrite (wa : Nat) (upd : List (Nat × Byte)) (s : State) : State :=
  let b := ergBank s wa
  let s0 := if smGet zeroDefault s.ceWb b = wa + 1 then { s with ceWb := smPut zeroDefault s.ceWb b 0 } else s
  let armed := s.rb MIU_INJ 0 && (s.reg MIU_INJ_PA_LO).toNat / 8 * 8 == wa && !upd.isEmpty
  let dm := s.reg64 MIU_INJ_DMASK_LO MIU_INJ_DMASK_HI
  let cm := s.reg64 MIU_INJ_CMASK_LO MIU_INJ_CMASK_HI
  let s1 := upd.foldl (fun t e =>
    let k := e.1 - wa
    let d := if armed then nfld dm (8 * k + 7) (8 * k) else 0
    let c := if armed then nfld cm (5 * k + 4) (5 * k) else 0
    (t.setByte e.1 (e.2 ^^^ BitVec.ofNat 8 d)).setEcc e.1 (BitVec.ofNat 13 (d + 256 * c))) s0
  if armed then icuEvent 131 ((s1.setRb MIU_INJ 0 false).setRb MIU_STAT 28 true) else s1

/-- The bytes of an update that fall in the word at `wa`. -/
def updIn (wa : Nat) (upd : List (Nat × Byte)) : List (Nat × Byte) :=
  upd.filter fun e => decide (wa ≤ e.1) && decide (e.1 < wa + 8)

/-- A byte string placed at an address. -/
def placed (pa : Nat) (bytes : List Byte) : List (Nat × Byte) :=
  (List.range bytes.length).zip bytes |>.map fun e => (pa + e.1, e.2)

/-- The Erg bytes from `pa` read by a port; none when a needed byte is uncorrectable (R284). -/
def ergRead (src pa len : Nat) (s : State) : Option (List Byte) × State :=
  let need := fun a => decide (pa ≤ a) && decide (a < pa + len)
  let (bad, s1) := (wordsOf pa len).foldl (fun (acc : Bool × State) wa =>
    let r := ergWordRead src wa need acc.2
    (acc.1 || r.1, r.2)) (false, s)
  (if bad then none else some ((List.range len).map fun i => readByte s (pa + i)), s1)

/-- Bytes written to the Erg from `pa`, except those of words out of service (R286) and of the words that lost a collision (R280). -/
def ergWrite (pa : Nat) (bytes : List Byte) (coll : List Nat) (s : State) : State :=
  let upd := placed pa bytes
  (wordsOf pa bytes.length).foldl (fun t wa =>
    if groupOos t (ergGroup t wa) then t
    else if coll.contains wa then t.countUp ERG_COLLCNT 15 0 1 else ergWordWrite wa (updIn wa upd) t) s

/-- Port V may write the Erg word at `wa` in this cycle: a group streams whose survey found a destination page over it (R280). -/
def portVWrites (s : State) (wa : Nat) : Bool :=
  s.vctx.toList.any fun v => match v.cur with
    | some r => r.phase == .stream && r.stopped.isNone && r.found.any fun f =>
        f.kind == .vdst && (match f.res with
          | .ok e => decide (e.pa ≤ wa) && decide (wa < e.pa + szBytes e.sz)
          | _ => false)
    | none => false

/-- The Erg words of a write through port X that lose a collision with port V: which of those that port V may write is a free choice
(R280). -/
def portVLost (pa len : Nat) (s : State) : List Nat × State :=
  let cand := if isErg pa then (wordsOf pa len).filter (portVWrites s) else []
  if cand.isEmpty then ([], s) else let (q, s1) := s.draw; (cand.filter (Config.collision q), s1)

/-- Some of the words lost a collision. -/
def collides (pa len : Nat) (coll : List Nat) : Bool := (wordsOf pa len).any coll.contains

/-- The channel of a DRAM address (R289). -/
def dramChan (pa : Nat) : Nat := nfld pa 8 8

/-- The check line of a DRAM word: 64 check bytes, those of 64 successive words of one channel (R290, R292). -/
def chkLine (wa : Nat) : Nat := (wa - 0x100000000) / 1024 * 2 + dramChan wa

/-- The check line of a word written is dirty in its channel's cache of 64; the one that the cache has held longest makes room
(R292; the choice is a DESIGN CHOICE, log 66). -/
def chkTouch (wa : Nat) (s : State) : State :=
  let l := chkLine wa
  let rest := s.chkDirty.filter fun x => x != l
  let full := decide (64 ≤ (rest.filter fun x => x % 2 == l % 2).length)
  let kept := if full then (match rest.find? fun x => x % 2 == l % 2 with | some o => rest.filter fun x => x != o | none => rest) else rest
  { s with chkDirty := kept ++ [l] }

/-- The dirty check lines written back, before self-refresh and when power fails (R292). -/
def chkFlush (s : State) : State := { s with chkDirty := [] }

/-- A DRAM word's code checked by a reader (`src` 0 read, 1 partial write, 2 patrol): a single-bit error is counted, written
back and raises DMC_CE at its threshold, an uncorrectable one is logged and raises DMC_UE (R293). -/
def dramWordCheck (src wa : Nat) (s : State) : Bool × State :=
  let n := dramChan wa
  match smGet zeroDefault s.dramErr wa with
  | 0 => (false, s)
  | 1 =>
    let s1 := countThresh (DMC_CH_CECNT n) (138 + n) s
    (false, chkTouch wa { s1 with dramErr := smPut zeroDefault s1.dramErr wa 0 })
  | _ =>
    let s1 := if s.rb (DMC_CH_ELOG_INFO n) 31 then s.setRb (DMC_CH_ELOG_INFO n) 30 true
      else ((s.logWord (DMC_CH_ELOG_INFO n) (2 ^ 31 + src)).setReg (DMC_CH_ELOG_PA_LO n) (BitVec.ofNat 32 wa)).setReg
        (DMC_CH_ELOG_PA_HI n) (BitVec.ofNat 32 (wa / 2 ^ 32))
    (true, icuEvent (136 + n) s1)

/-- The DRAM bytes from `pa`; none when a word is uncorrectable. -/
def dramRead (src pa len : Nat) (s : State) : Option (List Byte) × State :=
  let (bad, s1) := (wordsOf pa len).foldl (fun (acc : Bool × State) wa =>
    let r := dramWordCheck src wa acc.2
    (acc.1 || r.1, r.2)) (false, s)
  (if bad then none else some ((List.range len).map fun i => s.byte (pa + i)), s1)

/-- A word of DRAM written, whole or in part: a partial write reads and checks the word first and is refused when that read is
uncorrectable (R291).
The answer says whether it was refused. -/
def dramWordWrite (wa : Nat) (upd : List (Nat × Byte)) (s : State) : Bool × State :=
  let put := fun (t : State) => chkTouch wa (upd.foldl (fun t e => t.setByte e.1 e.2) t)
  if upd.length = 8 then (false, put { s with dramErr := smPut zeroDefault s.dramErr wa 0 })
  else
    let r := dramWordCheck 1 wa s
    if r.1 then r else (false, put r.2)

/-- Bytes written to DRAM from `pa`; the answer says whether some word's write was refused. -/
def dramWrite (pa : Nat) (bytes : List Byte) (s : State) : Bool × State :=
  let upd := placed pa bytes
  (wordsOf pa bytes.length).foldl (fun (acc : Bool × State) wa =>
    let r := dramWordWrite wa (updIn wa upd) acc.2
    (acc.1 || r.1, r.2)) (false, s)

/-- The SI SRAM bytes from `pa`, each byte decoded alone and counted in MIU_SICNT (R406); none when one is uncorrectable. -/
def siRead (pa len : Nat) (s : State) : Option (List Byte) × State :=
  let outs := (List.range len).map fun i => eccDecode (s.wrong (pa + i))
  let cor := (outs.filter fun o => o.corrected).length
  let bad := (outs.filter fun o => o.bad).length
  let s1 := if cor = 0 then s else s.countUp MIU_SICNT 15 0 cor
  let s2 := if bad = 0 then s1 else s1.countUp MIU_SICNT 31 16 bad
  (if bad = 0 then some ((List.range len).map fun i => readByte s (pa + i)) else none, s2)

/-- The response codes of R308. -/
abbrev Resp := Nat
/-- OKAY (R308). -/
def rOKAY : Resp := 0
/-- DECODE (R308). -/
def rDECODE : Resp := 1
/-- TARGET (R308). -/
def rTARGET : Resp := 2
/-- COLLIDE (R308). -/
def rCOLLIDE : Resp := 3
/-- ECC (R308). -/
def rECC : Resp := 4
/-- LINK (R308). -/
def rLINK : Resp := 5

/-- How an access ends: it waits, or it is answered with a response and, for a read, its bytes. -/
inductive BusRes where
  | wait
  | done (resp : Nat) (bytes : List Byte)
  deriving DecidableEq, Repr

/-- The bank groups that an access to the Erg touches are all in service. -/
def ergInService (s : State) (pa len : Nat) : Bool := (wordsOf pa len).all fun wa => !groupOos s (ergGroup s wa)

/-- The bank groups in service that an access to the Erg touches are all ready. -/
def ergIsReady (s : State) (pa len : Nat) : Bool :=
  (wordsOf pa len).all fun wa => groupOos s (ergGroup s wa) || groupReady s (ergGroup s wa)

/-- How many of `len` bytes at `pa` lie in the same memory as the first: the Erg, or the DRAM that the controller answers (R12, R14). -/
def insideLen (s : State) (pa len : Nat) : Nat :=
  if isErg pa then Nat.min len (0x3000000 - pa)
  else if isDram s pa then Nat.min len ((if s.rb DMC_STAT 31 then 0x100000000 + dramSize s else 0x900000000) - pa)
  else len

/-- A read at T0 or T1 through port X or the DMC (R278, R284, R286, R288, R289). -/
def localRead (pa len : Nat) (s : State) : BusRes × State :=
  if len ≠ insideLen s pa len then (.done rDECODE [], s)
  else if isErg pa then
    if !ergInService s pa len then (.done rTARGET [], s)
    else if !ergIsReady s pa len then (.wait, s)
    else match ergRead 1 pa len s with
      | (some b, s1) => (.done rOKAY b, s1)
      | (none, s1) => (.done rECC [], s1)
  else if isDram s pa then
    if !s.rb DMC_STAT 31 then (.done rTARGET [], s)
    else match dramRead 0 pa len s with
      | (some b, s1) => (.done rOKAY b, s1)
      | (none, s1) => (.done rECC [], s1)
  else (.done rDECODE [], s)

/-- A write at T0 or T1, with the Erg words that lose a collision named (R280, R291). An access of one or two words is refused when
either is out of service (R278); of a longer burst the other words are performed (R308). -/
def regionWrite (pa : Nat) (bytes : List Byte) (coll : List Nat) (s : State) : BusRes × State :=
  if isErg pa then
    if !ergInService s pa bytes.length && decide (bytes.length ≤ 8) then (.done rTARGET [], s)
    else if !ergIsReady s pa bytes.length then (.wait, s)
    else (.done (if !ergInService s pa bytes.length then rTARGET else if collides pa bytes.length coll then rCOLLIDE else rOKAY) [],
      ergWrite pa bytes coll s)
  else if isDram s pa then
    if !s.rb DMC_STAT 31 then (.done rTARGET [], s)
    else match dramWrite pa bytes s with
      | (false, s1) => (.done rOKAY [], s1)
      | (true, s1) => (.done rECC [], s1)
  else (.done rDECODE [], s)

/-- A write at T0 or T1: one that runs past the end of the Erg or of the mapped DRAM writes the bytes inside and ends with DECODE (R12, R14). -/
def localWrite (pa : Nat) (bytes : List Byte) (coll : List Nat) (s : State) : BusRes × State :=
  let n := insideLen s pa bytes.length
  if n = bytes.length then regionWrite pa bytes coll s
  else match regionWrite pa (bytes.take n) coll s with
    | (.wait, s1) => (.wait, s1)
    | (_, s1) => (.done rDECODE [], s1)

/-- What the beats of a read at T0, T1 or SI SRAM return: no data for a word in which a byte that the read needs is uncorrectable (R308). -/
def beatData (pa len : Nat) (s : State) : List (Option Byte) :=
  let failing := fun wa =>
    if isErg pa || isSiSram pa then (List.range 8).any fun k =>
      decide (pa ≤ wa + k) && decide (wa + k < pa + len) && (eccDecode (s.wrong (wa + k))).bad
    else decide (2 ≤ smGet zeroDefault s.dramErr wa)
  (List.range len).map fun i =>
    if failing ((pa + i) / 8 * 8) then none else some (if isErg pa || isSiSram pa then readByte s (pa + i) else s.byte (pa + i))

/-- The combination an atomic writes: SWAP, ADD, AND, OR by FN (R203). -/
def atomFn (fn : Nat) (old v : Word) : Word :=
  match fn with
  | 0 => v | 1 => old + v | 2 => old &&& v | _ => old ||| v

/-- An atomic at T0 or T1: the old word, and the combination written unless its write collides (R203, R279). -/
def localAtomic (pa fn : Nat) (v : Word) (coll : Bool) (s : State) : BusRes × State :=
  match localRead pa 4 s with
  | (.done 0 b, s1) =>
    match localWrite pa (leBytes 4 (atomFn fn (leWord b) v).toNat) (if coll then [pa / 8 * 8] else []) s1 with
    | (.done r _, s2) => (.done r b, s2)
    | (.wait, s2) => (.wait, s2)
  | r => r

end Sys2Proof.Machine
end

