-- ==== Sys2Proof/Machine/TimeOps.lean ====
section
/-! DEFINITION. The time base and the timer unit's shared operations (R324 to R330, R339 to R345).

Time below TB_FRAC is held in units of 2^-48 ns: `State.tbSub` is the 32 internal fraction bits of R325 and
`State.adjPend` the pending offset. -/
namespace Sys2Proof.Machine

/-- TB_NS: whole nanoseconds (R324). -/
def tbNs (s : State) : Nat := s.tb.toNat / 2 ^ 16

/-- The signed rate correction (R327). -/
def tbRate (s : State) : Int := sgn 32 (s.reg TB_RATE).toNat

/-- The slew shift; 0 to 3 act as 4 (TB_CTL.SLEW). -/
def tbSlew (s : State) : Nat := Nat.max 4 (s.rf TB_CTL 11 8)

/-- What disciplines TB: 0 software, 1 Idene Link, 2 802.1AS; 0b11 acts as 0b00 (TB_CTL.DISC). -/
def tbDisc (s : State) : Nat := let d := s.rf TB_CTL 1 0; if d = 3 then 0 else d

/-- The step of TB at one cycle of its clock, in units of 2^-48 ns, before the slew (R325); none while PRST_N is low. -/
def tbNominal (s : State) : Nat :=
  match s.power with
  | 0 | 1 => (1280 * (2 ^ 40 + tbRate s) / 3).toNat
  | 2 => (40 * 256 * (2 ^ 40 + tbRate s)).toNat
  | 5 => 0
  | _ => (s.reg TB_MCAL).toNat * 2 ^ 32

/-- The extra that the slew carries in a step: toward zero of the pending offset and never past it (R327); none in DORMANT (R325). -/
def tbSlewStep (s : State) (step : Nat) : Int :=
  if 3 ≤ s.power then 0
  else
    let x : Int := ((step / 2 ^ tbSlew s : Nat) : Int)
    if 0 < s.adjPend then (if s.adjPend < x then s.adjPend else x)
    else if s.adjPend < 0 then (if s.adjPend < -x then -x else s.adjPend)
    else 0

/-- TB advanced by an amount of 2^-48 ns units. -/
def tbAdvance (x : Nat) (s : State) : State :=
  let t := s.tb.toNat * 2 ^ 32 + s.tbSub + x
  { s with tb := BitVec.ofNat 80 (t / 2 ^ 32), tbSub := t % 2 ^ 32 }

/-- What TB passes on its way from `ns0` on: a multiple of 1,000 ns is a refill instant, one of 1,000,000 ns ends a window of the power limit; however
many it passes, it is one (R431, R433, R438). -/
def refillMarks (ns0 : Nat) (s : State) : State :=
  if s.power ≤ 2 then
    { s with elg := { s.elg with due := s.elg.due || decide (ns0 / 1000 < tbNs s / 1000), plimDue := s.elg.plimDue || decide (ns0 / 1000000 < tbNs s / 1000000) } }
  else s

/-- One step of TB (R325, R327). -/
def tbCycle (s : State) : State :=
  let step := tbNominal s
  let e := tbSlewStep s step
  let s1 := tbAdvance ((step : Int) + e).toNat s
  refillMarks (tbNs s) { s1 with adjPend := s1.adjPend - e }

/-- A signed offset, in units of 2^-48 ns, added to the pending offset, which saturates at ±(2^31 − 1) ns (R327). -/
def tbOffsetBy (d : Int) (s : State) : State :=
  let lim : Int := (2 ^ 31 - 1) * 2 ^ 48
  let x := s.adjPend + d
  { s with adjPend := if lim < x then lim else if x < -lim then -lim else x }

/-- A signed offset in nanoseconds added to the pending offset (R327). -/
def tbOffset (ns : Int) (s : State) : State := tbOffsetBy (ns * 2 ^ 48) s

/-- TB_ADJREM: the pending offset in whole nanoseconds, truncated toward zero. -/
def tbAdjRem (s : State) : Word := wordOf (Int.tdiv s.adjPend (2 ^ 48))

/-- The rate correction replaced (R327). -/
def tbSetRate (v : Word) (s : State) : State := s.setReg TB_RATE v

/-- TB_STAT.LOCKED: the selected discipline source reports lock. -/
def tbLocked (s : State) : Bool :=
  match tbDisc s with
  | 1 => s.rb IDL_TSTAT 31
  | 2 => s.rb TNC_AS_STAT 31
  | _ => false

/-- The discipline source `d` loses its lock: UNLOCK, TB_UNLOCK and producer 59 while it is selected (R328). -/
def tbUnlockFrom (d : Nat) (s : State) : State :=
  if tbDisc s = d then pulse 59 (icuEvent 517 (s.setRb TB_STAT 1 true)) else s

/-- TB_STAT.CLK: which clock steps TB (R325). -/
def tbClk (s : State) : Nat := if s.power ≤ 1 then 0 else if s.power = 2 then 1 else 2

/-- A register of reload timer `n` by its function of block and channel. -/
def tmReg (r : Nat → Nat → Nat) (n : Nat) : Nat := r (n / 8) (n % 8)

/-- A register of compare channel `k`: MC0 to MC3 for 0 to 3, SC0 to SC3 for 4 to 7. -/
def cmpReg (mc sc : Nat → Nat) (k : Nat) : Nat := if k < 4 then mc k else sc (k - 4)

/-- The prescaler accumulator of timer `n`. -/
def tmAccOf (s : State) (n : Nat) : Nat := smGet zeroDefault s.tmAcc n

/-- The prescaler accumulator of timer `n` made `v`. -/
def setTmAcc (n v : Nat) (s : State) : State := { s with tmAcc := smPut zeroDefault s.tmAcc n v }

/-- Channel `ch` started: RUN set, or the compare channel armed (R341). -/
def chanStart (ch : Nat) (s : State) : State :=
  if ch < 48 then s.setRb (tmReg TM_CTL ch) 31 true
  else if ch < 56 then s.setRb (cmpReg MC_CTL SC_CTL (ch - 48)) 31 true
  else s

/-- Channel `ch` stopped, or the compare channel disarmed (R341). -/
def chanStop (ch : Nat) (s : State) : State :=
  if ch < 48 then s.setRb (tmReg TM_CTL ch) 31 false
  else if ch < 56 then s.setRb (cmpReg MC_CTL SC_CTL (ch - 48)) 31 false
  else s

/-- Channel `ch` reset: counter and prescaler accumulator to zero; nothing on a compare channel (R341). -/
def chanReset (ch : Nat) (s : State) : State :=
  if ch < 48 then setTmAcc ch 0 (s.setReg (tmReg TM_CNT ch) 0) else s

/-- The SELF part of an action byte (R341). -/
def actSelf (ch self : Nat) (s : State) : State :=
  match self with
  | 1 => chanStart ch s
  | 2 => chanStop ch s
  | 3 => chanReset ch s
  | 4 => chanStop ch (chanReset ch s)
  | 5 => chanStart ch (chanReset ch s)
  | _ => s

/-- What the LNK part of an action byte does to channel `link` (R341). -/
def linkDo (link lnk : Nat) (s : State) : State :=
  match lnk with
  | 1 => chanStart link s
  | 2 => chanReset link s
  | 3 => chanStart link (chanReset link s)
  | _ => s

/-- The LNK part of an action byte on channel `link`: 52 to 55 obey only the SI compare channels, 56 to 63 name none (R341).
While the timers take their ticks of an XCLK, one on another channel waits for the end of those ticks (R342). -/
def actLink (from_ link lnk : Nat) (s : State) : State :=
  if 56 ≤ link || (decide (52 ≤ link) && decide (from_ < 52)) || (decide (52 ≤ from_) && decide (link < 52)) then s
  else match s.linkActs with
    | none => linkDo link lnk s
    | some l => if link = from_ then linkDo link lnk s else { s with linkActs := some (l ++ [(from_, link, lnk)]) }

/-- Ticks taken by `f`, then the link actions they have made, in ascending number of the channel they come from (R342). -/
def withLinks (f : State → State) (s : State) : State :=
  if s.linkActs.isSome then f s
  else
    let s1 := f { s with linkActs := some [] }
    let l := s1.linkActs.getD []
    ((List.range 56).flatMap fun ch => l.filter fun a => a.1 == ch).foldl (fun t a => linkDo a.2.1 a.2.2 t) { s1 with linkActs := none }

/-- The LINK field of a channel (R341). -/
def chanLink (s : State) (ch : Nat) : Nat :=
  if ch < 48 then s.rf (tmReg TM_CTL ch) 21 16 else s.rf (cmpReg MC_CTL SC_CTL (ch - 48)) 21 16

/-- An action byte performed by channel `ch` in the order SELF, LINK, EVT, IRQ (R341): producer `ch` pulses, and IRQ sets
bit `stat` of TMn_STAT with ICU source 448 + n, or raises the compare channel's source (R345, R421). -/
def act (ch byte stat : Nat) (s : State) : State :=
  let s1 := actSelf ch (nfld byte 2 0) s
  let s2 := actLink ch (chanLink s ch) (nfld byte 5 4) s1
  let s3 := if byte.testBit 6 then pulse ch s2 else s2
  if byte.testBit 7 then
    if ch < 48 then icuEvent (448 + ch) (s3.setRb (tmReg TM_STAT ch) stat true)
    else if ch < 52 then icuEvent (448 + ch) s3
    else sicEvent (ch - 46) s3
  else s3

/-- One tick of timer `n` (R340); the answer says whether it wrapped. -/
def timerTick1 (n : Nat) (s : State) : Bool × State :=
  let cnt := s.reg (tmReg TM_CNT n)
  let wrap := cnt == s.reg (tmReg TM_RELOAD n)
  let s1 := if wrap then act n (s.rf (tmReg TM_ACT n) 15 8) 1 (s.setReg (tmReg TM_CNT n) 0)
    else s.setReg (tmReg TM_CNT n) (cnt + 1)
  let s2 := if s1.reg (tmReg TM_CNT n) == s1.reg (tmReg TM_MATCH n) then act n (s1.rf (tmReg TM_ACT n) 7 0) 0 s1 else s1
  (wrap, s2)

/-- Timer `n` runs and takes its ticks from source `src`; an even timer takes none from SRC 6 (R339). -/
def timerTakes (s : State) (n src : Nat) : Bool :=
  s.rb (tmReg TM_CTL n) 31 && s.rf (tmReg TM_CTL n) 30 28 == src

/-- One tick of timer `n`, whose wrap ticks the odd timer above it under SRC 6 (R339, R340). -/
def timerTick (n : Nat) (s : State) : State :=
  let r := timerTick1 n s
  if r.1 && n % 2 == 0 && timerTakes r.2 (n + 1) 6 then (timerTick1 (n + 1) r.2).2 else r.2

/-- The prescaler divisor; below 0x100 it acts as 0x100 (R339). -/
def tmPre (s : State) (n : Nat) : Nat := Nat.max 0x100 (s.reg (tmReg TM_PRE n)).toNat

/-- One source cycle through the prescaler of timer `n` (R339). -/
def timerCycle (n : Nat) (s : State) : State :=
  let a := tmAccOf s n + 256
  if tmPre s n ≤ a then timerTick n (setTmAcc n (a - tmPre s n) s) else setTmAcc n a s

/-- A function applied `k` times. -/
def timesDo (k : Nat) (f : State → State) (s : State) : State :=
  match k with
  | 0 => s
  | k + 1 => timesDo k f (f s)

/-- Every reload timer by `f`, in channel order. -/
def forTimers (f : Nat → State → State) (s : State) : State := (List.range 48).foldl (fun t n => f n t) s

/-- The ticks that timer `n` on TB ticks takes as TB goes from `ns0` on: one for each multiple of 2^DIV passed (R339). -/
def tbTicksDue (ns0 : Nat) (s : State) (n : Nat) : Nat :=
  let d := 2 ^ s.rf (tmReg TM_CTL n) 26 22
  if timerTakes s n 0 then tbNs s / d - ns0 / d else 0

/-- The timers clocked by TB_NS take their ticks as TB goes from `ns0` on, each while it still runs (R339). -/
def timersTb (ns0 : Nat) (s : State) : State :=
  forTimers (fun n t => timesDo (tbTicksDue ns0 t n) (fun u => if timerTakes u n 0 then timerTick n u else u) t) s

/-- The timers on TB ticks that a step of TB from `ns0` takes past a multiple: each takes one tick however far it goes (R339). -/
def steppedTimers (ns0 : Nat) (s : State) : List Nat := (List.range 48).filter fun n => decide (0 < tbTicksDue ns0 s n)

/-- A forward step of TB by `ns` nanoseconds, by software or by the discipline source (R327, R328). One that falls in the XCLK of a step by the
other is one step with it: no second event, and a timer that has ticked for the first does not tick again (R349). -/
def tbStepBy (soft : Bool) (ns : Nat) (s : State) : State :=
  let (q, s0) := s.draw
  let s1 := refillMarks (tbNs s0) { s0 with tb := s0.tb + BitVec.ofNat 80 (ns * 2 ^ 16), stepMark := some s0.tb }
  let ticks := fun (l : List Nat) => withLinks fun t => l.foldl (fun u n => timerTick n u) t
  match s0.stepFrom.filter fun e => e.1 != soft && Config.sameCycle q with
  | some e => { ticks ((steppedTimers e.2.1 s1).filter fun n => !e.2.2.contains n) s1 with stepFrom := none }
  | none =>
    let l := steppedTimers (tbNs s0) s1
    pulse 58 (icuEvent 516 ({ ticks l s1 with stepFrom := some (soft, tbNs s0, l) }.setRb TB_STAT 0 true))

/-- MOTHCLK edges up to XCLK cycle `x`: 32,768 Hz against 600 MHz. -/
def mothEdges (x : Nat) : Nat := x * 32768 / 600000000

/-- The timers' source cycles in one XCLK: two KCLK, one XCLK, a REFCLK every 24th and a MOTHCLK at its own pace (R339). -/
def timersXclk (s : State) : State :=
  forTimers (fun n t =>
    if t.rb (tmReg TM_CTL n) 31 then
      match t.rf (tmReg TM_CTL n) 30 28 with
      | 1 => timesDo 2 (fun u => if timerTakes u n 1 then timerCycle n u else u) t
      | 2 => timerCycle n t
      | 3 => if s.xclk % 24 = 0 then timerCycle n t else t
      | 4 => timesDo (mothEdges (s.xclk + 1) - mothEdges s.xclk) (fun u => if timerTakes u n 4 then timerCycle n u else u) t
      | _ => t
    else t) s

/-- The compare value of a compare channel, 80 bits (R345). -/
def cmpValue (s : State) (k : Nat) : Nat :=
  (s.reg64 (cmpReg MC_CMP_LO SC_CMP_LO k) (cmpReg MC_CMP_HI SC_CMP_HI k)) * 2 ^ 16 + s.rf (cmpReg MC_CMP_FRAC SC_CMP_FRAC k) 15 0

/-- The period of a compare channel, 80 bits (R345). -/
def cmpPeriod (s : State) (k : Nat) : Nat :=
  (s.reg64 (cmpReg MC_PER_LO SC_PER_LO k) (cmpReg MC_PER_HI SC_PER_HI k)) * 2 ^ 16 + s.rf (cmpReg MC_PER_FRAC SC_PER_FRAC k) 15 0

/-- The compare value of a channel made `v`, modulo 2^80. -/
def setCmp (k v : Nat) (s : State) : State :=
  (s.setReg64 (cmpReg MC_CMP_LO SC_CMP_LO k) (cmpReg MC_CMP_HI SC_CMP_HI k) (v / 2 ^ 16)).setRf (cmpReg MC_CMP_FRAC SC_CMP_FRAC k) 15 0 (v % 2 ^ 16)

/-- Compare channel `k` is due: armed, and TB at or past its value (R345). -/
def cmpDue (s : State) (k : Nat) : Bool := s.rb (cmpReg MC_CTL SC_CTL k) 31 && decide (cmpValue s k ≤ s.tb.toNat)

/-- Compare channel `k` fires (R345, R421): its action, its FIRED bit, and the period added or ARM cleared. -/
def cmpFire (k : Nat) (s : State) : State :=
  let per := cmpPeriod s k
  let stat := if k < 4 then MC_STAT else SC_STAT
  let s1 := (act (48 + k) (s.rf (cmpReg MC_CTL SC_CTL k) 7 0) 0 s).setRb stat (k % 4) true
  let s3 := if per = 0 then s1.setRb (cmpReg MC_CTL SC_CTL k) 31 false else setCmp k (cmpValue s k + per) s1
  if k < 4 then s3 else safeTrigger (8 + k) s3

/-- Wake compare `n` is due (R330). -/
def wakeDue (s : State) (n : Nat) : Bool :=
  s.rb (TB_WK_CTL n) 31 && decide (s.reg64 (TB_WK_CMP_LO n) (TB_WK_CMP_HI n) ≤ tbNs s)

/-- Wake compare `n` fires (R330). -/
def wakeFire (n : Nat) (s : State) : State := icuEvent (518 + n) (pulse (56 + n) (s.setRb (TB_WK_CTL n) 31 false))

/-- The channels that the global masks select, rising (R343). -/
def gmask (s : State) : List Nat := onesOf 56 (s.reg64 TMU_GMASK_LO TMU_GMASK_HI)

/-- A global command: 1 start, 2 stop, 3 reset and start, on every selected channel (R343).
Bits for channels 52 to 55 are set by the Safety Island alone. -/
def gcmd (op : Nat) (s : State) : State :=
  (gmask s).foldl (fun t ch =>
    match op with
    | 1 => chanStart ch t
    | 2 => chanStop ch t
    | 3 => chanStart ch (chanReset ch t)
    | _ => t) s

/-- A software write of TB_RATE: ignored while a discipline source is selected (R327). -/
def tbRateWrite (v : Word) (s : State) : State := if tbDisc s = 0 then tbSetRate v s else s

/-- A software write of TB_ADJ: ignored while a discipline source is selected (R327). -/
def tbAdjWrite (v : Word) (s : State) : State := if tbDisc s = 0 then tbOffset v.toInt s else s

/-- A write of TB_STEP_HI: a forward step of HI:LO nanoseconds, whatever DISC is (R327). -/
def tbStepWrite (v : Word) (s : State) : State := tbStepBy true (v.toNat * 2 ^ 32 + (s.reg TB_STEP_LO).toNat) s

/-- A write of EVR_SWP pulses the software producers (R331). -/
def swpWrite (v : Word) (s : State) : State := (onesOf 8 v.toNat).foldl (fun t k => pulse (176 + k) t) s

/-- A consumer number that R332 assigns. -/
def consumerExists (c : Nat) : Bool := decide (c < 77) || (decide (96 ≤ c) && decide (c < 200))

/-- A write of EVR_CSELc (R333, R334): refused when another enabled consumer already has the channel. -/
def cselWrite (c : Nat) (v : Word) (s : State) : State :=
  let ch := fld v 7 0
  let en := wbit v 31 && consumerExists c
  let taken := en && decide (ch < 192) &&
    (List.range 256).any fun d => d != c && s.rb (EVR_CSEL d) 31 && s.rf (EVR_CSEL d) 7 0 == ch
  if taken then
    if s.rb EVR_CLASH 31 then s.setRb EVR_CLASH 30 true
    else icuEvent 520 (s.logWord EVR_CLASH (2 ^ 31 + ch * 256 + c))
  else
    let mode := wbit v 30 && decide (168 ≤ c) && decide (c < 184)
    s.setReg (EVR_CSEL c) (BitVec.ofNat 32 (b2n en * 2 ^ 31 + b2n mode * 2 ^ 30 + ch))

/-- A producer number that R331 assigns. -/
def producerExists (p : Nat) : Bool :=
  decide (p < 60) || (decide (64 ≤ p) && decide (p < 124)) || (decide (128 ≤ p) && decide (p < 163)) || (decide (176 ≤ p) && decide (p < 184))

/-- The bits of PMASK word `w` whose producers exist (EVR_PMASKn_w). -/
def pmaskBits (w : Nat) : Word := BitVec.ofNat 32 (bitsNat ((List.range 32).map fun b => producerExists (32 * w + b)))

end Sys2Proof.Machine
end

