-- ==== Sys2Proof/Machine/SafetyOps.lean ====
section
/-! DEFINITION. The Safety Island's register actions: the latch, the watchdog, the comparator test, the mailbox (R405, R410 to R417). -/
namespace Sys2Proof.Machine

/-- The Safety Island has been released by the BCU. -/
def siReleased (s : State) : Bool := (s.core siCore).released

/-- A write to a protected field is accepted from this master (R408). -/
def siwAccepts (s : State) (m : Nat) : Bool := m == 4 || (m == 8 && !siReleased s)

/-- The condition of a set releasable cause is still present (R410, R412). -/
def causeHolds (s : State) : Bool :=
  (s.rb SI_SSC 4 && s.cmNow != 0) || (s.rb SI_SSC 5 && !s.pwrfailN) || (s.rb SI_SSC 7 && anyLockup s)

/-- The latch may be released: no non-releasable cause is set and no set cause's condition holds (R412). -/
def latchReleasable (s : State) : Bool := !s.rb SI_SSC 2 && !s.rb SI_SSC 6 && !causeHolds s

/-- A trigger has come in the oscillator cycle of a release: a trigger of the same XCLK may have, which is a free choice (R412, log 54). -/
def triggerHere (s : State) : Bool × State :=
  if s.si.trigAt = some s.xclk then let (q, s1) := s.draw; (Config.sameCycle q, s1) else (false, s)

/-- A release request: to be performed as its oscillator cycle ends, where no trigger of that cycle comes before, or refused (R412). -/
def latchRelease (s : State) : State :=
  let (lost, s1) := triggerHere s
  if latchReleasable s && !lost then { s1 with si := { s1.si with relPend := true } } else s1.setRb SI_SSC 17 true

/-- An accepted write of SI_SSC: FORCE sets the latch, KEY 0xA5 asks for a release, and FORCE wins (R410, R412, R422). -/
def sscWrite (v : Word) (s : State) : State :=
  let s1 := if wbit v 17 then s.setRb SI_SSC 17 false else s
  let key := fld v 31 24 == 0xA5
  if wbit v 16 then
    let s2 := safeTrigger 1 s1
    if key then s2.setRb SI_SSC 17 true else s2
  else if key then latchRelease s1 else s1

/-- An accepted write of SI_WDCTL: EN once set stays, and PERIOD then ignores writes (R414). -/
def wdctlWrite (v : Word) (s : State) : State :=
  if s.rb SI_WDCTL 31 then s
  else
    let s1 := s.setRf SI_WDCTL 15 0 (fld v 15 0)
    if wbit v 31 then ({ s1 with si := { s1.si with wdT0 := s.xclk } }.setRb SI_WDCTL 31 true).setReg SI_WDCNT 0 else s1

/-- An accepted write of SI_WDWIN: OPEN ignores writes once EN is set (R414). -/
def wdwinWrite (v : Word) (s : State) : State :=
  let s1 := s.setRf SI_WDWIN 31 16 (fld v 31 16)
  if s.rb SI_WDCTL 31 then s1 else s1.setRf SI_WDWIN 15 0 (fld v 15 0)

/-- An accepted write of SI_WDKICK: a good kick restarts the count, a bad one triggers WD, and neither happens while EN is clear
(R414, R415). -/
def wdKick (v : Word) (s : State) : State :=
  if !s.rb SI_WDCTL 31 then s
  else if fld v 7 0 == 0xC3 && decide (s.rf SI_WDWIN 15 0 ≤ s.rf SI_WDCNT 15 0) then
    { s with si := { s.si with wdT0 := s.xclk } }.setReg SI_WDCNT 0
  else safeTrigger 3 s

/-- An accepted write of 1 to SI_LSCTL.TEST: the comparator detects the injected mismatch, sets TESTOK and clears TEST (R405). -/
def lockstepTest (v : Word) (s : State) : State := if wbit v 0 then s.setRb SI_STAT 30 true else s

/-- A write of SI_A2SDB raises A2S (R417). -/
def a2sDoorbell (v : Word) (s : State) : State := sicEvent 1 (s.setReg SI_A2SDB (BitVec.ofNat 32 (fld v 15 0)))

/-- An accepted write of SI_S2ADB raises SI_S2A (R417). -/
def s2aDoorbell (v : Word) (s : State) : State := icuEvent 632 (s.setReg SI_S2ADB (BitVec.ofNat 32 (fld v 15 0)))

/-- A lockstep mismatch: both cores halt, LSHALT is set and the latch triggered (R405). -/
def lockstepMismatch (s : State) : State := safeTrigger 2 (s.setRb SI_STAT 31 true)

/-- The register of the SI frame at `pa` is protected: every writable one but SI_A2Sw and SI_A2SDB (R408). -/
def siProtected (pa : Nat) : Bool :=
  !(decide (SI_A2S 0 ≤ pa) && decide (pa ≤ SI_A2SDB)) &&
    (match regSpec pa with
      | some r => r.rw != 0 || r.w1c != 0 || r.w1s != 0 || pa == SI_WDKICK
      | none => false)

/-- An accepted write to the SI register frame. -/
def siFrameAccept (pa : Nat) (v : Word) (s : State) : State :=
  if pa = SI_SSC then sscWrite v s
  else if pa = SI_WDCTL then wdctlWrite v s
  else if pa = SI_WDWIN then wdwinWrite v s
  else if pa = SI_WDKICK then wdKick v s
  else if pa = SI_LSCTL then lockstepTest v s
  else if pa = SI_A2SDB then a2sDoorbell v s
  else if pa = SI_S2ADB then s2aDoorbell v s
  else if SC_CTL 0 ≤ pa ∧ pa < SC_STAT ∧ (pa - SC_CTL 0) % 32 ≠ 0 ∧ s.rb (SC_CTL ((pa - SC_CTL 0) / 32)) 31 then s
  else match regSpec pa with
    | some r => s.setReg pa (regWritten r true (s.reg pa) v)
    | none => s

/-- A write to the SI register frame by master `m` (R408, R409). -/
def siFrameWrite (m pa : Nat) (v : Word) (s : State) : State :=
  if siProtected pa && !siwAccepts s m then siRefuse m pa s else siFrameAccept pa v s

end Sys2Proof.Machine
end

