-- ==== Sys2Proof/Machine/Targets.lean ====
section
/-! DEFINITION. Which target an address has, which master reaches it, and the log of refused accesses (R12 to R25, R311). -/
namespace Sys2Proof.Machine

/-- The target port of a control frame, by frame number; 8 for a frame that is not assigned (R17). -/
def frameTarget (f : Nat) : Nat :=
  if f < 0x05 then 3 else if f = 0x10 then 3 else if 0x11 ≤ f ∧ f ≤ 0x18 then 3 else if f = 0x20 then 3
  else if f = 0x30 ∨ f = 0x31 then 3 else if 0x40 ≤ f ∧ f ≤ 0x42 then 3 else if f = 0x50 then 3 else if f = 0x60 then 3
  else if 0x70 ≤ f ∧ f ≤ 0x74 then 3 else if f = 0x80 ∨ f = 0x90 then 5 else if 0x91 ≤ f ∧ f ≤ 0x98 then 4
  else if 0xA0 ≤ f ∧ f ≤ 0xA7 then 4 else if 0xB0 ≤ f ∧ f ≤ 0xBE then 4 else if f = 0xC0 then 4
  else if 0xC8 ≤ f ∧ f ≤ 0xCF then 4 else if f = 0xD0 ∨ f = 0xD1 ∨ f = 0xE0 ∨ f = 0xE1 then 5
  else if f = 0xF0 then 4 else 8

/-- The physical address is in control space (R12). -/
def isCtl (pa : Nat) : Bool := decide (0x20000000 ≤ pa) && decide (pa < 0x30000000)

/-- The physical address is in the SI register frame (R12). -/
def isSiFrame (pa : Nat) : Bool := decide (0x38000000 ≤ pa) && decide (pa < 0x38010000)

/-- The physical address is in the boot ROM (R12). -/
def isBootRom (pa : Nat) : Bool := decide (0x10000000 ≤ pa) && decide (pa < 0x10040000)

/-- The physical address is in a remote window (R12). -/
def isRemote (pa : Nat) : Bool := decide (0x800000000000 ≤ pa) && decide (pa < 0xC00000000000)

/-- The address has the device attribute whatever translation gives (R12). -/
def isDevice (pa : Nat) : Bool := isCtl pa || isSiSram pa || isSiFrame pa

/-- The target port of a physical address (R12, R14, R17). -/
def targetOf (s : State) (pa : Nat) : Nat :=
  if isErg pa then 0 else if isBootRom pa then 2 else if isCtl pa then frameTarget (pa / 0x10000 % 0x1000)
  else if isSiSram pa || isSiFrame pa then 7 else if isDram s pa then 1 else if isRemote pa then 6 else 8

/-- Master `m` may read, or with `w` write, the target of `pa` (R24). -/
def reaches (s : State) (m pa : Nat) (w : Bool) : Bool :=
  let t := targetOf s pa
  match m with
  | 0 => t == 0 || t == 1 || (t == 2 && !w) || t == 6
  | 1 | 11 => t == 0 || t == 1 || (t == 2 && !w) || t == 3 || t == 4 || t == 5 || t == 6 || (t == 7 && isSiFrame pa)
  | 2 => t == 1 || t == 6
  | 3 | 5 | 6 | 7 | 9 => t == 0 || t == 1
  | 4 => t == 0 || t == 1 || (t == 2 && !w) || t == 3 || t == 4 || t == 5 || t == 6 || t == 7
  | 8 => t == 0 || t == 1 || (t == 2 && !w) || t == 3 || t == 4 || t == 5 || (t == 7 && (isSiFrame pa || !siReleased s))
  | 10 => t == 0 || t == 3 || t == 4
  | _ => false

/-- The ID a transaction carries when nothing else names one. -/
def plainId : Nat := 0

/-- Master `m` is enabled (R25, R312), and the bus matrix is clocked (R27, R426). -/
def masterOn (s : State) (m : Nat) : Bool := s.rb XBM_MEN m && decide (s.pwr ≤ 1)

/-- The first DECODE or TARGET response, or timeout, recorded with XBM_ERR raised; a further one sets MORE (R311). -/
def xbmLog (m id tgt : Nat) (wr tmo : Bool) (resp : Resp) (pa : Nat) (s : State) : State :=
  if s.rb XBM_ELOG_INFO 31 then s.setRb XBM_ELOG_INFO 30 true
  else
    let info := 2 ^ 31 + b2n tmo * 2 ^ 29 + tgt * 2 ^ 16 + m * 2 ^ 12 + id % 64 * 16 + b2n wr * 8 + resp
    icuEvent 8 (((s.logWord XBM_ELOG_INFO info).setReg XBM_ELOG_PA_LO (BitVec.ofNat 32 pa)).setReg
      XBM_ELOG_PA_HI (BitVec.ofNat 32 (pa / 2 ^ 32)))

/-- An answer recorded in XBM_ELOG when it is DECODE or TARGET (R311). -/
def xbmLogged (m id : Nat) (wr : Bool) (pa : Nat) (r : BusRes × State) : BusRes × State :=
  match r with
  | (.done c b, s) => if c = rDECODE ∨ c = rTARGET then (.done c b, xbmLog m id (targetOf s pa) wr false c pa s) else (.done c b, s)
  | w => w

end Sys2Proof.Machine
end

