-- ==== Sys2Proof/Machine/Link.lean ====
section
/-! DEFINITION. Requests to remote windows and the owning node's service of them (R19 to R21, R352, R357, R360, R368 to R371). -/
namespace Sys2Proof.Machine

/-- The next CRC-16 after one bit of input (R352). -/
def crc16Bit (crc : Nat) (bit : Bool) : Nat :=
  let top := (crc.testBit 15) != bit
  let sh := crc * 2 % 65536
  if top then sh ^^^ 0x1021 else sh

/-- CRC-16 over bytes, most significant bit first (R352). -/
def crc16 (init : Nat) (bytes : List Byte) : Nat :=
  bytes.foldl (fun c b => (bitList 8 b.toNat).reverse.foldl crc16Bit c) init

/-- The header words as bytes. -/
def packetHeader (p : Packet) : List Byte :=
  leBytes 4 p.w0.toNat ++ leBytes 4 p.w1.toNat ++ leBytes 4 p.w2.toNat ++ leBytes 4 p.w3.toNat

/-- HCRC: the check over bytes 0x00 to 0x0D of the header (R352). -/
def packetHcrc (p : Packet) : Nat := crc16 0xFFFF ((packetHeader p).take 14)

/-- The packet with its header check filled in (R352). -/
def sealPacket (p : Packet) : Packet := { p with w3 := putFld p.w3 31 16 (packetHcrc p) }

/-- The header check of a packet that arrived is right. -/
def hcrcOk (p : Packet) : Bool := fld p.w3 31 16 == packetHcrc p

/-- Both checks of a packet that arrived are right; an empty payload has no CRC (R351). -/
def packetOk (p : Packet) : Bool := hcrcOk p && (p.payload.isEmpty || p.crc.toNat == crc32c p.payload)

/-- The inverted CRC of a stomp (R351). -/
def stompCrc (p : Packet) : Word := ~~~BitVec.ofNat 32 (crc32c p.payload)

/-- A packet that a transit node ended with an inverted CRC (R351). -/
def stomped (p : Packet) : Bool := hcrcOk p && !p.payload.isEmpty && p.crc == stompCrc p

/-- The copy of a packet that its sender ends with an inverted CRC (R351). -/
def stomp (p : Packet) : Packet := { p with crc := stompCrc p }

/-- A packet of the fields of R352. -/
def mkPacket (cls dst src ty ttl tag hop aop len addr code : Nat) (payload : List Byte) : Packet :=
  sealPacket
    { w0 := BitVec.ofNat 32 (cls % 4 * 2 ^ 30 + dst % 2 ^ 14 * 2 ^ 16 + src % 2 ^ 14),
      w1 := BitVec.ofNat 32 (ty % 16 * 2 ^ 28 + ttl % 16 * 2 ^ 24 + tag % 1024 * 2 ^ 14 + hop % 8 * 2 ^ 11 + aop % 4 * 2 ^ 9 + len % 512),
      w2 := BitVec.ofNat 32 addr, w3 := BitVec.ofNat 32 (code % 16 * 2 ^ 12), payload := payload, crc := if payload.isEmpty then 0 else BitVec.ofNat 32 (crc32c payload) }

/-- The node's ID is valid (R357). -/
def nodeValid (s : State) : Bool := s.rb IDL_NODEID 31

/-- The node's ID (R357). -/
def nodeId (s : State) : Nat := s.rf IDL_NODEID 13 0

/-- The SRC that this node puts in a packet: zero while its ID is not valid (R352). -/
def srcId (s : State) : Nat := if nodeValid s then nodeId s else 0

/-- Port `p` is UP: IDL_PnSTAT.STATE is 6 (R354). -/
def portUp (s : State) (p : Nat) : Bool := decide (p < 6) && s.rf (IDL_P_STAT p) 31 29 == 6

/-- A packet to `dst` is for this node (R360). -/
def ownDst (s : State) (dst : Nat) : Bool := nodeValid s && dst == nodeId s

/-- Where a packet for `dst` leaves this node: the primary port, the alternate, or nowhere (R360); the entry of the node's own ID is ignored
(R362). -/
def routePort (s : State) (dst : Nat) : Option Nat :=
  let e := s.reg (IDL_ROUTE dst)
  if !wbit e 31 || ownDst s dst then none
  else if portUp s (fld e 26 24) then some (fld e 26 24)
  else if wbit e 30 && portUp s (fld e 22 20) then some (fld e 22 20)
  else none

/-- A packet put at the output of a port: it gets its link sequence number when it is transmitted (R351, R364). -/
def linkSend (port : Nat) (p : Packet) (s : State) : State := { s with linkTx := s.linkTx ++ [⟨port, 0, p, false, false⟩] }

/-- How many reads, or writes, a master may hold outstanding: both numbers are the same for every port (R302). -/
def xactLimit (m : Nat) : Nat :=
  match m with
  | 0 | 5 => 16 | 1 | 3 | 6 => 8 | 2 => 32 | 4 | 7 | 10 => 4 | 8 | 9 => 2 | _ => 1

/-- The request belongs to a transaction of the bus matrix. -/
def ReqOwner.isXact : ReqOwner → Bool
  | .xact .. => true
  | _ => false

/-- The issued accesses of a core that wait at their targets: the one of its instruction, and the oldest store of its buffer. -/
def Core.waits (k : Core) : List BusHeld :=
  (match k.await with | some x => if x.gone then [] else [⟨x.m, x.kind != 0, x.pa, x.len, true, false⟩] | none => []) ++
  (match k.sbuf with | b :: _ => if b.out then [⟨b.m, true, b.pa, b.bytes.length, true, false⟩] else [] | [] => [])

/-- The issued accesses of cores and engines that wait at their targets (R302, R303). -/
def waitsAt (s : State) : List BusHeld := s.held ++ s.cores.toList.flatMap Core.waits

/-- A master's transactions that count against its limit on a channel, from request to response: those it issued by itself, those that
cores, the VSE and the like have outstanding at T6, and those of cores and engines that wait at their targets (R302). -/
def xactCount (s : State) (m : Nat) (wr : Bool) : Nat :=
  (s.xacts.filter fun x => x.m == m && x.granted && !x.gone && (x.kind != 0) == wr).length +
  (s.outst.filter fun r => r.m == m && !r.owner.isXact && !r.gone && (r.kind != 0) == wr).length +
  ((waitsAt s).filter fun h => h.m == m && h.wr == wr).length

/-- Two stretches of addresses share a byte. -/
def touches (pa len qa qlen : Nat) : Bool := decide (pa < qa + qlen) && decide (qa < pa + len)

/-- An older access of the same master to a common byte has not been performed yet: one of the matrix's list `older`, or one of a core or an engine
that waits at its target (R303). -/
def inWay (s : State) (older : List Xact) (m pa len : Nat) : Bool :=
  (older.any fun y => y.m == m && !y.answered && touches y.pa y.len pa len) ||
    (waitsAt s).any fun h => h.m == m && touches h.pa h.len pa len

/-- A master may issue an access now: it is enabled and below its limit, and no older access stands before it (R302, R303, R312). -/
def mayIssue (s : State) (older : List Xact) (m : Nat) (wr : Bool) (pa len : Nat) : Bool :=
  masterOn s m && decide (xactCount s m wr < xactLimit m) && !inWay s older m pa len

/-- An engine's access that waits is already listed. -/
def BusHeld.same (h g : BusHeld) : Bool := h.m == g.m && h.wr == g.wr && h.pa == g.pa && h.len == g.len

/-- An access as an engine's port lists it while it waits. -/
def heldOf (x : Xact) : BusHeld := ⟨x.m, x.kind != 0, x.pa, x.len, true, false⟩

/-- The access has been issued and waits at its target. -/
def issuedAt (s : State) (h : BusHeld) : Bool := s.held.any h.same

/-- QOS of a transaction: 3 for one with the deterministic marker and for M4, else that of its port (R304). -/
def qosOf (s : State) (m : Nat) (det : Bool) : Nat := if det || m == 4 then 3 else s.rf (XBM_MQOS m) 1 0

/-- A transaction as its master forms it. -/
def newXact (s : State) (m core id kind pa len fn : Nat) (lvl : Level) (det : Bool) (coll : List Nat) (todo : List (Nat × List Byte)) : Xact :=
  ⟨m, core, id, kind, pa, len, fn, lvl, qosOf s m det, coll, todo, [], false, false, rOKAY, false, det, false, false⟩

/-- The timeout of an access recorded (R311). -/
def tmoLog (x : Xact) (s : State) : State := xbmLog x.m x.id (targetOf s x.pa) (x.kind != 0) true rTARGET x.pa s

/-- An access whose time has expired: it is recorded, and a write that its target still performs has no taker (R310). -/
def tmoGone (x : Xact) (s : State) : State :=
  let s1 := tmoLog x s
  if x.kind = 0 then s1 else { s1 with xacts := s1.xacts ++ [{ x with granted := true, auto := true, gone := true }] }

/-- An engine's access issued when its port takes it; one that has been issued is performed whatever its port's enable says by now, and once its
time has expired it is answered with TARGET (R302, R303, R310, R312). -/
def busGate (x : Xact) (go : State → BusRes × State) (s : State) : BusRes × State :=
  let h := heldOf x
  let s0 : State := { s with held := s.held.filter fun g => !h.same g }
  if s.held.any fun g => h.same g && g.tmo then (.done rTARGET [], tmoGone x s0)
  else if issuedAt s h || mayIssue s s.xacts x.m (x.kind != 0) x.pa x.len then
    match go s0 with
    | (.wait, s1) => (.wait, if isRemote x.pa then s1 else { s1 with held := s1.held ++ [h] })
    | d => d
  else (.wait, s)

/-- A new XCLK begins for the engines' accesses that wait. -/
def heldStale (s : State) : State := { s with held := s.held.map fun h => { h with live := false } }

/-- The accesses that no engine has asked for in this XCLK leave the list; a walk and a configuration record are taken on by commands of their own. -/
def heldClean (s : State) : State :=
  { s with held := s.held.filter fun h =>
      h.live || (h.m == 3 && s.walks.any fun w => w.res.isNone && !w.queued) || (h.m == 8 && s.boot.phase == .records) }

/-- A request of a master may leave at T6: a free tag, and room under the master's limit (R302, R368). -/
def mayLeave (s : State) (m : Nat) (owner : ReqOwner) (wr : Bool) : Bool :=
  decide (s.outst.length < 256) && (owner.isXact || decide (xactCount s m wr < xactLimit m))

/-- The lowest request tag not in use. -/
def freeTag (s : State) : Nat :=
  ((List.range 1024).find? fun t => !(s.outst.any fun r => r.tag == t)).getD 0

/-- A request put among those outstanding: its tag is that of no abandoned one any more (R370). -/
def outAdd (r : OutReq) (s : State) : State := { s with outst := s.outst ++ [r], lateTags := s.lateTags.filter fun t => t != r.tag }

/-- The record of a refused inbound request (R371): the first is logged and raises INREF, a further one sets MORE. -/
def inboundRefused (node cause m : Nat) (addr : Nat) (s : State) : State :=
  if s.rb IDL_ILOG 31 then s.setRb IDL_ILOG 30 true
  else
    let w := 2 ^ 31 + node % 2 ^ 14 * 2 ^ 16 + cause * 2 ^ 12 + m
    icuEvent 243 ((s.logWord IDL_ILOG w).setReg IDL_ILOG_ADDR (BitVec.ofNat 32 addr))

/-- The record of a request that ended with anything but OKAY (R369, R371): the first is logged and raises OUTERR, a further one
sets MORE. -/
def outLog (node cause m : Nat) (s : State) : State :=
  if s.rb IDL_OLOG 31 then s.setRb IDL_OLOG 30 true
  else icuEvent 242 (s.logWord IDL_OLOG (2 ^ 31 + node % 2 ^ 14 * 2 ^ 16 + cause * 2 ^ 12 + m))

/-- The checks of an inbound request against IDL_EXPORT_CTL, which come before its offset is decoded (R371). -/
def exportOk (s : State) (offs : Nat) (write : Bool) : Bool :=
  let c := s.reg IDL_EXPORT_CTL
  (!write || wbit c 29) &&
    (if offs < 0x3000000 then wbit c 31
     else decide (offs < 0x80000000) || (wbit c 30 && decide (offs - 0x80000000 < Nat.min (fld c 5 0) 32 * 0x4000000)))

/-- The physical address that a window offset reaches on this node: nothing between the Erg and the DRAM window (R19). -/
def exportAddr (s : State) (offs : Nat) : Option Nat :=
  if offs < 0x3000000 then some offs
  else if offs < 0x80000000 then none
  else some (s.reg64 IDL_EXPORT_BASE_LO IDL_EXPORT_BASE_HI + (offs - 0x80000000))

/-- The code the owning node returns for a response of M5: TARGET and ECC both as TARGET (R371). -/
def ownerCode (r : Resp) : Resp := if r = rECC then rTARGET else r

/-- The access of M5 that an inbound request makes: `named` holds the Erg words that its sender names as losing a collision, beside those that meet
port V (R280). The upper half of a window reaches nothing but DRAM (R19). -/
def ownerAccess (kind offs pa len fn : Nat) (data : List Byte) (named : List Nat) (s : State) : BusRes × State :=
  let (lost, s0) := if kind = 0 then ([], s) else portVLost pa len s
  let coll := named ++ lost
  xbmLogged 5 0 (kind != 0) pa (if decide (0x80000000 ≤ offs) && !isDram s0 pa then (.done rDECODE [], s0) else match kind with
    | 0 => localRead pa len s0
    | 1 => localWrite pa data coll s0
    | _ => localAtomic pa fn (leWord data) (coll.contains (pa / 8 * 8)) s0)

/-- The access of M5 for the offset has been issued and waits at its target. -/
def ownerIssued (s : State) (kind offs len : Nat) : Bool :=
  match exportAddr s offs with
  | some pa => issuedAt s ⟨5, kind != 0, pa, len, true, false⟩
  | none => false

/-- An inbound request that fails a check of IDL_EXPORT_CTL; one that M5 has issued already has passed them (R371). -/
def inboundFails (s : State) (kind offs len : Nat) : Bool := !ownerIssued s kind offs len && !exportOk s offs (kind != 0)

/-- An inbound request performed through M5 (R371): `kind` 0 read, 1 write, 2 atomic. It waits while M5 is disabled; the checks of IDL_EXPORT_CTL
come before the offset is decoded. An atomic that loses a collision still returns the old word (R203). -/
def ownerPerform (node kind offs len fn : Nat) (data : List Byte) (named : List Nat) (s : State) : BusRes × State :=
  if !masterOn s 5 && !ownerIssued s kind offs len then (.wait, s)
  else if inboundFails s kind offs len then (.done rDECODE [], inboundRefused node rDECODE 0 offs s)
  else match exportAddr s offs with
    | none => (.done rDECODE [], s)
    | some pa =>
      match busGate (newXact s 5 0 plainId kind pa len fn .m false named [(pa, data)]) (ownerAccess kind offs pa len fn data named) s with
      | (.done c b, s1) => (.done (ownerCode c) (if ownerCode c = rOKAY ∨ (kind = 2 ∧ c = rCOLLIDE) then b else []), s1)
      | w => w

/-- A request to the node's own window that M5 has not performed yet stands before a new one (R20). -/
def ownHeld (s : State) : Bool := s.outst.any fun r => r.port == 6 && !r.gone

/-- A transaction to a remote window becomes a request (R20, R21, R368): it is refused with DECODE, served through the node's
own M5, held as a request that has left, or launched. -/
def remoteRequest (m : Nat) (owner : ReqOwner) (cls kind pa len fn : Nat) (data : List Byte) (coll : List Nat) (s : State) : BusRes × State :=
  let node := nfld pa 45 32
  let offs := pa % 2 ^ 32
  let held := fun (t : State) =>
    (BusRes.wait, if mayLeave t m owner (kind != 0) then outAdd ⟨freeTag t, kind, pa, len, m, owner, 6, false, fn, data, coll⟩ t else t)
  if !nodeValid s then (.done rDECODE [], s)
  else if node = nodeId s then
    if !ownHeld s then
      match ownerPerform node kind offs len fn data coll s with
      | (.done 0 b, s1) => (.done rOKAY b, s1)
      | (.done c b, s1) => (.done c b, outLog node c m s1)
      | (.wait, s1) => held s1
    else held s
  else match routePort s node with
    | none => (.done rDECODE [], outLog node rDECODE m s)
    | some p =>
      if !mayLeave s m owner (kind != 0) then (.wait, s)
      else
        let tag := freeTag s
        let pkt := mkPacket cls node (srcId s) kind 15 tag 0 fn len offs 0 data
        (.wait, linkSend p pkt (outAdd ⟨tag, kind, pa, len, m, owner, p, false, fn, data, coll⟩ s))

end Sys2Proof.Machine
end

