-- ==== Sys2Proof/Machine/BcuOps.lean ====
section
/-! DEFINITION. The boot and configuration unit's store, its NVM, the release of cores, and the OTP registers (R443 to R446, R455, R459 to R468). -/
namespace Sys2Proof.Machine

/-- A byte of the NVM that nothing has programmed. -/
def nvmDefault (_ : Nat) : Byte := 0xFF

/-- The byte at offset `a` of the NVM. -/
def State.nvmByte (s : State) (a : Nat) : Byte := smGet nvmDefault s.nvm a

/-- `n` bytes of the NVM from offset `a`. -/
def State.nvmBytes (s : State) (a n : Nat) : List Byte := (List.range n).map fun i => s.nvmByte (a + i)

/-- The number of `n` bytes at offset `a` (R4). -/
def State.nvmNat (s : State) (a n : Nat) : Nat := leNat (s.nvmBytes a n)

/-- Bytes written to the NVM from offset `a`. -/
def nvmPut (a : Nat) : List Byte → State → State
  | [], s => s
  | b :: t, s => nvmPut (a + 1) t { s with nvm := smPut nvmDefault s.nvm a b }

/-- Offsets `lo` to `hi` − 1 of the NVM erased. -/
def nvmErase (lo hi : Nat) (s : State) : State :=
  { s with nvm := smDrop (fun a => decide (lo ≤ a) && decide (a < hi)) s.nvm }

/-- Offsets `lo` to `hi` − 1 of the NVM left as a cut-short operation leaves them. -/
def nvmTear (lo hi : Nat) (s : State) : State :=
  let (q, s1) := s.draw
  nvmPut lo ((List.range (hi - lo)).map fun i => Config.nvmTorn q (lo + i)) s1

/-! ### The NVM header (R446) -/

/-- A header copy at `a` has the right MAGIC, FORMAT and CRC. -/
def headerOk (s : State) (a : Nat) : Bool :=
  s.nvmNat a 4 == 0x48495141 && s.nvmNat (a + 4) 2 == 1 && s.nvmNat (a + 0x1C) 4 == crc32c (s.nvmBytes a 0x1C)

/-- The offset of the header copy in use. -/
def headerAt (s : State) : Option Nat := if headerOk s 0 then some 0 else if headerOk s 0x1000 then some 0x1000 else none

/-- A field of the header in use, 0 without one. -/
def headerNat (s : State) (o n : Nat) : Nat := match headerAt s with | some a => s.nvmNat (a + o) n | none => 0

/-- The erase unit. -/
def eraseUnit (s : State) : Nat := 2 ^ headerNat s 0x0A 1

/-- The offset of image slot `k`. -/
def imgOffs (s : State) (k : Nat) : Nat := headerNat s (0x0C + 4 * k) 4

/-- The offset of the store region. -/
def stBase (s : State) : Nat := headerNat s 0x14 4

/-- The size of a store slot. -/
def slotSize (s : State) : Nat := 2 ^ headerNat s 0x18 1

/-! ### The store (R459 to R464) -/

/-- The offset of slot number `n`: 0 to 63 bank A, 64 to 127 bank B (R459). -/
def slotOffs (s : State) (n : Nat) : Nat := stBase s + n * slotSize s

/-- The COMMIT word (R460). -/
def commitMark : Nat := 0xA55AC3C3

/-- A slot has MAGIC, LEN and COMMIT as R460 gives. -/
def slotFramed (s : State) (n : Nat) : Bool :=
  let a := slotOffs s n
  s.nvmNat a 4 == 0x54535141 && decide (s.nvmNat (a + 8) 4 + 288 ≤ slotSize s) && s.nvmNat (a + slotSize s - 16) 4 == commitMark

/-- A slot's payload. -/
def slotData (s : State) (n : Nat) : List Byte := s.nvmBytes (slotOffs s n + 0x20) (s.nvmNat (slotOffs s n + 8) 4)

/-- The CRC of a slot's record is right (R460). -/
def slotCrcOk (s : State) (n : Nat) : Bool :=
  let a := slotOffs s n
  s.nvmNat (a + 0x0C) 4 == crc32c (s.nvmBytes a 12 ++ slotData s n)

/-- A valid record (R461). -/
def slotValid (s : State) (n : Nat) : Bool := slotFramed s n && slotCrcOk s n

/-- SEQ of a slot. -/
def slotSeq (s : State) (n : Nat) : Nat := s.nvmNat (slotOffs s n + 4) 4

/-- `a` is later than `b` as serial numbers (R462, R463). -/
def serialLater (a b : Nat) : Bool :=
  let d := (a + 2 ^ 32 - b % 2 ^ 32) % 2 ^ 32
  decide (1 ≤ d) && decide (d ≤ 2 ^ 31 - 1)

/-- The latest of some slots, the first where neither of two is later (R462). -/
def latestOf (s : State) (l : List Nat) : Option Nat :=
  l.foldl (fun b n => match b with | none => some n | some m => if serialLater (slotSeq s n) (slotSeq s m) then some n else some m) none

/-- The selected record's slot number (R462). -/
def storeSelected (s : State) : Option Nat := latestOf s ((List.range 128).filter (slotValid s))

/-- A later record than slot `n`'s failed its CRC (R466). -/
def storeOlder (s : State) (n : Nat) : Bool :=
  (List.range 128).any fun m => slotFramed s m && !slotCrcOk s m && serialLater (slotSeq s m) (slotSeq s n)

/-- The next write: its slot number and its SEQ (R464). -/
def storeNext (s : State) : Nat × Nat :=
  match storeSelected s with
  | none => (0, 1)
  | some n =>
    let bank := 1 - n / 64
    let slot := match latestOf s ((List.range 128).filter fun m => m / 64 == bank && slotValid s m) with
      | some m => (m % 64 + 1) % 64
      | none => 0
    (64 * bank + slot, (slotSeq s n + 1) % 2 ^ 32)

/-- BCU_STSEL and BCU_STSEQ as the selection gives them, and NBANK and NSLOT as the next write does. -/
def storeReport (s : State) : State :=
  let s1 := match storeSelected s with
    | none => (s.setReg BCU_STSEL 0).setReg BCU_STSEQ 0
    | some n =>
      let w := 2 ^ 31 + n / 64 * 2 ^ 30 + n % 64 * 2 ^ 24 + b2n (storeOlder s n) * 2 ^ 23 + s.nvmNat (slotOffs s n + 8) 4 % 2 ^ 17
      (s.setReg BCU_STSEL (BitVec.ofNat 32 w)).setReg BCU_STSEQ (BitVec.ofNat 32 (slotSeq s n))
  let nx := (storeNext s).1
  s1.setReg BCU_ST_STAT (putFld (putFld (s1.reg BCU_ST_STAT) 23 23 (nx / 64)) 16 11 (nx % 64))

/-! ### Commands (R465 to R468) -/

/-- A bit of BCU_ST_STAT set or cleared. -/
def stBit (b : Nat) (v : Bool) (s : State) : State := s.setRb BCU_ST_STAT b v

/-- A command refused or ended with an error: ERR with its code and BCU_STERR (R465, R468, R469). -/
def stError (code : Nat) (s : State) : State := icuEvent 621 ((stBit 28 true s).setRf BCU_ST_STAT 26 24 code)

/-- An operation is in progress (BUSY). -/
def stBusy (s : State) : Bool := s.rb BCU_ST_STAT 31

/-- Two ranges [a, b) and [c, d) meet. -/
def meets (a b c d : Nat) : Bool := decide (a < d) && decide (c < b) && decide (a < b) && decide (c < d)

/-- A range widened to whole erase units. -/
def unitRange (s : State) (lo hi : Nat) : Nat × Nat := if lo < hi then (lo / eraseUnit s * eraseUnit s, alignUp hi (eraseUnit s)) else (lo, lo)

/-- A range that ERASE and PROGRAM must not touch (R468). -/
def nvmProtected (s : State) (lo hi : Nat) : Bool :=
  let h0 := unitRange s 0 32
  let h1 := unitRange s 0x1000 0x1020
  let i := imgOffs s (s.rf BCU_BSTAT 15 15)
  meets lo hi h0.1 h0.2 || meets lo hi h1.1 h1.2 || meets lo hi (stBase s) (stBase s + 128 * slotSize s) ||
    meets lo hi i (alignUp (i + s.nvmNat (i + 0x10) 4) (eraseUnit s))

/-- The source address and the length of a command. -/
def stSrc (s : State) : Nat := s.rf BCU_ST_SRC 31 3 * 8

/-- The length of a command. -/
def stLen (s : State) : Nat := s.rf BCU_ST_LEN 16 0

/-- An operation accepted: BUSY, with what it will do. -/
def stStart (op : NvmOp) (s : State) : State := { stBit 31 true s with nvmOp := op }

/-- The bytes that a command reads from its source through M8 (R22, R465, R468), as an access of that port (R302, R311, R312). -/
def stRead (s : State) : BusRes × State :=
  busGate (newXact s 8 0 plainId 0 (stSrc s) (stLen s) 0 .m false [] []) (fun t => xbmLogged 8 plainId false (stSrc s) (localRead (stSrc s) (stLen s) t)) s

/-- A commit begins: the payload is copied from the Erg into the staging buffer (R465). -/
def commitStart (s : State) : State :=
  if slotSize s < stLen s + 288 then stError 2 s
  else if !isErg (stSrc s) then stError 3 s
  else match stRead s with
    | (.done 0 b, s1) =>
      let nx := storeNext s1
      stStart (.commit nx.1 (BitVec.ofNat 32 nx.2) b) (stBit 27 false (stBit 30 true s1))
    | (.done _ _, s1) => stError 3 s1
    | (.wait, s1) => s1.setRb BCU_ST_CTL 31 true

/-- An erase begins (R468). -/
def eraseStart (s : State) : State :=
  let lo := (s.reg BCU_ST_DST).toNat
  let r := unitRange s lo (lo + stLen s)
  if nvmProtected s r.1 r.2 then stError 6 s else stStart (.erase r.1 r.2) s

/-- The source of a command lies in the Erg or in DRAM (R468). -/
def stSrcOk (s : State) : Bool := isErg (stSrc s) || isDram s (stSrc s)

/-- A program begins (R468). -/
def programStart (s : State) : State :=
  let lo := (s.reg BCU_ST_DST).toNat
  if 65536 < stLen s then stError 2 s
  else if nvmProtected s lo (lo + stLen s) then stError 6 s
  else if !stSrcOk s then stError 3 s
  else match stRead s with
    | (.done 0 b, s1) => stStart (.program lo b) s1
    | (.done _ _, s1) => stError 3 s1
    | (.wait, s1) => s1.setRb BCU_ST_CTL 31 true

/-- The next slot is erased and READY set (R465 step 7): nothing is to be done unless a commit has left its slot to be erased. -/
def storeReady (s : State) : State :=
  match s.nvmOp with
  | .prepare n => let a := slotOffs s n; icuEvent 622 { stBit 27 true (nvmErase a (a + slotSize s) s) with nvmOp := .idle }
  | _ => s

/-- GO (R465, R468, R470): refused while an operation runs; the erase that a commit has left to be done comes first. -/
def stGo (s0 : State) : State :=
  let s := storeReady (s0.setRb BCU_ST_CTL 31 false)
  if stBusy s then stError 1 s
  else match s.rf BCU_ST_CTL 1 0 with
    | 0 => commitStart s
    | 1 => eraseStart s
    | 2 => programStart s
    | _ => stError 2 s

/-- A GO that waits for its source tried again. -/
def stRetry (s : State) : State := if s.rb BCU_ST_CTL 31 && !stBusy s then stGo s else s

/-- A write of BCU_ST_CTL. -/
def stCtlWrite (v : Word) (s : State) : State :=
  let s1 := s.setReg BCU_ST_CTL ((s.reg BCU_ST_CTL &&& 0x80000000) ||| (v &&& 0x40000003))
  if wbit v 31 then stGo s1 else s1

/-- The record that a commit writes to its slot (R460). -/
def recordBytes (s : State) (seq : Word) (data : List Byte) : List Byte :=
  let head := leBytes 4 0x54535141 ++ leBytes 4 seq.toNat ++ leBytes 4 data.length
  head ++ leBytes 4 (crc32c (head ++ data)) ++ List.replicate 16 0 ++ data ++
    List.replicate (slotSize s - 48 - data.length) 0xFF ++ leBytes 4 commitMark ++ List.replicate 12 0xFF

/-- The operation in progress over. -/
def stIdle (s : State) : State := { stBit 31 false (stBit 30 false s) with nvmOp := .idle }

/-- A commit's record stands: DONE is set, the selection follows, and the next slot is being erased (R465). -/
def commitWell (n : Nat) (seq : Word) (data : List Byte) (s : State) : State :=
  let a := slotOffs s n
  let s1 := nvmPut a (recordBytes s seq data) (nvmErase a (a + slotSize s) s)
  let s2 := storeReport (stBit 29 true (stIdle s1))
  icuEvent 620 { s2 with nvmOp := .prepare (storeNext s2).1 }

/-- An ERASE or a PROGRAM ends (R468). -/
def nvmDone (s : State) : State :=
  match s.nvmOp with
  | .erase lo hi => stBit 29 true (stIdle (nvmErase lo hi s))
  | .program dst data => stBit 29 true (stIdle (nvmPut dst data s))
  | _ => s

/-- How many whole units of `n` an operation has done as it ends early (R467): any number, and with `fin` the one in progress among them. -/
def unitsDone (fin : Bool) (n : Nat) (s : State) : Nat × State :=
  let (q, s1) := s.draw
  (Nat.min n (Config.nvmUnits q % (n + 1) + b2n fin), s1)

/-- Erase units `lo` to `hi` − 1 as an erase that ends early leaves them: units erased whole from the lowest on, the one in progress torn unless the
erase ends at its end (`fin`), and the rest untouched (R467). -/
def eraseCut (fin : Bool) (lo hi : Nat) (s : State) : State :=
  let u := eraseUnit s
  let (k, s1) := unitsDone fin ((hi - lo) / u) s
  let m := lo + k * u
  let s2 := nvmErase lo m s1
  if fin then s2 else nvmTear m (Nat.min hi (m + u)) s2

/-- The offset at which page `k` of a program from `dst` ends, page 0 being none: pages are 256 bytes (R465). -/
def pageEnd (dst k : Nat) : Nat := if k = 0 then dst else (dst / 256 + k) * 256

/-- A program that ends early: its pages programmed whole from the lowest on, the one in progress torn unless the program ends at its end (`fin`), and
the rest untouched (R467). -/
def programCut (fin : Bool) (dst : Nat) (data : List Byte) (s : State) : State :=
  let hi := dst + data.length
  let (k, s1) := unitsDone fin ((hi + 255) / 256 - dst / 256) s
  let m := Nat.min hi (pageEnd dst k)
  let s2 := nvmPut dst (data.take (m - dst)) s1
  if fin then s2 else nvmTear m (Nat.min hi (pageEnd dst (k + 1))) s2

/-- An operation that ends early leaves of an erase or a program what it has done, and of a commit's slot nothing that the spec gives but that COMMIT
is not programmed (R461, R466, R467). -/
def nvmPart (fin : Bool) (s : State) : State :=
  match s.nvmOp with
  | .idle => s
  | .commit n _ _ => let a := slotOffs s n; nvmTear a (a + slotSize s - 256) (nvmErase a (a + slotSize s) s)
  | .erase lo hi => eraseCut fin lo hi s
  | .program dst data => programCut fin dst data s
  | .prepare n => let a := slotOffs s n; eraseCut fin a (a + slotSize s) s

/-- An operation cut short. -/
def nvmCut (s : State) : State := nvmPart false s

/-- A commit ends: the record reads back well and COMMIT is programmed, or its CRC does not and the command ends with VERIFY, which is the NVM's
free choice (R465). -/
def commitDone (s : State) : State :=
  match s.nvmOp with
  | .commit n seq data =>
    let (q, s0) := s.draw
    if Config.verifyFails q then stError 5 (stIdle (nvmCut s0)) else commitWell n seq data s0
  | _ => s

/-- A page program or an erase exceeds its time (R465). -/
def nvmTimeout (s : State) : State := if s.nvmOp = .idle then s else stError 4 (stIdle (nvmCut s))

/-- The operation in progress abandoned (R467, R470). -/
def stAbandon (s : State) : State := if s.nvmOp = .idle then s else stIdle (nvmCut s)

/-- The operation in progress abandoned as the page or erase unit in progress ends (R467). -/
def stEndAtUnit (s : State) : State := if s.nvmOp = .idle then s else stIdle (nvmPart true s)

/-! ### Cores and OTP -/

/-- BCU_BSTAT, with ERGFAIL a copy of ERG_BGSTAT.FAIL. -/
def bstatValue (s : State) : Word := putFld (s.reg BCU_BSTAT) 23 16 (s.rf ERG_BGSTAT 23 16)

/-- A core released at M at its entry point (R455). -/
def releaseCore (c : CoreId) (entry : Nat) (s : State) : State :=
  if (s.core c).released then s
  else
    let k := Core.reset
    let g := (k.g.set 8 (if isSI c then 0x10 else BitVec.ofNat 32 c.val)).set 9 (bstatValue s)
    s.setCore c { k with released := true, pc := BitVec.ofNat 32 entry, g := g }

/-- A write of BCU_REL (R455). -/
def relWrite (v : Word) (s : State) : State :=
  (onesOf 4 v.toNat).foldl (fun t c => (releaseCore (coreNo c) (t.nvmNat (t.boot.img + 0x18) 4) t).setRb BCU_REL c true) s

/-- A write of KSU_REVOKE that is accepted: keys burnt as revoked (R443). -/
def revokeWrite (v : Word) (s : State) : State :=
  { s with otp := { s.otp with keyRev := s.otp.keyRev ||| BitVec.ofNat 4 v.toNat } }

/-- KEYDIGk is provisioned (R443). -/
def keyDigOf (s : State) (k : Nat) : BitVec 384 := s.otp.keyDig.toList.getD k 0

/-- KSU_LCS. -/
def lcsValue (s : State) : Word :=
  let kv := bitsNat ((List.range 4).map fun k => keyDigOf s k != 0)
  BitVec.ofNat 32 (s.otp.keyRev.toNat * 2 ^ 16 + kv * 2 ^ 12 + s.otp.bootRetry.toNat * 2 ^ 8 + b2n s.otp.patchReq * 16 + s.otp.lcs.toNat)

/-- KSU_CTR. -/
def ctrValue (s : State) : Word := BitVec.ofNat 32 (s.otp.patchCtr % 128 * 256 + s.otp.imgCtr % 128)

end Sys2Proof.Machine
end

