-- ==== Sys2Proof/Machine/Elg.lean ====
section
/-! DEFINITION. The energy ledger: credit, verdicts and group estimates (R433 to R438). -/
namespace Sys2Proof.Machine

/-- A 64-bit signed credit held in 64 bits. -/
def creditWrap (x : Int) : Int := sgn 64 (wrapTo 64 x)

/-- The credit made `x`: falling below ELG_LOW sets LOW with its source and pulse, and LOW clears at or above it (R438). -/
def setCredit (x : Int) (s : State) : State :=
  let v := creditWrap x
  let s1 := { s with elgCredit := v }
  let low : Int := ((s.reg ELG_LOW).toNat : Int)
  if v < low then
    (if s.rb ELG_STAT 29 then s1 else pulse 162 (icuEvent 610 (s1.setRb ELG_STAT 29 true)))
  else s1.setRb ELG_STAT 29 false

/-- A write of ELG_CREDIT_LO: the whole credit from the staging register and the written word. -/
def creditWrite (v : Word) (s : State) : State := setCredit (s.elgStage.toNat * 2 ^ 32 + v.toNat : Nat) s

/-- The hold-up limit (R435). -/
def holdUp (s : State) : Int := ((s.reg ELG_EHOLD).toNat : Int) - (s.reg ELG_ECOMMIT).toNat - (s.reg ELG_ESAFE).toNat

/-- A hold-up limit is configured (R435). -/
def holdUpSet (s : State) : Bool := s.reg ELG_EHOLD != 0

/-- The verdicts of R435, or the wait of R436. -/
inductive Verdict where
  | passes
  | slow
  | defer (shortfall : Nat)
  | wait
  deriving DecidableEq, Repr

/-- A count held at 0xFFFF_FFFF (R161). -/
def cap32 (x : Int) : Nat := Nat.min x.toNat 0xFFFFFFFF

/-- The energy-defer request stands (ELG_STAT.HOLDOFF). -/
def holdOff (s : State) : Bool := s.rb ELG_STAT 31

/-- The ledger's verdict on an estimate, with what it leaves (R433, R435, R436). -/
def elgVerdict (e : Nat) (s : State) : Verdict × State :=
  let slow := s.rb ELG_POLICY 0
  let add := fun (t : State) => t.setReg ELG_INFLIGHT (t.reg ELG_INFLIGHT + BitVec.ofNat 32 e)
  if holdUpSet s && decide (holdUp s < e) then
    (.defer (cap32 ((e : Int) - holdUp s)), icuEvent 612 (s.setRb ELG_STAT 30 true))
  else if holdUpSet s && decide (holdUp s < (s.reg ELG_INFLIGHT).toNat + e) then (.wait, s)
  else if holdOff s && !slow then (.defer (cap32 e), s)
  else if !s.rb ELG_CTL 31 then (.passes, add s)
  else if !holdOff s && decide ((e : Int) ≤ s.elgCredit) then (.passes, add (setCredit (s.elgCredit - e) s))
  else if slow && decide (-((s.reg ELG_DEBTMAX).toNat : Int) < s.elgCredit) then (.slow, add (setCredit (s.elgCredit - e) s))
  else (.defer (cap32 ((e : Int) - s.elgCredit)), s)

/-- An estimate leaves the sum in flight (R436). -/
def elgRelease (e : Nat) (s : State) : State := s.setReg ELG_INFLIGHT (s.reg ELG_INFLIGHT - BitVec.ofNat 32 e)

/-- A slow-admitted group may issue now (R437). -/
def slowMayIssue (s : State) : Bool := decide (-((s.reg ELG_DEBTMAX).toNat : Int) < s.elgCredit)

/-- Every energy counter and TB_NS copied into the snapshot registers (R432). -/
def elgSnapshot (s : State) : State :=
  let s1 := (List.range 8).foldl (fun t d => (t.setReg (ELG_SNAPD_LO d) (s.reg (ELG_E_LO d))).setReg (ELG_SNAPD_HI d) (s.reg (ELG_E_HI d))) s
  s1.setReg64 ELG_SNAPTB_LO ELG_SNAPTB_HI (tbNs s)

/-- The energy class of an opcode (R434). -/
def elgClass (o : Nat) : Nat :=
  if o = 0 ∨ (0x45 ≤ o ∧ o ≤ 0x48) then 0
  else if (0x10 ≤ o ∧ o ≤ 0x1F) ∨ 0x78 ≤ o then 1
  else if o = 1 ∨ o = 2 ∨ (8 ≤ o ∧ o ≤ 0xF) ∨ o = 0x6B then 2
  else if (3 ≤ o ∧ o ≤ 7) ∨ o = 0x6A then 3
  else if (0x20 ≤ o ∧ o ≤ 0x2F) ∨ o = 0x36 ∨ o = 0x37 then 4
  else if 0x30 ≤ o ∧ o ≤ 0x34 then 5
  else if 0x38 ≤ o ∧ o ≤ 0x3F then 6
  else if 0x40 ≤ o ∧ o ≤ 0x4A then 7
  else if 0x50 ≤ o ∧ o ≤ 0x5B then 8
  else if o = 0x60 ∨ o = 0x61 then 9
  else if (0x62 ≤ o ∧ o ≤ 0x65) ∨ o = 0x69 then 10
  else if 0x66 ≤ o ∧ o ≤ 0x68 then 11
  else 12

/-- The ELG_OPTAB entry of a class and a width of 8, 16, 32 or 64 bits (R434). -/
def elgOp (s : State) (c w : Nat) : Nat :=
  let r := ELG_OPTAB c
  if w = 64 then s.rf (r 1) 31 16 else if w = 32 then s.rf (r 1) 15 0 else if w = 16 then s.rf (r 0) 31 16 else s.rf (r 0) 15 0

/-- The ELG_MEMTAB entry of a target: 0 the Erg, 1 DRAM, 2 a remote window (R434). -/
def elgMem (s : State) (t : Nat) : Nat := if t = 0 then s.rf ELG_MEMTAB 7 0 else if t = 1 then s.rf ELG_MEMTAB 15 8 else s.rf ELG_MEMTAB 23 16

end Sys2Proof.Machine
end

