-- ==== Sys2Proof/Machine/LinkOps.lean ====
section
/-! DEFINITION. The Idene Link's own operations: ports that rise and fall, requests that end, fabric time, management packets
(R351 to R379). -/
namespace Sys2Proof.Machine

/-! ### Requests that end -/

/-- The request with tag `tag` ends: with anything but OKAY it is recorded in IDL_OLOG under `cause` (R369, R371), and its answer awaits its
requester. An abandoned one that ends without a response (`cause` 8 or 9) leaves its tag, since a response that still comes is not counted
(R370). -/
def endRequest (tag : Nat) (resp cause : Nat) (bytes : List Byte) (s : State) : State :=
  match s.outst.find? fun r => r.tag == tag with
  | none => s
  | some r =>
    let s1 : State := { s with outst := s.outst.filter fun q => q.tag != tag }
    if r.gone then (if decide (8 ≤ cause) then { s1 with lateTags := tag :: s1.lateTags } else s1)
    else
      let s2 := if resp = rOKAY then s1 else outLog (nfld r.pa 45 32) cause r.m s1
      { s2 with ended := s2.ended ++ [(r, resp, bytes)] }

/-- A response that no outstanding request waits for: discarded, and counted unless its request had been abandoned (R370). -/
def lateAnswer (tag : Nat) (s : State) : State :=
  if s.lateTags.contains tag then { s with lateTags := s.lateTags.filter fun t => t != tag } else s.countUp IDL_LATE 15 0 1

/-! ### Fabric time -/

/-- The node is a slave of fabric time (IDL_TCTL.ROLE). -/
def ftSlave (s : State) : Bool := s.rf IDL_TCTL 31 30 == 2

/-- The upstream port. -/
def ftUport (s : State) : Nat := s.rf IDL_TCTL 26 24

/-- The slave loses its lock, if it had one: an unlocked period begins where there was none (R372, R373). -/
def ftUnlock (s : State) : State :=
  if s.rb IDL_TSTAT 31 then tbUnlockFrom 1 ({ s with ft := .reset }.setRb IDL_TSTAT 31 false) else { s with ft := { s.ft with good := 0 } }

/-- A signed 80-bit difference of two times. -/
def timeDiff (a b : Time80) : Int := (a - b).toInt

/-- Half of `x` units of 2^-16 ns, in units of 2^-4 ns, an inexact quotient rounded by a free choice (R372). -/
def halfUnits (x : Int) (up : Bool) : Int := x / 8192 + (if up && x % 8192 != 0 then 1 else 0)

/-- A value held in 24 signed bits, saturating. -/
def sat24 (x : Int) : Nat := wrapTo 24 (if 8388607 < x then 8388607 else if x < -8388608 then -8388608 else x)

/-- What a servo does with an offset, in units of 2^-16 ns (R372, R393): a rate correction, then a step forward when TB is more than 1 ms
behind at the first exchange after an unlocked period, else a slew. -/
def servoCorrect (first : Bool) (off : Int) (s : State) : State :=
  let (q, s0) := s.draw
  let s1 := tbSetRate (Config.servoRate q) s0
  if first && decide (off < -(1000000 * 65536)) then tbStepBy false ((-off) / 65536).toNat s1 else tbOffsetBy (-off * 2 ^ 32) s1

/-- TB has been stepped since `t`: steps go forward, and `State.stepMark` is TB before the last one (R327). -/
def steppedSince (s : State) (t : Time80) : Bool := match s.stepMark with | some m => decide (t.toNat ≤ m.toNat) | none => false

/-- An exchange on UPORT (R372, R373); one during which TB was stepped is discarded (R380). -/
def ftExchange (t1 t2 t3 t4 : Time80) (s : State) : State :=
  let p := ftUport s
  if ftSlave s && portUp s p && decide (s.power ≤ 1) && !steppedSince s t1 then
    let a := timeDiff t2 t1
    let b := timeDiff t4 t3
    let (q1, s1) := s.draw
    let (q2, s2) := s1.draw
    let x := b - a - sgn 16 (s.rf (IDL_P_ASYM p) 15 0) * 4096
    let s3 := s2.setRf (IDL_P_DELAY p) 23 0 (wrapTo 24 (halfUnits (a + b) (Config.halfUp q1)))
    let off := halfUnits x (Config.halfUp q2)
    let s4 := s3.setRf IDL_TSTAT 23 0 (sat24 off)
    let s5 : State := { pulse 123 (if tbDisc s4 = 1 then servoCorrect s4.ft.fresh (x / 2) s4 else s4) with ft := ⟨s.ft.good, false⟩ }
    if decide (8 * 65536 < x) || decide (x < -(8 * 65536)) then ftUnlock s5
    else
      let good := if decide (x ≤ 2 * 65536) && decide (-(2 * 65536) ≤ x) then s.ft.good + 1 else 0
      let s6 : State := { s5 with ft := ⟨good, false⟩ }
      if 16 ≤ good && !s6.rb IDL_TSTAT 31 then icuEvent 244 (s6.setRb IDL_TSTAT 31 true) else s6
  else s

/-! ### Packets out -/

/-- A packet of class `c` is a request that an answer ends (R353, R368). -/
def isRequest (ty : Nat) : Bool := decide (ty ≤ 2)

/-- TYPE of a packet (R352). -/
def pktTy (p : Packet) : Nat := fld p.w1 31 28

/-- CLASS of a packet. -/
def pktCls (p : Packet) : Nat := fld p.w0 31 30

/-- DST of a packet. -/
def pktDst (p : Packet) : Nat := fld p.w0 29 16

/-- SRC of a packet. -/
def pktSrc (p : Packet) : Nat := fld p.w0 13 0

/-- TTL of a packet. -/
def pktTtl (p : Packet) : Nat := fld p.w1 27 24

/-- TAG of a packet. -/
def pktTag (p : Packet) : Nat := fld p.w1 23 14

/-- LEN of a packet. -/
def pktLen (p : Packet) : Nat := fld p.w1 8 0

/-- CODE of a packet. -/
def pktCode (p : Packet) : Nat := fld p.w3 15 12

/-- An answer of this node to a request of its own that came back to it: it ends that request as any answer does (R360, R361, R369). -/
def ownAnswer (p : Packet) (s : State) : State :=
  if s.outst.any fun r => r.tag == pktTag p && decide (r.port < 6) then
    if pktTy p = 0xA then endRequest (pktTag p) rLINK (pktCode p) [] s else endRequest (pktTag p) (pktCode p) (pktCode p) p.payload s
  else lateAnswer (pktTag p) s

/-- A packet sent by this node: to itself, where its route leads, or with no route discarded (R360). -/
def sendRouted (p : Packet) (s : State) : State :=
  if ownDst s (pktDst p) then ownAnswer p s
  else match routePort s (pktDst p) with
    | some q => linkSend q p s
    | none => s

/-- A NACK of a request back to its SRC, in the class of the request (R360, R361, R363, R375). -/
def sendNack (p : Packet) (code : Nat) (s : State) : State :=
  sendRouted (mkPacket (pktCls p) (pktSrc p) (srcId s) 0xA 15 (pktTag p) 0 0 0 p.w2.toNat code []) s

/-- A counter of port `p` counted up (IDL_PnDROP and its neighbours). -/
def portCount (r : Nat → Nat) (p : Nat) (s : State) : State := s.countUp (r p) 15 0 1

/-- The class-0 packets at the output of port `q` (R364). -/
def class0At (s : State) (q : Nat) : Nat := (s.linkTx.filter fun l => l.port == q && pktCls l.pkt == 0).length

/-- A packet put at the output of port `q`: a third class-0 packet there is dropped (R365). -/
def outputPut (q : Nat) (p : Packet) (s : State) : State :=
  if pktCls p = 0 && decide (2 ≤ class0At s q) then icuEvent (195 + 8 * q) (portCount IDL_P_C0DROP q s) else linkSend q p s

/-- The packet of IDL_MTXBUF has left, or with `err` was discarded at the origin: GO and BUSY clear and MTXDONE is raised (R358, R378). -/
def mtxEnd (err : Bool) (s : State) : State :=
  let s1 := (s.setRb IDL_MTXGO 31 false).setRb IDL_MTXGO 0 false
  icuEvent 241 (if err then s1.setRb IDL_MTXGO 1 true else s1)

/-! ### Transmission (R351, R364) -/

/-- The bytes that a packet takes on the link: whole beats of 32 (R351). -/
def pktBytes (p : Packet) : Nat := (16 + p.payload.length + (if p.payload.isEmpty then 0 else 4) + 31) / 32 * 32

/-- A packet is a response (R353). -/
def isResponse (ty : Nat) : Bool := ty == 8 || ty == 9 || ty == 0xA

/-- The buffer that the neighbour keeps for a packet, and its size: class 1 and class 2 have one for requests and one for responses (R364). -/
def creditOf (p : Packet) : Nat × Nat :=
  match pktCls p with
  | 1 => (if isResponse (pktTy p) then 1 else 0, 8192)
  | 2 => (if isResponse (pktTy p) then 3 else 2, 32768)
  | _ => (4, 2048)

/-- The bytes transmitted on port `q` and not yet acknowledged, of those that `f` admits: the neighbour's buffers are taken as freed by the
acknowledgement (DESIGN CHOICE, log 64). -/
def unacked (s : State) (q : Nat) (f : Packet → Bool) : Nat :=
  ((s.linkTx.filter fun l => l.port == q && l.sent && pktCls l.pkt != 0 && f l.pkt).map fun l => pktBytes l.pkt).sum

/-- A packet may be transmitted: of class 0, or with credit at the neighbour and room in the 32 KiB replay buffer (R351, R364). -/
def mayTransmit (s : State) (q : Nat) (p : Packet) : Bool :=
  pktCls p == 0 ||
    decide (unacked s q (fun k => (creditOf k).1 == (creditOf p).1) + pktBytes p ≤ (creditOf p).2) &&
    decide (unacked s q (fun _ => true) + pktBytes p ≤ 32768)

/-- The oldest waiting packet of a class at port `q`, where it may go: packets of one class keep their order, requests apart from responses (R363). -/
def nextOf (s : State) (q cls : Nat) : Option Nat :=
  let first := fun (resp : Bool) => s.linkTx.findIdx? fun l => l.port == q && !l.sent && pktCls l.pkt == cls && isResponse (pktTy l.pkt) == resp
  let go := fun (o : Option Nat) => o.filter fun i => match s.linkTx[i]? with | some l => mayTransmit s q l.pkt | none => false
  match go (first true), go (first false) with
  | some i, some j => some (Nat.min i j)
  | some i, none => some i
  | none, o => o

/-- C1MAX: the sixteenths of an output's beats that class 1 may take while class 2 or 3 waits (R364). -/
def c1Max (s : State) (q : Nat) : Nat := Nat.max 1 (s.rf (IDL_P_CTL q) 27 24)

/-- The packet that port `q` transmits next: class 0, then 1 within its share, then 3, then 2 (R364). -/
def nextOut (s : State) (q : Nat) : Option Nat :=
  let low := match nextOf s q 3 with | some i => some i | none => nextOf s q 2
  match nextOf s q 0, nextOf s q 1, low with
  | some i, _, _ => some i
  | none, some i, none => some i
  | none, some i, some j =>
    let sh := s.c1Share.toList.getD q (0, 0)
    let n := (s.linkTx[i]?.map fun l => pktBytes l.pkt / 32).getD 0
    if 16 * (sh.1 + n) ≤ c1Max s q * (sh.2 + n) then some i else some j
  | none, none, o => o

/-- The beats of a transmitted packet counted against class 1's share while class 2 or 3 waits (R364). -/
def shareCount (q : Nat) (p : Packet) (s : State) : State :=
  let waits := s.linkTx.any fun l => l.port == q && !l.sent && (pktCls l.pkt == 2 || pktCls l.pkt == 3)
  let sh := s.c1Share.toList.getD q (0, 0)
  let n := pktBytes p / 32
  { s with c1Share := s.c1Share.setIfInBounds q (if waits then (sh.1 + (if pktCls p = 1 then n else 0), sh.2 + n) else (0, 0)) }

/-- Port `q` transmits one packet: it gets the port's next link sequence number and stays in the replay buffer; one of class 0 is gone (R351). -/
def transmit (q : Nat) (s : State) : State :=
  if !portUp s q then s
  else match nextOut s q with
    | none => s
    | some i => match s.linkTx[i]? with
      | none => s
      | some l =>
        let n := s.txSeq.toList.getD q 0
        let s1 := shareCount q l.pkt s
        let s2 : State := { s1 with
          linkTx := if pktCls l.pkt = 0 then s1.linkTx.eraseIdx i else s1.linkTx.set i { l with seq := n, sent := true },
          txSeq := s1.txSeq.setIfInBounds q (n + 1) }
        if l.mtx then mtxEnd false s2 else s2

/-- Every port transmits what is next at it. -/
def linkTick (s : State) : State := (List.range 6).foldl (fun t q => transmit q t) s

/-! ### Ports -/

/-- Port `p` goes down (R355, R375); `cnt` says that it counts as a fall, from UP. -/
def portFall (p : Nat) (s : State) : State :=
  let held := s.linkTx.filter fun l => l.port == p
  let own := s.outst.filter fun r => r.port == p
  let s0 := s.setRf (IDL_P_STAT p) 31 29 (if s.rb (IDL_P_CTL p) 31 then 1 else 0)
  let s1 : State := { s0 with linkTx := s.linkTx.filter fun l => l.port != p, helloIn := s.helloIn &&& ~~~(1#6 <<< p),
                              retryReq := s.retryReq &&& ~~~(1#6 <<< p), retries := s.retries.setIfInBounds p (0, 0) }
  let s2 := portCount IDL_P_DOWNCNT p (if held.any fun l => l.mtx && !l.sent then mtxEnd true s1 else s1)
  let s3 := held.foldl (fun t l => if isRequest (pktTy l.pkt) && (pktSrc l.pkt != srcId t || !nodeValid t) then sendNack l.pkt 6 t else t) s2
  let s4 := own.foldl (fun t r => endRequest r.tag rLINK 9 [] t) s3
  let s5 := if ftSlave s4 && ftUport s4 == p then ftUnlock s4 else s4
  pulse 120 (icuEvent (193 + 8 * p) s5)

/-- Port `p` taken down: from UP it falls, while it trains it starts again at DETECT, and disabled it stays so (R354, R355). -/
def portDown (p : Nat) (s : State) : State :=
  if portUp s p then portFall p s
  else { s.setRf (IDL_P_STAT p) 31 29 (if s.rb (IDL_P_CTL p) 31 then 1 else 0) with helloIn := s.helloIn &&& ~~~(1#6 <<< p) }

/-- LPLL runs while an IDL port, MAC0 or MAC1 is enabled (R429). -/
def lpllWanted (s : State) : Bool :=
  ((List.range 6).any fun p => s.rb (IDL_P_CTL p) 31) || s.rb (MAC_CTL 0) 31 || s.rb (MAC_CTL 1) 31

/-- LPLL stopped when nothing wants it any more. -/
def lpllCheck (s : State) : State := if lpllWanted s then s else s.setRb PMU_PLL 0 false

/-- A write of IDL_PnCTL (R354, R355). -/
def portCtlWrite (p : Nat) (v : Word) (s : State) : State :=
  let was := s.rb (IDL_P_CTL p) 31
  let s1 := s.setReg (IDL_P_CTL p) (v &&& 0x8F00FFFF)
  if wbit v 31 then
    if !was || wbit v 30 then portDown p s1 else s1
  else if was then lpllCheck (portDown p s1)
  else s1

/-! ### Management packets -/

/-- The management ring's LOG2: 4 to 10, else the ring is off (IDL_MRX_CTL). -/
def mrxLog (s : State) : Nat := let l := s.rf IDL_MRX_CTL 3 0; if 4 ≤ l ∧ l ≤ 10 then l else 0

/-- The record of a management packet that came through `port` at time `at_` (R359). -/
def mgmtRecord (at_ port : Nat) (pkt : Packet) : List Byte :=
  packetHeader pkt ++ leBytes 8 at_ ++ leBytes 4 port ++ leBytes 4 0 ++
    (List.range 96).map fun i => if i < pktLen pkt then pkt.payload.getD i 0 else 0

/-- The records that wait written to the ring in their order, as far as the Erg takes them (R359).
The write takes no master port: R359 names none, so it goes on while M5 is disabled (DESIGN CHOICE, log 64). -/
def mgmtWrite : List (List Byte) → State → State
  | [], s => { s with mgmtHeld := [] }
  | r :: t, s =>
    let n := 2 ^ mrxLog s
    let h := s.rf IDL_MRX_HEAD 9 0 % n
    let pa := (s.reg IDL_MRX_BASE_LO).toNat + 128 * h
    let (lost, s0) := portVLost pa 128 s
    match localWrite pa r lost s0 with
    | (.wait, _) => { s with mgmtHeld := r :: t }
    | (_, s1) => mgmtWrite t (pulse 122 (icuEvent 240 (s1.setRf IDL_MRX_HEAD 9 0 ((h + 1) % n))))

/-- The ring has no room for one more record beside those that wait to be written (R359). -/
def mrxFull (s : State) : Bool :=
  let n := 2 ^ mrxLog s
  decide (n ≤ (s.rf IDL_MRX_HEAD 9 0 % n + n - s.rf IDL_MRX_TAIL 9 0 % n) % n + s.mgmtHeld.length + 1)

/-- A management packet that arrives for this node: discarded and counted when the ring is full or off by then, else its record is written (R359). -/
def mgmtDeliver (port : Nat) (pkt : Packet) (at_ : Nat) (s : State) : State :=
  if mrxLog s = 0 || mrxFull s then s.countUp IDL_MRX_DROP 15 0 1 else mgmtWrite (s.mgmtHeld ++ [mgmtRecord at_ port pkt]) s

/-- Nibble `h` of a hop list; nibble 7 acts as 0xF (R358). -/
def hopNibble (w : Word) (h : Nat) : Nat := if h = 7 then 15 else fld w (4 * h + 3) (4 * h)

/-- The management packet of IDL_MTXBUF, with what the device fills in (R358). -/
def mtxPacket (s : State) (tag : Nat) : Packet :=
  let w0 := s.reg (IDL_MTXBUF 0)
  let w1 := s.reg (IDL_MTXBUF 1)
  let ty := fld w1 31 28
  let len := fld w1 8 0
  mkPacket 3 (fld w0 29 16) (srcId s) ty 15 tag (if ty = 0xD then 1 else 0) 0 len (s.reg (IDL_MTXBUF 2)).toNat 0
    (((List.range 24).flatMap fun i => leBytes 4 (s.reg (IDL_MTXBUF (4 + i))).toNat).take len)

/-- The management packet of IDL_MTXBUF put at its output, delivered here, or discarded at the origin (R357, R358, R360). -/
def mtxGo (s : State) : State :=
  let (q, s0) := s.draw
  let p := mtxPacket s0 (Config.mgmtTag q).toNat
  let out := fun (n : Nat) (t : State) =>
    { (t.setRb IDL_MTXGO 31 true).setRb IDL_MTXGO 0 true with linkTx := t.linkTx ++ [⟨n, 0, p, false, true⟩] }
  if 96 < pktLen p then mtxEnd true s0
  else if pktTy p = 0xD then
    let n := hopNibble p.w2 0
    if n < 6 && portUp s0 n then out n s0 else mtxEnd true s0
  else if pktTy p = 0xC && nodeValid s0 then
    if pktDst p = nodeId s0 then
      mtxEnd false (mgmtDeliver (Config.selfPort q).toNat p (tbNs s0) s0)
    else match routePort s0 (pktDst p) with
      | some n => out n s0
      | none => mtxEnd true s0
  else mtxEnd true s0

/-- A write of IDL_MTXGO: ERR clears on a written 1, and GO is ignored while BUSY (R358, R380). -/
def mtxgoWrite (v : Word) (s : State) : State :=
  let s1 := if wbit v 1 then s.setRb IDL_MTXGO 1 false else s
  if wbit v 0 && !s1.rb IDL_MTXGO 31 then mtxGo s1 else s1

/-- A write of route entry `n`: where it takes the route of a node away, the requests of remote streams to that node end with a link error
(R61, R362). -/
def routeWrite (n : Nat) (s : State) (plain : State → State) : State :=
  let s1 := plain s
  if s.rb (IDL_ROUTE n) 31 && !s1.rb (IDL_ROUTE n) 31 && !ownDst s n then
    (s1.outst.filter fun r => nfld r.pa 45 32 == n && decide (r.port < 6) && (match r.owner with | .vse _ => true | _ => false)).foldl
      (fun t r => endRequest r.tag rLINK 4 [] t) s1
  else s1

/-- A write of the common frame of the link. -/
def idlCommonWrite (pa : Nat) (v : Word) (s : State) (plain : State → State) : State :=
  if pa = IDL_MTXGO then mtxgoWrite v s
  else if pa = IDL_TCTL then ftUnlock (plain s)
  else plain s

end Sys2Proof.Machine
end

