-- ==== Sys2Proof/Machine/MemOps.lean ====
section
/-! DEFINITION. Register actions of the Erg, the memory integrity unit and the DRAM controller (R47, R286, R288 to R290, R296). -/
namespace Sys2Proof.Machine

/-- Where the word that hashing moves in a region lies under the other setting: bits [9:3] XOR bits [16:10] (R46). -/
def hashMove (a : Nat) : Nat := a ^^^ (nfld a 16 10 * 8)

/-- The contents of region `n` moved as the change of its hashing bit moves its words (R47). -/
def rehash (n : Nat) (s : State) : State :=
  let inR := fun a => decide (isErg a) && a / 0x200000 == n
  let mv := s.mem.filter fun e => inR e.1
  let me := s.ecc.filter fun e => inR e.1
  let s0 := { s with mem := smDrop inR s.mem, ecc := smDrop inR s.ecc }
  let s1 := mv.foldl (fun t e => t.setByte (hashMove e.1) e.2) s0
  me.foldl (fun t e => t.setEcc (hashMove e.1) e.2) s1

/-- A write of ERG_HASH: each region whose bit changes is remapped (R47). -/
def ergHashWrite (v : Word) (s : State) : State :=
  let s1 := (List.range 24).foldl (fun t n => if wbit v n != s.rb ERG_HASH n then rehash n t else t) s
  s1.setReg ERG_HASH (BitVec.ofNat 32 (fld v 23 0))

/-- A write of ERG_XQOS (R60). -/
def ergXqosWrite (v : Word) (s : State) : State := s.setReg ERG_XQOS (BitVec.ofNat 32 (fld v 1 0))

/-- A write of ERG_BGCTL.OOS: groups asked out of service (R286). -/
def bgctlWrite (v : Word) (s : State) : State := s.setReg ERG_BGCTL (s.reg ERG_BGCTL ||| BitVec.ofNat 32 (fld v 7 0))

/-- A write of ERG_INIT.FILL: each ready in-service group named is to be zero-filled and is not ready until that ends (R288). -/
def ergInitWrite (v : Word) (s : State) : State :=
  (onesOf 8 v.toNat).foldl (fun t g =>
    if groupReady t g && !groupOos t g then (t.setRb ERG_INIT g true).setRb ERG_BGSTAT g false else t) s

/-- Group `g` out of service and powered off (R286). -/
def groupLeave (g : Nat) (s : State) : State :=
  (s.setReg ERG_BGSTAT (putBit (putBit (s.reg ERG_BGSTAT) (8 + g) true) g false)).setRb ERG_INIT g false

/-- Every word of group `g` zero with valid check bits (R288). -/
def groupZero (g : Nat) (s : State) : State :=
  let p := fun a => isErg a && ergGroup s a == g
  { s with mem := smDrop p s.mem, ecc := smDrop p s.ecc }

/-- A write of MIU_INJ: armed from the application side through M1 only (R296). -/
def injWrite (m : Nat) (v : Word) (s : State) : State := if m = 1 && wbit v 0 then s.setRb MIU_INJ 0 true else s

/-- The density code of a channel: 1 to 6, and 0 for anything else (DMC_CHn_CFG.DENS). -/
def dmcDens (s : State) (n : Nat) : Nat := let d := s.rf (DMC_CH_CFG n) 7 4; if 6 < d then 0 else d

/-- A write of DMC_CAP: clipped to the usable capacity, 7/8 of the raw one, and to zero where DRAM must stay unmapped (R290, R298). -/
def dmcCapWrite (v : Word) (s : State) : State :=
  let usable := if !s.rb DMC_CTL 0 || s.rb DMC_STAT 8 || s.rb DMC_STAT 9 || s.rf DMC_STAT 17 16 != 0 then 0 else 7 * 2 ^ dmcDens s 0
  s.setReg DMC_CAP (BitVec.ofNat 32 (Nat.min (fld v 9 0) usable))

/-- EN has its effect: it is 1 and was not refused with CFGERR (R289). -/
def dmcOn (s : State) : Bool := s.rb DMC_CTL 0 && !s.rb DMC_STAT 9

/-- A write of DMC_CTL (R289, R292, R293): EN written to 1 starts training when both channels are fitted alike, else sets CFGERR and
has no effect, though the bit holds what was written (log 55); EN cleared stops DPLL (R429). -/
def dmcCtlWrite (v : Word) (s : State) : State :=
  let old := s.rb DMC_CTL 0
  let s1 := s.setReg DMC_CTL (BitVec.ofNat 32 (v.toNat &&& 0x1F01))
  if wbit v 0 then
    if old && s.dmcTraining then s1
    else if old && s.rb DMC_STAT 31 then s1
    else if dmcDens s 0 = 0 || dmcDens s 0 != dmcDens s 1 then s1.setRb DMC_STAT 9 true
    else { s1.setReg DMC_STAT (putFld (putBit (s1.reg DMC_STAT) 9 false) 17 16 0) with dmcTraining := true }
  else if old then
    { (s1.setRb DMC_STAT 31 false).setRb PMU_PLL 1 false with dmcTraining := false }
  else s1

/-- The end of training, which begins once DPLL is locked (R289, R429): READY, or TRFAIL for each channel that failed and no capacity. -/
def dmcTrained (fail : Nat) (s : State) : State :=
  if s.dmcTraining && s.rb PMU_PLL 1 then
    let s1 := { s with dmcTraining := false }
    if fail % 4 = 0 then s1.setRb DMC_STAT 31 true
    else (s1.setRf DMC_STAT 17 16 (fail % 4)).setReg DMC_CAP 0
  else s

/-! ### The scrubber (R294, R295) -/

/-- The running lap in nanoseconds on TB, without the time in which VCLK was stopped. -/
def lapNs (s : State) : Nat := (match s.vclkStop with | some t => t | none => tbNs s) - s.scrubT0

/-- The running lap in whole milliseconds, held at 0xFFFF. -/
def lapMs (s : State) : Nat := capAt 0xFFFF (lapNs s / 1000000)

/-- VCLK stops: the lap's clock stops with it. -/
def vclkStops (s : State) : State := if s.vclkStop.isSome then s else { s with vclkStop := some (tbNs s) }

/-- VCLK runs again. -/
def vclkRuns (s : State) : State :=
  match s.vclkStop with
  | some t => { s with vclkStop := none, scrubT0 := s.scrubT0 + (tbNs s - t) }
  | none => s

/-- The corrected bytes of an Erg word stored with good codes; uncorrectable ones stay as they are. -/
def wordWriteBack (wa : Nat) (s : State) : State :=
  (List.range 8).foldl (fun t k => if (eccDecode (t.wrong (wa + k))).bad then t else correctByte t (wa + k)) s

/-- One word of a row scrubbed: read, reported, and a corrected one written back (R283, R284, R294). -/
def scrubWord (wa : Nat) (s : State) : State :=
  let g := ergGroup s wa
  if groupOos s g || !groupReady s g then s
  else
    let cor := (List.range 8).any fun k => (eccDecode (s.wrong (wa + k))).corrected
    let s1 := (ergWordRead 2 wa (fun _ => true) s).2
    if cor then wordWriteBack wa s1 else s1

/-- The row being scrubbed: the word of the row in every bank. -/
def scrubRowWords (s : State) : State :=
  let r := s.rf MIU_SCRUB_POS 15 0
  (List.range 128).foldl (fun t b => scrubWord (r * 1024 + 8 * b) t) s

/-- The scrubber runs: it is on and VCLK runs (R287, R294). -/
def scrubOn (s : State) : Bool := s.rb MIU_CTL 0 && s.vclkStop.isNone && decide (s.power ≤ 1)

/-- A row finished, and the next begun (R294); the last row is finished by the end of the lap. -/
def scrubRow (s : State) : State :=
  if scrubOn s && decide (s.rf MIU_SCRUB_POS 15 0 < 49151) then
    let s1 := scrubRowWords s
    s1.setRf MIU_SCRUB_POS 15 0 (s.rf MIU_SCRUB_POS 15 0 + 1)
  else s

/-- The running lap passes its limit for the first time (R295). -/
def lapSlow (s : State) : State :=
  let lim := s.rf MIU_SCRUB_LIMIT 15 0
  if lim != 0 && !s.lapLate && decide (lim * 1000000 < lapNs s) then
    pulse 160 (icuEvent 130 (({ s with lapLate := true } : State).setRb MIU_STAT 29 true))
  else s

/-- The end of a lap: the last row, the limit's event where the lap has passed it (R299), the lap's duration, and a new lap (R294, R295). -/
def scrubLapEnd (s : State) : State :=
  if scrubOn s && s.rf MIU_SCRUB_POS 15 0 == 49151 then
    let s1 := lapSlow (scrubRowWords s)
    let s2 := (s1.setReg MIU_SCRUB_LAP (BitVec.ofNat 32 (2 ^ 31 + lapMs s1))).setRf MIU_SCRUB_POS 15 0 0
    { s2 with scrubT0 := tbNs s, lapLate := false }
  else s

/-! ### Write-backs and the patrol -/

/-- The pending write-back of a bank performed (R283); one that a port overtook is no longer pending. -/
def ceWriteback (b : Nat) (s : State) : State :=
  match smGet zeroDefault s.ceWb b with
  | 0 => s
  | w + 1 => wordWriteBack w { s with ceWb := smPut zeroDefault s.ceWb b 0 }

/-- The words of channel `n` that a patrol block holds: block `k` of 64 bytes of the channel's usable memory, which alternates with the
other channel's every 256 bytes (R289, R293). -/
def patrolBase (n k : Nat) : Nat := 0x100000000 + k / 4 * 512 + n * 256 + k % 4 * 64

/-- One block read by the patrol (R293); the word after the last usable one is the first again. -/
def patrolRead (n : Nat) (s : State) : State :=
  if s.rb DMC_STAT 31 && s.rb DMC_CTL 12 then
    let blocks := 7 * 2 ^ dmcDens s n * 0x80000
    let k := smGet zeroDefault s.patrol n % Nat.max 1 blocks
    let s1 := (List.range 8).foldl (fun t j => (dramWordCheck 2 (patrolBase n k + 8 * j) t).2) s
    { s1 with patrol := smPut zeroDefault s1.patrol n ((k + 1) % Nat.max 1 blocks) }
  else s

end Sys2Proof.Machine
end

