-- ==== Sys2Proof/Machine/PcuOps.lean ====
section
/-! DEFINITION. The pin control unit and the levels of the pads (R31, R410, R472 to R477). -/
namespace Sys2Proof.Machine

/-- The bank of a function: 0 bank A, 1 bank B, 2 either; none for a reserved number (R473). -/
def fnBank (f : Nat) : Option Nat :=
  if (0x10 ≤ f ∧ f < 0x1C) ∨ (0x20 ≤ f ∧ f < 0x2C) ∨ f = 0x30 ∨ f = 0x31 then some 0
  else if 0x40 ≤ f ∧ f < 0x70 then some 2
  else if (0x70 ≤ f ∧ f < 0x75) ∨ (0x80 ≤ f ∧ f < 0x8C) ∨ (0x90 ≤ f ∧ f < 0xA0 ∧ f % 4 ≠ 3) then some 1
  else none

/-- Pin `n` offers the function `f` (R472, R473). -/
def pinOffers (n f : Nat) : Bool :=
  match fnBank f with
  | some 0 => decide (n < 160)
  | some 1 => decide (160 ≤ n)
  | some _ => true
  | none => false

/-- Why a write of FUNC is not performed: 1 OWNED, 2 PLACED, 3 BANK, 0 when it is (R474). -/
def pinClash (s : State) (n f : Nat) : Nat :=
  let own := s.rf (PCU_PIN n) 25 16
  if f = 0 then 0
  else if own != 0 && own != f then 1
  else if decide (0x10 ≤ f) && decide (f < 0xA0) && s.rb (PCU_FPIN (f - 0x10)) 31 && own != f then 2
  else if pinOffers n f then 0 else 3

/-- A refusal recorded, with PCU_CLASH; a further one sets MORE (R474). -/
def pinRefused (n f cause : Nat) (s : State) : State :=
  if s.rb PCU_CLASH 31 then s.setRb PCU_CLASH 30 true
  else icuEvent 9 (s.logWord PCU_CLASH (2 ^ 31 + cause * 2 ^ 28 + f * 2 ^ 16 + n))

/-- A write of PCU_PINn (R474, R476); `plain` writes the register by its record, which reports a refused SAFEACT whatever becomes of FUNC (R409). -/
def pinWrite (plain : Word → State → State) (n : Nat) (v : Word) (s : State) : State :=
  let f := fld v 25 16
  let own := s.rf (PCU_PIN n) 25 16
  let cause := pinClash s n f
  if cause != 0 then
    let s1 := pinRefused n f cause s
    plain (if Config.refusedPinWrites then putFld v 25 16 own else s.reg (PCU_PIN n)) s1
  else
    let s1 := plain v s
    if own = f then s1
    else
      let s2 := if own = 0 then s1 else s1.setReg (PCU_FPIN (own - 0x10)) 0
      if f = 0 then s2 else s2.setReg (PCU_FPIN (f - 0x10)) (BitVec.ofNat 32 (2 ^ 31 + n))

/-- A function that senses its pin (R473). -/
def fnInput (f : Nat) : Bool :=
  decide (0x16 ≤ f ∧ f < 0x1C) || decide (0x26 ≤ f ∧ f < 0x2C) || f == 0x31 || decide (0x40 ≤ f ∧ f < 0x60) ||
    f == 0x72 || f == 0x73 || (decide (0x80 ≤ f ∧ f < 0x8C) && (f - 0x80) % 3 == 1) || (decide (0x90 ≤ f ∧ f < 0xA0) && f % 4 == 1)

/-- PCU_PINn.IN: the level sensed while the input buffer is on, else 0 (R472, R475, R476); `lvl` is the board's level. -/
def pinIn (s : State) (n : Nat) (lvl : Bool) : Bool :=
  let w := s.reg (PCU_PIN n)
  let f := fld w 25 16
  if if f = 0 then wbit w 10 else fnInput f then
    if s.rb SI_SSC 23 && fld w 31 30 != 0 then
      (match fld w 31 30 with | 1 => false | 2 => true | _ => lvl)
    else if f == 0 && wbit w 8 then wbit w 7 else lvl
  else false

/-- A function that drives its pin (R473); MDIO does both. -/
def fnOutput (f : Nat) : Bool := (fnBank f).isSome && (!fnInput f || f == 0x31)

/-- The level that a placed output function drives (R332, R398, R399, R475): a disabled block's is the inactive one; `lvl` is what the block's
protocol gives at the moment, where it is enabled. -/
def fnLevel (s : State) (f : Nat) (lvl : Bool) : Bool :=
  if 0x60 ≤ f ∧ f < 0x70 then s.rb (EVR_CSEL (168 + (f - 0x60))) 31 && s.evoutLvl.getLsbD (f - 0x60)
  else if f = 0x30 ∨ f = 0x31 then ((List.range 4).any fun n => s.rb (MAC_CTL n) 31) && lvl
  else if 0x10 ≤ f ∧ f < 0x1C then s.rb (MAC_CTL 2) 31 && lvl
  else if 0x20 ≤ f ∧ f < 0x2C then s.rb (MAC_CTL 3) 31 && lvl
  else if 0x70 ≤ f ∧ f < 0x75 then s.rb MVB_CTL 31 && lvl
  else if 0x80 ≤ f ∧ f < 0x8C then
    let on := s.rb (CAN_CTL ((f - 0x80) / 3)) 31
    if (f - 0x80) % 3 = 2 then !on else on && lvl
  else if 0x90 ≤ f ∧ f < 0xA0 then
    let u := (f - 0x90) / 4
    if f % 4 = 2 then s.rb (UART_CTL u) 31 && (s.uart.toList.getD u UartSt.reset).de else s.rb (UART_CTL u) 31 && lvl
  else lvl

/-- The level code of multiplexed pin `n`: 0 low, 1 high, 2 high impedance (R472, R475 to R477): SAFEACT while the latch is set, else its function's
or its GPIO fields'; `lvl` is what an enabled block's protocol gives, and in COCOON it stays what it was at the entry. -/
def pinPad (s : State) (n : Nat) (now : Bool) : Nat :=
  let w := s.reg (PCU_PIN n)
  let lvl := match s.pmu.padHold with | some q => Config.padLevel q n | none => now
  let f := fld w 25 16
  if 3 ≤ s.power then 2
  else if s.rb SI_SSC 23 && fld w 31 30 != 0 then fld w 31 30 - 1
  else if f = 0 then (if wbit w 8 then b2n (wbit w 7) else 2)
  else if fnOutput f then b2n (fnLevel s f lvl)
  else 2

/-- The level code of SAFE pin `n`: 0 low, 1 high, 2 high impedance; after step 5 of the power-failure sequence it holds SAFELVL (R410, R413, R439,
R477). -/
def safePad (s : State) (n : Nat) : Nat :=
  if s.power = 3 ∨ s.power = 5 then 2
  else
    let c := if s.rb SI_SSC 23 || s.power == 4 then s.rf SI_SAFELVL (2 * n + 1) (2 * n) else s.rf SI_RUNLVL (2 * n + 1) (2 * n)
    if c = 3 then 2 else c

/-- SI_SAFEIN: the level at each SAFE pad; a pad at high impedance shows the board's, `lvl` (R483). -/
def safeIn (s : State) (lvl : Nat → Bool) : Word :=
  BitVec.ofNat 32 (bitsNat ((List.range 16).map fun n => match safePad s n with | 0 => false | 1 => true | _ => lvl n))

/-- The SerDes transmitters of Idene Link port `p` leave electrical idle: the device runs and the port is enabled (R354, R377, R477). -/
def serdesDrives (s : State) (p : Nat) : Bool := decide (s.power ≤ 1) && s.rf (IDL_P_STAT p) 31 29 != 0

/-- The level code of an xSPI output, `lvl` as the host's protocol gives it: high impedance in COCOON, DORMANT and reset, after step 5, and after a fatal
failure of a start (R457, R477). -/
def xspiPad (s : State) (lvl : Bool) : Nat := if 2 ≤ s.power || s.xspi.hiz then 2 else b2n lvl

/-- The level code of TDO: high impedance unless the test port shifts `lvl`, which it does in RUN and DOZE (R477). -/
def tdoPad (s : State) (shifts : Option Bool) : Nat := match shifts with | some l => if s.power ≤ 1 then b2n l else 2 | none => 2

/-- The level of BYP_HOLD: 0 low, 1 high, 2 high impedance (R400, R477). -/
def bypPad (s : State) : Nat := if 3 ≤ s.power then 2 else b2n (s.rb TNC_BYP 31)

end Sys2Proof.Machine
end

