-- ==== Sys2Proof/Machine/PowerOps.lean ====
section
/-! DEFINITION. Sleep requests and the bypass relays: what a register write does (R400, R425). -/
namespace Sys2Proof.Machine

/-- A sleep request refused with its condition (R425). -/
def sleepRefused (cond : Nat) (s : State) : State :=
  icuEvent 609 { (s.setRf PMU_STAT 19 16 cond).setRb PMU_SLEEP 16 false with wakeReq := 0 }

/-- A wake event and a GO whose XCLKs are marked `at_` and now fall in one XCLK: in the same count of XCLK they may, which is a free choice (R442,
log 50). -/
def sameXclk (at_ : Option Nat) (s : State) : Bool × State :=
  if at_ = some s.xclk then let (q, s1) := s.draw; (Config.sameCycle q, s1) else (false, s)

/-- GO: refused at once for a TARGET that names no state, without the Safety Island's consent, or with a wake event in the same XCLK; else the request
waits for its conditions (R425, R442). -/
def sleepGo (s : State) : State :=
  let t := s.rf PMU_SLEEP 1 0
  if t = 0 ∨ t = 3 then sleepRefused 0 s
  else if !s.rb PMU_SLEEP 8 then sleepRefused 1 s
  else
    let (woken, s1) := sameXclk s.pmu.wakeAt s
    if woken then sleepRefused 2 s1
    else { s1.setRb PMU_SLEEP 16 true with wakeReq := 0, pmu := { s1.pmu with goAt := some s.xclk } }

/-- The safe-state latch forbids BYP_HOLD: it is set, and not by PWRFAIL alone (R400, R410). -/
def latchForbids (s : State) : Bool := s.rb SI_SSC 23 && s.rf SI_SSC 15 0 != 0x20

/-- A write of TNC_BYP (R400): HOLD set to 1 starts the watchdog, and is released again at once while the latch or the power-failure sequence
forbids it; HOLD cleared is a release by software. -/
def bypWrite (v : Word) (s : State) : State :=
  let was := s.rb TNC_BYP 31
  if wbit v 31 then
    let s1 := if was then s else { s.setRb TNC_BYP 31 true with bypT0 := tbNs s }
    if latchForbids s1 then bypRelease 3 s1
    else if 4 ≤ s1.rf PMU_STAT 26 24 then bypRelease 4 s1
    else s1
  else bypRelease 1 s

/-- The bypass watchdog has expired: HOLD is set and PERIOD ms have passed since the count began (R400). -/
def bypExpired (s : State) : Bool :=
  s.rb TNC_BYP 31 && s.rf TNC_BYPWD 15 0 != 0 && decide (s.bypT0 + s.rf TNC_BYPWD 15 0 * 1000000 ≤ tbNs s)

end Sys2Proof.Machine
end

