-- ==== Sys2Proof/Machine/SceOps.lean ====
section
/-! DEFINITION. The schedule engine: its banks, its boundaries and the swap (R381 to R387). -/
namespace Sys2Proof.Machine

/-- An entry word that nothing has written. -/
def sceDefault (_ : Nat) : Word := 0

/-- The active bank (SCE_STAT.ACTBANK). -/
def sceActive (s : State) : Nat := s.rf SCE_STAT 31 31

/-- The words of a bank. -/
def sceBank (s : State) (b : Nat) : List (Nat × Word) := if b = 0 then s.sceBank0 else s.sceBank1

/-- Word `i` of a bank: word `w` of entry `n` is word 4n + w (R382). -/
def sceWord (s : State) (b i : Nat) : Word := smGet sceDefault (sceBank s b) i

/-- Word `i` of the shadow bank written (R18): a check begun before is stale (R386). -/
def shadowWrite (i : Nat) (v : Word) (s : State) : State :=
  let s1 : State := if sceActive s = 0 then { s with sceBank1 := smPut sceDefault s.sceBank1 i v }
    else { s with sceBank0 := smPut sceDefault s.sceBank0 i v }
  if s.rb SCE_SWAP 0 then { s1 with sce := { s1.sce with stale := true } } else s1

/-- The first entry with END = 1 at or after entry `n`, or the last entry of the bank. -/
def sceLast (s : State) (b n : Nat) : Nat :=
  ((sceBank s b).foldl (fun (m : Nat) e =>
    if e.1 % 4 == 1 && wbit e.2 27 && decide (n ≤ e.1 / 4) then Nat.min m (e.1 / 4) else m) 32767)

/-- The check's CRC-32C over entries 0 to E of the shadow bank (R386). -/
def sceCrc (s : State) : Nat :=
  let b := 1 - sceActive s
  crc32c ((List.range (4 * (sceLast s b 0 + 1))).flatMap fun i => leBytes 4 (sceWord s b i).toNat)

/-- A macrocycle length: values below 1,000 act as 1,000 (SCE_SHMCYCLE). -/
def sceCycle (v : Word) : Nat := Nat.max 1000 v.toNat

/-- The first boundary at or after TB (R381). -/
def sceFirst (s : State) : Nat :=
  let base := s.reg64 SCE_BASE_LO SCE_BASE_HI
  let mc := sceCycle (s.reg SCE_MCYCLE)
  let t := (s.tb.toNat + 65535) / 65536
  if t ≤ base then base else base + (t - base + mc - 1) / mc * mc

/-- A swap refused with its cause: 1 BUSY, 2 MISMATCH, 3 STALE (R386). -/
def swapRefused (cause : Nat) (s : State) : State :=
  icuEvent 401 (s.setReg SCE_STAT (putFld (putBit (s.reg SCE_STAT) 5 true) 7 6 cause))

/-- A write of SCE_SWAP: a request starts the check, or is refused while one is pending (R386). -/
def swapWrite (v : Word) (s : State) : State :=
  if !wbit v 0 then s
  else if s.rb SCE_SWAP 0 then swapRefused 1 s
  else { (s.setRb SCE_SWAP 0 true).setRb SCE_STAT 30 true with sce := { s.sce with stale := false } }

/-- The swap decided: the banks swap, or the swap is refused (R386). -/
def swapDecide (s : State) : State :=
  let s1 := s.setRb SCE_SWAP 0 false
  if s.sce.stale then swapRefused 3 s1
  else if BitVec.ofNat 32 s.sce.crc = s.reg SCE_SHCRC then
    icuEvent 400 ((s1.setRf SCE_STAT 31 31 (1 - sceActive s)).setReg SCE_MCYCLE (BitVec.ofNat 32 (sceCycle (s.reg SCE_SHMCYCLE))))
  else swapRefused 2 s1

/-- A write of SCE_CTL: the engine starts at the first boundary at or after TB, and stops (R381); a swap whose check has finished is
decided as it stops, for with EN = 0 it waits for no boundary (R386). -/
def sceCtlWrite (v : Word) (s : State) : State :=
  let was := s.rb SCE_CTL 0
  let s1 := s.setReg SCE_CTL (BitVec.ofNat 32 (fld v 0 0))
  if wbit v 0 && !was then { s1 with sce := { s1.sce with first := sceFirst s, begun := false, ended := false } }
  else if !wbit v 0 then
    let s2 : State := { s1 with sce := { s1.sce with begun := false } }
    if was && s2.rb SCE_SWAP 0 && !s2.rb SCE_STAT 30 then swapDecide s2 else s2
  else s1

/-- The check finishes: with the engine stopped the swap is decided at once (R386). -/
def checkDone (s : State) : State :=
  if s.rb SCE_STAT 30 then
    let s1 : State := { s.setRb SCE_STAT 30 false with sce := { s.sce with crc := sceCrc s } }
    if s.rb SCE_CTL 0 then s1 else swapDecide s1
  else s

/-- The next boundary of a running engine (R381). -/
def sceNext (s : State) : Nat := if s.sce.begun then s.sce.bnd + (s.reg SCE_MCYCLE).toNat else s.sce.first

/-- TB has reached the next boundary of a running engine, whose clock runs (R387). -/
def boundaryDue (s : State) : Bool := s.rb SCE_CTL 0 && decide (s.power ≤ 1) && decide (sceNext s * 65536 ≤ s.tb.toNat)

/-- A boundary: unperformed entries are skipped and counted, a checked swap is decided, and the active bank restarts (R381, R384, R386). -/
def sceBoundary (s : State) : State :=
  if boundaryDue s then
    let n := sceNext s
    let i := s.rf SCE_INDEX 14 0
    let skip := if s.sce.begun && !s.sce.ended then sceLast s (sceActive s) i + 1 - i else 0
    let s1 := s.setReg SCE_SKIPCNT (s.reg SCE_SKIPCNT + BitVec.ofNat 32 skip)
    let s2 := if s1.rb SCE_SWAP 0 && !s1.rb SCE_STAT 30 then swapDecide s1 else s1
    { s2.setReg SCE_INDEX 0 with sce := { s2.sce with begun := true, bnd := n, ended := false } }
  else s

/-- The index of the window's word at a physical address of the eight window frames (R17, R18). -/
def windowIndex (pa : Nat) : Nat := (pa - 0x20c80000) / 4

end Sys2Proof.Machine
end

