-- ==== Sys2Proof/Machine/VseMem.lean ====
section
/-! DEFINITION. The state of a vector context, the engine's accesses to memory, and completion records (R44, R54, R106 to R111, R309). -/
namespace Sys2Proof.Machine

/-- Context number `n` modulo 8. -/
def ctxNo (n : Nat) : CtxId := ⟨n % 8, Nat.mod_lt _ (by decide)⟩

/-- Context `x` beyond its registers. -/
def State.vc (s : State) (x : CtxId) : VCtx := s.vctx[x]

/-- Context `x` made `v`. -/
def State.setVc (s : State) (x : CtxId) (v : VCtx) : State := { s with vctx := s.vctx.set x v }

/-- Context `x` changed by `f`. -/
def State.modVc (s : State) (x : CtxId) (f : VCtx → VCtx) : State := s.setVc x (f (s.vc x))

/-- Accumulator `n` modulo 8 (R135). -/
def State.ea (s : State) (n : Nat) : EauAcc := s.eau.toList.getD (n % 8) .zero

/-- Accumulator `n` modulo 8 made `a`. -/
def State.setEa (s : State) (n : Nat) (a : EauAcc) : State := { s with eau := s.eau.setIfInBounds (n % 8) a }

/-- The commands in the queue of a context, in order. -/
def VCtx.queue (c : VCtx) : List QCmd := (c.closed.flatMap fun g => g.cmds) ++ c.opened

/-- A group of the context is surveyed or streams. -/
def VCtx.busy (c : VCtx) : Bool := c.cur.isSome || c.sv.isSome

/-- The context is allocated (VC_STAT.ALLOC). -/
def ctxAlloc (s : State) (x : CtxId) : Bool := s.rb (VC_STAT x) 31

/-- The next issue count (VC_STAT.ISSUE). -/
def ctxIssue (s : State) (x : CtxId) : Nat := s.rf (VC_STAT x) 15 0

/-- VC_STAT as it reads: OPEN, RUNNING and QCNT follow the queue and the engine. -/
def vcStatValue (s : State) (x : CtxId) : Word :=
  let c := s.vc x
  putFld (putBit (putBit (s.reg (VC_STAT x)) 30 (!c.opened.isEmpty)) 29 c.busy) 22 16 c.queue.length

/-- EAU_OWNER as it reads: field m describes EAm (R115). -/
def eauOwnerValue (s : State) : Word :=
  BitVec.ofNat 32 (((List.range 8).map fun m =>
    match (List.range 8).find? fun x => s.rb (VC_EAOWN x) m with
    | some x => (8 + x) * 16 ^ m
    | none => 0).foldl (· + ·) 0)

/-- The context that owns accumulator `m`, when one does (R115). -/
def eaOwner (s : State) (m : Nat) : Option Nat := (List.range 8).find? fun x => s.rb (VC_EAOWN x) m

/-- VCLK runs at half its rate while a slow-admitted group streams (R430). -/
def vclkHalved (s : State) : Bool := s.vctx.toList.any fun v => match v.cur with | some r => r.slow && r.phase == .stream | none => false

/-- The survey-table entries held (MMU_SURV.INUSE). -/
def tableInUse (s : State) : Nat :=
  (s.vctx.toList.map fun c => match c.cur with | some r => if r.phase = .slots ∨ r.phase = .stream then r.pages else 0 | none => 0).foldl (· + ·) 0

/-- The Caravan slots held. -/
def slotsInUse (s : State) : Nat :=
  (s.vctx.toList.map fun c => match c.cur with | some r => if r.phase = .stream then r.slots else 0 | none => 0).foldl (· + ·) 0

/-- What an access of the engine brings: its bytes, a wait, an error that is a machine check, or a failure that ends the group with REMOTE
and this CAUSE (R309). -/
inductive VRes where
  | ok (b : List Byte)
  | wait
  | mchk
  | remote (cause : Nat)
  deriving DecidableEq, Repr

/-- The CAUSE of a REMOTE end (R161). -/
def remoteCause (r : Resp) : Nat := if r = rDECODE then 0xB else if r = rCOLLIDE then 0xD else 0xC

/-- A response to M2 as R309 tells the engine to take it; `t6` says that the target is T6. -/
def vresOf (t6 : Bool) (r : Resp) (b : List Byte) : VRes :=
  if r = rOKAY then .ok b
  else if r = rECC ∨ (r = rTARGET ∧ t6 = false) then .mchk
  else .remote (remoteCause r)

/-- The traffic class of a descriptor's remote accesses (R36). -/
def rclsOf (d : Desc) : Nat := if d.rcls then 1 else 2

/-- A response of M2 with its log (R311). -/
def m2Logged (wr : Bool) (pa : Nat) (r : BusRes × State) : BusRes × State := xbmLogged 2 0 wr pa r

/-- The answers that context `x` has had to its reads of these bytes at T6. -/
def vseAnswers (s : State) (x : CtxId) (pa len : Nat) : List LinkRsp := (s.vc x).rsp.filter fun r => r.pa == pa && r.len == len

/-- How many reads of these bytes context `x` has sent to T6 and not had answered. -/
def vseSent (s : State) (x : CtxId) (pa len : Nat) : Nat :=
  (s.outst.filter fun o => o.owner == .vse x.val && o.kind == 0 && o.pa == pa && o.len == len).length

/-- A read of M2 that its port has issued. -/
def m2Read (own : ReqOwner) (cls pa len : Nat) (s : State) : BusRes × State :=
  m2Logged false pa (if isRemote pa then remoteRequest 2 own cls 0 pa len 0 [] [] s
    else if reaches s 2 pa false then localRead pa len s else (.done rDECODE [], s))

/-- A write of M2 that its port has issued. -/
def m2Write (own : ReqOwner) (cls pa : Nat) (bytes : List Byte) (s : State) : BusRes × State :=
  m2Logged true pa (if isRemote pa then remoteRequest 2 own cls 1 pa bytes.length 0 bytes [] s
    else if reaches s 2 pa true then localWrite pa bytes [] s else (.done rDECODE [], s))

/-- Context `x` reads `len` bytes at `pa`: the Erg through port V, DRAM and remote windows through M2, as its port takes them (R44, R302, R303, R312).
`occ` counts the reads of the same bytes of a remote window that stand before this one, each of which is a request of its own (R54); an answer that
has come is in the context's list, and a request that has left is not sent again. -/
def vseRead (x : CtxId) (cls pa len occ : Nat) (s : State) : VRes × State :=
  if isErg pa then
    match ergRead 0 pa len s with
    | (some b, s1) => (.ok b, s1)
    | (none, s1) => (.mchk, s1)
  else
    let t6 := isRemote pa
    match (if t6 then (vseAnswers s x pa len)[occ]? else none) with
    | some r => (vresOf true r.resp r.bytes, s)
    | none =>
      if t6 && decide (occ < (vseAnswers s x pa len).length + vseSent s x pa len) then (.wait, s)
      else match busGate (newXact s 2 0 plainId 0 pa len 0 .m false [] [(pa, [])]) (m2Read (.vse x.val) cls pa len) s with
        | (.wait, s1) => (.wait, s1)
        | (.done c b, s1) => (vresOf t6 c b, s1)

/-- The engine writes bytes at `pa` for `own`, a context's group or its record. A remote write is on its way when the answer is `ok`: its
acknowledgement comes later (R55). -/
def vseWrite (own : ReqOwner) (cls pa : Nat) (bytes : List Byte) (s : State) : VRes × State :=
  if isErg pa then (.ok [], ergWrite pa bytes [] s)
  else match busGate (newXact s 2 0 plainId 1 pa bytes.length 0 .m false [] [(pa, bytes)]) (m2Write own cls pa bytes) s with
    | (.wait, s1) => (if isRemote pa && decide (s.outst.length < s1.outst.length) then .ok [] else .wait, s1)
    | (.done c _, s1) => (vresOf (isRemote pa) c [], s1)

/-! ### Completion records -/

/-- The ring's size: LOG2 from 4 to 12, else the ring is off (VC_CRSIZE). -/
def ringLog (s : State) (x : CtxId) : Nat := let l := s.rf (VC_CRSIZE x) 3 0; if 4 ≤ l ∧ l ≤ 12 then l else 0

/-- The ring is full (R108). -/
def ringFull (s : State) (x : CtxId) : Bool :=
  let n := 2 ^ ringLog s x
  ringLog s x != 0 && (s.rf (VC_CRHEAD x) 11 0 + 1) % n == s.rf (VC_CRTAIL x) 11 0 % n

/-- What follows the write of a record, or the completion where the ring is off: VC_DONE, the sources in order, the EVR pulse (R107, R109,
R172). CIE and CEV are tested at this moment. -/
def recAfter (x : CtxId) (r : CRec) (s : State) : State :=
  let s1 := s.setReg (VC_DONE x) (BitVec.ofNat 32 (r.status * 65536 + r.issue % 65536))
  let susp := r.status == 11
  let srcs := (if s1.rb (VC_CTL x) 4 then [0] else []) ++ (if susp then [4] else if r.status = 0 then [] else [1])
  let s2 := srcs.foldl (fun t k => icuEvent (64 + 8 * x.val + k) t) s1
  if s2.rb (VC_CTL x) 5 && !susp then pulse (96 + x.val) s2 else s2

/-- A record as it lies in the ring, with PHASE and the time of its write (R106). -/
def recBytes (x : CtxId) (r : CRec) (s : State) : List Byte :=
  let w := fun k => r.words.getD k 0
  let ns := tbNs s
  ([putBit (w 0) 31 (s.vc x).lap, w 1, w 2, w 3, w 4, 0, BitVec.ofNat 32 ns, BitVec.ofNat 32 (ns / 2 ^ 32)]).flatMap fun v => leBytes 4 v.toNat

/-- The ring's place for the next record (R107). -/
def recPlace (s : State) (x : CtxId) : Nat := s.reg64 (VC_CRBASE_LO x) (VC_CRBASE_HI x) + 32 * s.rf (VC_CRHEAD x) 11 0

/-- The head moved on by one, the phase turning at the wrap (R106, R107). -/
def headNext (x : CtxId) (s : State) : State :=
  let h := (s.rf (VC_CRHEAD x) 11 0 + 1) % 2 ^ ringLog s x
  let s1 := s.setReg (VC_CRHEAD x) (BitVec.ofNat 32 h)
  if h = 0 then s1.modVc x fun c => { c with lap := !c.lap } else s1

/-- A record write refused: the ring goes off, CRERR is set and HALT raised (R108). -/
def recRefused (x : CtxId) (s : State) : State :=
  icuEvent (64 + 8 * x.val + 1) ((s.setReg (VC_CRSIZE x) 0).setRb (VC_STAT x) 25 true)

/-- The memory that the next record goes to takes a write now: an Erg bank group that is not ready makes it wait (R288); M2 says by itself when it
takes one. -/
def recReady (s : State) (x : CtxId) : Bool :=
  let pa := recPlace s x
  !isErg pa || ergIsReady s pa 32 || !ergInService s pa 32

/-- Records held while the ring is full: CRFULL becomes set, with its source; else it clears (R108).
A full ring that no record waits for leaves CRFULL clear, as R120 has it of a tail write that comes with a completion (DEDUCED, log 61). -/
def recHeld (x : CtxId) (l : List CRec) (s : State) : State :=
  let s1 := s.modVc x fun c => { c with recs := l }
  if !l.isEmpty && ringFull s1 x then
    (if s1.rb (VC_STAT x) 27 then s1 else icuEvent (64 + 8 * x.val + 2) (s1.setRb (VC_STAT x) 27 true))
  else s1.setRb (VC_STAT x) 27 false

/-- The waiting records written in order, as far as the ring has room and its memory takes them; one whose write has left through the Idene
Link waits for its answer (R107, R108). -/
def recFlush (x : CtxId) : List CRec → State → State
  | [], s => recHeld x [] s
  | r :: t, s =>
    if ringLog s x = 0 then recFlush x t (recAfter x r s)
    else if r.sent || ringFull s x || !recReady s x then recHeld x (r :: t) s
    else
      let pa := recPlace s x
      let w := if isErg pa && !ergInService s pa 32 then (VRes.mchk, s) else vseWrite (.record x.val) 1 pa (recBytes x r s) s
      match w with
      | (.ok _, s1) => if isRemote pa && decide (s.outst.length < s1.outst.length) then recHeld x ({ r with sent := true } :: t) s1
                       else recFlush x t (recAfter x r (headNext x s1))
      | (.wait, s1) => recHeld x (r :: t) s1
      | (_, s1) => recFlush x t (recAfter x r (recRefused x s1))

/-- The records that wait, written as far as they can be. -/
def recsGo (x : CtxId) (s : State) : State := if (s.vc x).recs.isEmpty then s else recFlush x (s.vc x).recs s

/-- A record given to the ring, behind those that wait (R107, R108). -/
def recGive (x : CtxId) (r : CRec) (s : State) : State := recFlush x ((s.vc x).recs ++ [r]) s

/-- The answer to a record's write that left through the Idene Link (R108). -/
def recAnswered (x : CtxId) (ok : Bool) (s : State) : State :=
  match (s.vc x).recs with
  | r :: t => if r.sent then recFlush x t (recAfter x r (if ok then headNext x s else recRefused x s)) else s
  | [] => s

/-- A write of VC_CRTAIL (R108). -/
def crtailWrite (x : CtxId) (v : Word) (s : State) : State :=
  let s1 := s.setReg (VC_CRTAIL x) (BitVec.ofNat 32 (fld v 11 0))
  recsGo x s1

/-- A write of VC_CRBASE_LO: HEAD, TAIL and PHASE go to the first lap (R106). -/
def crbaseLoWrite (x : CtxId) (v : Word) (s : State) : State :=
  let s1 := ((s.setReg (VC_CRBASE_LO x) (v &&& 0xFFFFFFE0)).setReg (VC_CRHEAD x) 0).setReg (VC_CRTAIL x) 0
  let s2 := s1.modVc x fun c => { c with lap := true }
  recsGo x s2

/-- A write of VC_CRSIZE: with the ring off, or with room in its new size, a held record waits no longer. -/
def crsizeWrite (x : CtxId) (v : Word) (s : State) : State :=
  let s1 := s.setReg (VC_CRSIZE x) (BitVec.ofNat 32 (fld v 3 0))
  recsGo x s1

/-! ### Triggers -/

/-- The start rule in force: TRIG, 0b11 acting as 0b00 (R111). -/
def trigRule (s : State) (x : CtxId) : Nat := let t := s.rf (VC_CTL x) 3 2; if t = 3 then 0 else t

/-- The head group waits for its trigger (R111): its rule asks for one, and no event has come. -/
def waitsTrigger (s : State) (x : CtxId) : Bool :=
  let c := s.vc x
  !c.closed.isEmpty && c.cur.isNone && !c.retained && c.rule != 0 && !c.trigd &&
    !s.rb (VC_STAT x) 28 && !s.rb (VC_STAT x) 26 && !c.suspPend

/-- A group reached the head of the queue: it meets the start rule of this moment (R111). -/
def headArrives (x : CtxId) (s : State) : State := s.modVc x fun c => { c with rule := trigRule s x, trigd := false }

/-- TRIG written: a head group that waits for its trigger starts at once when TRIG becomes 0b00, under that rule (R120). -/
def trigChanged (x : CtxId) (s : State) : State :=
  if trigRule s x = 0 && (s.vc x).cur.isNone && !(s.vc x).trigd then s.modVc x fun c => { c with rule := 0 } else s

/-- An event at the trigger input: taken, or lost on a busy input (R111); the answer says whether it was taken. -/
def vseTrigger (x : CtxId) (s : State) : Bool × State :=
  if waitsTrigger s x then (true, s.modVc x fun c => { c with trigd := true }) else (false, s)

/-! ### The microsequencer's frame (R190) -/

/-- The redirect window or the patch window (VMS frame). -/
def vmsWindow (pa : Nat) : Bool :=
  let o := pa % 0x10000
  (decide (0x400 ≤ o) && decide (o < 0x500)) || decide (0x8000 ≤ o)

/-- The bits of a word of the windows that hold anything. -/
def vmsMask (pa : Nat) : Word :=
  let o := pa % 0x10000
  if o < 0x8000 then 0x9FFF1FFF
  else match o % 32 / 4 with
    | 5 => 0xFFFF
    | 6 | 7 => 0
    | _ => 0xFFFFFFFF

/-- VMS_UPCn: VALID while a routine of the context executes, with WAITING and the microaddress of its current word. -/
def vmsUpc (s : State) (n : Nat) : Word :=
  let c := s.vc (ctxNo n)
  if c.busy then BitVec.ofNat 32 (2 ^ 31 + b2n c.useq.waiting * 2 ^ 13 + c.useq.upc.toNat) else 0

/-- Patch RAM and the redirect table are locked (VMS_LOCK.LOCK). -/
def vmsLocked (s : State) : Bool := s.rb VMS_LOCK 0

/-- LOCK is set: PSTAT shows it, and ENABLED with it unless the start said otherwise (R190, R191). -/
def vmsLock (enabled : Bool) (s : State) : State :=
  ((s.setRb VMS_LOCK 0 true).setRb VMS_PSTAT 31 true).setRb VMS_PSTAT 30 enabled

/-- A write of VMS_LOCK: M8 alone sets it (R190). -/
def vmsLockWrite (m : Nat) (v : Word) (s : State) : State :=
  if m = 8 && wbit v 0 && !vmsLocked s then vmsLock true s else s

/-- A write of the windows: by M8, before LOCK (R190). -/
def vmsWindowWrite (m pa : Nat) (v : Word) (s : State) : State :=
  if m = 8 && !vmsLocked s then s.setReg pa (v &&& vmsMask pa) else s

end Sys2Proof.Machine
end

