-- ==== Sys2Proof/Machine/Ctl.lean ====
section
/-! DEFINITION. One read and one write of a register, whoever asks (R7, R8, R15 to R17).

A register whose value or whose write the manual ties to something else than its stored bits has its case here;
every other one follows its record of the register table. -/
namespace Sys2Proof.Machine

/-- The word of `PEND` bits of sources 32w to 32w + 31 (ICU_PENDw). -/
def icuPendWord (s : State) (w : Nat) : Word :=
  BitVec.ofNat 32 (bitsNat ((List.range 32).map fun b => decide (0 < 32 * w + b) && decide (32 * w + b ≤ 640) && s.rb (ICU_SRC (32 * w + b)) 7))

/-- The value that a read of the register at `pa` returns, before any effect of the read. -/
def regValue (pa : Nat) (s : State) : Word :=
  let o := pa % 0x10000
  match pa / 0x10000 with
  | 0x2090 =>
    if pa = TB_FRAC then BitVec.ofNat 32 (tbNs s % 65536 * 65536 + s.tb.toNat % 65536)
    else if pa = TB_NS_LO then BitVec.ofNat 32 (tbNs s)
    else if pa = TB_NS_HI then BitVec.ofNat 32 (tbNs s / 2 ^ 32)
    else if pa = TB_ADJREM then tbAdjRem s
    else if pa = TB_STAT then putFld (putBit (s.reg pa) 31 (tbLocked s)) 30 29 (tbClk s)
    else s.reg pa
  | 0x2070 => if 0xC00 ≤ o ∧ o < 0xC54 ∧ o % 4 = 0 then icuPendWord s ((o - 0xC00) / 4) else s.reg pa
  | 0x2071 | 0x2072 | 0x2073 | 0x2074 =>
    let c := pa / 0x10000 - 0x2071
    if o = 4 then BitVec.ofNat 32 (icuBest s c 0)
    else if o = 8 then BitVec.ofNat 32 (icuBest s c 1)
    else if o = 0x10 then BitVec.ofNat 32 (icuBest s c 1 * 65536 + icuBest s c 0)
    else s.reg pa
  | 0x2010 => if pa = EAU_OWNER then eauOwnerValue s else s.reg pa
  | 0x2011 | 0x2012 | 0x2013 | 0x2014 | 0x2015 | 0x2016 | 0x2017 | 0x2018 =>
    if o = 4 then vcStatValue s (ctxNo (pa / 0x10000 - 0x2011)) else s.reg pa
  | 0x2020 =>
    if vmsWindow pa && vmsLocked s then 0
    else if VMS_UPC 0 ≤ pa ∧ pa < VMS_UPC 8 then vmsUpc s ((pa - VMS_UPC 0) / 4)
    else s.reg pa
  | 0x2050 => if pa = MMU_SURV then BitVec.ofNat 32 (tableInUse s) else s.reg pa
  | 0x20E1 =>
    if pa = ELG_CREDIT_LO then BitVec.ofInt 32 s.elgCredit
    else if pa = ELG_CREDIT_HI then BitVec.ofInt 32 (s.elgCredit / 2 ^ 32)
    else s.reg pa
  | 0x20A0 =>
    if pa = IDL_OUTST then BitVec.ofNat 32 s.outst.length
    else if pa = IDL_UID_LO then s.otp.uid.extractLsb' 0 32
    else if pa = IDL_UID_HI then s.otp.uid.extractLsb' 32 32
    else s.reg pa
  | 0x20B3 | 0x20B4 => if o = 0 then putBit (s.reg pa) 27 true else s.reg pa
  | 0x20C8 | 0x20C9 | 0x20CA | 0x20CB | 0x20CC | 0x20CD | 0x20CE | 0x20CF => sceWord s (1 - sceActive s) (windowIndex pa)
  | 0x20D0 => if pa = BCU_BSTAT then bstatValue s else s.reg pa
  | 0x20D1 =>
    if pa = KSU_LCS then lcsValue s else if pa = KSU_CTR then ctrValue s
    else if pa = KSU_REVOKE then s.otp.keyRev.zeroExtend 32 else s.reg pa
  | 0x2060 => if pa = XBM_MQOS 4 then 3 else s.reg pa
  | 0x2031 => if pa = MIU_SCRUB_POS then putFld (s.reg pa) 31 16 (lapMs s) else s.reg pa
  | 0x3800 =>
    if pa = SI_STAT then
      putFld (s.reg pa) 3 0 (bitsNat ((List.range 4).map fun c => (s.core (coreNo c)).lockup))
    else s.reg pa
  | _ => s.reg pa

/-- A read of the register at `pa` by master `m`, for core `c` when the master is M1: the value, and what the read does (R318, R347). -/
def ctlRead (m c pa : Nat) (s : State) : Word × State :=
  let v := regValue pa s
  match pa / 0x10000 with
  | 0x2071 | 0x2072 | 0x2073 | 0x2074 =>
    let f := pa / 0x10000 - 0x2071
    let o := pa % 0x10000
    if m = 1 ∧ c = f ∧ (o = 4 ∨ o = 8) then
      let r := icuClaim c (if o = 4 then 0 else 1) s
      (BitVec.ofNat 32 r.1, r.2)
    else (v, s)
  | 0x2098 =>
    let o := pa % 0x10000
    if o < 0x200 ∧ o % 32 = 16 then (v, s.setRb (CAP_STAT (o / 32)) 31 false) else (v, s)
  | 0x20F0 =>
    let n := pa % 0x10000 / 4
    if n < 412 then
      let (q, s1) := s.draw
      (putBit v 0 (pinIn s n (Config.padLevel q n)), s1)
    else (v, s)
  | 0x3800 =>
    if pa = SI_SAFEIN then
      let (q, s1) := s.draw
      (safeIn s fun n => Config.padLevel q (412 + n), s1)
    else (v, s)
  | _ => (v, s)

/-- A write that follows the register's record alone (R7, R8); an undefined offset ignores it (R16). -/
def plainWrite (m pa : Nat) (v : Word) (s : State) : State :=
  match regSpec pa with
  | none => s
  | some r =>
    let ok := siwAccepts s m
    let s1 := if r.siw != 0 && !ok then siRefuse m pa s else s
    s1.setReg pa (regWritten r ok (s1.reg pa) v)

/-- A write of the EVR frame (R333, R334). -/
def evrFrameWrite (m pa : Nat) (v : Word) (s : State) : State :=
  let o := pa % 0x10000
  if o < 0x400 then cselWrite (o / 4) v s
  else if pa = EVR_SWP then swpWrite v s
  else if 0x1000 ≤ o ∧ o < 0x2800 then s.setReg pa (v &&& pmaskBits (o / 4 % 8))
  else plainWrite m pa v s

/-- A write of the TB frame (R327). -/
def tbFrameWrite (m pa : Nat) (v : Word) (s : State) : State :=
  if pa = TB_RATE then tbRateWrite v s
  else if pa = TB_ADJ then tbAdjWrite v s
  else if pa = TB_STEP_HI then tbStepWrite v s
  else plainWrite m pa v s

/-- A write of a reload-timer block (R340, R343). -/
def tmuFrameWrite (m pa : Nat) (v : Word) (s : State) : State :=
  let o := pa % 0x10000
  if pa = TMU_GCMD then gcmd (fld v 1 0) s
  else if o < 0x200 ∧ o % 64 = 0x10 then
    setTmAcc ((pa / 0x10000 - 0x2091) * 8 + o / 64) 0 (plainWrite m pa v s)
  else plainWrite m pa v s

/-- A write of the MC frame (R345): ignored from a core below M, and CMP and PER are not written while armed. -/
def mcFrameWrite (m : Nat) (lvl : Level) (pa : Nat) (v : Word) (s : State) : State :=
  let o := pa % 0x10000
  if m = 1 && lvl != .m then s.setRb MC_STAT 8 true
  else if decide (o < 0x80) && o % 32 != 0 && s.rb (MC_CTL (o / 32)) 31 then s
  else plainWrite m pa v s

/-- A write of the ICU source frame (R313 to R315). -/
def icuFrameWrite (m pa : Nat) (v : Word) (s : State) : State :=
  if pa = ICU_SWI then (onesOf 4 v.toNat).foldl (fun t k => icuEvent (k + 1) t) s
  else
    let s1 := plainWrite m pa v s
    if pa % 0x10000 / 4 ≤ 640 then wakeFor (pa % 0x10000 / 4) s1 else s1

/-- A write of core-interface frame `f` (R317): COMPLETE is taken from core `f` only. -/
def icuCoreFrameWrite (m c f pa : Nat) (v : Word) (s : State) : State :=
  if pa = ICU_COMPLETE f then (if m = 1 && c == f then icuComplete c (fld v 9 0) s else s) else plainWrite m pa v s

/-- A write of the Erg frame. -/
def ergFrameWrite (m pa : Nat) (v : Word) (s : State) : State :=
  if pa = ERG_HASH then ergHashWrite v s
  else if pa = ERG_XQOS then ergXqosWrite v s
  else if pa = ERG_BGCTL then bgctlWrite v s
  else if pa = ERG_INIT then ergInitWrite v s
  else plainWrite m pa v s

/-- A write of the DMC common frame. -/
def dmcFrameWrite (m pa : Nat) (v : Word) (s : State) : State :=
  if pa = DMC_CTL then dmcCtlWrite v s
  else if pa = DMC_CAP then dmcCapWrite v s
  else plainWrite m pa v s

/-- A write of a vector context's frame (R106, R108). -/
def vcFrameWrite (m pa : Nat) (v : Word) (s : State) : State :=
  let x := ctxNo (pa / 0x10000 - 0x2011)
  if pa = VC_CRTAIL x then crtailWrite x v s
  else if pa = VC_CRBASE_LO x then crbaseLoWrite x v s
  else if pa = VC_CRSIZE x then crsizeWrite x v s
  else if pa = VC_CTL x then trigChanged x (plainWrite m pa v s)
  else plainWrite m pa v s

/-- A write of the microsequencer's frame (R190). -/
def vmsFrameWrite (m pa : Nat) (v : Word) (s : State) : State :=
  if pa = VMS_LOCK then vmsLockWrite m v s
  else if vmsWindow pa then vmsWindowWrite m pa v s
  else plainWrite m pa v s

/-- A write of the energy ledger's frame (R432, R433). -/
def elgFrameWrite (m pa : Nat) (v : Word) (s : State) : State :=
  if pa = ELG_CREDIT_LO then creditWrite v s
  else if pa = ELG_CREDIT_HI then { s with elgStage := v }
  else if pa = ELG_SNAP then (if wbit v 0 then elgSnapshot s else s)
  else if pa = ELG_LOW then let s1 := plainWrite m pa v s; setCredit s1.elgCredit s1
  else plainWrite m pa v s

/-- A write of the train networks' common frame (R400). -/
def tncFrameWrite (m pa : Nat) (v : Word) (s : State) : State :=
  if pa = TNC_BYP then bypWrite v s
  else if pa = TNC_BYPWD then { plainWrite m pa (putBit v 31 false) s with bypT0 := tbNs s }
  else plainWrite m pa v s

/-- A write of a MAC's frame (R429). -/
def macFrameWrite (m pa : Nat) (v : Word) (s : State) : State := lpllCheck (plainWrite m pa v s)

/-- A write of the schedule engine's frame (R381, R386). -/
def sceFrameWrite (m pa : Nat) (v : Word) (s : State) : State :=
  if pa = SCE_CTL then sceCtlWrite v s
  else if pa = SCE_SWAP then swapWrite v s
  else plainWrite m pa v s

/-- A write of the boot and configuration unit's frame (R455, R465). -/
def bcuFrameWrite (m pa : Nat) (v : Word) (s : State) : State :=
  if pa = BCU_ST_CTL then stCtlWrite v s
  else if pa = BCU_REL then relWrite v s
  else plainWrite m pa v s

/-- A write of the key and signature unit's frame (R408, R443). -/
def ksuFrameWrite (m pa : Nat) (v : Word) (s : State) : State :=
  if pa = KSU_REVOKE then (if siwAccepts s m then revokeWrite v s else siRefuse m pa s) else plainWrite m pa v s

/-- A write of the power management unit's frame (R425): GO of a core counts at M. -/
def pmuFrameWrite (m : Nat) (lvl : Level) (pa : Nat) (v : Word) (s : State) : State :=
  if pa = PMU_SLEEP then
    let s1 := plainWrite m pa (putBit v 16 false) s
    if wbit v 16 && !s.rb PMU_SLEEP 16 && (m != 1 || lvl == .m) then sleepGo s1 else s1
  else plainWrite m pa v s

/-- A write of the pin control unit's frame (R474). -/
def pcuFrameWrite (m pa : Nat) (v : Word) (s : State) : State :=
  let n := pa % 0x10000 / 4
  if n < 412 then pinWrite (plainWrite m pa) n v s else plainWrite m pa v s

/-- A write of `v` to the register at `pa` by master `m`; `c` and `lvl` are the core and its level when the master is M0 or M1. -/
def ctlWrite (m c : Nat) (lvl : Level) (pa : Nat) (v : Word) (s : State) : State :=
  match pa / 0x10000 with
  | 0x2011 | 0x2012 | 0x2013 | 0x2014 | 0x2015 | 0x2016 | 0x2017 | 0x2018 => vcFrameWrite m pa v s
  | 0x2020 => vmsFrameWrite m pa v s
  | 0x2030 => ergFrameWrite m pa v s
  | 0x2031 => if pa = MIU_INJ then injWrite m v s else plainWrite m pa v s
  | 0x2040 => dmcFrameWrite m pa v s
  | 0x2060 => if pa = XBM_MQOS 4 then s else plainWrite m pa v s
  | 0x2070 => icuFrameWrite m pa v s
  | 0x2071 | 0x2072 | 0x2073 | 0x2074 => icuCoreFrameWrite m c (pa / 0x10000 - 0x2071) pa v s
  | 0x2080 => evrFrameWrite m pa v s
  | 0x2090 => tbFrameWrite m pa v s
  | 0x2091 | 0x2092 | 0x2093 | 0x2094 | 0x2095 | 0x2096 => tmuFrameWrite m pa v s
  | 0x2097 => mcFrameWrite m lvl pa v s
  | 0x20A0 => idlCommonWrite pa v s (plainWrite m pa v)
  | 0x20A1 => routeWrite (pa % 0x10000 / 4) s (plainWrite m pa v)
  | 0x20A2 | 0x20A3 | 0x20A4 | 0x20A5 | 0x20A6 | 0x20A7 =>
    let p := pa / 0x10000 - 0x20A2
    if pa = IDL_P_CTL p then portCtlWrite p v s else plainWrite m pa v s
  | 0x20B0 => tncFrameWrite m pa v s
  | 0x20B1 | 0x20B2 | 0x20B3 | 0x20B4 => macFrameWrite m pa v s
  | 0x20B6 => s.setReg pa (v &&& (match pa % 16 / 4 with | 0 => 0xC0000007 | 1 => 0x03FFFFE0 | 2 => 0xFFFFFFFF | _ => 0xFF))
  | 0x20C0 => sceFrameWrite m pa v s
  | 0x20C8 | 0x20C9 | 0x20CA | 0x20CB | 0x20CC | 0x20CD | 0x20CE | 0x20CF => shadowWrite (windowIndex pa) v s
  | 0x20D0 => bcuFrameWrite m pa v s
  | 0x20D1 => ksuFrameWrite m pa v s
  | 0x20E0 => pmuFrameWrite m lvl pa v s
  | 0x20E1 => elgFrameWrite m pa v s
  | 0x20F0 => pcuFrameWrite m pa v s
  | 0x3800 => siFrameWrite m pa v s
  | _ => plainWrite m pa v s

end Sys2Proof.Machine
end

