-- ==== Sys2Proof/Machine/Bus.lean ====
section
/-! DEFINITION. Bus-matrix transactions: decode, reach, enables and responses (R12 to R25, R300 to R312). -/
namespace Sys2Proof.Machine

/-- A transaction put to T6 becomes a request in its traffic class (R368): class 1, or for M2 the class that RCLS sets; of a transaction of M2 that no
stream descriptor names, it is free between the two (log 64). -/
def farRequest (m : Nat) (own : ReqOwner) (kind pa len fn : Nat) (data : List Byte) (coll : List Nat) (s : State) : BusRes × State :=
  if m = 2 then
    let (q, s1) := s.draw
    remoteRequest m own (if Config.m2Class q then 2 else 1) kind pa len fn data coll s1
  else remoteRequest m own 1 kind pa len fn data coll s

/-- An access to a register frame must be one aligned word (R15). -/
def wordAccess (pa len : Nat) : Bool := len == 4 && pa % 4 == 0

/-- A register frame's answer to a read: one aligned word, else TARGET (R15). -/
def frameRead (m c pa len : Nat) (s : State) : BusRes × State :=
  if wordAccess pa len then
    let r := ctlRead m c pa s
    (.done rOKAY (leBytes 4 r.1.toNat), r.2)
  else (.done rTARGET [], s)

/-- A register frame's answer to a write: one aligned word, else TARGET (R15). -/
def frameWrite (m c : Nat) (lvl : Level) (pa : Nat) (bytes : List Byte) (s : State) : BusRes × State :=
  if wordAccess pa bytes.length then (.done rOKAY [], ctlWrite m c lvl pa (leWord bytes) s) else (.done rTARGET [], s)

/-- A read of `len` bytes at `pa` that its target has taken, by master `m` for core `c`; `own` waits when it leaves through the Idene Link. -/
def targetRead (m c : Nat) (own : ReqOwner) (pa len : Nat) (s : State) : BusRes × State :=
  if !reaches s m pa false then (.done rDECODE [], s)
  else match targetOf s pa with
    | 0 | 1 => localRead pa len s
    | 2 => (.done rOKAY ((List.range len).map fun i => Config.bootRom (pa + i - 0x10000000)), s)
    | 6 => farRequest m own 0 pa len 0 [] [] s
    | 7 =>
      if isSiSram pa then
        if s.rb MIU_STEST 24 then (.done rTARGET [], s)
        else match siRead pa len s with
          | (some b, s1) => (.done rOKAY b, s1)
          | (none, s1) => (.done rECC [], s1)
      else frameRead m c pa len s
    | _ => frameRead m c pa len s

/-- A read that its port has issued. -/
def readIssued (m c : Nat) (own : ReqOwner) (id pa len : Nat) (s : State) : BusRes × State := xbmLogged m id false pa (targetRead m c own pa len s)

/-- A read by a master: one whose enable is clear stalls (R302, R312). -/
def busRead (m c : Nat) (own : ReqOwner) (id pa len : Nat) (s : State) : BusRes × State :=
  busGate (newXact s m c id 0 pa len 0 .m false [] [(pa, [])]) (readIssued m c own id pa len) s

/-- A write of bytes at `pa` that its target has taken, by master `m` for core `c` at level `lvl`; `coll` names the Erg words that lose a
collision (R280). -/
def targetWrite (m c : Nat) (lvl : Level) (own : ReqOwner) (pa : Nat) (bytes : List Byte) (coll : List Nat) (s : State) :
    BusRes × State :=
  if !reaches s m pa true then (.done rDECODE [], s)
  else match targetOf s pa with
    | 0 | 1 => localWrite pa bytes coll s
    | 6 => farRequest m own 1 pa bytes.length 0 bytes coll s
    | 7 =>
      if isSiSram pa then
        if s.rb MIU_STEST 24 then (.done rTARGET [], s)
        else (.done (if pa + bytes.length ≤ 0x30200000 then rOKAY else rDECODE) [], s.storeBytes pa (bytes.take (0x30200000 - pa)))
      else frameWrite m c lvl pa bytes s
    | _ => frameWrite m c lvl pa bytes s

/-- A write by a master: one whose enable is clear stalls (R302, R312). -/
def busWrite (m c : Nat) (lvl : Level) (own : ReqOwner) (id pa : Nat) (bytes : List Byte) (coll : List Nat) (s : State) :
    BusRes × State :=
  busGate (newXact s m c id 1 pa bytes.length 0 lvl false coll [(pa, bytes)]) (fun t => xbmLogged m id true pa (targetWrite m c lvl own pa bytes coll t)) s

/-- A write that its port has issued: the words that meet port V are a free choice (R280). -/
def writeIssued (m c : Nat) (lvl : Level) (own : ReqOwner) (id pa : Nat) (bytes : List Byte) (s : State) : BusRes × State :=
  let (coll, s1) := portVLost pa bytes.length s
  xbmLogged m id true pa (targetWrite m c lvl own pa bytes coll s1)

/-- A write by a master whose command names no collisions. -/
def busWriteV (m c : Nat) (lvl : Level) (own : ReqOwner) (id pa : Nat) (bytes : List Byte) (s : State) : BusRes × State :=
  busGate (newXact s m c id 1 pa bytes.length 0 lvl false [] [(pa, bytes)]) (writeIssued m c lvl own id pa bytes) s

/-- An atomic on the word at `pa` that its target has taken (R203, R300): at T0, T1 and T6, and at SI SRAM for M4; any other target answers
TARGET. -/
def targetAtomic (m : Nat) (own : ReqOwner) (pa fn : Nat) (v : Word) (coll : Bool) (s : State) : BusRes × State :=
  if !reaches s m pa true then (.done rDECODE [], s)
  else match targetOf s pa with
    | 0 | 1 => localAtomic pa fn v coll s
    | 6 => farRequest m own 2 pa 4 fn (leBytes 4 v.toNat) (if coll then [pa / 8 * 8] else []) s
    | 7 =>
      if isSiSram pa && m == 4 && !s.rb MIU_STEST 24 then
        match siRead pa 4 s with
        | (some b, s1) => (.done rOKAY b, s1.storeBytes pa (leBytes 4 (atomFn fn (leWord b) v).toNat))
        | (none, s1) => (.done rECC [], s1)
      else (.done rTARGET [], s)
    | _ => (.done rTARGET [], s)

/-- An atomic that its port has issued (R279, R280). -/
def atomicIssued (m : Nat) (own : ReqOwner) (id pa fn : Nat) (v : Word) (s : State) : BusRes × State :=
  let (lost, s1) := portVLost pa 4 s
  xbmLogged m id true pa (targetAtomic m own pa fn v (!lost.isEmpty) s1)

/-- An atomic by a master whose command names no collision: one whose enable is clear stalls (R302, R312). -/
def busAtomicV (m : Nat) (own : ReqOwner) (id pa fn : Nat) (v : Word) (s : State) : BusRes × State :=
  busGate (newXact s m 0 id 2 pa 4 fn .m false [] [(pa, leBytes 4 v.toNat)]) (atomicIssued m own id pa fn v) s

/-! ### Transactions from their request to their response (R300 to R312) -/

/-- A burst lies in one aligned block of 256 bytes (R300). -/
def burstOk (pa len : Nat) : Bool := decide (0 < len) && decide (pa % 256 + len ≤ 256)

/-- The contiguous runs of enabled bytes of a write, with their addresses (R300, R368). -/
def runsOf : Nat → List (Option Byte) → List (Nat × List Byte)
  | _, [] => []
  | pa, none :: t => runsOf (pa + 1) t
  | pa, some b :: t =>
    match runsOf (pa + 1) t with
    | (a, l) :: r => if a = pa + 1 then (pa, b :: l) :: r else (pa, [b]) :: (a, l) :: r
    | [] => [(pa, [b])]

/-- How bad a response is, to report the worst word (R308): the order among the errors is the model's (DESIGN CHOICE, log 63). -/
def respRank (r : Resp) : Nat :=
  match r with
  | 0 => 0 | 3 => 1 | 4 => 2 | 2 => 3 | 5 => 4 | _ => 5

/-- The worse of two responses. -/
def worst (a b : Resp) : Resp := if respRank a < respRank b then b else a

/-- One run of a transaction performed at its target: it waits where its request at T6 is outstanding, and nobody logs an answer that comes after
its time has expired (R311). -/
def xactPart (x : Xact) (pa : Nat) (bytes : List Byte) (s : State) : BusRes × State :=
  let own := if x.auto || x.gone then ReqOwner.nobody else ReqOwner.xact x.m x.id
  let n := if x.kind = 1 then bytes.length else x.len
  if s.outst.any fun o => o.owner.isXact && o.owner == own && o.pa == pa && o.len == n then (.wait, s)
  else
    let (lost, s0) := if x.kind = 0 then ([], s) else portVLost pa n s
    let r := match x.kind with
      | 0 => targetRead x.m x.core own pa x.len s0
      | 1 => targetWrite x.m x.core x.lvl own pa bytes (x.coll ++ lost) s0
      | _ => targetAtomic x.m own pa x.fn (leWord bytes) ((x.coll ++ lost).contains (pa / 8 * 8)) s0
    if own == .nobody && (match r.1 with | .wait => decide (s0.outst.length < r.2.outst.length) | _ => false) then (.done rOKAY [], r.2) else r

/-- A transaction answered: the XBM records its response (R311), unless its time has expired. -/
def xactEnd (x : Xact) (s : State) : Xact × State :=
  let y := { x with todo := [], answered := true }
  if x.gone then (y, s) else (y, (xbmLogged x.m x.id (x.kind != 0) x.pa (.done x.resp [], s)).2)

/-- The runs of a transaction performed in order, as far as its target takes them. -/
def xactRun : List (Nat × List Byte) → Xact → State → Xact × State
  | [], x, s => xactEnd x s
  | (a, b) :: t, x, s =>
    match xactPart x a b s with
    | (.done c d, s1) =>
      let got := if x.kind = 1 then [] else if c = rECC then beatData x.pa x.len s else d.map some
      xactRun t { x with todo := t, resp := worst x.resp c, data := got } s1
    | (.wait, s1) => ({ x with todo := (a, b) :: t }, s1)

/-- The key under which the matrix remembers the master granted last at a target's channel and QOS, and at 4 the core whose marked request was
(R305). -/
def arbKey (t : Nat) (wr : Bool) (q : Nat) : Nat := (t * 2 + b2n wr) * 8 + q

/-- QOS of a request at the arbiter: an aged one counts as 3 (R305). -/
def arbQos (x : Xact) : Nat := if x.aged then 3 else x.qos

/-- The address is that of a register frame. -/
def isFrame (s : State) (pa : Nat) : Bool := let t := targetOf s pa; t == 3 || t == 4 || t == 5 || isSiFrame pa

/-- A transaction answered as a whole, with nothing performed: one that is no burst, a write that its master may not make, and a write of a register
frame that does not enable one word (R13, R15, R24, R300). A write that enables no byte is decoded as any other and then performs nothing (DESIGN
CHOICE, log 26). -/
def refusedWhole (s : State) (x : Xact) : Option Resp :=
  if !burstOk x.pa x.len then some rTARGET
  else if x.kind = 1 && !reaches s x.m x.pa true then some rDECODE
  else if x.kind = 1 && x.todo.length != 1 && isFrame s x.pa then some rTARGET
  else none

/-- A transaction granted: the arbiter remembers it, and its target performs it as far as it can, unless it is refused as a whole
(R300, R305, R308). -/
def grantXact (x : Xact) (s : State) : Xact × State :=
  let t := targetOf s x.pa
  let wr := x.kind != 0
  let s0 : State := { s with arb := smPut zeroDefault s.arb (arbKey t wr (if x.det then 4 else arbQos x)) ((if x.det then x.core else x.m) + 1) }
  match refusedWhole s x with
  | none => xactRun x.todo { x with granted := true } s0
  | some r => xactEnd { x with granted := true, resp := r } s0

/-- A transaction of `older` that one of the same master must not pass: it touches a common byte and is not performed yet (R303). -/
def blocked (older : List Xact) (x : Xact) : Bool := older.any fun y => y.m == x.m && !y.answered && touches y.pa y.len x.pa x.len

/-- A request may be granted: its master is enabled and below its limit, and no older access stands before it (R302, R303, R312). -/
def mayGrant (s : State) (older : List Xact) (x : Xact) : Bool := mayIssue s older x.m (x.kind != 0) x.pa x.len

/-- A request waits for the same channel of the same target (R305). -/
def contended (s : State) (x : Xact) : Bool :=
  s.xacts.any fun y => !y.granted && targetOf s y.pa == targetOf s x.pa && (y.kind != 0) == (x.kind != 0)

/-- Transactions that nobody waits for and that are over, gone from the list. -/
def xactsClean (s : State) : State := { s with xacts := s.xacts.filter fun x => !(x.answered && (x.auto || x.gone)) }

/-- A transaction issued: granted at once where nothing stands before it, else it waits (R302 to R305, R312). -/
def issueXact (x : Xact) (s : State) : State :=
  if mayGrant s s.xacts x && !contended s x then
    let r := grantXact x s
    xactsClean { r.2 with xacts := r.2.xacts ++ [r.1] }
  else { s with xacts := s.xacts ++ [x] }

/-- The order in which a target's channel considers its waiting requests: the deterministic marker first, then the QOS, then round robin after the
one granted last, then age (R305). -/
def arbBefore (s : State) (t : Nat) (wr : Bool) (x y : Xact) : Bool :=
  if x.det != y.det then x.det
  else if x.det then
    let l := smGet zeroDefault s.arb (arbKey t wr 4)
    decide ((x.core + 5 - l) % 5 < (y.core + 5 - l) % 5)
  else if arbQos x != arbQos y then decide (arbQos y < arbQos x)
  else
    let l := smGet zeroDefault s.arb (arbKey t wr (arbQos x))
    decide ((x.m + 12 - l) % 12 < (y.m + 12 - l) % 12)

/-- The waiting request that a channel of target `t` grants in this XCLK, by its place in the list (R305). -/
def arbPick (s : State) (t : Nat) (wr : Bool) : Option Nat :=
  ((List.range s.xacts.length).filterMap fun i => (s.xacts[i]?).bind fun x =>
      if !x.granted && targetOf s x.pa == t && (x.kind != 0) == wr && mayGrant s (s.xacts.take i) x then some (i, x) else none).foldl
    (fun best e => match best with
      | none => some e
      | some b => if arbBefore s t wr e.2 b.2 then some e else some b) none |>.map fun e => e.1

/-- One transaction of the list taken on by `f`. -/
def onXact (f : Xact → State → Xact × State) (i : Nat) (s : State) : State :=
  match s.xacts[i]? with
  | some x => let r := f x s; { r.2 with xacts := r.2.xacts.set i r.1 }
  | none => s

/-- A granted transaction that waits at its target tried again. -/
def retryXact (i : Nat) (s : State) : State :=
  match s.xacts[i]? with
  | some x => if x.granted && !x.answered && !blocked (s.xacts.take i) x then onXact (fun y t => xactRun y.todo y t) i s else s
  | none => s

/-- Bits set in listed registers. -/
def orRegs (l : List (Nat × Word)) (s : State) : State := l.foldl (fun t e => t.setReg e.1 (t.reg e.1 ||| e.2)) s

/-- The W1C bits of the register at `pa` (R10). -/
def w1cBits (pa : Nat) : Word := match regSpec pa with | some r => BitVec.ofNat 32 r.w1c | none => 0

/-- The W1C bits that stand in `s` and did not in `s0`. -/
def newSticky (s0 s : State) : List (Nat × Word) :=
  (s.regs.map fun e => (e.1, e.2 &&& w1cBits e.1 &&& ~~~s0.reg e.1)).filter fun e => e.2 != 0

/-- What `f` does in an XCLK that began with `s0`: a W1C of it does not clear a bit that an event of this XCLK has set (R10). -/
def staying (s0 : State) (f : State → State) (s : State) : State := orRegs (newSticky s0 s) (f s)

/-- One XCLK of the matrix, of those that began with `s0`: what waits at a target is tried again, and each channel of each target grants one waiting
request (R305). -/
def xbmTick (s0 s : State) : State :=
  let s1 := (List.range s.xacts.length).foldl (fun t i => staying s0 (retryXact i) t) s
  xactsClean ((List.range 18).foldl (fun t n =>
    match arbPick t (n / 2) (n % 2 == 1) with
    | some i => staying s0 (onXact grantXact i) t
    | none => t) s1)

/-- An access for which its master waits for no response: one that its port does not take, or that waits at its target, is held (R302, R303, R312). -/
def posted (x : Xact) (go : State → BusRes × State) (s : State) : State :=
  if mayGrant s s.xacts x then
    match go s with
    | (.done _ _, s1) => s1
    | (.wait, s1) =>
      if s.outst.length < s1.outst.length then s1 else { s1 with xacts := s1.xacts ++ [{ x with auto := true, granted := true }] }
  else { s with xacts := s.xacts ++ [{ x with auto := true }] }

/-- A write for which its master waits for no response. -/
def postWrite (m c : Nat) (lvl : Level) (pa : Nat) (bytes : List Byte) (s : State) : State :=
  posted (newXact s m c plainId 1 pa bytes.length 0 lvl false [] [(pa, bytes)]) (writeIssued m c lvl .nobody plainId pa bytes) s

/-- A read whose answer its master takes by itself. -/
def postRead (m c : Nat) (pa len : Nat) (s : State) : State :=
  posted (newXact s m c plainId 0 pa len 0 .m false [] [(pa, [])]) (readIssued m c .nobody plainId pa len) s

/-- The answer to a request at T6 taken by its transaction (R369): it goes on with the runs that are left. -/
def xactAnswered (m id pa len : Nat) (resp : Resp) (bytes : List Byte) (s : State) : State :=
  match s.xacts.findIdx? fun x => x.m == m && x.id == id && !x.answered && (match x.todo with
      | (a, b) :: _ => a == pa && (if x.kind = 1 then b.length else x.len) == len
      | [] => false) with
  | some i => onXact (fun x t =>
      let y := { x with todo := x.todo.drop 1, resp := worst x.resp resp, data := if x.kind = 1 then [] else bytes.map some }
      if y.todo.isEmpty then xactEnd y t else (y, t)) i s
  | none => s

end Sys2Proof.Machine
end

