-- ==== Sys2Proof/Machine/Mmu.lean ====
section
/-! DEFINITION. Two-stage translation: tables, walks, copies and their removal (R252 to R272). -/
namespace Sys2Proof.Machine

/-- The registers that a walk in partition `p` uses, now (R254). -/
def mmuCfg (s : State) (p : Nat) : MmuCfg :=
  let w1 := s.reg (MMU_PT1 p)
  { adhw := s.rb MMU_CTL 0,
    s2base := s.reg64 MMU_S2BASE_LO MMU_S2BASE_HI, s2log := s.rf MMU_S2CFG 4 0,
    s1base := s.rf (MMU_PT0 p) 31 12 * 4096 + fld w1 7 0 * 2 ^ 32,
    s1en := wbit w1 31, s2en := wbit w1 30, s1sizes := fld w1 26 24, s1log := fld w1 20 16,
    s2sizes := s.rf (MMU_PT2 p) 2 0, tmo := false }

/-- The probes of a walk in order: 2 MiB, 64 KiB, 4 KiB as enabled, eight of each (R257). -/
def probesOf (sizes : Nat) : List (Nat × Nat) :=
  ([2, 1, 0].filter fun z => sizes.testBit z).flatMap fun z => (List.range 8).map fun k => (z, k)

/-- The home slot of a key in a table of 2^n entries (R257). -/
def homeSlot (key n : Nat) : Nat := (key * 0x9E3779B97F4A7C15 % 2 ^ 64) >>> (64 - n)

/-- The address of probe `k` of a key, in the table at `base` with its low bits taken as zero (R253, R257). -/
def probeAddr (base n key k : Nat) : Nat :=
  base / 2 ^ (n + 4) * 2 ^ (n + 4) + 16 * ((homeSlot key n + k) % 2 ^ n)

/-- A LOG2 that a table may have (R253). -/
def logOk (n : Nat) : Bool := decide (8 ≤ n) && decide (n ≤ 24)

/-- The size that NOMAP reports: of the last search (R264). -/
def lastSize (sizes va : Nat) : Nat :=
  if sizes.testBit 0 then 0 else if sizes.testBit 1 then 1 else if sizes.testBit 2 then 2 else Config.noSearchSize va % 4

/-- WCAUSE codes (R264). -/
def wNOMAP : Nat := 0
/-- WALK_DEV (R262). -/
def wDEV : Nat := 1
/-- WALK_ECC (R263). -/
def wECC : Nat := 2
/-- READ (R264). -/
def wREAD : Nat := 4
/-- WRITE (R264). -/
def wWRITE : Nat := 5
/-- ACCESSED (R260). -/
def wACCESSED : Nat := 9
/-- DIRTY (R260). -/
def wDIRTY : Nat := 10
/-- EXEC (R264). -/
def wEXEC : Nat := 14
/-- LEVEL, the U rule (R264). -/
def wLEVEL : Nat := 15

/-- The access writes. -/
def AccKind.needsD : AccKind → Bool
  | .store | .atom | .vdst => true
  | _ => false

/-- The access checks accessed and dirty bits: a gate probe does not (R241). -/
def AccKind.checksAD : AccKind → Bool
  | .probeR | .probeW => false
  | _ => true

/-- The right that an entry lacks for an access, as its WCAUSE (R259); `wr` is W and R together (R255). -/
def permLack (k : AccKind) (r wr x dev : Bool) : Option Nat :=
  match k with
  | .fetch => if x && !dev then none else some wEXEC
  | .load | .probeR | .vsrc => if r then none else some wREAD
  | .store | .probeW | .vdst => if wr then none else some wWRITE
  | .atom => if !r then some wREAD else if wr then none else some wWRITE

/-- The U rule of stage 1 (R259): `user` says the access is at U. -/
def userLack (k : AccKind) (user ubit : Bool) : Option Nat :=
  match k with
  | .fetch => if user == ubit then none else some wLEVEL
  | .vsrc | .vdst => none
  | _ => if user && !ubit then some wLEVEL else none

/-- The outcome of a part of a walk. -/
inductive WRes (α : Type) where
  | ok (a : α)
  | fail (f : WalkFail)
  | wait

/-- A stage-1 entry found: its output page and rights, and where word 1 lies. -/
structure S1Found where
  sz : Nat
  out : Nat
  r : Bool
  w : Bool
  x : Bool
  u : Bool
  attr : Nat
  a : Bool
  d : Bool
  depth : Nat
  entryPa : Nat
  deriving DecidableEq, Repr

/-- An uncorrectable or failed probe read recorded in MMU_WERR, with MMU_WERR raised (R263). -/
def walkErr (ag : Nat) (s2 : Bool) (pa : Nat) (s : State) : State :=
  let agent := if 8 ≤ ag then 8 else ag
  let s1 := if s.rb MMU_WERR_INFO 31 then s.setRb MMU_WERR_INFO 30 true
    else ((s.logWord MMU_WERR_INFO (2 ^ 31 + b2n s2 * 256 + agent)).setReg MMU_WERR_PA_LO (BitVec.ofNat 32 pa)).setReg
      MMU_WERR_PA_HI (BitVec.ofNat 32 (pa / 2 ^ 32))
  icuEvent 188 s1

/-- The next access of the walk in progress: its answer from before it waited, or made now and its answer kept, so that a walk that waits goes on where
it stands (R257, R260). -/
def walkAccess (pa len : Nat) (go : State → BusRes × State) (s : State) : BusRes × State :=
  let made := fun (t : State) =>
    match go t with
    | (.wait, t1) => (BusRes.wait, t1)
    | (.done r b, t1) => (.done r b, { t1 with wtape := t1.wtape ++ [⟨pa, len, r, b⟩], wtapeN := t1.wtapeN + 1 })
  match s.wtape[s.wtapeN]? with
  | some x =>
    if x.pa = pa ∧ x.len = len then (.done x.resp x.bytes, { s with wtapeN := s.wtapeN + 1 })
    else made { s with wtape := s.wtape.take s.wtapeN }
  | none => made s

/-- The address is in the fitted DRAM: what DMC_CAP maps (R14, R262). -/
def inFitted (s : State) (pa : Nat) : Bool := inDramRange pa && decide (pa < 0x100000000 + dramSize s)

/-- A probe read of 16 bytes at a physical address (R256, R262, R263); one whose time has expired ends as an error response does (R310). -/
def probeRead (ag : Nat) (tmo s2 : Bool) (sz k pa ipa : Nat) (s : State) : WRes (List Byte) × State :=
  if isCtl pa || !(isErg pa || inFitted s pa) then (.fail ⟨s2, k, wDEV, sz, false, ipa⟩, s)
  else match walkAccess pa 16 (busRead 3 0 .nobody plainId pa 16) s with
    | (.wait, s1) =>
      if tmo then (.fail ⟨s2, k, wECC, sz, false, ipa⟩, walkErr ag s2 pa (xbmLog 3 plainId (targetOf s1 pa) false true rTARGET pa s1)) else (.wait, s1)
    | (.done r b, s1) =>
      if r = rOKAY then (.ok b, s1) else (.fail ⟨s2, k, wECC, sz, false, ipa⟩, walkErr ag s2 pa s1)

/-- Word 0 of a stage-2 entry that matches an IPA (R255, R257). -/
def s2Still (sz ipa : Nat) (w0 : Word) : Bool := wbit w0 0 && fld w0 2 1 == sz && (fld w0 31 4 * 4096 / szBytes sz == ipa / szBytes sz)

/-- Word 0 of a stage-1 entry that matches an address (R255, R257). -/
def s1Still (sz asid va : Nat) (w0 : Word) : Bool :=
  wbit w0 0 && fld w0 2 1 == sz && (fld w0 31 12 * 4096 / szBytes sz == va / szBytes sz) && fld w0 11 4 == asid

/-- A 16-byte stage-2 entry as read, when it matches (R255, R257). -/
def s2Match (b : List Byte) (part ipa sz k pa : Nat) : Option S2Entry :=
  let w0 := wordAt b 0
  let w1 := wordAt b 1
  let w2 := wordAt b 2
  let w3 := wordAt b 3
  if s2Still sz ipa w0 && fld w3 3 0 == part then
    some { ipa := pageOf sz ipa, sz := sz, part := part, pa := pageOf sz (fld w1 31 12 * 4096 + fld w2 15 0 * 2 ^ 32),
           r := wbit w1 0, w := wbit w1 0 && wbit w1 1, x := wbit w1 2, attr := Nat.min 2 (fld w1 11 10),
           a := wbit w1 8, d := wbit w1 9, depth := k, entryPa := pa }
  else none

/-- The stage-2 search (R257). -/
def s2Search (ag : Nat) (cfg : MmuCfg) (part ipa : Nat) : List (Nat × Nat) → State → WRes S2Entry × State
  | [], s => (.fail ⟨true, 7, wNOMAP, lastSize cfg.s2sizes ipa, false, ipa⟩, s)
  | (sz, k) :: t, s =>
    let key := ipa >>> szShift sz + part * 2 ^ 28 + sz * 2 ^ 32
    let pa := probeAddr cfg.s2base cfg.s2log key k
    match probeRead ag cfg.tmo true sz k pa ipa s with
    | (.ok b, s1) =>
      match s2Match b part ipa sz k pa with
      | some e => (.ok e, s1)
      | none => s2Search ag cfg part ipa t s1
    | (.fail f, s1) => (.fail f, s1)
    | (.wait, s1) => (.wait, s1)

/-- A bare stage 2: the physical address is the IPA, in pages of 2 MiB (R252). -/
def bareS2 (part ipa : Nat) : S2Entry :=
  { ipa := pageOf 2 ipa, sz := 2, part := part, pa := pageOf 2 ipa, r := true, w := true, x := true, attr := 0,
    a := true, d := true, depth := 0, entryPa := 0 }

/-- The walk-cache copy of an IPA that allows the access; one that does not is discarded (R261, R266). -/
def s2Cached (part ipa : Nat) (k : AccKind) (s : State) : Option S2Entry × State :=
  match s.walkCache.find? fun e => e.part == part && e.ipa == pageOf e.sz ipa with
  | none => (none, s)
  | some e =>
    let rest := s.walkCache.filter fun x => x != e
    if (permLack k e.r e.w e.x (e.attr == 2)).isNone && (e.d || !k.needsD) then (some e, { s with walkCache := e :: rest })
    else (none, { s with walkCache := rest })

/-- The probes of the stage-2 search (R253, R257). -/
def s2Probes (cfg : MmuCfg) : List (Nat × Nat) := if logOk cfg.s2log then probesOf cfg.s2sizes else []

/-- The stage-2 search over the probes `l`, the rights of what it finds checked but not its A and D bits. -/
def s2From (ag : Nat) (cfg : MmuCfg) (part ipa : Nat) (k : AccKind) (l : List (Nat × Nat)) (s : State) : WRes (S2Entry × Bool) × State :=
  match s2Search ag cfg part ipa l s with
  | (.ok e, s2) =>
    match permLack k e.r e.w e.x (e.attr == 2) with
    | some c => (.fail ⟨true, e.depth, c, e.sz, false, ipa⟩, s2)
    | none => (.ok (e, true), s2)
  | (.fail f, s2) => (.fail f, s2)
  | (.wait, s2) => (.wait, s2)

/-- A stage-2 entry for an access, its rights checked but not its A and D bits; the truth value says that it comes from the table. -/
def s2Find (ag : Nat) (cfg : MmuCfg) (part ipa : Nat) (k : AccKind) (s : State) : WRes (S2Entry × Bool) × State :=
  if !cfg.s2en then (.ok (bareS2 part ipa, false), s)
  else match s2Cached part ipa k s with
    | (some e, s1) => (.ok (e, false), s1)
    | (none, s1) => s2From ag cfg part ipa k (s2Probes cfg) s1

/-- The walker's atomic OR into a word: one that loses it to port V is made again (R275). -/
def walkOr (pa : Nat) (bits : Word) (s : State) : BusRes × State :=
  match busAtomicV 3 .nobody plainId pa 3 bits s with
  | (.done r w, s1) => if r = rCOLLIDE then (.wait, s1) else (.done r w, s1)
  | w => w

/-- What the A and D rule finds on an entry: nothing to do, word 1 as it stands afterwards, or an entry that no longer matches (R260). -/
inductive AdRes where
  | kept
  | word1 (w : Word)
  | gone

/-- The A and D rule on an entry at `pa` (R260). Under ADHW the walker sets the bits by an atomic OR, takes the word that it returns, and reads word 0
again, which may no longer match (`still`). -/
def adCheck (cfg : MmuCfg) (k : AccKind) (a d : Bool) (pa : Nat) (still : Word → Bool) (fault : Nat → WalkFail) (s : State) : WRes AdRes × State :=
  if !k.checksAD || (a && (d || !k.needsD)) then (.ok .kept, s)
  else if !cfg.adhw then (.fail (fault (if a then wDIRTY else wACCESSED)), s)
  else
    let bits : Word := BitVec.ofNat 32 (256 + (if k.needsD then 512 else 0))
    match walkAccess (pa + 4) 4 (walkOr (pa + 4) bits) s with
    | (.wait, s1) =>
      if cfg.tmo then (.fail (fault wECC), xbmLog 3 plainId (targetOf s1 (pa + 4)) true true rTARGET (pa + 4) s1) else (.wait, s1)
    | (.done r w, s1) =>
      if r ≠ rOKAY then (.fail (fault wECC), s1)
      else match walkAccess pa 4 (busRead 3 0 .nobody plainId pa 4) s1 with
        | (.wait, s2) => (.wait, s2)
        | (.done r0 w0, s2) =>
          if r0 ≠ rOKAY then (.fail (fault wECC), s2) else (.ok (if still (leWord w0) then .word1 (leWord w ||| bits) else .gone), s2)

/-- The probes that are left when the search of a size starts again at probe 0 (R260). -/
def fromSize (sz : Nat) (l : List (Nat × Nat)) : List (Nat × Nat) := l.dropWhile fun p => p.1 != sz

/-- A stage-2 entry with the word 1 that it now holds (R260). -/
def S2Entry.word1 (e : S2Entry) (r : AdRes) : S2Entry :=
  match r with
  | .kept | .gone => e
  | .word1 w =>
    { e with r := wbit w 0, w := wbit w 0 && wbit w 1, x := wbit w 2, attr := Nat.min 2 (fld w 11 10), a := wbit w 8, d := wbit w 9,
             pa := pageOf e.sz (fld w 31 12 * 4096 + e.pa / 2 ^ 32 * 2 ^ 32) }

/-- A stage-1 entry with the word 1 that it now holds (R260). -/
def S1Found.word1 (e : S1Found) (r : AdRes) : S1Found :=
  match r with
  | .kept | .gone => e
  | .word1 w =>
    { e with r := wbit w 0, w := wbit w 0 && wbit w 1, x := wbit w 2, u := wbit w 3, attr := Nat.min 2 (fld w 11 10), a := wbit w 8,
             d := wbit w 9, out := pageOf e.sz (fld w 31 12 * 4096 + e.out / 2 ^ 32 * 2 ^ 32) }

/-- A copy kept in the walk cache, 64 entries, the least recently used one replaced (R266). -/
def s2Keep (e : S2Entry) (s : State) : State := if e.a then { s with walkCache := (e :: s.walkCache).take 64 } else s

/-- The end of a stage-2 translation: A and D, and the copy when the walk may leave one. Where the entry no longer matches, the search of its size
starts again at probe 0 (R260); `fuel` bounds how often, by the answers that the walk has had. -/
def s2Finish (ag : Nat) (cfg : MmuCfg) (part : Nat) (k : AccKind) (keep : Bool) (ipa : Nat) : Nat → S2Entry × Bool → State → WRes S2Entry × State
  | 0, _, s => (.wait, s)
  | fuel + 1, r, s =>
    if !r.2 then (.ok r.1, s)
    else match adCheck cfg k r.1.a r.1.d r.1.entryPa (s2Still r.1.sz ipa) (fun c => ⟨true, r.1.depth, c, r.1.sz, false, ipa⟩) s with
      | (.ok .gone, s1) =>
        match s2From ag cfg part ipa k (fromSize r.1.sz (s2Probes cfg)) s1 with
        | (.ok r', s2) => s2Finish ag cfg part k keep ipa fuel r' s2
        | (.fail f, s2) => (.fail f, s2)
        | (.wait, s2) => (.wait, s2)
      | (.ok w, s1) =>
        let e := r.1.word1 w
        (.ok e, if keep then s2Keep e s1 else s1)
      | (.fail f, s1) => (.fail f, s1)
      | (.wait, s1) => (.wait, s1)

/-- A bound on how often a walk starts a search again: each time takes two answers more. -/
def walkFuel (s : State) : Nat := s.wtape.length + 2

/-- A stage-1 table address translated through stage 2, checked as a load (R258). -/
def tableAddr (ag : Nat) (cfg : MmuCfg) (part ipa : Nat) (keep : Bool) (s : State) : WRes S2Entry × State :=
  let r := match s2Find ag cfg part ipa .load s with
    | (.ok e, s1) => s2Finish ag cfg part .load keep ipa (walkFuel s1) e s1
    | (.fail f, s1) => (.fail f, s1)
    | (.wait, s1) => (.wait, s1)
  match r with
  | (.fail f, s1) => (.fail { f with table := true, ipa := ipa }, s1)
  | x => x

/-- A 16-byte stage-1 entry as read, when it matches (R255, R257). -/
def s1Match (b : List Byte) (asid va sz k pa : Nat) : Option S1Found :=
  let w0 := wordAt b 0
  let w1 := wordAt b 1
  let w2 := wordAt b 2
  if s1Still sz asid va w0 then
    some { sz := sz, out := pageOf sz (fld w1 31 12 * 4096 + fld w2 7 0 * 2 ^ 32),
           r := wbit w1 0, w := wbit w1 0 && wbit w1 1, x := wbit w1 2, u := wbit w1 3, attr := Nat.min 2 (fld w1 11 10),
           a := wbit w1 8, d := wbit w1 9, depth := k, entryPa := pa }
  else none

/-- The stage-1 search (R257, R258). -/
def s1Search (ag : Nat) (cfg : MmuCfg) (asid part va : Nat) (keep : Bool) : List (Nat × Nat) → State → WRes S1Found × State
  | [], s => (.fail ⟨false, 7, wNOMAP, lastSize cfg.s1sizes va, false, 0⟩, s)
  | (sz, k) :: t, s =>
    let key := va >>> szShift sz + asid * 2 ^ 20 + sz * 2 ^ 28
    let ipa := probeAddr cfg.s1base cfg.s1log key k
    match tableAddr ag cfg part ipa keep s with
    | (.ok e, s1) =>
      if e.attr = 2 then (.fail ⟨false, k, wDEV, sz, false, 0⟩, s1)
      else match probeRead ag cfg.tmo false sz k (e.pa + ipa % szBytes e.sz) 0 s1 with
        | (.ok b, s2) =>
          match s1Match b asid va sz k (e.pa + ipa % szBytes e.sz) with
          | some f => (.ok f, s2)
          | none => s1Search ag cfg asid part va keep t s2
        | (.fail f, s2) => (.fail f, s2)
        | (.wait, s2) => (.wait, s2)
    | (.fail f, s1) => (.fail f, s1)
    | (.wait, s1) => (.wait, s1)

/-- The probes of the stage-1 search (R253, R257). -/
def s1Probes (cfg : MmuCfg) : List (Nat × Nat) := if logOk cfg.s1log then probesOf cfg.s1sizes else []

/-- The stage-1 entry of an address by a search over the probes `l`, its rights checked; the truth value says that it comes from the table (R252,
R259). -/
def s1Find (ag : Nat) (cfg : MmuCfg) (asid part va : Nat) (k : AccKind) (user keep : Bool) (l : List (Nat × Nat)) (s : State) :
    WRes (S1Found × Bool) × State :=
  if !cfg.s1en then
    (.ok (⟨2, pageOf 2 va, true, true, true, false, 0, true, true, 0, 0⟩, false), s)
  else match s1Search ag cfg asid part va keep l s with
    | (.ok e, s1) =>
      let ipa := e.out + va % szBytes e.sz
      match permLack k e.r e.w e.x (e.attr == 2) with
      | some c => (.fail ⟨false, e.depth, c, e.sz, false, ipa⟩, s1)
      | none => match userLack k user e.u with
        | some c => (.fail ⟨false, e.depth, c, e.sz, false, ipa⟩, s1)
        | none => (.ok (e, true), s1)
    | (.fail f, s1) => (.fail f, s1)
    | (.wait, s1) => (.wait, s1)

/-- The combined translation of two stages (R259, R266). -/
def combine (asid part va : Nat) (e1 : S1Found) (bare1 : Bool) (e2 : S2Entry) : TlbEntry :=
  let sz := Nat.min e1.sz e2.sz
  let ipa := e1.out + va % szBytes e1.sz
  { va := pageOf sz va, sz := sz, asid := asid, part := part, pa := pageOf sz (e2.pa + ipa % szBytes e2.sz),
    r := e1.r && e2.r, w := e1.w && e2.w, x := e1.x && e2.x, ubit := if bare1 then none else some e1.u,
    attr := Nat.max e1.attr e2.attr, sdev := e1.attr == 2 || e2.attr == 2, d := e1.d && e2.d, ipa := e2.ipa, ipaSz := e2.sz }

/-- The physical address of `va` in a page. -/
def TlbEntry.addr (e : TlbEntry) (va : Nat) : Nat := e.pa + va % szBytes e.sz

/-- The device attribute of an address: the page's, or the address's own (R12, R259). -/
def TlbEntry.dev (e : TlbEntry) (va : Nat) : Bool := e.attr == 2 || isDevice (e.addr va)

/-- A walk of both stages from the stage-1 probes `l` on (R257 to R260): the rights of both stages before any A or D bit, and the alignment that the
device attribute asks for between them (R236). Where the stage-1 entry no longer matches, the search of its size starts again at probe 0 (R260).
The truth value of the answer says that every entry it rests on has A = 1; an alignment failure is answered as the size of the page. -/
def walkFrom (ag : Nat) (cfg : MmuCfg) (asid part va : Nat) (k : AccKind) (user misal keep : Bool) :
    Nat → List (Nat × Nat) → State → WRes (Except Nat (TlbEntry × Bool)) × State
  | 0, _, s => (.wait, s)
  | fuel + 1, l, s =>
    match s1Find ag cfg asid part va k user keep l s with
    | (.fail f, s1) => (.fail f, s1)
    | (.wait, s1) => (.wait, s1)
    | (.ok (e1, tab1), s1) =>
      let ipa := e1.out + va % szBytes e1.sz
      let again := walkFrom ag cfg asid part va k user misal keep fuel (fromSize e1.sz (s1Probes cfg))
      let ad1 := fun (t : State) => if !tab1 then (WRes.ok .kept, t)
        else adCheck cfg k e1.a e1.d e1.entryPa (s1Still e1.sz asid va) (fun c => ⟨false, e1.depth, c, e1.sz, false, ipa⟩) t
      match s2Find ag cfg part ipa k s1 with
      | (.wait, s2) => (.wait, s2)
      | (.fail f, s2) =>
        if f.cause = wECC then
          match ad1 s2 with
          | (.fail g, s3) => (.fail g, s3)
          | (.wait, s3) => (.wait, s3)
          | (.ok .gone, s3) => again s3
          | (.ok _, s3) => (.fail f, s3)
        else (.fail f, s2)
      | (.ok (e2, tab2), s2) =>
        let e := combine asid part va e1 (!tab1) e2
        if misal && e.dev va then (.ok (.error e.sz), s2)
        else match ad1 s2 with
          | (.fail g, s3) => (.fail g, s3)
          | (.wait, s3) => (.wait, s3)
          | (.ok .gone, s3) => again s3
          | (.ok w, s3) =>
            let e1' := e1.word1 w
            match s2Finish ag cfg part k keep ipa (walkFuel s3) (e2, tab2) s3 with
            | (.fail g, s4) => (.fail g, s4)
            | (.wait, s4) => (.wait, s4)
            | (.ok e2', s4) =>
              let e' := combine asid part va e1' (!tab1) e2'
              (.ok (if misal && e'.dev va then .error e'.sz else .ok (e', e1'.a && e2'.a)), s4)

/-- A walk of both stages (R257 to R260). -/
def walk (ag : Nat) (cfg : MmuCfg) (asid part va : Nat) (k : AccKind) (user misal keep : Bool) (s : State) :
    WRes (Except Nat (TlbEntry × Bool)) × State :=
  walkFrom ag cfg asid part va k user misal keep (walkFuel s) (s1Probes cfg) s

/-- The set of a copy in a set-associative cache of 2^k sets (R266). -/
def tlbSet (k : Nat) (e : TlbEntry) : Nat := (e.va / szBytes e.sz % 2 ^ k) ^^^ (e.asid % 2 ^ k)

/-- A copy put into a set-associative cache of 4 ways, held in order of use: the least recently used way of a full set goes. -/
def setPut (k : Nat) (e : TlbEntry) (l : List TlbEntry) : List TlbEntry :=
  let inSet := l.filter fun x => tlbSet k x == tlbSet k e
  let rest := l.filter fun x => tlbSet k x != tlbSet k e
  (e :: inSet).take 4 ++ rest

/-- The copies that an agent keeps of its translations: a fully associative TLB of 32 for fetches, one for data, and the
second level behind both (R266); the VSE has its translation cache. -/
def keepCopy (ag : Nat) (k : AccKind) (e : TlbEntry) (s : State) : State :=
  if 8 ≤ ag then { s with vseTlb := setPut 6 e s.vseTlb }
  else s.modCore (coreNo ag) fun c =>
    let c1 := { c with tlb2 := setPut 7 e c.tlb2 }
    if k = .fetch then { c1 with itlb := (e :: c1.itlb).take 32 } else { c1 with dtlb := (e :: c1.dtlb).take 32 }

/-- A copy is of the page that holds `va`. -/
def TlbEntry.holds (e : TlbEntry) (asid part va : Nat) : Bool :=
  e.asid == asid && e.part == part && e.va == pageOf e.sz va

/-- A copy allows an access (R259, R261). -/
def TlbEntry.allows (e : TlbEntry) (k : AccKind) (user : Bool) : Bool :=
  (permLack k e.r e.w e.x e.sdev).isNone &&
    (match e.ubit with | none => true | some u => (userLack k user u).isNone) && (e.d || !k.needsD)

/-- The copies that an agent would look at for an access, first level first. -/
def copiesOf (s : State) (ag : Nat) (k : AccKind) : List TlbEntry :=
  if 8 ≤ ag then s.vseTlb
  else
    let c := s.core (coreNo ag)
    (if k = .fetch then c.itlb else c.dtlb) ++ c.tlb2

/-- The copies of an agent thinned by a test of which to keep. -/
def thinCopies (ag : Nat) (p : TlbEntry → Bool) (s : State) : State :=
  if 8 ≤ ag then { s with vseTlb := s.vseTlb.filter p }
  else s.modCore (coreNo ag) fun c => { c with itlb := c.itlb.filter p, dtlb := c.dtlb.filter p, tlb2 := c.tlb2.filter p }

/-- A first-level TLB of a core: of fetches, or of data (R266). -/
def levelOne (k : AccKind) (c : Core) : List TlbEntry := if k = .fetch then c.itlb else c.dtlb

/-- A first-level TLB of a core replaced. -/
def setLevelOne (k : AccKind) (l : List TlbEntry) (c : Core) : Core := if k = .fetch then { c with itlb := l } else { c with dtlb := l }

/-- A copy found and allowed becomes the most recently used of its cache, and one of the second level comes to the first; one found but not allowing
the access is discarded (R261, R266). -/
def copyLookup (ag asid part va : Nat) (k : AccKind) (user : Bool) (s : State) : Option TlbEntry × State :=
  match (copiesOf s ag k).find? fun e => e.holds asid part va with
  | none => (none, s)
  | some e =>
    if !e.allows k user then
      (none, if 8 ≤ ag then thinCopies 8 (fun x => !x.holds asid part va) s
        else s.modCore (coreNo ag) fun c =>
          setLevelOne k ((levelOne k c).filter fun x => !x.holds asid part va) { c with tlb2 := c.tlb2.filter fun x => !x.holds asid part va })
    else if 8 ≤ ag then (some e, { s with vseTlb := setPut 6 e (s.vseTlb.filter fun x => x != e) })
    else (some e, s.modCore (coreNo ag) fun c =>
      if (levelOne k c).contains e then setLevelOne k (e :: (levelOne k c).filter fun x => x != e) c
      else setLevelOne k ((e :: levelOne k c).take 32) { c with tlb2 := setPut 7 e (c.tlb2.filter fun x => x != e) })

/-- The result of a walk as a translation's outcome, with the copy it may leave (R261). -/
def walkEnd (ag : Nat) (k : AccKind) (keep : Bool) (r : WRes (Except Nat (TlbEntry × Bool)) × State) : XRes × State :=
  match r with
  | (.fail f, s) => (.fail f, s)
  | (.wait, s) => (.wait, s)
  | (.ok (.error sz), s) => (.align sz, s)
  | (.ok (.ok (e, a)), s) => (.ok e, if keep && a then keepCopy ag k e s else s)

/-- The walker has a place for another walk of an agent: eight at once, and four of them for the VSE (R265). -/
def walkRoom (s : State) (ag : Nat) : Bool :=
  let l := s.walks.filter fun w => !w.queued && w.res.isNone
  decide (l.length < 8) && (decide (ag < 8) || decide ((l.filter fun w => decide (8 ≤ w.ag)).length < 4))

/-- A walk in flight taken on from the answers that its accesses have had: its outcome, and those answers where it waits again. What it has seen of the
walk cache it sees again when it goes on. -/
def walkRun (w : WalkRec) (s : State) : XRes × List LinkRsp × State :=
  match walkEnd w.ag w.kind w.keep (walk w.ag w.cfg w.asid w.part w.va w.kind w.user w.misal w.keep { s with wtape := w.rsp, wtapeN := 0 }) with
  | (.wait, s1) => (.wait, s1.wtape, { s1 with wtape := [], wtapeN := 0, walkCache := s.walkCache })
  | (r, s1) => (r, [], { s1 with wtape := [], wtapeN := 0 })

/-- A walk started, or left in flight where its probe reads wait, or queued where the walker has no place (R257, R265). -/
def walkStart (ag asid part va : Nat) (k : AccKind) (user misal : Bool) (s : State) : XRes × State :=
  let w : WalkRec := ⟨ag, va, asid, part, k, user, misal, mmuCfg s part, true, true, [], false, none, []⟩
  if !walkRoom s ag then (.wait, { s with walks := s.walks ++ [{ w with queued := true }] })
  else match walkRun w s with
    | (.wait, l, s1) => (.wait, { s1 with walks := s1.walks ++ [{ w with rsp := l }] })
    | (r, _, s1) => (r, s1)

/-- The translation of `va` for an agent (R252 to R266).
A copy that allows the access serves it; otherwise a finished walk of the same access is taken, or a walk is started. -/
def translate (ag asid part va : Nat) (k : AccKind) (user misal : Bool) (s : State) : XRes × State :=
  let mine := fun (w : WalkRec) => w.ag == ag && w.va == va && w.asid == asid && w.part == part && w.kind == k && w.user == user && w.wanted
  match copyLookup ag asid part va k user s with
  | (some e, s1) => (if misal && e.dev va then .align e.sz else .ok e, { s1 with walks := s1.walks.filter fun w => !(mine w && w.res.isSome) })
  | (none, s1) =>
    match s1.walks.find? mine with
    | some w =>
      match w.res with
      | none => (.wait, s1)
      | some r => (r, { s1 with walks := s1.walks.filter fun x => x != w })
    | none => walkStart ag asid part va k user misal s1

/-- Walk `i` of the list goes on, under the registers it sampled, or one that was queued starts, under those of now: its copy is left if it still may,
and its outcome kept for its requester (R254, R265, R271). -/
def walkOn (i : Nat) (w : WalkRec) (s : State) : State :=
  if w.res.isSome || (w.queued && !walkRoom s w.ag) then s
  else
    let w1 := if w.queued then { w with queued := false, cfg := mmuCfg s w.part } else w
    match walkRun w1 s with
    | (.wait, l, s1) => { s1 with walks := s1.walks.set i { w1 with cfg := { w1.cfg with tmo := false }, rsp := l } }
    | (r, _, s1) =>
      let rest := s1.walks.eraseIdx i
      if w1.wanted then { s1 with walks := rest ++ [{ w1 with res := some r }] } else { s1 with walks := rest }

/-- Walk `i` in flight goes on. -/
def walkDone (i : Nat) (s : State) : State :=
  match s.walks[i]? with
  | none => s
  | some w => walkOn i w s

/-- The time of the read that walk `i` waits for expires (R310). -/
def walkTimeout (i : Nat) (s : State) : State :=
  match s.walks[i]? with
  | none => s
  | some w => walkOn i { w with cfg := { w.cfg with tmo := true } } s

/-- The walks of an agent that abandoned its access: a finished one is dropped, one in flight keeps running for nobody. -/
def walksAbandon (ag : Nat) (s : State) : State :=
  { s with walks := (s.walks.filter fun w => !(w.ag == ag && (w.res.isSome || w.queued))).map fun w => if w.ag == ag then { w with wanted := false } else w }

/-- Some walk is in flight that was so when core `c` removed its copies (R271). -/
def walksPending (s : State) (c : Nat) : Bool := s.walks.any fun w => w.tlbi.contains c && w.res.isNone

/-- A copy is in the scope of an invalidation (R270). -/
def invMatch (ty asid part addr : Nat) (e : TlbEntry) : Bool :=
  match ty with
  | 0 => true
  | 1 => e.part == part
  | 2 => e.part == part && e.asid == asid
  | 3 => e.holds asid part addr
  | _ => e.part == part && e.ipa == pageOf e.ipaSz (addr * 4096)

/-- A walk-cache entry is in the scope of an invalidation (R270). -/
def invMatch2 (ty part addr : Nat) (e : S2Entry) : Bool :=
  match ty with
  | 0 => true
  | 1 => e.part == part
  | 4 => e.part == part && e.ipa == pageOf e.sz (addr * 4096)
  | _ => false

/-- The copies in scope removed: from the four cores' TLBs, for the TLBI of core `by_`, or from the VSE translation cache where `by_` is none, and from
the walk cache.
Walks in flight leave no copy, and the TLBI waits for them; one finished for a survey that has not taken it yet counts as a copy (R270 to R272). -/
def invalidate (by_ : Option Nat) (ty asid part addr : Nat) (s : State) : State :=
  let p := fun e => !invMatch ty asid part addr e
  let s1 := if by_.isNone then thinCopies 8 p s else (List.range 4).foldl (fun t c => thinCopies c p t) s
  let stale := fun (w : WalkRec) => by_.isNone && decide (8 ≤ w.ag) && (match w.res with | some (.ok e) => !p e | _ => false)
  let mark := fun (w : WalkRec) =>
    let others := w.tlbi.filter fun c => some c != by_
    { w with keep := w.keep && (w.queued || w.res.isSome), tlbi := if w.queued then others else others ++ by_.toList }
  { s1 with walkCache := s1.walkCache.filter (fun e => !invMatch2 ty part addr e), walks := (s1.walks.filter fun w => !stale w).map mark }

end Sys2Proof.Machine
end

