-- ==== Sys2Proof/Machine/Operands.lean ====
section
/-! DEFINITION. Operand forms of the AQ32 instructions and the words that spell them (R197, R198, R205, R210, R216, R218).

The words serve xFVAL, which holds the instruction word for the causes that R234 gives. -/
namespace Sys2Proof.Machine

/-- An immediate of 16 bits, sign-extended (R197). -/
def sext16 (x : BitVec 16) : Word := x.signExtend 32

/-- An immediate of 16 bits, zero-extended (R199). -/
def zext16 (x : BitVec 16) : Word := x.zeroExtend 32

/-- A branch target: `off` words from `pc` (R197). -/
def branchTo (pc : Word) {n : Nat} (off : BitVec n) : Word := pc + (off.signExtend 32 <<< 2)

/-- The address of a load or store: Ga + IMM (R201). -/
def effAddr (s : State) (c : CoreId) (a : GReg) (imm : BitVec 16) : Word := s.g c a + sext16 imm

/-- The address of a short-vector load or store: Ga + OFF × 16 (R218). -/
def qmAddr (s : State) (c : CoreId) (a : GReg) (off : BitVec 12) : Word := s.g c a + (off.signExtend 32 <<< 4)

/-- A word from its fields, each a value at a bit place. -/
def fieldsWord (l : List (Nat × Nat)) : Word := BitVec.ofNat 32 (l.foldl (fun x f => x + f.1 * 2 ^ f.2) 0)

/-- Format 3R (R197). -/
def enc3R (maj d a b fn : Nat) : Word := fieldsWord [(maj, 26), (d, 21), (a, 16), (b, 11), (fn, 0)]

/-- Format I (R197). -/
def encI (maj d a imm : Nat) : Word := fieldsWord [(maj, 26), (d, 21), (a, 16), (imm, 0)]

/-- Format B (R197). -/
def encB (maj off : Nat) : Word := fieldsWord [(maj, 26), (off, 0)]

/-- Format F (R197). -/
def encF (d a b rm fn : Nat) (p : Bool) : Word :=
  fieldsWord [(0x30, 26), (d, 21), (a, 16), (b, 11), (rm, 8), (b2n p, 7), (fn, 0)]

/-- Format FMA (R197). -/
def encFma (d a b e rm op : Nat) (p : Bool) : Word :=
  fieldsWord [(0x31, 26), (d, 21), (a, 16), (b, 11), (e, 6), (rm, 3), (b2n p, 2), (op, 0)]

/-- Format SYS (R197). -/
def encSys (d a sr minor : Nat) : Word := fieldsWord [(0x38, 26), (d, 21), (a, 16), (sr, 4), (minor, 0)]

/-- TLBI and VINV: Gb, Ga, TYPE and the minor code (R269). -/
def encInv (gb ga ty minor : Nat) : Word := fieldsWord [(0x38, 26), (gb, 21), (ga, 16), (ty, 4), (minor, 0)]

/-- CALLM: Ga and MASK (R198). -/
def encCallm (a mask : Nat) : Word := fieldsWord [(0x29, 26), (a, 21), (mask, 0)]

/-- LOOP: Gc and N − 1 (R198). -/
def encLoop (gc n1 : Nat) : Word := fieldsWord [(0x2B, 26), (gc, 21), (n1, 0)]

/-- Format S, the block repeats (R210). -/
def encS (sz op ss ds cond : Nat) : Word :=
  fieldsWord [(0x3C, 26), (sz, 24), (op, 22), (ss, 18), (ds, 14), (cond, 12)]

/-- Format Q (R216). -/
def encQ (d a b ty rm fn : Nat) : Word :=
  fieldsWord [(0x34, 26), (d, 22), (a, 18), (b, 14), (ty, 10), (rm, 7), (fn, 0)]

/-- Format QM (R216). -/
def encQM (d a k1 esz st off : Nat) : Word :=
  fieldsWord [(0x35, 26), (d, 22), (a, 17), (k1, 15), (esz, 13), (st, 12), (off, 0)]

/-- VSD (R63). -/
def encVsd (gs gt d w : Nat) : Word := fieldsWord [(0x3D, 26), (gs, 21), (gt, 16), (d, 10), (w, 7), (1, 0)]

/-- VLDD (R63). -/
def encVldd (gs d n1 : Nat) : Word := fieldsWord [(0x3D, 26), (gs, 21), (d, 15), (n1, 9), (2, 0)]

/-- VISSUE and the context instructions (R63, R112, R163). -/
def encVec (gd gs gt minor : Nat) : Word := fieldsWord [(0x3D, 26), (gd, 21), (gs, 16), (gt, 11), (minor, 0)]

/-- A function code of the short-vector operations that R217 gives. -/
def svuFn (fn : Nat) : Bool :=
  decide (fn ≤ 0x1E) || (decide (0x20 ≤ fn) && decide (fn ≤ 0x24)) || fn == 0x28 || fn == 0x29 || (decide (0x30 ≤ fn) && decide (fn ≤ 0x35))

/-- A system-class word that R205, R239, R269 and the register list of R249's chapter do not define. -/
def undefSys (w : Word) : Bool :=
  match fld w 3 0 with
  | 4 => fld w 25 16 != 0
  | 9 => fld w 15 14 != 0
  | 10 | 11 => fld w 15 8 != 0
  | n => decide (0xC ≤ n)

/-- A block-repeat word that R210 does not define: SZ 0b11, and fields that are zero for the OP. -/
def undefRep (w : Word) : Bool :=
  let op := fld w 23 22
  fld w 11 0 != 0 || fld w 25 24 == 3 || (op == 0 && fld w 21 18 != 0) || (op == 2 && fld w 17 14 != 0) || (op != 2 && fld w 13 12 != 0)

/-- A vector-class word that R63, R112 and R163 do not define. -/
def undefVec (w : Word) : Bool :=
  match fld w 3 0 with
  | 0 => true
  | 1 => fld w 6 4 != 0 || (fld w 9 7 == 7 && fld w 15 14 != 0)
  | 2 => fld w 8 4 != 0
  | n => decide (0xD ≤ n) || fld w 10 4 != 0

/-- A word that raises ILLEGAL by its own bits: a major opcode that no table lists, a function or minor code that no chapter defines, a reserved RM, or
a nonzero field that is given as zero (R198). -/
def undefWord (w : Word) : Bool :=
  match fld w 31 26 with
  | 0x00 => decide (0x13 < fld w 10 0)
  | 0x07 => fld w 20 16 != 0
  | 0x08 => fld w 15 7 != 0
  | 0x09 => decide (6 < fld w 10 0)
  | 0x1C => decide (3 < fld w 10 0)
  | 0x29 => fld w 20 16 != 0
  | 0x2A => fld w 25 0 != 0
  | 0x2B => fld w 20 6 != 0
  | 0x30 => decide (0x11 < fld w 6 0) || decide (4 < fld w 10 8)
  | 0x31 => decide (4 < fld w 5 3)
  | 0x34 => !svuFn (fld w 6 0) || decide (4 < fld w 9 7)
  | 0x35 => decide (15 < fld w 25 22 + fld w 16 15)
  | 0x38 => undefSys w
  | 0x3C => undefRep w
  | 0x3D => undefVec w
  | n => !(decide (0x01 ≤ n) && decide (n ≤ 0x06)) && !(decide (0x10 ≤ n) && decide (n ≤ 0x1B)) && !(decide (0x20 ≤ n) && decide (n ≤ 0x28))

end Sys2Proof.Machine
end

