-- ==== Sys2Proof/Machine/Ops.lean ====
section
/-! DEFINITION. What every AQ32 instruction shares: accesses to memory, the store buffer, taking an exception and returning from one,
hold windows, the hardware loop, and the frame in which an instruction runs (R194 to R251, R404, R406). -/
namespace Sys2Proof.Machine

/-- An exception that an instruction raises: its cause, INFO, FVAL (none where R234 gives none), and for a stage-2 fault the IPA. -/
structure Exc where
  code : Nat
  info : Nat
  fval : Option Word
  s2ipa : Option Nat
  deriving DecidableEq, Repr

/-- The outcome of a part of an instruction: a value, an exception, or a wait for something outside the core. -/
inductive Acc (α : Type) where
  | ok (v : α) (s : State)
  | exc (e : Exc) (s : State)
  | wait (s : State)

/-- One part of an instruction after another. -/
def Acc.bind {α β : Type} (x : Acc α) (f : α → State → Acc β) : Acc β :=
  match x with
  | .ok v s => f v s
  | .exc e s => .exc e s
  | .wait s => .wait s

/-- Parts done one after the other over a list, gathering their values. -/
def Acc.forAll {α β : Type} (f : α → State → Acc β) : List α → State → Acc (List β)
  | [], s => .ok [] s
  | a :: t, s => (f a s).bind fun b s1 => (Acc.forAll f t s1).bind fun bs s2 => .ok (b :: bs) s2

/-- Cause codes (R234). -/
def cILLEGAL : Nat := 0x01
/-- PRIV (R234). -/
def cPRIV : Nat := 0x02
/-- ALIGN (R234). -/
def cALIGN : Nat := 0x03
/-- ADTRAP (R234). -/
def cADTRAP : Nat := 0x0A
/-- IBUS (R234). -/
def cIBUS : Nat := 0x0B
/-- LBUS (R234). -/
def cLBUS : Nat := 0x0C
/-- STORE_ERR (R234). -/
def cSTORE_ERR : Nat := 0x0D
/-- MCHK (R234). -/
def cMCHK : Nat := 0x0E
/-- GATE (R234). -/
def cGATE : Nat := 0x0F
/-- GATE_ARG (R234). -/
def cGATE_ARG : Nat := 0x10
/-- GATE_RANGE (R234). -/
def cGATE_RANGE : Nat := 0x11
/-- GATE_ENTRY (R234). -/
def cGATE_ENTRY : Nat := 0x12
/-- FPTRAP (R234). -/
def cFPTRAP : Nat := 0x13
/-- VCMD (R234). -/
def cVCMD : Nat := 0x14
/-- VNOCTX (R234). -/
def cVNOCTX : Nat := 0x15
/-- BRK (R234). -/
def cBRK : Nat := 0x16
/-- VECFAULT (R234). -/
def cVECFAULT : Nat := 0x17
/-- INT_N (R234). -/
def cINT_N : Nat := 0x20
/-- INT_F (R234). -/
def cINT_F : Nat := 0x21

/-- An exception with no INFO. -/
def Exc.plain (code : Nat) (fval : Word) : Exc := ⟨code, 0, some fval, none⟩

/-- The ILLEGAL exception of the instruction `w` (R198, R234). -/
def excIllegal (w : Word) : Exc := .plain cILLEGAL w

/-- The PRIV exception of the instruction `w` (R234). -/
def excPriv (w : Word) : Exc := .plain cPRIV w

/-! ### Translation and bus accesses of a core -/

/-- Deterministic mode: CTX_MODE.DET, and every instruction of the Safety Island (R249, R404). -/
def State.det (s : State) (c : CoreId) : Bool := isSI c || wbit (s.sr c 0x100) 31

/-- The ASID and partition of a core now: MTRANS at M, CTX_TRANS at U and S (R252). -/
def coreSpace (s : State) (c : CoreId) : Nat × Nat :=
  let n := if s.lvl c = .m then 0x131 else 0x130
  (s.srf c n 7 0, s.srf c n 11 8)

/-- The exception of a failed translation (R234, R264). -/
def xlateExc (k : AccKind) (va : Nat) (f : WalkFail) : Exc :=
  let grp := match k with | .fetch => 0 | .load | .probeR | .vsrc => 1 | _ => 2
  let code := if f.cause = wECC then cMCHK else if f.cause ≤ wDEV then 4 + grp
    else if f.cause = wACCESSED ∨ f.cause = wDIRTY then cADTRAP else 7 + grp
  ⟨code, b2n f.s2 * 2 ^ 15 + f.probe * 2 ^ 12 + f.cause * 2 ^ 8 + f.size * 2 ^ 6 + b2n f.table * 2 ^ 5,
   some (BitVec.ofNat 32 va), if f.s2 then some f.ipa else none⟩

/-- The physical address that an SI address reaches (R406). -/
def siPhys (s : State) (va : Nat) : Nat :=
  if va < 0xF0000000 then va else s.rf SI_XWIN 19 0 * 2 ^ 28 + (va - 0xF0000000)

/-- A page of an access translated: its copy, or the exception and the size of the page where it is known. -/
inductive PageRes where
  | ok (e : TlbEntry)
  | exc (e : Exc) (sz : Option Nat)
  | wait

/-- One page of an access translated. -/
def transPage (c : CoreId) (va : Nat) (k : AccKind) (misal : Bool) (s : State) : PageRes × State :=
  let sp := coreSpace s c
  match translate c.val sp.1 sp.2 va k (s.lvl c == .u) misal s with
  | (.ok e, s1) => (.ok e, s1)
  | (.fail f, s1) => (.exc (xlateExc k va f) (if f.cause ≤ wECC then none else some f.size), s1)
  | (.align sz, s1) => (.exc (.plain cALIGN (BitVec.ofNat 32 va)) (some sz), s1)
  | (.wait, s1) => (.wait, s1)

/-- The rank of an exception of translation among those of one instruction (R236). -/
def xlateRank (e : Exc) : Nat :=
  if e.code = cMCHK then 4 else if e.code = cADTRAP then 3 else if e.code = cALIGN then 2 else if decide (7 ≤ e.code) && decide (e.code ≤ 9) then 1 else 0

/-- The page after the one of size `sz` that holds `va`. -/
def nextPage (sz va : Nat) : Nat := (pageOf sz va + szBytes sz) % 2 ^ 32

/-- The pieces of an access of the Safety Island: one, or two where it crosses a bound of the far window or the end of its addresses (R406). -/
def siPieces (s : State) (va len : Nat) : List Piece :=
  let piece := fun (a n : Nat) => let pa := siPhys s a; (⟨pa, n, isDevice pa, false, a⟩ : Piece)
  let room := (if va < 0xF0000000 then 0xF0000000 else 2 ^ 32) - va
  if len ≤ room then [piece va len] else [piece va room, piece ((va + room) % 2 ^ 32) (len - room)]

/-- The pages of an access translated before any byte moves (R202): one piece, or two where it crosses a page boundary. Where the first page raises
an exception, one of the second page that ranks before it is raised (R236).
`misal` says that the access is not naturally aligned. -/
def transFresh (c : CoreId) (va len : Nat) (k : AccKind) (misal : Bool) (s : State) : Acc (List Piece) :=
  if isSI c then
    let ps := siPieces s va len
    if misal && ps.any (fun p => p.dev) then .exc (.plain cALIGN (BitVec.ofNat 32 va)) s else .ok ps s
  else
    let piece := fun (e : TlbEntry) (a n : Nat) => (⟨e.addr a, n, e.dev a, e.attr == 0 && !e.dev a, a⟩ : Piece)
    match transPage c va k misal s with
    | (.wait, s1) => .wait s1
    | (.exc e none, s1) => .exc e s1
    | (.exc e (some sz), s1) =>
      if len ≤ szBytes sz - va % szBytes sz then .exc e s1
      else match transPage c (nextPage sz va) k misal s1 with
        | (.exc e2 _, s2) => if xlateRank e2 < xlateRank e then .exc e2 s2 else .exc e s1
        | (.wait, s2) => .wait s2
        | (.ok _, _) => .exc e s1
    | (.ok e, s1) =>
      let room := szBytes e.sz - va % szBytes e.sz
      if len ≤ room then .ok [piece e va len] s1
      else
        let va2 := nextPage e.sz va
        match transPage c va2 k misal s1 with
        | (.wait, s2) => .wait s2
        | (.exc e2 _, s2) => .exc e2 s2
        | (.ok e2, s2) => .ok [piece e va room, piece e2 va2 (len - room)] s2

/-- The pages of an access, as they were translated before the instruction in progress made its first access, else translated now: nothing of an
instruction is left done when a translation of it fails (R202, R235). -/
def transPieces (c : CoreId) (va len : Nat) (k : AccKind) (misal : Bool) (s : State) : Acc (List Piece) :=
  let q := s.core c
  match (if q.rsp.isEmpty then none else q.tr.find? fun e => e.1 == va && e.2.1 == len && e.2.2.1 == k) with
  | some e => .ok e.2.2.2 s
  | none => (transFresh c va len k misal s).bind fun ps s1 => .ok ps (s1.modCore c fun q => { q with tr := (va, len, k, ps) :: q.tr })

/-- Two translations of one instruction: of two exceptions, the one that ranks first (R236). -/
def Acc.both {α β : Type} (x : Acc α) (f : State → Acc β) : Acc (α × β) :=
  match x with
  | .ok a s => (f s).bind fun b s1 => .ok (a, b) s1
  | .wait s => .wait s
  | .exc e s =>
    match f s with
    | .exc e2 s2 => if xlateRank e2 < xlateRank e then .exc e2 s2 else .exc e s
    | .wait s2 => .wait s2
    | .ok _ _ => .exc e s

/-- The master port of a core's access: M0 for cacheable ones, M1 for the others and in deterministic mode, M4 for the Safety
Island (R22, R249, R259, R407). -/
def corePort (s : State) (c : CoreId) (cached : Bool) : Nat :=
  if isSI c then 4 else if cached && !s.det c then 0 else 1

/-- What an error response to a load, fetch or ATOM raises (R309). -/
def respExc (k : AccKind) (r : Resp) (va : Nat) : Exc :=
  if r = rECC then .plain cMCHK (BitVec.ofNat 32 va)
  else .plain (if k = .fetch ∧ r ≠ rLINK then cIBUS else cLBUS) (BitVec.ofNat 32 va)

/-- An SI core has read an uncorrectable byte of SI SRAM (R406). -/
def sramFails (c : CoreId) (pa : Nat) (r : Resp) : Bool := isSI c && isSiSram pa && r == rECC

/-- An uncorrectable byte of SI SRAM read by an SI core triggers the safe state (R406). -/
def siSramUe (c : CoreId) (pa : Nat) (r : Resp) (s : State) : State := if sramFails c pa r then safeTrigger 6 s else s

/-- The next access of the instruction in progress: its answer from an earlier attempt, or made now and its answer kept, so that no access is made
twice while a later one of the same instruction waits (R211); one whose time has expired is answered with TARGET (R310). -/
def access (c : CoreId) (pa len : Nat) (go : State → BusRes × State) (s : State) : BusRes × State :=
  let k := s.core c
  let kept := fun (r : Resp) (b : List Byte) (t : State) =>
    (BusRes.done r b, t.modCore c fun k => { k with rsp := k.rsp ++ [⟨pa, len, r, b⟩], nacc := k.nacc + 1, await := none })
  let made := fun (t : State) =>
    if t.outst.any fun o => o.owner == .load c then (.wait, t)
    else if ((t.core c).await.map fun x => x.gone) = some true then kept rTARGET [] t
    else match go t with
      | (.wait, t1) => (.wait, t1)
      | (.done r b, t1) => kept r b t1
  match k.rsp[k.nacc]? with
  | some x =>
    if x.pa = pa ∧ x.len = len then (.done x.resp x.bytes, s.modCore c fun k => { k with nacc := k.nacc + 1 })
    else made (s.modCore c fun k => { k with rsp := k.rsp.take k.nacc })
  | none => made s

/-- A core's access as its transaction, with the core's number as its ID (R303). -/
def coreXact (s : State) (c : CoreId) (m kind pa len fn : Nat) (bytes : List Byte) : Xact :=
  newXact s m c.val c.val kind pa len fn (s.lvl c) (m == 1 && s.det c) [] [(pa, bytes)]

/-- The core's instruction has issued this access already. -/
def awaited_ (s : State) (c : CoreId) (x : Xact) : Bool :=
  match (s.core c).await with
  | some y => !y.gone && y.m == x.m && y.kind == x.kind && y.pa == x.pa && y.len == x.len
  | none => false

/-- A core's access issued when its port takes it; one that then waits at its target is what the core waits for (R302, R303, R310, R312). -/
def coreGate (c : CoreId) (x : Xact) (go : State → BusRes × State) (s : State) : BusRes × State :=
  let s0 := s.modCore c fun k => { k with await := none }
  if awaited_ s c x || mayIssue s0 s0.xacts x.m (x.kind != 0) x.pa x.len then
    match go s0 with
    | (.wait, s1) => (.wait, if isRemote x.pa then s1 else s1.modCore c fun k => { k with await := some x })
    | d => d
  else (.wait, s)

/-- What a read that bypasses the L2 finds: of a line that the L2 still holds dirty the bytes of memory itself, and whether it does is a free choice; a line
that it has written back is dirty no more (R249). -/
def l2Past (pa len : Nat) (r : BusRes × State) : BusRes × State :=
  let mine := fun (o : L2Byte) => decide (pa ≤ o.pa) && decide (o.pa < pa + len)
  match r with
  | (.done c b, s) =>
    if s.l2Old.any mine then
      let (q, s1) := s.draw
      let byte := fun (e : Nat × Byte) =>
        match s.l2Old.find? fun o => o.pa == pa + e.1 with
        | some o => if o.new == e.2 && Config.l2Dirty q (o.pa / 64) then o.old else e.2
        | none => e.2
      let gone := fun (o : L2Byte) => decide (pa / 64 ≤ o.pa / 64) && decide (o.pa / 64 ≤ (pa + len - 1) / 64) && !Config.l2Dirty q (o.pa / 64)
      (.done c (((List.range b.length).zip b).map byte), { s1 with l2Old := s1.l2Old.filter fun o => !gone o })
    else (.done c b, s)
  | w => w

/-- A cacheable store has reached the L2: its line may be dirty there (R249). -/
def l2Stored (pa : Nat) (bytes : List Byte) (s0 s1 : State) : State :=
  if isErg pa || isDram s1 pa then
    { s1 with l2Old := (List.range bytes.length).foldl (fun l i =>
        let a := pa + i
        let was := match l.find? fun o => o.pa == a with | some o => if o.new == readByte s0 a then o.old else readByte s0 a | none => readByte s0 a
        let rest := l.filter fun o => o.pa != a
        if was == readByte s1 a then rest else rest ++ [⟨a, was, readByte s1 a⟩]) s1.l2Old }
  else s1

/-- A read of a core at its target; in deterministic mode it bypasses the L2 (R249). -/
def coreRead (c : CoreId) (m pa len : Nat) (s : State) : BusRes × State :=
  let r := coreGate c (coreXact s c m 0 pa len 0 []) (readIssued m c.val (.load c) c.val pa len) s
  if m = 1 ∧ s.det c = true then l2Past pa len r else r

/-- The answer to an access as its value, or the exception that an error raises. -/
def Acc.ofBus (c : CoreId) (k : AccKind) (pa va : Nat) (okColl : Bool) (r : BusRes × State) : Acc (Resp × List Byte) :=
  match r with
  | (.wait, s) => .wait s
  | (.done r b, s) =>
    if r = rOKAY ∨ (r = rCOLLIDE ∧ okColl) then .ok (r, b) s else .exc (respExc k r va) (siSramUe c pa r s)

/-- The bytes that a read of a piece takes from memory: a cacheable one of the Erg or of DRAM takes its whole lines of 64 bytes (R284). -/
def fillSpan (s : State) (c : CoreId) (p : Piece) : Nat × Nat :=
  if corePort s c p.cached = 0 && (isErg p.pa || isDram s p.pa) then (p.pa / 64 * 64, (p.pa + p.len + 63) / 64 * 64 - p.pa / 64 * 64) else (p.pa, p.len)

/-! ### Store buffer -/

/-- CAUSE of STERR_INFO for a response (R309). -/
def sterrCause (r : Resp) : Nat := if r = rLINK then 2 else r

/-- A store that left the buffer received an error response (R237): the first is recorded, a further one sets MORE, and a report is pending. -/
def storeError (c : CoreId) (pa size lvl : Nat) (r : Resp) (s : State) : State :=
  let s1 := if wbit (s.sr c 0x106) 31 then s.setSr c 0x106 (putBit (s.sr c 0x106) 30 true)
    else ((s.setSr c 0x106 (BitVec.ofNat 32 (2 ^ 31 + size % 16 * 256 + lvl * 16 + sterrCause r) ||| (s.sr c 0x106 &&& 0x40000000#32))).setSr c 0x107 (BitVec.ofNat 32 pa)).setSr
      c 0x108 (BitVec.ofNat 32 (pa / 2 ^ 32))
  s1.modCore c fun k => { k with stPend := true }

/-- The oldest buffered store sent, when its port takes it; the answer says whether it has left the buffer. One that waits at its target has been
issued (R302, R303). -/
def drainOne (c : CoreId) (s : State) : Bool × State :=
  match (s.core c).sbuf with
  | [] => (false, s)
  | b :: rest =>
    let s0 := s.modCore c fun k => { k with sbuf := { b with out := false } :: rest }
    let left := fun (t : State) => t.modCore c fun k => { k with sbuf := rest }
    if b.out || mayIssue s0 s0.xacts b.m true b.pa b.bytes.length then
      match writeIssued b.m c.val (Level.ofCode b.lvl) (.store c b.lvl) c.val b.pa b.bytes s0 with
      | (.done code _, s1) =>
        let s2 := if b.m = 0 then l2Stored b.pa b.bytes s0 s1 else s1
        (true, if code = rOKAY then left s2 else storeError c b.pa b.bytes.length b.lvl code (left s2))
      | (.wait, s1) =>
        if s.outst.length < s1.outst.length then (true, left s1)
        else (false, if isRemote b.pa then s1 else s1.modCore c fun k => { k with sbuf := { b with out := true } :: rest })
    else (false, s)

/-- The store buffer drained as far as the bus takes it, at most `n` entries, in order (R248). -/
def drainUpTo : Nat → CoreId → State → State
  | 0, _, s => s
  | n + 1, c, s => let r := drainOne c s; if r.1 then drainUpTo n c r.2 else r.2

/-- The store buffer drained as far as the bus takes it. -/
def drain (c : CoreId) (s : State) : State := drainUpTo (s.core c).sbuf.length c s

/-- The store buffer is empty and every store that left it has its response (R237). -/
def drained (s : State) (c : CoreId) : Bool :=
  (s.core c).sbuf.isEmpty && !(s.outst.any fun o => match o.owner with | .store d _ => d == c | _ => false)

/-- The loop is active (LCTL.ACTIVE). -/
def loopOn (s : State) (c : CoreId) : Bool := wbit (s.sr c 0x022) 31

/-- An address lies in the body of the loop (R213). -/
def inBody (s : State) (c : CoreId) (a : Word) : Bool :=
  decide ((s.sr c 0x020).toNat ≤ a.toNat) && decide (a.toNat ≤ (s.sr c 0x021).toNat)

/-- The byte at a physical address after the core's buffered stores. -/
def byteAhead (s : State) (c : CoreId) (pa : Nat) : Byte :=
  match (s.core c).sbuf.reverse.find? fun b => decide (b.pa ≤ pa) && decide (pa < b.pa + b.bytes.length) with
  | some b => b.bytes.getD (pa - b.pa) 0
  | none => readByte s pa

/-- A store that may reach the body of the active loop keeps the bytes as they were: fetch sees it only after the loop ends (R215). A page leaves the
low twelve bits of an address as they are, and a store elsewhere with the body's is kept in vain. -/
def loopKeep (c : CoreId) (pa len : Nat) (s : State) : State :=
  if loopOn s c then
    let a := (s.sr c 0x020).toNat
    let n := (s.sr c 0x021).toNat + 4 - a
    let hit := fun q => decide ((q + 2 ^ 32 - a) % 4096 < n) && !((s.core c).lold.any fun e => e.1 == q)
    let old := (((List.range len).map fun i => pa + i).filter hit).map fun q => (q, byteAhead s c q)
    s.modCore c fun k => { k with lold := k.lold ++ old }
  else s

/-- A store retired into the buffer, 8 entries of up to 8 bytes, which then drains; a full buffer makes it wait (R248). -/
def pushStore (c : CoreId) (b : BufStore) (s : State) : BusRes × State :=
  let s1 := drain c s
  if (s1.core c).sbuf.length < 8 then
    (.done rOKAY [], drain c ((loopKeep c b.pa b.bytes.length s1).modCore c fun k => { k with sbuf := k.sbuf ++ [b] }))
  else (.wait, s1)

/-- A stretch of bytes retired into the buffer in entries of up to `w` bytes, each once (R248); `n` bounds their number. -/
def pushBytes (c : CoreId) (w lvl m : Nat) : Nat → Nat → List Byte → State → Acc Unit
  | 0, _, _, s => .ok () s
  | _ + 1, _, [], s => .ok () s
  | n + 1, pa, bytes, s =>
    match access c pa (Nat.min w bytes.length) (pushStore c ⟨pa, bytes.take w, lvl, m, false⟩) s with
    | (.wait, s1) => .wait s1
    | (.done .., s1) => pushBytes c w lvl m n (pa + w) (bytes.drop w) s1

/-- A write of a core that completes before its instruction does (R249). -/
def coreWrite (c : CoreId) (p : Piece) (bytes : List Byte) (s : State) : BusRes × State :=
  let m := corePort s c p.cached
  coreGate c (coreXact s c m 1 p.pa bytes.length 0 bytes) (writeIssued m c.val (s.lvl c) (.load c) c.val p.pa bytes) (loopKeep c p.pa bytes.length s)

/-- A response that says that a write was not performed: a collision is none, the words that it does not name were performed (R299, R308). -/
def hardResp (r : Resp) : Bool := r != rOKAY && r != rCOLLIDE

/-- Pieces written one after the other, with those whose response is not OKAY: none after a write that was not performed, and no answer where one
waits. -/
def writeAll (c : CoreId) : List (Piece × List Byte) → State → Option (List (Piece × Resp)) × State
  | [], s => (some [], s)
  | (p, b) :: t, s =>
    match coreWrite c p b s with
    | (.wait, s1) => (none, s1)
    | (.done r _, s1) =>
      if hardResp r then (some [(p, r)], s1)
      else match writeAll c t s1 with
        | (some l, s2) => (some (if r = rOKAY then l else (p, r) :: l), s2)
        | w => w

/-- Pieces at the device's own memory written together: where one is refused or waits, memory stands as before (R221, R235). -/
def writeTogether (c : CoreId) (ps : List (Piece × List Byte)) (s : State) : Acc (List (Piece × Resp)) :=
  match writeAll c ps s with
  | (none, s1) => .wait (s.modCore c fun k => { k with await := (s1.core c).await })
  | (some l, s1) => .ok l (if l.any fun e => hardResp e.2 then { s1 with mem := s.mem, ecc := s.ecc, dramErr := s.dramErr } else s1)

/-- Pieces written together as one access of the instruction, which is made once. -/
def writeNear (c : CoreId) (ps : List (Piece × List Byte)) (s : State) : Acc (List (Piece × Resp)) :=
  match ps with
  | [] => .ok [] s
  | (p, _) :: _ =>
    match access c p.pa ps.length (fun t =>
        match writeTogether c ps t with
        | .ok [] t1 => (.done rOKAY [], t1)
        | .ok (e :: l) t1 => let f := ((e :: l).find? fun x => hardResp x.2).getD e; (.done f.2 (leBytes 4 f.1.va), t1)
        | .exc _ t1 => (.done rTARGET [], t1)
        | .wait t1 => (.wait, t1)) s with
    | (.wait, s1) => .wait s1
    | (.done r b, s1) =>
      if r = rOKAY then .ok [] s1
      else .ok [(((ps.find? fun e => e.1.va == leNat b).map fun e => e.1).getD p, r)] s1

/-- Pieces in remote windows written one after the other, each awaited, as far as they are performed. -/
def writeRemote (c : CoreId) : List (Piece × List Byte) → State → Acc (List (Piece × Resp))
  | [], s => .ok [] s
  | (p, b) :: t, s =>
    match access c p.pa b.length (coreWrite c p b) s with
    | (.wait, s1) => .wait s1
    | (.done r _, s1) =>
      if hardResp r then .ok [(p, r)] s1
      else (writeRemote c t s1).bind fun l s2 => .ok (if r = rOKAY then l else (p, r) :: l) s2

/-- The node's own window (R20). -/
def ownWindow (s : State) (pa : Nat) : Bool := isRemote pa && ownDst s (nfld pa 45 32)

/-- A piece that this node would refuse now. -/
def refusedNow (c : CoreId) (s : State) (e : Piece × List Byte) : Bool :=
  let r := if ownWindow s e.1.pa then (ownerPerform (nodeId s) 1 (e.1.pa % 2 ^ 32) e.2.length 0 e.2 [] s).1
    else if isRemote e.1.pa then .wait
    else (coreWrite c e.1 e.2 s).1
  match r with
  | .done x _ => hardResp x
  | .wait => false

/-- What a store in deterministic mode makes of its responses: a write that was not performed is a precise LBUS, and so is a collision, which an SI
core sees as STORE_ERR (R235, R249, R281, R407). -/
def storeEnds (c : CoreId) (l : List (Piece × Resp)) (s : State) : Acc Unit :=
  match (l.find? fun e => hardResp e.2), l with
  | some e, _ => .exc (.plain cLBUS (BitVec.ofNat 32 e.1.va)) s
  | none, [] => .ok () s
  | none, e :: _ =>
    if isSI c then .ok () (l.foldl (fun t x => storeError c x.1.pa x.1.len (t.lvl c).code x.2 t) s) else .exc (.plain cLBUS (BitVec.ofNat 32 e.1.va)) s

/-- A store in deterministic mode, performed once the buffer is empty (R249). What this node would refuse is found before anything is written, and
what goes to other nodes is written first, so that an error leaves every byte unchanged (R221, R235); two pieces of other nodes cannot be taken
back together (log 68). -/
def storeNow (c : CoreId) (ps : List (Piece × List Byte)) (s : State) : Acc Unit :=
  let s0 := drain c s
  if !(s0.core c).sbuf.isEmpty then .wait s0
  else
    let k := s0.core c
    let began := decide (k.nacc < k.rsp.length) || s0.outst.any fun o => o.owner == .load c
    match (if began then none else ps.find? (refusedNow c s0)) with
    | some e => (if isRemote e.1.pa then writeRemote c [e] s0 else writeNear c [e] s0).bind fun l s1 => storeEnds c l s1
    | none =>
      let far := fun (own : Bool) => ps.filter fun e => isRemote e.1.pa && ownWindow s0 e.1.pa == own
      (writeRemote c (far false ++ far true) s0).bind fun l1 s1 =>
        if l1.any fun e => hardResp e.2 then storeEnds c l1 s1
        else (writeNear c (ps.filter fun e => !isRemote e.1.pa) s1).bind fun l2 s2 => storeEnds c (l1 ++ l2) s2

/-- The pieces of an access with the bytes that each takes. -/
def withBytes : List Piece → List Byte → List (Piece × List Byte)
  | [], _ => []
  | p :: t, bytes => (p, bytes.take p.len) :: withBytes t (bytes.drop p.len)

/-- Pieces of stores retired into the buffer, in order, in entries of up to `w` bytes. -/
def pushPieces (c : CoreId) (w : Nat) : List (Piece × List Byte) → State → Acc Unit
  | [], s => .ok () s
  | (p, b) :: t, s => (pushBytes c w (s.lvl c).code (corePort s c p.cached) (b.length / w + 1) p.pa b s).bind fun _ s1 => pushPieces c w t s1

/-- A byte string stored over the pieces of an access: into the buffer, or in deterministic mode performed at once (R248, R249). -/
def storePieces (c : CoreId) (ps : List Piece) (bytes : List Byte) (s : State) : Acc Unit :=
  if s.det c then storeNow c (withBytes ps bytes) s else pushPieces c 8 (withBytes ps bytes) s

/-- A read after the stores of the core before it: forwarded from the youngest buffered store that holds all of it, stalled by one that overlaps, else
taken from the bus by `go` (R248). -/
def forwarded (c : CoreId) (pa len : Nat) (go : State → BusRes × State) (s : State) : BusRes × State :=
  let s1 := drain c s
  let buf := (s1.core c).sbuf
  match buf.reverse.find? fun b => decide (b.pa ≤ pa) && decide (pa + len ≤ b.pa + b.bytes.length) with
  | some b => (.done rOKAY ((b.bytes.drop (pa - b.pa)).take len), s1)
  | none => if buf.any fun b => decide (b.pa < pa + len) && decide (pa < b.pa + b.bytes.length) then (.wait, s1) else go s1

/-- A read of a piece from the bus, in whole lines where it is cacheable, cut to the piece (R284). -/
def pieceFill (c : CoreId) (p : Piece) (s : State) : BusRes × State :=
  let sp := fillSpan s c p
  match coreRead c (corePort s c p.cached) sp.1 sp.2 s with
  | (.done r b, s1) => (.done r ((b.drop (p.pa - sp.1)).take p.len), s1)
  | w => w

/-- A piece loaded, with its response (R248, R284). -/
def pieceLoad (c : CoreId) (p : Piece) (s : State) : Acc (Piece × Resp × List Byte) :=
  match access c p.pa p.len (forwarded c p.pa p.len (pieceFill c p)) s with
  | (.wait, s1) => .wait s1
  | (.done r b, s1) => .ok (p, r, b) s1

/-- The pieces of an instruction's loads in order, as one byte string; of their errors MCHK ranks before LBUS (R236). -/
def loadPieces (c : CoreId) (ps : List Piece) (s : State) : Acc (List Byte) :=
  (Acc.forAll (pieceLoad c) ps s).bind fun bs t =>
    match ((bs.find? fun e => e.2.1 == rECC).orElse fun _ => bs.find? fun e => e.2.1 != rOKAY) with
    | some (p, r, _) => .exc (respExc .load r p.va) (siSramUe c p.pa r t)
    | none => .ok (bs.flatMap fun e => e.2.2) t

/-- `len` bytes loaded from a virtual address (R201, R202). -/
def loadAt (c : CoreId) (va : Word) (len : Nat) (s : State) : Acc (List Byte) :=
  (transPieces c va.toNat len .load (va.toNat % len != 0) s).bind fun ps s1 => loadPieces c ps s1

/-- Bytes stored to a virtual address (R201, R202). -/
def storeAt (c : CoreId) (va : Word) (bytes : List Byte) (s : State) : Acc Unit :=
  (transPieces c va.toNat bytes.length .store (va.toNat % bytes.length != 0) s).bind fun ps s1 => storePieces c ps bytes s1

/-! ### Hold windows -/

/-- A hold window of `n` KCLK opened: an open window is never lengthened (R231). -/
def openWindow (c : CoreId) (n : Nat) (s : State) : State :=
  s.modCore c fun k => { k with hold := if k.hold = 0 then n else Nat.min k.hold n }

/-- The window of an entry, which starts when the first instruction of the handler issues (R231): `b` says that another is open at the entry. -/
def entryWindow (c : CoreId) (n : Nat) (s : State) : State :=
  s.modCore c fun k => { k with entWin := some (match k.entWin with
    | some (m, b) => if m = 0 && !b then (n, k.hold != 0) else (Nat.min m n, b)
    | none => (n, k.hold != 0)) }

/-- An instruction issues: the window of the entry before it starts (R231). -/
def windowStarts (c : CoreId) (s : State) : State :=
  s.modCore c fun k => match k.entWin with
    | some (n, b) => { k with hold := if b then Nat.min k.hold n else n, entWin := none }
    | none => k

/-- No window holds interrupts off: none is open, and none is to start with the next instruction. -/
def windowFree (k : Core) : Bool := k.hold == 0 && (match k.entWin with | some (n, b) => n == 0 || b | none => true)

/-! ### Entry and return -/

/-- The system registers of a level: return point, stack pointer, fault value, reason, vector base (R227). -/
def srRpc (t : Level) : Nat := if t = .m then 0x111 else 0x121
/-- xGSP. -/
def srGsp (t : Level) : Nat := if t = .m then 0x112 else 0x122
/-- xFVAL. -/
def srFval (t : Level) : Nat := if t = .m then 0x113 else 0x123
/-- xRSN. -/
def srRsn (t : Level) : Nat := if t = .m then 0x110 else 0x120
/-- xVBASE. -/
def srVbase (t : Level) : Nat := if t = .m then 0x115 else 0x125

/-- xPLVL and xPSW written (STATUS). -/
def setPrev (c : CoreId) (t : Level) (plvl : Nat) (psw : Bool) (s : State) : State :=
  let w := s.sr c 0x101
  s.setSr c 0x101 (if t = .m then putBit (putFld w 13 12 plvl) 17 psw else putBit (putFld w 8 8 plvl) 16 psw)

/-- The level in xPLVL. The Safety Island never holds S (R404); for that code, as for 0b10, the level is a free choice. -/
def prevLevel (s : State) (c : CoreId) (t : Level) : Level :=
  let n := if t = .m then s.srf c 0x101 13 12 else s.srf c 0x101 8 8
  if isSI c && n == 1 then (if Config.reservedLevel n % 2 = 0 then .u else .m) else Level.ofCode n

/-- xPSW. -/
def prevSwitched (s : State) (c : CoreId) (t : Level) : Bool := wbit (s.sr c 0x101) (if t = .m then 17 else 16)

/-- FB of a level in IBANK (R319). -/
def fbBit (t : Level) : Nat := if t = .m then 2 else 1

/-- The bank switch of an INT_F entry to level `t` (R319). -/
def bankEnter (c : CoreId) (t : Level) (s : State) : State :=
  let w := s.sr c 0x143
  s.setSr c 0x143 (if wbit w 0 then putBit w (fbBit t) false else putBit (putBit w 0 true) (fbBit t) true)

/-- The bank switch of a return from level `t` (R319). -/
def bankLeave (c : CoreId) (t : Level) (s : State) : State :=
  let w := s.sr c 0x143
  if wbit w (fbBit t) then s.setSr c 0x143 (putBit (putBit w 0 false) (fbBit t) false) else s

/-- Nothing of an instruction is left in a core. -/
def Core.idle (k : Core) : Core := { k with stall := none, rsp := [], nacc := 0, fetched := false, await := none, tr := [], marked := false }

/-- What an entry leaves behind of the instruction that it interrupts: an answer that is still to come has no taker, and the loop buffer and the
fetched block are empty (R215). -/
def abandonStall (c : CoreId) (s : State) : State :=
  let s1 : State := { s with outst := s.outst.map fun o => if o.owner == .load c then { o with owner := .nobody } else o }
  walksAbandon c.val (s1.modCore c fun k => { k.idle with waiting := false, lbuf := [], lcap := none, fblk := none })

/-- The registers that an entry to level `t` writes, the level, the window and the pc (R227). -/
def commitEntry (c : CoreId) (t : Level) (code info : Nat) (fval : Option Word) (rpc : Word) (handler : Word) (hold : Nat) (s : State) : State :=
  let (fv, s0) := match fval with
    | some v => (v, s)
    | none => let (j, s1) := s.draw; (Config.noFval j, s1)
  let s1 := (((s0.setSr c (srRpc t) rpc).setSr c (srRsn t) (BitVec.ofNat 32 (info % 65536 * 65536 + code))).setSr c (srFval t) fv)
  let s2 := setPrev c t (s1.lvl c).code false s1
  let s3 := if code = cINT_F then bankEnter c t s2 else s2
  let s4 := entryWindow c hold (abandonStall c (s3.modCore c fun k => { k with lvl := t }))
  s4.setPc c handler

/-- How an entry ends: it is made (or ends in lockup), or it waits for the store buffer or the bus. -/
inductive EntryRes where
  | entered (s : State)
  | wait (s : State)

/-- A table read physically: through M0 (R226), or M1 for an address with the device attribute (R12), or M4 for the Safety Island; the gate table
likewise (DESIGN CHOICE, log 65). An uncorrectable byte of SI SRAM triggers the safe state (R406). -/
def readPhys (c : CoreId) (pa len : Nat) (s : State) : BusRes × State :=
  match access c pa len (coreRead c (if isSI c then 4 else if isDevice pa then 1 else 0) pa len) s with
  | (.done r b, s1) => (.done r b, siSramUe c pa r s1)
  | w => w

/-- The physical address of the entry for cause `code` in a vector table (R226). -/
def vecAddr (s : State) (c : CoreId) (t : Level) (code : Nat) : Nat := (s.sr c (srVbase t)).toNat * 0x10000 + 8 * code

/-- A vector entry from its two words (R226). -/
def vecOf (b : List Byte) : VecEntry := ⟨true, wordAt b 0 &&& 0xFFFFFFFC, fld (wordAt b 1) 9 0⟩

/-- The entry for cause `code` at level `t`: the captured copy for an interrupt, else read (R226, R227). -/
def vecEntry (c : CoreId) (t : Level) (code : Nat) (s : State) : Option VecEntry × State :=
  let k := s.core c
  if code = cINT_N then (some (if t = .m then k.vecMN else k.vecSN), s)
  else if code = cINT_F then (some (if t = .m then k.vecMF else k.vecSF), s)
  else match readPhys c (vecAddr s c t code) 8 s with
    | (.wait, s1) => (none, s1)
    | (.done r b, s1) => (some (if r = rOKAY then vecOf b else ⟨false, 0, 0⟩), s1)

/-- An entry to M (R227, R237, R238): the buffer drains first, a store error found there is taken instead, and an unusable vector
entry ends in lockup (R230). -/
def enterM (c : CoreId) (code info : Nat) (fval : Option Word) (ipa : Option Nat) (rpc : Word) (errRpc : Word) (s : State) : EntryRes :=
  let s0 := drain c s
  if !drained s0 c then .wait s0
  else
    let isErr := (s0.core c).stPend || code == cSTORE_ERR
    let code' := if isErr then cSTORE_ERR else code
    match vecEntry c .m code' s0 with
    | (none, s1) => .wait s1
    | (some v, s1) =>
      if !v.ok || v.handler == 0 then .entered (enterLockup c (abandonStall c s1))
      else if isErr then
        .entered (commitEntry c .m cSTORE_ERR 0 (some (s1.sr c 0x107)) errRpc v.handler v.hold (s1.modCore c fun k => { k with stPend := false }))
      else
        let s2 := match ipa with
          | some a => s1.setSr c 0x116 (BitVec.ofNat 32 (a / 256))
          | none => s1
        .entered (commitEntry c .m code info fval rpc v.handler v.hold s2)

/-- An entry to S (R227): an unusable vector entry gives VECFAULT at M. -/
def enterS (c : CoreId) (code info : Nat) (fval : Option Word) (rpc errRpc : Word) (s : State) : EntryRes :=
  match vecEntry c .s code s with
  | (none, s1) => .wait s1
  | (some v, s1) =>
    if !v.ok || v.handler == 0 then
      enterM c cVECFAULT 0 (some (BitVec.ofNat 32 (vecAddr s1 c .s code))) none rpc errRpc s1
    else .entered (commitEntry c .s code info fval rpc v.handler v.hold s1)

/-- The level at which a cause is taken (R225, R233): `s2` says a stage-2 fault. -/
def causeLevel (s : State) (c : CoreId) (code : Nat) (s2 : Bool) : Level :=
  let bit := if code = cINT_N then 30 else if code = cINT_F then 31 else code
  let delegable := code != cSTORE_ERR && code != cMCHK && code != cGATE && (decide (code ≤ 0x16) || code == cINT_N || code == cINT_F) && !s2
  if s.lvl c != .m && delegable && wbit (s.sr c 0x103) bit then .s else .m

/-- An entry for a cause at the level that R225 gives it. -/
def enter (c : CoreId) (e : Exc) (rpc errRpc : Word) (s : State) : EntryRes :=
  if causeLevel s c e.code e.s2ipa.isSome = .s then enterS c e.code e.info e.fval rpc errRpc s
  else enterM c e.code e.info e.fval e.s2ipa rpc errRpc s

/-- The pending floating-point trap taken (R148): FTPC and TCAUSE hold the earliest instruction and the enabled flags. -/
def enterFptrap (c : CoreId) (s : State) : EntryRes :=
  match (s.core c).fpTrap with
  | none => .entered s
  | some (a, fl) =>
    let s1 := (s.setSr c 0x011 a).setSrf c 0x010 20 16 fl
    let s2 := s1.modCore c fun k => { k with fpTrap := none }
    let pending := fun (t : State) => ((t.setSr c 0x011 (s.sr c 0x011)).setSr c 0x010 (s.sr c 0x010)).modCore c fun k => { k with fpTrap := some (a, fl) }
    match enter c (.plain cFPTRAP a) (s.pc c) (s.pc c) s2 with
    | .wait s3 => .wait (pending s3)
    | .entered s3 =>
      -- a trap displaced by a store error, or by an unusable vector entry, stays pending (R238)
      if s3.srf c (srRsn (s3.lvl c)) 5 0 == cFPTRAP then .entered s3 else .entered (pending s3)

/-- MRET and SRET (R229). -/
def returnFrom (c : CoreId) (t : Level) (s : State) : State :=
  let s1 := if prevSwitched s c t then s.setG c (gno 30) (s.sr c (srGsp t)) else s
  let l := prevLevel s1 c t
  let s2 := bankLeave c t (s1.modCore c fun k => { k with lvl := l })
  setPrev c t 0 false (s2.setPc c (s2.sr c (srRpc t)))

/-! ### The frame of an instruction -/

/-- Where an instruction leaves the pc: at the next instruction, at a jump's target, or where its meaning has put it; `again` is a block repeat that
goes on with its next element (R211). -/
inductive Flow where
  | next
  | jump (t : Word)
  | placed
  | again

/-- The instruction at the pc is the last of an active body. -/
def atLend (s : State) (c : CoreId) : Bool := loopOn s c && s.pc c == s.sr c 0x021

/-- A loop ends or another begins: the loop buffer is empty, and stores to the body take effect for fetch (R215). -/
def loopForget (c : CoreId) (s : State) : State := s.modCore c fun k => { k with lbuf := [], lcap := none, lold := [] }

/-- The loop ended: ACTIVE cleared. -/
def loopEnd (c : CoreId) (s : State) : State := loopForget c (s.setSr c 0x022 (putBit (s.sr c 0x022) 31 false))

/-- The end of a loop whose counter reached zero, performed: ACTIVE is cleared (R213). -/
def loopSettle (c : CoreId) (s : State) : State :=
  if (s.core c).loopDone then (loopEnd c s).modCore c fun k => { k with loopDone := false } else s

/-- A back edge: a pass that was captured whole is in the loop buffer, and with an empty buffer the next pass is captured (R215). -/
def loopCapture (c : CoreId) (s : State) : State :=
  s.modCore c fun k =>
    match k.lcap with
    | some l => { k with lbuf := l, lcap := none }
    | none => if k.lbuf.isEmpty then { k with lcap := some [] } else k

/-- The end of the instruction at LEND (R213): the counter goes down by one, and the pc goes to LSTART, or past the body with the
end of the loop to follow. -/
def loopBack (c : CoreId) (s : State) : State :=
  let gc := gno (s.srf c 0x022 4 0)
  let s1 := s.setG c gc (s.g c gc - 1)
  if s.g c gc - 1 != 0 then loopCapture c (s1.setPc c (s1.sr c 0x020))
  else (s1.setPc c (s1.sr c 0x021 + 4)).modCore c fun k => { k with loopDone := true }

/-- The pc after an instruction, under the loop rules of R213 and R214. -/
def retire (c : CoreId) (f : Flow) (s : State) : State :=
  match f with
  | .placed => s
  | .again => s
  | .next => if atLend s c then loopBack c s else s.setPc c (s.pc c + 4)
  | .jump t =>
    if loopOn s c && inBody s c (s.pc c) && !inBody s c t then (loopEnd c s).setPc c t
    else if atLend s c then loopBack c s
    else s.setPc c t

/-- What an instruction waits for before it issues, beside what every boundary takes (R236): nothing, or the store buffer (R237). -/
inductive SyncKind where
  | none
  | full
  deriving DecidableEq, Repr

/-- The core executes instructions: released, not halted, not in lockup, not in WAIT, its clock running. -/
def running (s : State) (c : CoreId) : Bool :=
  let k := s.core c
  k.released && !k.lockup && !k.waiting && decide (s.power ≤ 1) && !(isSI c && s.rb SI_STAT 31)

/-- The instruction waits: it stays where it is, and is issued again. -/
def stallOn (c : CoreId) (i : Instr) (s : State) : State := s.modCore c fun k => { k with stall := some i }

/-- The instruction is over: nothing of it is left behind. -/
def unstall (c : CoreId) (s : State) : State := s.modCore c Core.idle

/-- An entry's outcome as a state: one that waits leaves the instruction stalled. -/
def entryState (c : CoreId) (i : Instr) (r : EntryRes) : State :=
  match r with
  | .entered s => s
  | .wait s => stallOn c i s

/-- A short-vector instruction (R216, R218). -/
def isSvu (i : Instr) : Bool :=
  match i with
  | .qadd .. | .qsub .. | .qmul .. | .qmin .. | .qmax .. | .qabs .. | .qneg .. | .qabsd .. | .qfma .. | .qfms .. | .qmacs .. | .qmsubs ..
  | .qadds .. | .qsubs .. | .qmuls .. | .qrshr .. | .qand .. | .qor .. | .qxor .. | .qandn .. | .qshl .. | .qshr .. | .qsra .. | .qrol ..
  | .qcmpeq .. | .qcmpne .. | .qcmplt .. | .qcmple .. | .qcmpgt .. | .qcmpge .. | .qsel .. | .qzipl .. | .qziph .. | .quzpe .. | .quzpo ..
  | .qdup .. | .qcvt .. | .qcvtn .. | .qmulwl .. | .qmulwh .. | .qmacwl .. | .qmacwh .. | .qdot .. | .qdotsu .. | .ldq .. | .stq ..
  | .lds2 .. | .lds3 .. | .lds4 .. | .sts2 .. | .sts3 .. | .sts4 .. => true
  | _ => false

/-- The instruction in progress lets an interrupt in (R68, R104, R212, R220, R233, R242, R272): a block repeat none of whose element's accesses has been
made, VISSUE, VFENCE, VINV, GATE while it waits for a probe walk, and a short-vector instruction during the unit's wake. -/
def interruptible (s : State) (c : CoreId) : Bool :=
  match (s.core c).stall with
  | none => true
  | some i =>
    match i with
    | .fills .. | .movs .. | .scans .. | .cmps .. => (s.core c).rsp.isEmpty && !(s.outst.any fun o => o.owner == .load c && o.kind != 0)
    | .vissue .. | .vfence .. | .vinv .. => true
    | .gate .. => s.walks.any fun w => w.ag == c.val && w.wanted && w.res.isNone
    | j => isSvu j && (s.core c).svuWaking

/-- The core is alive: released, not halted and not in lockup; it may be in WAIT. -/
def alive (s : State) (c : CoreId) : Bool :=
  let k := s.core c
  k.released && !k.lockup && decide (s.power ≤ 1) && !(isSI c && s.rb SI_STAT 31)

/-- Class `k` may be taken now: its line is asserted, no window is open, and the core is at a level that R225 lets take it. -/
def intReady (s : State) (c : CoreId) (k : Nat) : Bool :=
  let deleg := wbit (s.sr c 0x103) (30 + k)
  windowFree (s.core c) && !(deleg && s.lvl c == .m && !isSI c) && intLine s c k != 0

/-- The entry for an interrupt of class `k` (R227, R319); the source it enters for is remembered for the claim (R323). -/
def enterInt (c : CoreId) (k : Nat) (s : State) : EntryRes :=
  let n := intLine s c k
  match enter c ⟨if k = 0 then cINT_N else cINT_F, 0, none, none⟩ (s.pc c) (s.pc c) s with
  | .entered s1 => .entered (if s1.srf c (srRsn (s1.lvl c)) 5 0 == cINT_N + k then s1.setEntSrc c k n else s1)
  | .wait s1 => .wait s1

/-- The first of what R236 takes before the next instruction, if any: a pending store error, a pending floating-point trap, a fast and a normal
interrupt. -/
def boundary (c : CoreId) (s : State) : Option EntryRes :=
  if (s.core c).stPend then some (enterM c cSTORE_ERR 0 none none (s.pc c) (s.pc c) s)
  else if (s.core c).fpTrap.isSome then some (enterFptrap c s)
  else if intReady s c 1 then some (enterInt c 1 s)
  else if intReady s c 0 then some (enterInt c 0 s)
  else none

/-- The exception that an instruction raised is taken (R227); a store error or a floating-point trap that is pending by now goes first (R148, R236). -/
def takeExc (c : CoreId) (i : Instr) (e : Exc) (s : State) : State :=
  entryState c i (
    if (s.core c).stPend then enterM c cSTORE_ERR 0 none none (s.pc c) (s.pc c) s
    else if (s.core c).fpTrap.isSome then enterFptrap c s
    else enter c e (s.pc c) (s.pc c) s)

/-- Whether an instruction may proceed to its own effect: `stop` is all that happens at this command. -/
inductive Pre where
  | stop (s : State)
  | go (s : State)

/-- The word at a piece from the bus (R284), or in deterministic mode from the aligned block of 32 bytes that holds it, which is fetched whole where it
is not the one at hand; SI SRAM is read by the word (R249). -/
def fetchPiece (c : CoreId) (p : Piece) (s : State) : Acc (List Byte) :=
  if s.det c && !isSiSram p.pa then
    let b := p.pa / 32 * 32
    let cut := fun (l : List Byte) => (l.drop (p.pa - b)).take p.len
    match (s.core c).fblk.filter fun f => f.1 == b with
    | some f => .ok (cut f.2) s
    | none =>
      (Acc.ofBus c .fetch p.pa p.va false (access c b 32 (coreRead c (corePort s c p.cached) b 32) s)).bind fun r t =>
        .ok (cut r.2) (t.modCore c fun k => { k with fblk := some (b, r.2) })
  else (Acc.ofBus c .fetch p.pa p.va false (access c p.pa p.len (pieceFill c p) s)).bind fun r t => .ok r.2 t

/-- The bytes of a piece of an instruction in the body of an active loop as they were before the loop's own stores (R215). -/
def loopOld (s : State) (c : CoreId) (pa : Nat) (b : List Byte) : List Byte :=
  if loopOn s c && inBody s c (s.pc c) then
    ((List.range b.length).zip b).map fun e => ((s.core c).lold.find? fun x => x.1 == pa + e.1).elim e.2 fun x => x.2
  else b

/-- The word that the loop buffer holds for the pc, in a pass after the one that captured it (R215). -/
def loopWord (s : State) (c : CoreId) : Option Word :=
  if loopOn s c && inBody s c (s.pc c) then ((s.core c).lbuf.find? fun e => e.1 == s.pc c).map fun e => e.2 else none

/-- The instruction at the pc is fetched: from the loop buffer, or translated, permitted and answered (R215, R226, R236, R259). -/
def fetchWord (c : CoreId) (s : State) : Acc Word :=
  match loopWord s c with
  | some w => .ok w s
  | none =>
    (transPieces c (s.pc c).toNat 4 .fetch ((s.pc c).toNat % 4 != 0) s).bind fun ps s1 =>
      (Acc.forAll (fun p t => (fetchPiece c p t).bind fun b t1 => .ok (loopOld t1 c p.pa b) t1) ps s1).bind fun b s2 => .ok (leWord b.flatten) s2

/-- The instruction has been fetched and issues: its accesses are counted from here, and a pass that is captured holds its word (R215). -/
def fetchDone (c : CoreId) (w : Word) (s : State) : State :=
  let body := loopOn s c && inBody s c (s.pc c)
  windowStarts c (s.modCore c fun k =>
    { k with fetched := true, rsp := [], nacc := 0, tr := [], lcap := if body then k.lcap.map fun l => l ++ [(s.pc c, w)] else k.lcap })

/-- An instruction fetched, or an exception or a wait instead; a word that is no instruction raises ILLEGAL (R198). -/
def fetched (c : CoreId) (i : Instr) (s : State) : Pre :=
  if (s.core c).fetched then .go s
  else match fetchWord c s with
    | .ok w s1 => if undefWord w then .stop (takeExc c i (excIllegal w) s1) else .go (fetchDone c w s1)
    | .exc e s1 => .stop (takeExc c i e s1)
    | .wait s1 => .stop (stallOn c i s1)

/-- The core stands at a boundary: no instruction is in progress, or one that has not been fetched yet, or one that lets an interrupt in. -/
def atBoundary (s : State) (c : CoreId) : Bool := (s.core c).stall.isNone || !(s.core c).fetched || interruptible s c

/-- The core as an attempt at an instruction begins: the buffer drains, the end of a loop is performed, and its accesses are counted anew. -/
def attempt (c : CoreId) (s : State) : State := (drain c (loopSettle c s)).modCore c fun k => { k with nacc := 0 }

/-- What comes before an instruction's own effect (R236): the core runs and waits for no other instruction, nothing is to be taken at the boundary, what
the instruction must wait for has come, and it is fetched. -/
def prelude_ (c : CoreId) (i : Instr) (sync : SyncKind) (s : State) : Pre :=
  if !running s c then .stop s
  else if (s.core c).stall.isSome && (s.core c).stall != some i then .stop s
  else
    let s0 := attempt c s
    match (if atBoundary s0 c then boundary c s0 else none) with
    | some r => .stop (entryState c i r)
    | none => if sync = .full && !drained s0 c then .stop (stallOn c i s0) else fetched c i s0

/-- A block repeat goes on: it stands at the boundary before its next element, and is not fetched again (R211, R212). -/
def repeatGoes (c : CoreId) (i : Instr) (s : State) : State := s.modCore c fun k => { k.idle with stall := some i, fetched := true }

/-- An instruction's own effect carried through: it completes, goes on, raises an exception or waits. -/
def conclude (c : CoreId) (i : Instr) (r : Acc Flow) : State :=
  match r with
  | .ok .again s => repeatGoes c i s
  | .ok f s => retire c f (unstall c s)
  | .exc e s => takeExc c i e s
  | .wait s => stallOn c i s

/-- Core `c` executes instruction `i`, whose own effect is `body`. -/
def run (c : CoreId) (i : Instr) (sync : SyncKind) (body : State → Acc Flow) (s : State) : State :=
  match prelude_ c i sync s with
  | .stop s1 => s1
  | .go s1 => conclude c i (body s1)

/-- The level is at or above another. -/
def Level.atLeast (a b : Level) : Bool := decide (b.code ≤ a.code)

/-- What a command answers. -/
abbrev Out := Host.Outcome State Fault Refusal

/-- A general register written and the next instruction follows. -/
def putG (c : CoreId) (d : GReg) (v : Word) (s : State) : Acc Flow := .ok .next (s.setG c d v)

/-- A floating-point register written and the next instruction follows. -/
def putF (c : CoreId) (d : FReg) (v : Dword) (s : State) : Acc Flow := .ok .next (s.setF c d v)

end Sys2Proof.Machine
end

