-- ==== Sys2Proof/Machine/Alu.lean ====
section
/-! DEFINITION. Integer instructions (R194, R199, R200).

Each shared operation is a function of operand values; each instruction reads its operands, writes Gd and goes on. -/
namespace Sys2Proof.Machine

/-- A register-to-register instruction: Gd gets `f` of Ga and Gb (R199). -/
def alu3 (c : CoreId) (i : Instr) (f : Word → Word → Word) (d a b : GReg) (s : State) : State :=
  run c i .none (fun t => putG c d (f (t.g c a) (t.g c b)) t) s

/-- An instruction of one operand: Gd gets `f` of Ga (R199). -/
def alu2 (c : CoreId) (i : Instr) (f : Word → Word) (d a : GReg) (s : State) : State :=
  run c i .none (fun t => putG c d (f (t.g c a)) t) s

/-- The rotation right by a count below 32 (R199). -/
def rorWord (x : Word) (n : Nat) : Word := x.rotateRight (n % 32)

/-- Leading zeros, 32 for zero (R199). -/
def clzWord (x : Word) : Word := BitVec.ofNat 32 (32 - bitLen x.toNat)

/-- The shift or rotation of an OP code: SHL, SHR, SRA, ROR (R198). -/
def shiftOp (op : Nat) (x : Word) (n : Nat) : Word :=
  match op with
  | 0 => x <<< n
  | 1 => x >>> n
  | 2 => x.sshiftRight n
  | _ => rorWord x n

/-- The signed quotient toward zero; all ones for a zero divisor (R199, R200). -/
def divWord (a b : Word) : Word := if b = 0 then 0xFFFFFFFF else wordOf (Int.tdiv a.toInt b.toInt)

/-- The unsigned quotient; all ones for a zero divisor (R199, R200). -/
def divuWord (a b : Word) : Word := if b = 0 then 0xFFFFFFFF else BitVec.ofNat 32 (a.toNat / b.toNat)

/-- The signed remainder, with the sign of Ga; Ga for a zero divisor (R199, R200). -/
def remWord (a b : Word) : Word := if b = 0 then a else wordOf (Int.tmod a.toInt b.toInt)

/-- The unsigned remainder; Ga for a zero divisor (R199, R200). -/
def remuWord (a b : Word) : Word := if b = 0 then a else BitVec.ofNat 32 (a.toNat % b.toNat)

/-- The low five bits of a count (R199). -/
def cnt5 (b : Word) : Nat := b.toNat % 32

/-- ADD (R199). -/
def execAdd (c : CoreId) (d a b : GReg) (s : State) : Out := .next (alu3 c (.add c d a b) (fun x y => x + y) d a b s)

/-- SUB (R199). -/
def execSub (c : CoreId) (d a b : GReg) (s : State) : Out := .next (alu3 c (.sub c d a b) (fun x y => x - y) d a b s)

/-- AND (R199). -/
def execAnd (c : CoreId) (d a b : GReg) (s : State) : Out := .next (alu3 c (.and c d a b) (fun x y => x &&& y) d a b s)

/-- OR (R199). -/
def execOr (c : CoreId) (d a b : GReg) (s : State) : Out := .next (alu3 c (.or c d a b) (fun x y => x ||| y) d a b s)

/-- XOR (R199). -/
def execXor (c : CoreId) (d a b : GReg) (s : State) : Out := .next (alu3 c (.xor c d a b) (fun x y => x ^^^ y) d a b s)

/-- ANDN (R199). -/
def execAndn (c : CoreId) (d a b : GReg) (s : State) : Out := .next (alu3 c (.andn c d a b) (fun x y => x &&& ~~~y) d a b s)

/-- SLT (R199). -/
def execSlt (c : CoreId) (d a b : GReg) (s : State) : Out := .next (alu3 c (.slt c d a b) (fun x y => boolWord (x.slt y)) d a b s)

/-- SLTU (R199). -/
def execSltu (c : CoreId) (d a b : GReg) (s : State) : Out := .next (alu3 c (.sltu c d a b) (fun x y => boolWord (x.ult y)) d a b s)

/-- SHL (R199). -/
def execShl (c : CoreId) (d a b : GReg) (s : State) : Out := .next (alu3 c (.shl c d a b) (fun x y => shiftOp 0 x (cnt5 y)) d a b s)

/-- SHR (R199). -/
def execShr (c : CoreId) (d a b : GReg) (s : State) : Out := .next (alu3 c (.shr c d a b) (fun x y => shiftOp 1 x (cnt5 y)) d a b s)

/-- SRA (R199). -/
def execSra (c : CoreId) (d a b : GReg) (s : State) : Out := .next (alu3 c (.sra c d a b) (fun x y => shiftOp 2 x (cnt5 y)) d a b s)

/-- ROR (R199). -/
def execRor (c : CoreId) (d a b : GReg) (s : State) : Out := .next (alu3 c (.ror c d a b) (fun x y => shiftOp 3 x (cnt5 y)) d a b s)

/-- MIN (R199). -/
def execMin (c : CoreId) (d a b : GReg) (s : State) : Out := .next (alu3 c (.min c d a b) (fun x y => if x.slt y then x else y) d a b s)

/-- MAX (R199). -/
def execMax (c : CoreId) (d a b : GReg) (s : State) : Out := .next (alu3 c (.max c d a b) (fun x y => if x.slt y then y else x) d a b s)

/-- MINU (R199). -/
def execMinu (c : CoreId) (d a b : GReg) (s : State) : Out := .next (alu3 c (.minu c d a b) (fun x y => if x.ult y then x else y) d a b s)

/-- MAXU (R199). -/
def execMaxu (c : CoreId) (d a b : GReg) (s : State) : Out := .next (alu3 c (.maxu c d a b) (fun x y => if x.ult y then y else x) d a b s)

/-- MUL (R199). -/
def execMul (c : CoreId) (d a b : GReg) (s : State) : Out := .next (alu3 c (.mul c d a b) (fun x y => x * y) d a b s)

/-- MULH (R199). -/
def execMulh (c : CoreId) (d a b : GReg) (s : State) : Out := .next (alu3 c (.mulh c d a b) (fun x y => wordOf (x.toInt * y.toInt / 2 ^ 32)) d a b s)

/-- MULHU (R199). -/
def execMulhu (c : CoreId) (d a b : GReg) (s : State) : Out := .next (alu3 c (.mulhu c d a b) (fun x y => BitVec.ofNat 32 (x.toNat * y.toNat / 2 ^ 32)) d a b s)

/-- DIV (R200). -/
def execDiv (c : CoreId) (d a b : GReg) (s : State) : Out := .next (alu3 c (.div c d a b) (fun x y => divWord x y) d a b s)

/-- DIVU (R200). -/
def execDivu (c : CoreId) (d a b : GReg) (s : State) : Out := .next (alu3 c (.divu c d a b) (fun x y => divuWord x y) d a b s)

/-- REM (R200). -/
def execRem (c : CoreId) (d a b : GReg) (s : State) : Out := .next (alu3 c (.rem c d a b) (fun x y => remWord x y) d a b s)

/-- REMU (R200). -/
def execRemu (c : CoreId) (d a b : GReg) (s : State) : Out := .next (alu3 c (.remu c d a b) (fun x y => remuWord x y) d a b s)

/-- CLZ (R199). -/
def execClz (c : CoreId) (d a : GReg) (s : State) : Out := .next (alu2 c (.clz c d a) (fun x => clzWord x) d a s)

/-- POPC (R199). -/
def execPopc (c : CoreId) (d a : GReg) (s : State) : Out := .next (alu2 c (.popc c d a) (fun x => BitVec.ofNat 32 (popCount 32 x.toNat)) d a s)

/-- SEXB (R199). -/
def execSexb (c : CoreId) (d a : GReg) (s : State) : Out := .next (alu2 c (.sexb c d a) (fun x => (x.setWidth 8).signExtend 32) d a s)

/-- SEXH (R199). -/
def execSexh (c : CoreId) (d a : GReg) (s : State) : Out := .next (alu2 c (.sexh c d a) (fun x => (x.setWidth 16).signExtend 32) d a s)

/-- ADDI (R199). -/
def execAddi (c : CoreId) (d a : GReg) (imm : BitVec 16) (s : State) : Out := .next (alu2 c (.addi c d a imm) (fun x => x + sext16 imm) d a s)

/-- ANDI (R199). -/
def execAndi (c : CoreId) (d a : GReg) (imm : BitVec 16) (s : State) : Out := .next (alu2 c (.andi c d a imm) (fun x => x &&& zext16 imm) d a s)

/-- ORI (R199). -/
def execOri (c : CoreId) (d a : GReg) (imm : BitVec 16) (s : State) : Out := .next (alu2 c (.ori c d a imm) (fun x => x ||| zext16 imm) d a s)

/-- XORI (R199). -/
def execXori (c : CoreId) (d a : GReg) (imm : BitVec 16) (s : State) : Out := .next (alu2 c (.xori c d a imm) (fun x => x ^^^ zext16 imm) d a s)

/-- SLTI (R199). -/
def execSlti (c : CoreId) (d a : GReg) (imm : BitVec 16) (s : State) : Out := .next (alu2 c (.slti c d a imm) (fun x => boolWord (x.slt (sext16 imm))) d a s)

/-- SLTIU (R199). -/
def execSltiu (c : CoreId) (d a : GReg) (imm : BitVec 16) (s : State) : Out := .next (alu2 c (.sltiu c d a imm) (fun x => boolWord (x.ult (sext16 imm))) d a s)

/-- LUI (R199). -/
def execLui (c : CoreId) (d : GReg) (imm : BitVec 16) (s : State) : Out :=
  .next (run c (.lui c d imm) .none (fun t => putG c d (zext16 imm <<< 16) t) s)

/-- SHI: a shift or rotation by an immediate count (R198). -/
def execShi (c : CoreId) (d a : GReg) (op : BitVec 2) (cnt : BitVec 5) (s : State) : Out :=
  .next (alu2 c (.shi c d a op cnt) (fun x => shiftOp op.toNat x cnt.toNat) d a s)

end Sys2Proof.Machine
end

