-- ==== Sys2Proof/Machine/BusCmds.lean ====
section
/-! DEFINITION. Transactions that a master issues at the bus matrix, their responses and timers (R7, R300 to R312). -/
namespace Sys2Proof.Machine

/-- The level that a master's transaction carries: its core's for M0 and M1. -/
def masterLvl (s : State) (m : Master) (core : AppCore) : Level := if m.val ≤ 1 then s.lvl (appCore core) else .m

/-- The oldest transaction of a master with an ID, among those `p` admits: responses of one ID return in issue order (R303). -/
def xactOf (s : State) (m id : Nat) (p : Xact → Bool) : Option Nat :=
  s.xacts.findIdx? fun x => x.m == m && x.id == id && !x.auto && !x.gone && p x

/-- Transaction `i` over. -/
def dropXact (i : Nat) (s : State) : State := { s with xacts := s.xacts.eraseIdx i }

/-- The oldest transaction of an ID brought to its response, when its target has answered or answers now; `det` says which kind is meant
(R303, R307). -/
def xactRespond (m id : Nat) (det : Bool) (s : State) : State :=
  match xactOf s m id fun _ => true with
  | none => s
  | some i =>
    let s1 := retryXact i s
    match s1.xacts[i]? with
    | some x => if x.det == det && x.answered then dropXact i s1 else s1
    | none => s1

/-- A request that has waited long enough counts as QOS 3 (R305). -/
def xactAge (m id : Nat) (s : State) : State :=
  if s.rf XBM_AGE 11 0 = 0 then s
  else match xactOf s m id (fun x => !x.granted && !x.aged) with
    | none => s
    | some i => onXact (fun x t => ({ x with aged := true }, t)) i s

/-- A register written by a master (R7, R15, R16). -/
def execRegWrite (m : Master) (core : AppCore) (pa : Nat) (v : Word) (s : State) : Out :=
  .next (postWrite m.val core.val (masterLvl s m core) pa (leBytes 4 v.toNat) s)

/-- The deterministic marker of a transaction: M1 for a core in deterministic mode (R304). -/
def marked (s : State) (m : Master) (core : AppCore) : Bool := m.val == 1 && s.det (appCore core)

/-- A read issued by a master (R300). -/
def execXbmRead (m : Master) (core : AppCore) (pa len : Nat) (id : BitVec 6) (s : State) : Out :=
  .next (clocked (fun s => issueXact (newXact s m.val core.val id.toNat 0 pa len 0 (masterLvl s m core) (marked s m core) [] [(pa, [])]) s) s)

/-- A write issued by a master, with its byte strobes (R300); `coll` names the Erg words that lose a collision (R280). -/
def execXbmWrite (m : Master) (core : AppCore) (pa : Nat) (data : List (Option Byte)) (id : BitVec 6) (coll : List Nat) (s : State) : Out :=
  .next (clocked (fun s =>
    issueXact (newXact s m.val core.val id.toNat 1 pa data.length 0 (masterLvl s m core) (marked s m core) coll (runsOf pa data)) s) s)

/-- An atomic issued by a master (R203, R300). -/
def execXbmAtomic (m : Master) (core : AppCore) (pa : Nat) (fn : BitVec 2) (v : Word) (id : BitVec 6) (coll : Bool) (s : State) : Out :=
  .next (clocked (fun s =>
    issueXact (newXact s m.val core.val id.toNat 2 pa 4 fn.toNat (masterLvl s m core) (marked s m core) (if coll then [pa / 8 * 8] else [])
      [(pa, leBytes 4 v.toNat)]) s) s)

/-- A response reaches its master (R303, R309). -/
def execXbmResponse (m : Master) (id : BitVec 6) (s : State) : Out := .next (clocked (xactRespond m.val id.toNat false) s)

/-- A waiting request ages (R305). -/
def execXbmAgeExpiry (m : Master) (id : BitVec 6) (s : State) : Out := .next (clocked (xactAge m.val id.toNat) s)

/-- A held answer to a marked request is delivered (R307). -/
def execDetResponseRelease (m : Master) (id : BitVec 6) (s : State) : Out := .next (clocked (xactRespond m.val id.toNat true) s)

end Sys2Proof.Machine
end

