-- ==== Sys2Proof/Machine/Numeric.lean ====
section
/-! DEFINITION. Number formats, exact values, and the one rounding of a result (R121 to R134, R141, R147).

An element is the natural number its bits spell.
An operation forms its exact value first and rounds once at the end. -/
namespace Sys2Proof.Machine

/-- The element types of R37, by TYPE code. -/
inductive Ty where
  | u8 | s8 | u16 | s16 | u32 | s32 | u64 | s64 | f16 | f32 | f64 | q15 | q31 | q63 | bit
  deriving DecidableEq, Repr

/-- The type of a TYPE code; 0xF is reserved (R37). -/
def tyOf : Nat → Option Ty
  | 0 => some .u8 | 1 => some .s8 | 2 => some .u16 | 3 => some .s16 | 4 => some .u32 | 5 => some .s32
  | 6 => some .u64 | 7 => some .s64 | 8 => some .f16 | 9 => some .f32 | 10 => some .f64
  | 11 => some .q15 | 12 => some .q31 | 13 => some .q63 | 14 => some .bit
  | _ => none

/-- The TYPE code of a type (R37). -/
def tyCode : Ty → Nat
  | .u8 => 0 | .s8 => 1 | .u16 => 2 | .s16 => 3 | .u32 => 4 | .s32 => 5 | .u64 => 6 | .s64 => 7
  | .f16 => 8 | .f32 => 9 | .f64 => 10 | .q15 => 11 | .q31 => 12 | .q63 => 13 | .bit => 14

/-- The width of an element in bits (R37). -/
def tyBits : Ty → Nat
  | .u8 | .s8 => 8
  | .u16 | .s16 | .f16 | .q15 => 16
  | .u32 | .s32 | .f32 | .q31 => 32
  | .u64 | .s64 | .f64 | .q63 => 64
  | .bit => 1

/-- The size of an element in bytes; a BIT element has none of its own (R37). -/
def tySize (t : Ty) : Nat := tyBits t / 8

/-- A float type. -/
def isFloat : Ty → Bool
  | .f16 | .f32 | .f64 => true
  | _ => false

/-- A Q type. -/
def isQ : Ty → Bool
  | .q15 | .q31 | .q63 => true
  | _ => false

/-- An integer type. -/
def isInt : Ty → Bool
  | .u8 | .s8 | .u16 | .s16 | .u32 | .s32 | .u64 | .s64 => true
  | _ => false

/-- A type whose bits are read as a signed number: a signed integer or a Q type (R121). -/
def isSigned : Ty → Bool
  | .s8 | .s16 | .s32 | .s64 | .q15 | .q31 | .q63 => true
  | _ => false

/-- A numeric type: every type but BIT. -/
def isNumeric (t : Ty) : Bool := t != .bit

/-- Precision p of a float type (R122). -/
def fltP : Ty → Nat
  | .f16 => 11 | .f32 => 24 | _ => 53

/-- emax of a float type; emin is 1 − emax (R122). -/
def fltEmax : Ty → Nat
  | .f16 => 15 | .f32 => 127 | _ => 1023

/-- The rounding directions (R126). -/
inductive Rm where
  | rne | rtz | rup | rdn
  deriving DecidableEq, Repr

/-- The direction of a dynamic code DRM (R126). -/
def rmOfDrm : Nat → Rm
  | 0 => .rne | 1 => .rtz | 2 => .rup | _ => .rdn

/-- The direction of an RM field under a dynamic code; none for a reserved RM (R70, R127). -/
def rmOf (rm drm : Nat) : Option Rm :=
  match rm with
  | 0 => some (rmOfDrm drm) | 1 => some .rne | 2 => some .rtz | 3 => some .rup | 4 => some .rdn | _ => none

/-- The value of an element: a NaN, an infinity, or the exact number (−1)^neg × m × 2^e. -/
inductive Fv where
  | nan (signalling : Bool)
  | inf (neg : Bool)
  | fin (neg : Bool) (m : Nat) (e : Int)
  deriving DecidableEq, Repr

/-- The value is a NaN. -/
def Fv.isNan : Fv → Bool
  | .nan _ => true
  | _ => false

/-- The sign. -/
def Fv.neg : Fv → Bool
  | .nan _ => false
  | .inf n => n
  | .fin n _ _ => n

/-- The value is a zero. -/
def Fv.isZero : Fv → Bool
  | .fin _ m _ => m == 0
  | _ => false

/-- The value with its sign flipped when `b`. -/
def Fv.flip (b : Bool) : Fv → Fv
  | .nan q => .nan q
  | .inf n => .inf (n != b)
  | .fin n m e => .fin (n != b) m e

/-- The magnitude. -/
def Fv.abs : Fv → Fv
  | .nan q => .nan q
  | .inf _ => .inf false
  | .fin _ m e => .fin false m e

/-- The exact number of an integer times a power of two. -/
def fvInt (x e : Int) : Fv := .fin (decide (x < 0)) x.natAbs e

/-- The signed numerator of a finite value over `2^e0`, for `e0` not above its exponent. -/
def fvNum (v : Fv) (e0 : Int) : Int :=
  match v with
  | .fin n m e => let k : Int := ((m <<< (e - e0).toNat : Nat) : Int); if n then -k else k
  | _ => 0

/-- The exponent of a finite value. -/
def fvExp : Fv → Int
  | .fin _ _ e => e
  | _ => 0

/-- The integer that an integer or Q element holds (R121). -/
def rawInt (t : Ty) (x : Nat) : Int :=
  if isSigned t then sgn (tyBits t) x else ((x % 2 ^ tyBits t : Nat) : Int)

/-- The value of a float element (R122). -/
def decFloat (t : Ty) (x : Nat) : Fv :=
  let p := fltP t
  let w := tyBits t
  let neg := x.testBit (w - 1)
  let frac := x % 2 ^ (p - 1)
  let ex := (x >>> (p - 1)) % 2 ^ (w - p)
  let emin : Int := 1 - (fltEmax t : Int)
  if ex = 2 ^ (w - p) - 1 then
    if frac = 0 then .inf neg else .nan (!(x.testBit (p - 2)))
  else if ex = 0 then .fin neg frac (emin - (p - 1 : Nat))
  else .fin neg (frac + 2 ^ (p - 1)) (emin - (p - 1 : Nat) + (ex - 1 : Nat))

/-- The exact value of an element (R121, R122); a BIT element is 0 or 1. -/
def decTy (t : Ty) (x : Nat) : Fv :=
  if isFloat t then decFloat t x
  else if isQ t then fvInt (rawInt t x) (-((tyBits t - 1 : Nat) : Int))
  else fvInt (rawInt t x) 0

/-- The encoding of an infinity. -/
def encInf (t : Ty) (neg : Bool) : Nat :=
  b2n neg * 2 ^ (tyBits t - 1) + (2 ^ (tyBits t - fltP t) - 1) * 2 ^ (fltP t - 1)

/-- The encoding of the largest finite magnitude. -/
def encMax (t : Ty) (neg : Bool) : Nat := encInf t neg - 1

/-- The encoding of a zero. -/
def encZero (t : Ty) (neg : Bool) : Nat := b2n neg * 2 ^ (tyBits t - 1)

/-- The default NaN (R124). -/
def defNan (t : Ty) : Nat := encInf t false + 2 ^ (fltP t - 2)

/-- A NaN encoding quieted: its most significant fraction bit set (R125). -/
def quiet (t : Ty) (x : Nat) : Nat := x ||| 2 ^ (fltP t - 2)

/-- The sign bit of an element replaced (R125). -/
def withSign (t : Ty) (x : Nat) (neg : Bool) : Nat := x % 2 ^ (tyBits t - 1) + b2n neg * 2 ^ (tyBits t - 1)

/-- `m` rounded at bit `sh` in direction `rm`, `sticky` standing for ones below bit 0: the kept bits and whether
the result is inexact (R126, `round_at` of R141). -/
def roundAt (m : Nat) (sh : Int) (rm : Rm) (neg sticky : Bool) : Nat × Bool :=
  if sh ≤ 0 then (m <<< (-sh).toNat, sticky)
  else
    let k := sh.toNat
    let q := m >>> k
    let r := m.testBit (k - 1)
    let s := (m % 2 ^ (k - 1) != 0) || sticky
    let inc := match rm with
      | .rne => r && (s || q % 2 == 1)
      | .rup => (r || s) && !neg
      | .rdn => (r || s) && neg
      | .rtz => false
    (q + b2n inc, r || s)

/-- The overflowed result of R130. -/
def overflowRes (t : Ty) (rm : Rm) (neg : Bool) : Nat :=
  match rm with
  | .rne => encInf t neg
  | .rtz => encMax t neg
  | .rup => if neg then encMax t true else encInf t false
  | .rdn => if neg then encInf t true else encMax t false

/-- The nonzero exact magnitude `m × 2^e`, with ones below when `sticky`, rounded once to a float type, with the
flags of R129 (`ea_read_float` of R141). -/
def roundFloat (t : Ty) (rm : Rm) (neg : Bool) (m : Nat) (e : Int) (sticky : Bool) : Res :=
  let p := fltP t
  let emax : Int := fltEmax t
  let emin : Int := 1 - emax
  let p1 : Int := ((p - 1 : Nat) : Int)
  let top : Int := e + (bitLen m : Int) - 1
  let lsb0 : Int := if top < emin then emin - p1 else top - p1
  let r := roundAt m (lsb0 - e) rm neg sticky
  let q := if r.1 = 2 ^ p then 2 ^ (p - 1) else r.1
  let lsb := if r.1 = 2 ^ p then lsb0 + 1 else lsb0
  let tiny := decide (top < emin) &&
    !(decide (top = emin - 1) && (roundAt m (top - p1 - e) rm neg sticky).1 == 2 ^ p)
  if emax < lsb + p1 then (overflowRes t rm neg, fOF ||| fNX)
  else
    let ex : Nat := if q < 2 ^ (p - 1) then 0 else (lsb + p1 - emin + 1).toNat
    let enc := b2n neg * 2 ^ (tyBits t - 1) + ex * 2 ^ (p - 1) + q % 2 ^ (p - 1)
    (enc, flagIf r.2 fNX ||| flagIf (r.2 && tiny) fUF)

/-- The lowest integer numerator of an integer or Q type (R121). -/
def tyMin (t : Ty) : Int := if isSigned t then -((2 ^ (tyBits t - 1) : Nat) : Int) else 0

/-- The highest integer numerator of an integer or Q type (R121). -/
def tyMax (t : Ty) : Int :=
  if isSigned t then ((2 ^ (tyBits t - 1) : Nat) : Int) - 1 else ((2 ^ tyBits t : Nat) : Int) - 1

/-- An integer numerator held to the range of the type, SAT when it takes a limit (R73, R128). -/
def satInt (t : Ty) (x : Int) : Res :=
  if x < tyMin t then (wrapTo (tyBits t) (tyMin t), fSAT)
  else if tyMax t < x then (wrapTo (tyBits t) (tyMax t), fSAT)
  else (wrapTo (tyBits t) x, 0)

/-- The exponent of the step of an integer or Q type (R121). -/
def tyStep (t : Ty) : Int := if isQ t then -((tyBits t - 1 : Nat) : Int) else 0

/-- A finite magnitude rounded to an integer multiple of the type's step: the signed multiple, and inexactness (R128). -/
def roundStep (t : Ty) (rm : Rm) (neg : Bool) (m : Nat) (e : Int) : Int × Bool :=
  let r := roundAt m (tyStep t - e) rm neg false
  (if neg then -(r.1 : Int) else r.1, r.2)

/-- A rounded numerator delivered to a Q type: held to its range with SAT, and NX when rounding changed it, `inex`, whether or not it also
saturates (R76, R78, R128, R129, log 21). -/
def satQ (t : Ty) (x : Int) (inex : Bool) : Res := Res.raise (satInt t x) (flagIf inex fNX)

/-- An exact value delivered to a type: one rounding for a float, rounding and saturation for a Q type, and for an
integer type the wrapped value, or the nearest limit with SAT when `sat` (R73, R77, R128). -/
def deliver (t : Ty) (rm : Rm) (sat : Bool) (v : Fv) : Res :=
  if isFloat t then
    match v with
    | .nan _ => (defNan t, 0)
    | .inf n => (encInf t n, 0)
    | .fin n m e => if m = 0 then (encZero t n, 0) else roundFloat t rm n m e false
  else
    match v with
    | .nan _ => (0, 0)
    | .inf n => ((satInt t (if n then tyMin t else tyMax t)).1, fSAT)
    | .fin n m e =>
      let r := roundStep t rm n m e
      if isQ t then satQ t r.1 r.2
      else if sat then satInt t r.1
      else (wrapTo (tyBits t) r.1, 0)

/-- The sum of two values that are not NaN, with the sign of an exact zero under R130; none when invalid (∞ − ∞). -/
def addFv (rm : Rm) : Fv → Fv → Option Fv
  | .inf a, .inf b => if a = b then some (.inf a) else none
  | .inf a, _ => some (.inf a)
  | _, .inf b => some (.inf b)
  | .fin na ma ea, .fin nb mb eb =>
    let e := if ea ≤ eb then ea else eb
    let x := fvNum (.fin na ma ea) e + fvNum (.fin nb mb eb) e
    if x = 0 then some (.fin (if na = nb then na else rm == .rdn) 0 e) else some (fvInt x e)
  | _, _ => some (.nan false)

/-- The product of two values that are not NaN; none when invalid (0 × ∞). -/
def mulFv : Fv → Fv → Option Fv
  | .inf a, .inf b => some (.inf (a != b))
  | .inf a, .fin n m _ => if m = 0 then none else some (.inf (a != n))
  | .fin n m _, .inf b => if m = 0 then none else some (.inf (n != b))
  | .fin na ma ea, .fin nb mb eb => some (.fin (na != nb) (ma * mb) (ea + eb))
  | _, _ => some (.nan false)

/-- The first NaN among operands of one type, quieted, with NV when one of them is signalling (R125). -/
def nanRes (t : Ty) (ops : List Nat) : Option Res :=
  if isFloat t then
    match ops.find? (fun x => (decFloat t x).isNan) with
    | some x => some (quiet t x, flagIf (ops.any fun y => decFloat t y == .nan true) fNV)
    | none => none
  else none

/-- An operation raised NV from operands that are not NaN: the default NaN (R124). -/
def invalidRes (t : Ty) : Res := (defNan t, fNV)

/-- A result from an exact value, or the invalid result. -/
def deliverOpt (t : Ty) (rm : Rm) (sat : Bool) : Option Fv → Res
  | none => invalidRes t
  | some v => deliver t rm sat v

/-- A + B, or A − B when `sub` (R73, R77). -/
def numAdd (t : Ty) (rm : Rm) (sat sub : Bool) (a b : Nat) : Res :=
  match nanRes t [a, b] with
  | some r => r
  | none => deliverOpt t rm sat (addFv rm (decTy t a) ((decTy t b).flip sub))

/-- A × B (R73, R76, R77). -/
def numMul (t : Ty) (rm : Rm) (sat : Bool) (a b : Nat) : Res :=
  match nanRes t [a, b] with
  | some r => r
  | none => deliverOpt t rm sat (mulFv (decTy t a) (decTy t b))

/-- ±(A × B) ± C with one rounding, A and B of type `s`, C and the result of type `t` (R77, R134). -/
def numFma (s t : Ty) (rm : Rm) (sat np nc : Bool) (a b c : Nat) : Res :=
  let prod := mulFv (decTy s a) (decTy s b)
  let na := (decTy s a).isNan || (decTy s b).isNan
  let nv := flagIf (decTy s a == .nan true || decTy s b == .nan true || decTy t c == .nan true) fNV
  if na then
    match nanRes s [a, b] with
    | some r =>
      let w := tyBits s
      let q := r.1
      let wide := if s = t then q else
        b2n (q.testBit (w - 1)) * 2 ^ (tyBits t - 1) + (2 ^ (tyBits t - fltP t) - 1) * 2 ^ (fltP t - 1)
          + (q % 2 ^ (fltP s - 1)) * 2 ^ (fltP t - fltP s)
      (wide, nv)
    | none => invalidRes t
  else if (decTy t c).isNan then (quiet t c, nv ||| flagIf (prod == none) fNV)
  else match prod with
    | none => invalidRes t
    | some p => deliverOpt t rm sat (addFv rm (p.flip np) ((decTy t c).flip nc))

/-- A value less than another; neither is NaN. -/
def ltFv : Fv → Fv → Bool
  | .inf a, .inf b => a && !b
  | .inf a, _ => a
  | _, .inf b => !b
  | x, y =>
    let e := if fvExp x ≤ fvExp y then fvExp x else fvExp y
    decide (fvNum x e < fvNum y e)

/-- Two values equal; neither is NaN, and −0 equals +0. -/
def eqFv (x y : Fv) : Bool := !ltFv x y && !ltFv y x

/-- Less, with −0 below +0, as the minimum and maximum of IEEE 754-2019 order zeros. -/
def ltMin (x y : Fv) : Bool := ltFv x y || (eqFv x y && x.neg && !y.neg)

/-- Minimum, or maximum when `mx`; `number` selects minimumNumber and maximumNumber (R77, R78). -/
def numMinMax (t : Ty) (mx number : Bool) (a b : Nat) : Res :=
  let x := decTy t a
  let y := decTy t b
  let nv := flagIf (x == .nan true || y == .nan true) fNV
  if number && x.isNan && !y.isNan then (b, nv)
  else if number && y.isNan && !x.isNan then (a, nv)
  else match nanRes t [a, b] with
    | some r => r
    | none => if (if mx then ltMin x y else ltMin y x) then (b, 0) else (a, 0)

/-- |A|: a sign operation on floats, else wrapping or saturating (R77, R125). -/
def numAbs (t : Ty) (rm : Rm) (sat : Bool) (a : Nat) : Res :=
  if isFloat t then (withSign t a false, 0) else deliver t rm sat (decTy t a).abs

/-- −A: a sign operation on floats, else wrapping or saturating (R77, R125). -/
def numNeg (t : Ty) (rm : Rm) (sat : Bool) (a : Nat) : Res :=
  if isFloat t then (withSign t a (!(a.testBit (tyBits t - 1))), 0) else deliver t rm sat ((decTy t a).flip true)

/-- |A − B| with one rounding (R77). -/
def numAbsD (t : Ty) (rm : Rm) (a b : Nat) : Res :=
  match nanRes t [a, b] with
  | some r => r
  | none => deliverOpt t rm false ((addFv rm (decTy t a) ((decTy t b).flip true)).map Fv.abs)

/-- The integer square root, by digits: `r` is the root so far and `k` the digits left. -/
def isqrtLoop : Nat → Nat → Nat → Nat
  | 0, _, r => r
  | k + 1, n, r =>
    let c := r + 2 ^ k
    isqrtLoop k n (if c * c ≤ n then c else r)

/-- ⌊√n⌋. -/
def isqrt (n : Nat) : Nat := isqrtLoop (bitLen n / 2 + 1) n 0

/-- √(m × 2^e) rounded once to a float type, for a nonzero m (R147). -/
def sqrtMag (t : Ty) (rm : Rm) (m : Nat) (e : Int) : Res :=
  let k0 := 2 * (fltP t + 3)
  let k := if (e - (k0 : Int)) % 2 = 0 then k0 else k0 + 1
  let n := m <<< k
  let q := isqrt n
  roundFloat t rm false q ((e - (k : Int)) / 2) (q * q != n)

/-- √A (R147). -/
def numSqrt (t : Ty) (rm : Rm) (a : Nat) : Res :=
  match nanRes t [a] with
  | some r => r
  | none =>
    match decTy t a with
    | .fin n m e => if m = 0 then (a, 0) else if n then invalidRes t else sqrtMag t rm m e
    | .inf n => if n then invalidRes t else (a, 0)
    | .nan _ => invalidRes t

/-- 1 / √A, one rounding (R147). -/
def numRsqrt (t : Ty) (rm : Rm) (a : Nat) : Res :=
  match nanRes t [a] with
  | some r => r
  | none =>
    match decTy t a with
    | .fin n m e =>
      if m = 0 then (encInf t n, fDZ)
      else if n then invalidRes t
      else
        let m' := if e % 2 = 0 then m else 2 * m
        let e' := if e % 2 = 0 then e else e - 1
        let k := fltP t + 3 + bitLen m'
        let q := isqrt (2 ^ (2 * k) / m')
        roundFloat t rm false q (-(k : Int) - e' / 2) (q * q * m' != 2 ^ (2 * k))
    | .inf n => if n then invalidRes t else (encZero t false, 0)
    | .nan _ => invalidRes t

/-- A / B of floats, correctly rounded (R129, R147). -/
def fltDiv (t : Ty) (rm : Rm) (a b : Nat) : Res :=
  match nanRes t [a, b] with
  | some r => r
  | none =>
    match decTy t a, decTy t b with
    | .inf x, .fin n _ _ => (encInf t (x != n), 0)
    | .fin n _ _, .inf y => (encZero t (n != y), 0)
    | .fin na ma ea, .fin nb mb eb =>
      let n := na != nb
      if mb = 0 then (if ma = 0 then invalidRes t else (encInf t n, fDZ))
      else if ma = 0 then (encZero t n, 0)
      else
        let k := fltP t + 3 + bitLen mb
        let num := ma <<< k
        roundFloat t rm n (num / mb) (ea - eb - (k : Int)) (num % mb != 0)
    | _, _ => invalidRes t

/-- The quotient truncated toward zero, all ones with DZ by zero (R76). -/
def intDiv (t : Ty) (a b : Nat) : Res :=
  if rawInt t b = 0 then (2 ^ tyBits t - 1, fDZ)
  else (wrapTo (tyBits t) (Int.tdiv (rawInt t a) (rawInt t b)), 0)

/-- The remainder of the truncated quotient, A with DZ by zero (R76). -/
def intMod (t : Ty) (a b : Nat) : Res :=
  if rawInt t b = 0 then (a, fDZ)
  else (wrapTo (tyBits t) (Int.tmod (rawInt t a) (rawInt t b)), 0)

/-- 1 / A (R147). -/
def numRec (t : Ty) (rm : Rm) (a : Nat) : Res :=
  let one := (2 ^ (tyBits t - fltP t - 1) - 1) * 2 ^ (fltP t - 1)
  match nanRes t [a] with
  | some r => r
  | none => fltDiv t rm one a

/-- A comparison of R78: its code is 0 EQ, 1 NE, 2 LT, 3 LE, 4 GT, 5 GE, 6 UN, 7 OR.
The ordered comparisons LT to GE raise NV on any NaN and the others on a signalling NaN. -/
def numCmp (t : Ty) (code : Nat) (a b : Nat) : Bool × FFlags :=
  let x := decTy t a
  let y := decTy t b
  let un := x.isNan || y.isNan
  let sig := x == .nan true || y == .nan true
  let nv := flagIf (if 2 ≤ code ∧ code ≤ 5 then un else sig) fNV
  let r := match code with
    | 0 => !un && eqFv x y
    | 1 => un || !eqFv x y
    | 2 => !un && ltFv x y
    | 3 => !un && !ltFv y x
    | 4 => !un && ltFv y x
    | 5 => !un && !ltFv x y
    | 6 => un
    | _ => !un
  (r, nv)

/-- The class bits of a float (VCLASS, R77). -/
def fltClass (t : Ty) (a : Nat) : Nat :=
  let sub := (a >>> (fltP t - 1)) % 2 ^ (tyBits t - fltP t) == 0
  match decFloat t a with
  | .nan s => if s then 256 else 512
  | .inf n => if n then 1 else 128
  | .fin n m _ =>
    if m = 0 then (if n then 8 else 16)
    else if sub then (if n then 4 else 32) else (if n then 2 else 64)

/-- A NaN carried into another float type: the sign and the upper fraction bits kept, quieted (R125). -/
def cvtNan (s t : Ty) (a : Nat) : Nat :=
  let q := quiet s a
  let frac := q % 2 ^ (fltP s - 1)
  let f := if fltP s ≤ fltP t then frac * 2 ^ (fltP t - fltP s) else frac / 2 ^ (fltP s - fltP t)
  encInf t (a.testBit (tyBits s - 1)) + f

/-- A × 2^s of type `s` converted to type `t` by R133, with one rounding. -/
def cvtScaled (s t : Ty) (rm : Rm) (k : Int) (a : Nat) : Res :=
  let scale : Fv → Fv
    | .fin n m e => .fin n m (e + k)
    | v => v
  let v := scale (decTy s a)
  if isFloat t then
    match v with
    | .nan sg => (cvtNan s t a, flagIf sg fNV)
    | _ => deliver t rm false v
  else if isFloat s then
    match v with
    | .nan _ => (0, fNV)
    | .inf n => (wrapTo (tyBits t) (if n then tyMin t else tyMax t), if isQ t then fSAT else fNV)
    | .fin n m e =>
      let r := roundStep t rm n m e
      if isQ t then satQ t r.1 r.2
      else if r.1 < tyMin t || tyMax t < r.1 then ((satInt t r.1).1, fNV)
      else (wrapTo (tyBits t) r.1, flagIf r.2 fNX)
  else
    match v with
    | .fin n m e =>
      let r := roundStep t rm n m e
      if isQ t then satQ t r.1 r.2
      else (wrapTo (tyBits t) r.1, flagIf r.2 fNX)
    | _ => (0, 0)

/-- A in the type `t` (R133). -/
def cvt (s t : Ty) (rm : Rm) (a : Nat) : Res := cvtScaled s t rm 0 a

/-- A rounded to an integral value (R133). -/
def numRint (t : Ty) (rm : Rm) (a : Nat) : Res :=
  match nanRes t [a] with
  | some r => r
  | none =>
    match decFloat t a with
    | .fin n m e =>
      if m = 0 || decide (0 ≤ e) then (a, 0)
      else
        let r := roundAt m (-e) rm n false
        ((deliver t rm false (.fin n r.1 0)).1, flagIf r.2 fNX)
    | _ => (a, 0)

/-- A × 2^B with one rounding (VSCALE, R77). -/
def numScale (t : Ty) (rm : Rm) (a : Nat) (k : Int) : Res :=
  match nanRes t [a] with
  | some r => r
  | none =>
    match decFloat t a with
    | .fin n m e => deliver t rm false (.fin n m (e + k))
    | _ => (a, 0)

/-- The unbiased exponent of A as an S32 (VLOGB, R77). -/
def numLogb (t : Ty) (a : Nat) : Res :=
  match decFloat t a with
  | .nan _ => (0x80000000, fNV)
  | .inf _ => (0x7FFFFFFF, fNV)
  | .fin _ m e => if m = 0 then (0x80000000, fNV) else (wrapTo 32 (e + (bitLen m : Int) - 1), 0)

/-- √(Re² + Im²) of a complex element, one rounding (VCMAG, R147).
IEEE 754 hypot: an infinite part gives +∞ even beside a quiet NaN only where the manual says so; it does not, so R125 holds. -/
def numCmag (t : Ty) (rm : Rm) (re im : Nat) : Res :=
  match nanRes t [re, im] with
  | some r => r
  | none =>
    match mulFv (decTy t re) (decTy t re), mulFv (decTy t im) (decTy t im) with
    | some x, some y =>
      match addFv rm x y with
      | some (.fin _ m e) => if m = 0 then (encZero t false, 0) else sqrtMag t rm m e
      | _ => (encInf t false, 0)
    | _, _ => invalidRes t

end Sys2Proof.Machine
end

