-- ==== Sys2Proof/Machine/Fpu.lean ====
section
/-! DEFINITION. Scalar floating point (R127, R129, R132, R148, R195, R204). -/
namespace Sys2Proof.Machine

/-- Flags raised by an instruction: they accumulate in FCSR.FLAGS, and an enabled one makes a trap pending (R132, R148). -/
def fpRaise (c : CoreId) (f : FFlags) (s : State) : State :=
  let w := s.sr c 0x010
  let s1 := s.setSr c 0x010 (fcsrRaise w f)
  let tr := fcsrTrapping w f
  if tr = 0 then s1
  else s1.modCore c fun k => { k with fpTrap := match k.fpTrap with
    | none => some (s.pc c, tr)
    | some (a, x) => some (a, x ||| tr) }

/-- The rounding direction of an RM field under FCSR.DRM (R127). -/
def fpRm (s : State) (c : CoreId) (rm : BitVec 3) : Option Rm := rmOf rm.toNat (s.srf c 0x010 26 25)

/-- The type of a width P (R197). -/
def fpTy (p : Bool) : Ty := if p then .f64 else .f32

/-- A floating-point operand: binary32 ignores bits [63:32] (R195). -/
def fpArg (s : State) (c : CoreId) (t : Ty) (r : FReg) : Nat := (s.f c r).toNat % 2 ^ tyBits t

/-- The frame of a floating-point instruction: a reserved RM is ILLEGAL (R198). -/
def fpRun (c : CoreId) (i : Instr) (w : Word) (rm : BitVec 3) (body : Rm → State → State) (s : State) : State :=
  run c i .none (fun t =>
    match fpRm t c rm with
    | none => .exc (excIllegal w) t
    | some r => .ok .next (body r t)) s

/-- A result put into Fd, with its flags (R195). -/
def fpPut (c : CoreId) (d : FReg) (r : Res) (s : State) : State := (fpRaise c r.2 s).setF c d (BitVec.ofNat 64 r.1)

/-- A result put into Gd, with its flags. -/
def fpPutG (c : CoreId) (d : GReg) (r : Res) (s : State) : State := (fpRaise c r.2 s).setG c d (BitVec.ofNat 32 r.1)

/-- An operation of two operands of width P into Fd. -/
def fp2 (c : CoreId) (i : Instr) (fn : Nat) (op : Ty → Rm → Nat → Nat → Res) (d a b : FReg) (rm : BitVec 3) (p : Bool) (s : State) : State :=
  fpRun c i (encF d.val a.val b.val rm.toNat fn p) rm
    (fun r t => fpPut c d (op (fpTy p) r (fpArg t c (fpTy p) a) (fpArg t c (fpTy p) b)) t) s

/-- An operation of one operand of width P into Fd. -/
def fp1 (c : CoreId) (i : Instr) (fn : Nat) (op : Ty → Rm → Nat → Res) (d a : FReg) (rm : BitVec 3) (p : Bool) (s : State) : State :=
  fpRun c i (encF d.val a.val 0 rm.toNat fn p) rm (fun r t => fpPut c d (op (fpTy p) r (fpArg t c (fpTy p) a)) t) s

/-- An operation of one operand of width P into Gd. -/
def fpG1 (c : CoreId) (i : Instr) (fn : Nat) (op : Ty → Rm → Nat → Res) (d : GReg) (a : FReg) (rm : BitVec 3) (p : Bool) (s : State) : State :=
  fpRun c i (encF d.val a.val 0 rm.toNat fn p) rm (fun r t => fpPutG c d (op (fpTy p) r (fpArg t c (fpTy p) a)) t) s

/-- A conversion of Ga, of type `src`, to width P in Fd. -/
def fpFromG (c : CoreId) (i : Instr) (fn : Nat) (src : Ty) (d : FReg) (a : GReg) (rm : BitVec 3) (p : Bool) (s : State) : State :=
  fpRun c i (encF d.val a.val 0 rm.toNat fn p) rm (fun r t => fpPut c d (cvt src (fpTy p) r (t.g c a).toNat) t) s

/-- A compare into Gd (R78, R204). -/
def fpCmp (c : CoreId) (i : Instr) (fn code : Nat) (d : GReg) (a b : FReg) (rm : BitVec 3) (p : Bool) (s : State) : State :=
  fpRun c i (encF d.val a.val b.val rm.toNat fn p) rm
    (fun _ t =>
      let r := numCmp (fpTy p) code (fpArg t c (fpTy p) a) (fpArg t c (fpTy p) b)
      fpPutG c d (b2n r.1, r.2) t) s

/-- A fused multiply-add: the product's and the addend's sign, and one rounding (R134, R204). -/
def fpFma (c : CoreId) (i : Instr) (op : Nat) (np nc : Bool) (d a b e : FReg) (rm : BitVec 3) (p : Bool) (s : State) : State :=
  fpRun c i (encFma d.val a.val b.val e.val rm.toNat op p) rm
    (fun r t =>
      let ty := fpTy p
      fpPut c d (numFma ty ty r false np nc (fpArg t c ty a) (fpArg t c ty b) (fpArg t c ty e)) t) s

/-- FADD (R204). -/
def execFadd (c : CoreId) (d a b : FReg) (rm : BitVec 3) (p : Bool) (s : State) : Out :=
  .next (fp2 c (.fadd c d a b rm p) 0 (fun t r x y => numAdd t r false false x y) d a b rm p s)

/-- FSUB (R204). -/
def execFsub (c : CoreId) (d a b : FReg) (rm : BitVec 3) (p : Bool) (s : State) : Out :=
  .next (fp2 c (.fsub c d a b rm p) 1 (fun t r x y => numAdd t r false true x y) d a b rm p s)

/-- FMUL (R204). -/
def execFmul (c : CoreId) (d a b : FReg) (rm : BitVec 3) (p : Bool) (s : State) : Out :=
  .next (fp2 c (.fmul c d a b rm p) 2 (fun t r x y => numMul t r false x y) d a b rm p s)

/-- FDIV (R204). -/
def execFdiv (c : CoreId) (d a b : FReg) (rm : BitVec 3) (p : Bool) (s : State) : Out :=
  .next (fp2 c (.fdiv c d a b rm p) 3 (fun t r x y => fltDiv t r x y) d a b rm p s)

/-- FMIN (R204). -/
def execFmin (c : CoreId) (d a b : FReg) (rm : BitVec 3) (p : Bool) (s : State) : Out :=
  .next (fp2 c (.fmin c d a b rm p) 5 (fun t _ x y => numMinMax t false false x y) d a b rm p s)

/-- FMAX (R204). -/
def execFmax (c : CoreId) (d a b : FReg) (rm : BitVec 3) (p : Bool) (s : State) : Out :=
  .next (fp2 c (.fmax c d a b rm p) 6 (fun t _ x y => numMinMax t true false x y) d a b rm p s)

/-- FSQRT (R133, R204). -/
def execFsqrt (c : CoreId) (d a : FReg) (rm : BitVec 3) (p : Bool) (s : State) : Out :=
  .next (fp1 c (.fsqrt c d a rm p) 4 (fun t r x => numSqrt t r x) d a rm p s)

/-- FCVT: from the width P to the other width (R133, R204). -/
def execFcvt (c : CoreId) (d a : FReg) (rm : BitVec 3) (p : Bool) (s : State) : Out :=
  .next (fp1 c (.fcvt c d a rm p) 7 (fun t r x => cvt t (if t = .f64 then .f32 else .f64) r x) d a rm p s)

/-- FCVTS (R133, R204). -/
def execFcvts (c : CoreId) (d : GReg) (a : FReg) (rm : BitVec 3) (p : Bool) (s : State) : Out :=
  .next (fpG1 c (.fcvts c d a rm p) 8 (fun t r x => cvt t .s32 r x) d a rm p s)

/-- FCVTU (R133, R204). -/
def execFcvtu (c : CoreId) (d : GReg) (a : FReg) (rm : BitVec 3) (p : Bool) (s : State) : Out :=
  .next (fpG1 c (.fcvtu c d a rm p) 9 (fun t r x => cvt t .u32 r x) d a rm p s)

/-- FCLASS (R133, R204). -/
def execFclass (c : CoreId) (d : GReg) (a : FReg) (rm : BitVec 3) (p : Bool) (s : State) : Out :=
  .next (fpG1 c (.fclass c d a rm p) 15 (fun t _ x => (fltClass t x, 0)) d a rm p s)

/-- FMVFG: the low word, no flag (R133, R204). -/
def execFmvfg (c : CoreId) (d : GReg) (a : FReg) (rm : BitVec 3) (p : Bool) (s : State) : Out :=
  .next (fpG1 c (.fmvfg c d a rm p) 17 (fun _ _ x => (x % 2 ^ 32, 0)) d a rm p s)

/-- FCVTFS (R133, R204). -/
def execFcvtfs (c : CoreId) (d : FReg) (a : GReg) (rm : BitVec 3) (p : Bool) (s : State) : Out :=
  .next (fpFromG c (.fcvtfs c d a rm p) 10 .s32 d a rm p s)

/-- FCVTFU (R133, R204). -/
def execFcvtfu (c : CoreId) (d : FReg) (a : GReg) (rm : BitVec 3) (p : Bool) (s : State) : Out :=
  .next (fpFromG c (.fcvtfu c d a rm p) 11 .u32 d a rm p s)

/-- FCMPEQ (R78, R204). -/
def execFcmpeq (c : CoreId) (d : GReg) (a b : FReg) (rm : BitVec 3) (p : Bool) (s : State) : Out :=
  .next (fpCmp c (.fcmpeq c d a b rm p) 12 0 d a b rm p s)

/-- FCMPLT (R78, R204). -/
def execFcmplt (c : CoreId) (d : GReg) (a b : FReg) (rm : BitVec 3) (p : Bool) (s : State) : Out :=
  .next (fpCmp c (.fcmplt c d a b rm p) 13 2 d a b rm p s)

/-- FCMPLE (R78, R204). -/
def execFcmple (c : CoreId) (d : GReg) (a b : FReg) (rm : BitVec 3) (p : Bool) (s : State) : Out :=
  .next (fpCmp c (.fcmple c d a b rm p) 14 3 d a b rm p s)

/-- FMVGF: the bits of Ga, zeros above them, no flag (R204). -/
def execFmvgf (c : CoreId) (d : FReg) (a : GReg) (rm : BitVec 3) (p : Bool) (s : State) : Out :=
  .next (fpRun c (.fmvgf c d a rm p) (encF d.val a.val 0 rm.toNat 0x10 p) rm (fun _ t => t.setF c d ((t.g c a).zeroExtend 64)) s)

/-- FMA (R77, R134, R204). -/
def execFma (c : CoreId) (d a b e : FReg) (rm : BitVec 3) (p : Bool) (s : State) : Out :=
  .next (fpFma c (.fma c d a b e rm p) 0 false false d a b e rm p s)

/-- FMS (R77, R134, R204). -/
def execFms (c : CoreId) (d a b e : FReg) (rm : BitVec 3) (p : Bool) (s : State) : Out :=
  .next (fpFma c (.fms c d a b e rm p) 1 false true d a b e rm p s)

/-- FNMA (R77, R134, R204). -/
def execFnma (c : CoreId) (d a b e : FReg) (rm : BitVec 3) (p : Bool) (s : State) : Out :=
  .next (fpFma c (.fnma c d a b e rm p) 2 true false d a b e rm p s)

/-- FNMS (R77, R134, R204). -/
def execFnms (c : CoreId) (d a b e : FReg) (rm : BitVec 3) (p : Bool) (s : State) : Out :=
  .next (fpFma c (.fnms c d a b e rm p) 3 true true d a b e rm p s)

end Sys2Proof.Machine
end

