-- ==== Sys2Proof/Machine/System.lean ====
section
/-! DEFINITION. The system class: system registers, synchronisation, gates, returns and waits (R205, R226, R229, R231, R232, R239 to R244,
R269 to R271, R316 to R318, R404). -/
namespace Sys2Proof.Machine

/-! ### System registers -/

/-- The value that a read of system register `n` returns, before any effect of the read. -/
def srValue (s : State) (c : CoreId) (n : Nat) : Word :=
  if n = 0x101 then putFld (putBit (s.sr c n) 4 ((s.core c).hold != 0)) 1 0 (s.lvl c).code
  else if n = 0x102 then putFld (s.sr c n) 25 16 (s.core c).hold
  else s.sr c n

/-- The Safety Island has no such register, or may not write it (R404). -/
def siNoSr (c : CoreId) (n : Nat) (w : Bool) : Bool :=
  isSI c && (n == 0x125 || n == 0x130 || n == 0x131 || n == 0x116 || (w && n == 0x103))

/-- Whether the core's level may reach a register: none, or the exception (R205, R236). -/
def srRefusal (s : State) (c : CoreId) (n : Nat) (write : Bool) (w : Word) : Option Exc :=
  match srSpec n with
  | none => some (excIllegal w)
  | some r =>
    if siNoSr c n write || (write && (n == 0x140 || n == 0x141)) || (!write && n == 0x142) then some (excIllegal w)
    else if (s.lvl c).atLeast (if write then r.wlev else r.rlev) then none
    else some (excPriv w)

/-- A claim of class `k` by a core (R316, R318, R418). -/
def claim (c : CoreId) (k : Nat) (s : State) : Nat × State := if isSI c then sicClaim k s else icuClaim c.val k s

/-- A COMPLETE by a core (R317, R418). -/
def complete (c : CoreId) (n : Nat) (s : State) : State := if isSI c then sicComplete n s else icuComplete c.val n s

/-- SRR (R205): ICLAIMN and ICLAIMF claim (R318). -/
def srrBody (c : CoreId) (d : GReg) (n : Nat) (s : State) : Acc Flow :=
  match srRefusal s c n false (encSys d.val 0 n 0) with
  | some e => .exc e s
  | none =>
    if n = 0x140 then let r := claim c 0 s; putG c d (BitVec.ofNat 32 r.1) r.2
    else if n = 0x141 then let r := claim c 1 s; putG c d (BitVec.ofNat 32 r.1) r.2
    else putG c d (srValue s c n) s

/-- A vector-table entry of an interrupt read for its captured copy (R226). -/
def captureEntry (c : CoreId) (t : Level) (code : Nat) (s : State) : Acc VecEntry :=
  let pa := vecAddr s c t code
  match readPhys c pa 8 s with
  | (.wait, s1) => .wait s1
  | (.done r b, s1) => if sramFails c pa r then .exc (respExc .load r pa) s1 else .ok (if r = rOKAY then vecOf b else ⟨false, 0, 0⟩) s1

/-- The next instruction is fetched anew (R243, R249, R271). -/
def refetch (c : CoreId) (s : State) : State := s.modCore c fun k => { k with fblk := none }

/-- The system registers that SRW writes as a serialising instruction, beside the vector bases (R243). -/
def srSerial (n : Nat) : Bool := (decide (0x100 ≤ n) && decide (n ≤ 0x105)) || n == 0x130 || n == 0x131

/-- A write of MVBASE or SVBASE: the INT_N and INT_F entries of the table are captured (R226). -/
def vbaseSet (c : CoreId) (t : Level) (v : Word) (s : State) : Acc Flow :=
  (captureEntry c t cINT_N (s.setSr c (srVbase t) v)).bind fun en s1 =>
    (captureEntry c t cINT_F s1).bind fun ef s2 =>
      .ok .next ((refetch c s2).modCore c fun k => if t = .m then { k with vecMN := en, vecMF := ef } else { k with vecSN := en, vecSF := ef })

/-- What a write of `v` leaves in a system register: the bits that this level may write, and bits cleared by a written 1 (R205, R223 and
the register tables). -/
def srWritten (r : SrSpec) (atM : Bool) (old v : Word) : Word :=
  let rw := BitVec.ofNat 32 (if atM then r.rwM else r.rwS)
  ((old &&& ~~~rw) ||| (v &&& rw)) &&& ~~~(v &&& BitVec.ofNat 32 r.w1c)

/-- SRW (R205). -/
def srwBody (c : CoreId) (n : Nat) (a : GReg) (s : State) : Acc Flow :=
  match srRefusal s c n true (encSys 0 a.val n 1) with
  | some e => .exc e s
  | none =>
    let v := s.g c a
    if n = 0x115 then vbaseSet c .m v s
    else if n = 0x125 then vbaseSet c .s v s
    else if n = 0x142 then .ok .next (complete c (fld v 9 0) s)
    else match srSpec n with
      | none => .ok .next s
      | some r =>
        let s1 := s.setSr c n (srWritten r (s.lvl c == .m) (s.sr c n) v)
        .ok .next (if 0x020 ≤ n ∧ n ≤ 0x022 then loopForget c s1 else if srSerial n then refetch c s1 else s1)

/-- SRW of a register, whichever row names it. What R132, R148 and R243 make it wait for has come at its boundary. -/
def srwRun (c : CoreId) (i : Instr) (n : Nat) (a : GReg) (s : State) : State := run c i .none (srwBody c n a) s

/-- SRR (R205). -/
def execSrr (c : CoreId) (d : GReg) (sr : BitVec 12) (s : State) : Out := .next (run c (.srr c d sr) .none (srrBody c d sr.toNat) s)

/-- SRW (R205). -/
def execSrw (c : CoreId) (sr : BitVec 12) (a : GReg) (s : State) : Out := .next (srwRun c (.srw c sr a) sr.toNat a s)

/-- SRW to FCSR (R132). -/
def execFcsrWrite (c : CoreId) (a : GReg) (s : State) : Out := .next (srwRun c (.fcsrWrite c a) 0x010 a s)

/-- SRW to MVBASE, or to SVBASE (R226). -/
def execVbaseWrite (c : CoreId) (sup : Bool) (a : GReg) (s : State) : Out :=
  .next (srwRun c (.vbaseWrite c sup a) (if sup then 0x125 else 0x115) a s)

/-- SRW to LCTL (R214). -/
def execLctlWrite (c : CoreId) (a : GReg) (s : State) : Out := .next (srwRun c (.lctlWrite c a) 0x022 a s)

/-- SRW to CTX_MODE (R249). -/
def execCtxModeWrite (c : CoreId) (a : GReg) (s : State) : Out := .next (srwRun c (.ctxModeWrite c a) 0x100 a s)

/-- SRR of ICLAIMN (R318). -/
def execIclaimn (c : CoreId) (d : GReg) (s : State) : Out := .next (run c (.iclaimn c d) .none (srrBody c d 0x140) s)

/-- SRR of ICLAIMF (R318). -/
def execIclaimf (c : CoreId) (d : GReg) (s : State) : Out := .next (run c (.iclaimf c d) .none (srrBody c d 0x141) s)

/-- SRW of ICOMPLETE (R317, R318). -/
def execIcomplete (c : CoreId) (a : GReg) (s : State) : Out := .next (srwRun c (.icomplete c a) 0x142 a s)

/-! ### Synchronisation, returns, waits -/

/-- FSYNC (R149): what it waits for is its frame's; then it is done. -/
def execFsync (c : CoreId) (s : State) : Out := .next (run c (.fsync c) .full (fun t => .ok .next t) s)

/-- VSYNC (R149). -/
def execVsync (c : CoreId) (s : State) : Out := .next (run c (.vsync c) .full (fun t => .ok .next t) s)

/-- MRET (R214, R229, R243). -/
def mretBody (c : CoreId) (s : State) : Acc Flow :=
  let w := encSys 0 0 0 5
  if atLend s c then .exc (excIllegal w) s
  else if s.lvl c != .m then .exc (excPriv w) s
  else .ok .placed (returnFrom c .m (refetch c s))

/-- MRET (R229). -/
def execMret (c : CoreId) (s : State) : Out := .next (run c (.mret c) .none (mretBody c) s)

/-- SRET (R214, R229, R243, R404). -/
def sretBody (c : CoreId) (s : State) : Acc Flow :=
  let w := encSys 0 0 0 6
  if isSI c || atLend s c then .exc (excIllegal w) s
  else if s.lvl c == .u then .exc (excPriv w) s
  else .ok .placed (returnFrom c .s (refetch c s))

/-- SRET (R229). -/
def execSret (c : CoreId) (s : State) : Out := .next (run c (.sret c) .none (sretBody c) s)

/-- A source that ends a WAIT exists (R320, R418). -/
def waitEnds (s : State) (c : CoreId) : Bool :=
  if isSI c then sicBest s 0 != 0 || sicBest s 1 != 0 else icuWakes s c.val

/-- WAIT: an open window closes, and the core waits unless a waking source exists (R231, R320). -/
def waitBody (c : CoreId) (s : State) : Acc Flow :=
  let w := !waitEnds s c
  .ok .next (s.modCore c fun k => { k with hold := 0, waiting := w })

/-- WAIT (R231, R320). -/
def execWait (c : CoreId) (s : State) : Out := .next (run c (.wait c) .none (waitBody c) s)

/-- BRK raises BRK (R234). -/
def execBrk (c : CoreId) (s : State) : Out := .next (run c (.brk c) .none (fun t => .exc (.plain cBRK (encSys 0 0 0 8)) t) s)

/-- HOLDI k (R232). -/
def holdiBody (c : CoreId) (k : Nat) (s : State) : Acc Flow :=
  if s.lvl c == .u then .exc (excPriv (encSys 0 0 k 9)) s
  else .ok .next (openWindow c (Nat.min k (s.srf c 0x102 9 0)) (refetch c s))

/-- HOLDI (R232). -/
def execHoldi (c : CoreId) (k : BitVec 10) (s : State) : Out := .next (run c (.holdi c k) .none (holdiBody c k.toNat) s)

/-! ### Gates -/

/-- An argument descriptor of a gate entry (R240). -/
structure GateArg where
  scale : Nat
  lenArg : Nat
  kind : Nat
  deriving DecidableEq, Repr

/-- A gate entry (R240). -/
structure GateEnt where
  handler : Word
  lvl : Nat
  sp : Word
  keep : Bool
  minLvl : Nat
  hold : Nat
  args : List GateArg
  deriving DecidableEq, Repr

/-- A gate entry from its 32 bytes (R240). -/
def gateOf (b : List Byte) : GateEnt :=
  { handler := wordAt b 0 &&& 0xFFFFFFFC, lvl := fld (wordAt b 0) 1 0, sp := wordAt b 1 &&& 0xFFFFFFF8, keep := wbit (wordAt b 1) 0,
    minLvl := fld (wordAt b 2) 17 16, hold := fld (wordAt b 2) 9 0,
    args := (List.range 4).map fun i => let w := wordAt b (3 + i); ⟨fld w 5 4, fld w 3 2, fld w 1 0⟩ }

/-- A gate entry that a caller at `lvl` may not use (R240): only a pointer has a length. -/
def gateBad (c : CoreId) (e : GateEnt) (lvl : Level) : Bool :=
  e.lvl == 0 || e.lvl == 2 || (isSI c && e.lvl == 1) || decide (e.lvl < lvl.code) || decide (lvl.code < e.minLvl) ||
    (e.args.any fun a => a.kind == 3) ||
    (((List.range 4).zip e.args).any fun p => p.2.kind != 0 && p.2.lenArg == p.1)

/-- INFO of GATE_ARG: n, the argument, and whether its walk timed out (R241). -/
def gateArgInfo (n i : Nat) (tmo : Bool) : Nat := n % 1024 + i * 2 ^ 11 + b2n tmo * 2 ^ 13

/-- The pages of an argument's range probed in order, `fuel` bounding their number (R241). `tmo` says that the walk now waited for
has timed out. -/
def probePages (c : CoreId) (n i : Nat) (k : AccKind) (tmo : Bool) : Nat → Nat → Nat → State → Acc Unit
  | 0, _, _, s => .ok () s
  | fuel + 1, va, stop, s =>
    if stop ≤ va then .ok () s
    else if 2 ^ 32 ≤ va then .exc ⟨cGATE_ARG, gateArgInfo n i false, some 0, none⟩ s
    else if isSI c then .ok () s
    else
      let sp := coreSpace s c
      match translate c.val sp.1 sp.2 va k (s.lvl c == .u) false s with
      | (.ok e, s1) => probePages c n i k tmo fuel (pageOf e.sz va + szBytes e.sz) stop s1
      | (.align _, s1) => .ok () s1
      | (.wait, s1) =>
        if tmo then .exc ⟨cGATE_ARG, gateArgInfo n i true, some (BitVec.ofNat 32 va), none⟩ s1 else .wait s1
      | (.fail f, s1) =>
        if f.cause = wECC then .exc (xlateExc k va f) s1
        else .exc ⟨cGATE_ARG, gateArgInfo n i false, some (BitVec.ofNat 32 va), none⟩ s1

/-- The pointer arguments probed, in ascending order (R241). -/
def probeArgs (c : CoreId) (n : Nat) (tmo : Bool) : List (Nat × GateArg) → State → Acc Unit
  | [], s => .ok () s
  | (i, a) :: t, s =>
    if a.kind = 0 then probeArgs c n tmo t s
    else
      let start := (s.g c (gno (8 + i))).toNat
      let len := (s.g c (gno (8 + a.lenArg))).toNat * 2 ^ a.scale
      if isSI c && decide (2 ^ 32 < start + len) then .exc ⟨cGATE_ARG, gateArgInfo n i false, some 0, none⟩ s
      else (probePages c n i (if a.kind = 1 then .probeR else .probeW) tmo (2 ^ 20 + 2) start (start + len) s).bind fun _ s1 =>
        probeArgs c n tmo t s1

/-- The entry of a gate that passed its checks (R242). -/
def gateEnter (c : CoreId) (n : Nat) (e : GateEnt) (s : State) : State :=
  let t := Level.ofCode e.lvl
  let g30 := s.g c (gno 30)
  let s1 := commitEntry c t cGATE n none (s.pc c + 4) e.handler e.hold s
  if e.keep then s1
  else
    let s2 := (s1.setSr c (srGsp t) g30).setG c (gno 30) e.sp
    s2.setSr c 0x101 (putBit (s2.sr c 0x101) (if t = .m then 17 else 16) true)

/-- GATE n (R214, R239 to R242). -/
def gateBody (c : CoreId) (n : Nat) (tmo : Bool) (s : State) : Acc Flow :=
  if atLend s c then .exc (excIllegal (encSys 0 0 n 4)) s
  else if Nat.min 1024 (s.srf c 0x105 10 0) ≤ n then .exc ⟨cGATE_RANGE, 0, none, none⟩ s
  else
    let pa := (s.sr c 0x104).toNat * 0x10000 + 32 * n
    match readPhys c pa 32 s with
    | (.wait, s1) => .wait s1
    | (.done r b, s1) =>
      if sramFails c pa r then .exc (respExc .load r pa) s1
      else if r ≠ rOKAY then .exc (.plain cVECFAULT (BitVec.ofNat 32 pa)) s1
      else
        let e := gateOf b
        if gateBad c e (s1.lvl c) then .exc ⟨cGATE_ENTRY, 0, none, none⟩ s1
        else (probeArgs c n tmo ((List.range 4).zip e.args) s1).bind fun _ s2 =>
          if e.lvl = 3 then
            let s3 := drain c s2
            if !drained s3 c then .wait s3
            else if (s3.core c).stPend then .exc ⟨cSTORE_ERR, 0, none, none⟩ s3
            else .ok .placed (gateEnter c n e s3)
          else .ok .placed (gateEnter c n e s2)

/-- GATE (R239). -/
def execGate (c : CoreId) (n : BitVec 12) (s : State) : Out := .next (run c (.gate c n) .none (gateBody c n.toNat false) s)

/-- The walk that a core's gate probe waits for fails by timeout (R241). -/
def execGateProbeTimeout (c : CoreId) (s : State) : Out :=
  .next (match (s.core c).stall with
    | some (.gate d n) =>
      if s.walks.any fun w => w.ag == c.val && w.wanted && w.res.isNone then run c (.gate d n) .none (gateBody c n.toNat true) s else s
    | _ => s)

/-! ### Invalidation of core translations -/

/-- The scope of a TLBI or VINV: the ASID, the partition (CTX_TRANS's at S) and the address in Gb (R269). -/
def invScope (s : State) (c : CoreId) (ga gb : GReg) : Nat × Nat × Nat :=
  (fld (s.g c ga) 7 0, if s.lvl c = .m then fld (s.g c ga) 11 8 else s.srf c 0x130 11 8, (s.g c gb).toNat)

/-- What refuses a TLBI or VINV (R269, R270, R404). -/
def invRefusal (s : State) (c : CoreId) (ty : Nat) (w : Word) : Option Exc :=
  if isSI c || decide (4 < ty) then some (excIllegal w)
  else if s.lvl c == .u || (s.lvl c == .s && (ty == 0 || ty == 1 || ty == 4)) then some (excPriv w)
  else none

/-- TLBI (R271): it drains the store buffer, removes the copies, and completes once no walk of before is in flight. -/
def tlbiBody (c : CoreId) (ga gb : GReg) (ty : Nat) (s : State) : Acc Flow :=
  match invRefusal s c ty (encInv gb.val ga.val ty 10) with
  | some e => .exc e s
  | none =>
    if !drained s c then .wait s
    else
      let sc := invScope s c ga gb
      let s1 := if (s.core c).marked then s
        else (invalidate (some c.val) ty sc.1 sc.2.1 sc.2.2 s).modCore c fun k => { k with marked := true }
      if walksPending s1 c.val then .wait s1 else .ok .next (refetch c s1)

/-- TLBI (R271). -/
def execTlbi (c : CoreId) (ga gb : GReg) (ty : BitVec 4) (s : State) : Out :=
  .next (run c (.tlbi c ga gb ty) .none (tlbiBody c ga gb ty.toNat) s)

/-- A waiting TLBI completes once every walk in flight at its removal has finished (R271). -/
def execTlbiWalksDone (c : CoreId) (s : State) : Out :=
  .next (match (s.core c).stall with
    | some (.tlbi d ga gb ty) => run c (.tlbi d ga gb ty) .none (tlbiBody c ga gb ty.toNat) s
    | _ => s)

/-- Walk `w` in flight goes on to its end (R257, R265). -/
def execTableWalkDone (w : Nat) (s : State) : Out := .next (clocked (walkDone w) s)

end Sys2Proof.Machine
end

