-- ==== Sys2Proof/Machine/LaneOps.lean ====
section
/-! DEFINITION. Bitwise, shift and integer operations on one element, shared by the short-vector unit and the Vector Stream Engine
(R76, R77, R217).

An element is the natural number its bits spell, below 2^w. -/
namespace Sys2Proof.Machine

/-- NOT within `w` bits. -/
def notN (w x : Nat) : Nat := (2 ^ w - 1) - x % 2 ^ w

/-- A shifted left by `c`: 0 from the width up (R76). -/
def shlN (w x c : Nat) : Nat := if w ≤ c then 0 else x * 2 ^ c % 2 ^ w

/-- A shifted right by `c`, zeros entering (R76). -/
def shrN (w x c : Nat) : Nat := if w ≤ c then 0 else x / 2 ^ c

/-- A shifted right by `c`, the sign entering; zeros enter on an unsigned type (R76). -/
def sraN (t : Ty) (x c : Nat) : Nat :=
  let w := tyBits t
  if isSigned t then wrapTo w (sgn w x / (2 ^ Nat.min c w : Nat)) else shrN w x c

/-- A rotated left by `c` modulo the width (R76). -/
def rolN (w x c : Nat) : Nat := let k := c % w; (x * 2 ^ k % 2 ^ w) + x / 2 ^ (w - k)

/-- A rotated right by `c` modulo the width (R76). -/
def rorN (w x c : Nat) : Nat := rolN w x (w - c % w)

/-- The rounding shift right: (A + 2^(c−1)) shifted right by `c`, A when `c` is 0; from the width up, the sign or 0 (R76, R77). -/
def rshrN (t : Ty) (x c : Nat) : Nat :=
  let w := tyBits t
  if c = 0 then x
  else if w ≤ c then sraN t x c
  else wrapTo w ((rawInt t x + (2 ^ (c - 1) : Nat)) / (2 ^ c : Nat))

/-- The rounding shift right with its flags: on a Q type a result that rounding changed raises NX (R78, R129), but none for a count from the width up
(R76). -/
def rshrRes (t : Ty) (x c : Nat) : Res :=
  let r := rshrN t x c
  (r, flagIf (isQ t && decide (c < tyBits t) && rawInt t r * (2 ^ c : Nat) != rawInt t x) fNX)

/-- A shifted left by `c`, held to the range of the type (R76, R77). -/
def shlsN (t : Ty) (x c : Nat) : Res :=
  let v := rawInt t x * (2 ^ Nat.min c (tyBits t + 1) : Nat)
  if isQ t then satQ t v false else satInt t v

/-- Leading zero bits. -/
def clzN (w x : Nat) : Nat := w - bitLen (x % 2 ^ w)

/-- ⌊(A + B + 1) / 2⌋ (R77). -/
def avgN (t : Ty) (a b : Nat) : Nat := wrapTo (tyBits t) ((rawInt t a + rawInt t b + 1) / 2)

/-- The upper half of the double-width product (R77). -/
def mulhN (t : Ty) (a b : Nat) : Nat := wrapTo (tyBits t) (rawInt t a * rawInt t b / (2 ^ tyBits t : Nat))

/-- The bytes in reverse order (R77). -/
def bswapN (w x : Nat) : Nat := beNat (leBytes (w / 8) x)

/-- The bits in reverse order (R77). -/
def brevN (w x : Nat) : Nat := bitsNat (bitList w x).reverse

/-- The type of the same kind at twice the width (R78, R219). -/
def wideTy : Ty → Option Ty
  | .u8 => some .u16 | .s8 => some .s16 | .u16 => some .u32 | .s16 => some .s32 | .u32 => some .u64 | .s32 => some .s64
  | .f16 => some .f32 | .f32 => some .f64 | .q15 => some .q31 | .q31 => some .q63
  | _ => none

/-- A × B in a wider type, A of type `sa` and B of type `sb` (R76, R77, R219): the product of floats is exact. -/
def mulWide (sa sb t : Ty) (rm : Rm) (a b : Nat) : Res :=
  if isFloat sa then
    match nanRes sa [a, b] with
    | some r => (cvtNan sa t r.1, r.2)
    | none => deliverOpt t rm false (mulFv (decTy sa a) (decTy sb b))
  else deliverOpt t rm false (mulFv (decTy sa a) (decTy sb b))

/-- The exact sum of finite or infinite values: none for a NaN or infinities of opposite signs. -/
def sumFv (rm : Rm) : List Fv → Option Fv
  | [] => some (.fin false 0 0)
  | [x] => if x.isNan then none else some x
  | x :: t =>
    if x.isNan then none
    else match sumFv rm t with
      | none => none
      | some y => addFv rm x y

/-- A sum of values formed exactly and rounded once to `t`; any NaN result is the default NaN (R82, R86, R125).
`nv` says that an operand is a signalling NaN or a product invalid. -/
def exactSum (t : Ty) (rm : Rm) (vs : List (Option Fv)) (nv : Bool) : Res :=
  if vs.any fun v => v.isNone then (defNan t, fNV)
  else
    let xs := vs.filterMap id
    if xs.any Fv.isNan then (defNan t, flagIf nv fNV)
    else match sumFv rm xs with
      | none => (defNan t, fNV)
      | some v => Res.raise (deliver t rm false v) (flagIf nv fNV)

/-- The values of products of two element lists. -/
def prodFvs (sa sb : Ty) (l : List (Nat × Nat)) : List (Option Fv) :=
  l.map fun p => let x := decTy sa p.1; let y := decTy sb p.2; if x.isNan || y.isNan then some (.nan false) else mulFv x y

/-- A pair holds a signalling NaN. -/
def anySnan (sa sb : Ty) (l : List (Nat × Nat)) : Bool := l.any fun p => decTy sa p.1 == .nan true || decTy sb p.2 == .nan true

end Sys2Proof.Machine
end

