-- ==== Sys2Proof/Machine/VseOps.lean ====
section
/-! DEFINITION. What the vector operations compute on the elements of their streams (R73 to R86, R133, R135 to R142, R147).

An element is the number its bits spell; a complex element holds its imaginary part above its real part (R83). -/
namespace Sys2Proof.Machine

/-- What an operation needs of its instruction: the types of A, B, C and D, the rounding, SUB, IMM, EA and LEN. -/
structure VEnv where
  ta : Ty
  tb : Ty
  tc : Ty
  td : Ty
  rm : Rm
  sub : Nat
  imm : Nat
  ea : Nat
  len : Nat
  deriving DecidableEq, Repr

/-- The elements of an instruction's streams, its mask (all ones without one) and the accumulators. -/
structure VIn where
  a : List Nat
  b : List Nat
  c : List Nat
  m : List Bool
  acc : List EauAcc
  deriving DecidableEq, Repr

/-- What an instruction yields: destination elements with their flags in ascending index, flags raised at intake by element, accumulators
with their new contents, and the count that VCOMP reports. -/
structure VOut where
  d : List (Nat × Res)
  intake : List (Nat × FFlags)
  accs : List (Nat × EauAcc)
  count : Nat
  deriving DecidableEq, Repr

/-- Destination elements alone. -/
def VOut.elems (d : List (Nat × Res)) : VOut := ⟨d, [], [], 0⟩

/-- Element `i` of a stream, 0 past its end. -/
def elt (l : List Nat) (i : Nat) : Nat := l.getD i 0

/-- The mask at `i`. -/
def VIn.on (v : VIn) (i : Nat) : Bool := v.m.getD i true

/-- The indices below `n` that the mask lets through. -/
def VIn.live (v : VIn) (n : Nat) : List Nat := (List.range n).filter v.on

/-- An operation on each element by itself (R33, R40). -/
def perElem (f : VEnv → Nat → Nat → Nat → Res) (e : VEnv) (v : VIn) : VOut :=
  .elems ((v.live e.len).map fun i => (i, f e (elt v.a i) (elt v.b i) (elt v.c i)))

/-- A result without flags. -/
def plainRes (x : Nat) : Res := (x, 0)

/-- A truth value as a BIT element. -/
def bitRes (b : Bool) : Res := (b2n b, 0)

/-- The shift count: B, or IMM[5:0] with SUB[0] (R76). -/
def shiftCount (e : VEnv) (b : Nat) : Nat := if e.sub % 2 = 1 then e.imm % 64 else b

/-- The sign of a vector IMM (VCVTX, R77). -/
def immSigned (e : VEnv) : Int := sgn 10 e.imm

/-- The NaN rule that SUB[0] selects (R77). -/
def byNumber (e : VEnv) : Bool := e.sub % 2 == 1

/-! ### Complex elements (R83) -/

/-- The real part. -/
def cRe (t : Ty) (x : Nat) : Nat := x % 2 ^ tyBits t

/-- The imaginary part. -/
def cIm (t : Ty) (x : Nat) : Nat := x / 2 ^ tyBits t

/-- A complex element from its parts' results. -/
def cRes (t : Ty) (re im : Res) : Res := (re.1 % 2 ^ tyBits t + im.1 * 2 ^ tyBits t, re.2 ||| im.2)

/-- conj(A) as an operand: the sign of Im A flipped, but that of a NaN kept (R77, R125). -/
def cConj (t : Ty) (x : Nat) : Nat :=
  let im := cIm t x
  cRe t x + (if (decTy t im).isNan then im else (numNeg t .rne false im).1) * 2 ^ tyBits t

/-- A part of a result that is a NaN, quieted (R125). -/
def quietPart (t : Ty) (x : Nat) : Nat := if (decTy t x).isNan then quiet t x else x

/-- VCONJ: conj(A), each part that is a NaN quieted, no flag (R77, R78, R125). -/
def conjRes (t : Ty) (x : Nat) : Res :=
  let y := cConj t x
  plainRes (quietPart t (cRe t y) + quietPart t (cIm t y) * 2 ^ tyBits t)

/-- The product of R83: in each part the inner product is rounded first. -/
def cMul (t : Ty) (rm : Rm) (a b : Nat) : Res :=
  let p := numMul t rm false (cIm t a) (cIm t b)
  let q := numMul t rm false (cIm t a) (cRe t b)
  let re := numFma t t rm false false true (cRe t a) (cRe t b) p.1
  let im := numFma t t rm false false false (cRe t a) (cIm t b) q.1
  cRes t (re.raise p.2) (im.raise q.2)

/-- The sum of two complex elements, or the difference, each part rounded. -/
def cAdd (t : Ty) (rm : Rm) (sub : Bool) (a b : Nat) : Res :=
  cRes t (numAdd t rm false sub (cRe t a) (cRe t b)) (numAdd t rm false sub (cIm t a) (cIm t b))

/-- A + j × B, or A − j × B when `minus`, each part rounded (R84). -/
def cAddJ (t : Ty) (rm : Rm) (minus : Bool) (a b : Nat) : Res :=
  cRes t (numAdd t rm false (!minus) (cRe t a) (cIm t b)) (numAdd t rm false minus (cIm t a) (cRe t b))

/-! ### Operations by element -/

/-- VCLAMP: min(max(A, B), C) (R77). -/
def clampRes (e : VEnv) (a b c : Nat) : Res :=
  let m := numMinMax e.ta true false a b
  (numMinMax e.ta false false m.1 c).raise m.2

/-- VLERP: fma(C, B − A, A) with B − A rounded first; a NaN operand is taken in the order A, B, C (R77, R125).
    DESIGN CHOICE: where C alone is a NaN the flags of the first rounding (NX, OF, and NV of infinity − infinity) are not raised (log 33). -/
def lerpRes (e : VEnv) (a b c : Nat) : Res :=
  match nanRes e.ta [a, b, c] with
  | some r => r
  | none =>
    let d := numAdd e.ta e.rm false true b a
    (numFma e.ta e.ta e.rm false false false c d.1 a).raise d.2

/-- VZCROSS: both nonzero, not NaN and of opposite sign (R77). -/
def crosses (t : Ty) (a b : Nat) : Bool :=
  let x := decTy t a
  let y := decTy t b
  !x.isNan && !y.isNan && !x.isZero && !y.isZero && (x.neg != y.neg)

/-- VDIV: of integers or of floats (R76, R147). -/
def divRes (e : VEnv) (a b : Nat) : Res := if isInt e.ta then intDiv e.ta a b else fltDiv e.ta e.rm a b

/-- An operation with A[i] and A[i − 1], C[0] standing in place of A[−1] (R80). -/
def withPrev (f : VEnv → Nat → Nat → Res) (e : VEnv) (v : VIn) : VOut :=
  .elems ((v.live e.len).map fun i => (i, f e (elt v.a i) (if i = 0 then elt v.c 0 else elt v.a (i - 1))))

/-! ### Masks, counts and packing -/

/-- VCOMP: the selected elements packed, and their count (R77, R85). -/
def compOut (e : VEnv) (v : VIn) : VOut :=
  let sel := v.live e.len
  { VOut.elems ((List.range sel.length).zip (sel.map fun i => plainRes (elt v.a i))) with count := sel.length }

/-- VEXPD: the k-th selected position holds the k-th element of A (R77, R85). -/
def expdOut (e : VEnv) (v : VIn) : VOut :=
  let sel := v.live e.len
  .elems ((List.range sel.length).zip sel |>.map fun p => (p.2, plainRes (elt v.a p.1)))

/-- The first one of A among LEN elements. -/
def firstOne (e : VEnv) (v : VIn) : Option Nat := (List.range e.len).find? fun i => elt v.a i == 1

/-- VMCNT (R77). -/
def mcntOut (e : VEnv) (v : VIn) : VOut :=
  if e.len = 0 then .elems [] else .elems [(0, plainRes ((List.range e.len).countP fun i => elt v.a i == 1))]

/-- VMFIRST (R77). -/
def mfirstOut (e : VEnv) (v : VIn) : VOut :=
  if e.len = 0 then .elems []
  else .elems [(0, plainRes (match firstOne e v with | some i => i | none => 2 ^ tyBits e.td - 1))]

/-- VMSBF, or VMSIF when `incl`: ones before, or up to and including, the first one of A (R77). -/
def msOut (incl : Bool) (e : VEnv) (v : VIn) : VOut :=
  let lim := match firstOne e v with | some i => if incl then i + 1 else i | none => e.len
  .elems ((List.range e.len).map fun i => (i, bitRes (decide (i < lim))))

/-- VIOTA (R77). -/
def iotaOut (e : VEnv) (v : VIn) : VOut := .elems ((v.live e.len).map fun i => (i, plainRes (i % 2 ^ tyBits e.td)))

/-! ### Dot products and filters (R81, R82) -/

/-- A sum of integer products, or of terms, modulo the destination's width. -/
def intSum (td : Ty) (l : List Int) : Res := (wrapTo (tyBits td) (l.foldl (· + ·) 0), 0)

/-- One output of a dot product over elements `js`: the sum of A × B, or of A when `one`, with C[g] entering before the rounding when
`addC`; `su` reads A as signed and B as unsigned (R77, R82). -/
def dotOne (one addC su : Bool) (e : VEnv) (v : VIn) (g : Nat) (js : List Nat) : Res :=
  if isFloat e.ta then
    let pairs := js.map fun j => (elt v.a j, elt v.b j)
    let prods := if one then js.map (fun j => some (decTy e.ta (elt v.a j))) else prodFvs e.ta e.tb pairs
    let sn := if one then js.any (fun j => decTy e.ta (elt v.a j) == .nan true) else anySnan e.ta e.tb pairs
    let c := decTy e.tc (elt v.c g)
    exactSum e.td e.rm (if addC then some c :: prods else prods) (sn || (addC && c == .nan true))
  else
    let ra := fun x => if su then sgn (tyBits e.ta) x else rawInt e.ta x
    let rb := fun x => if su then ((x % 2 ^ tyBits e.tb : Nat) : Int) else rawInt e.tb x
    let terms := js.map fun j => if one then ra (elt v.a j) else ra (elt v.a j) * rb (elt v.b j)
    intSum e.td (if addC then rawInt e.tc (elt v.c g) :: terms else terms)

/-- The dot products of R82: groups of IMM + 1 elements, an output with no unmasked element not written (R75). -/
def dotOut (one addC su : Bool) (e : VEnv) (v : VIn) : VOut :=
  let gs := e.imm + 1
  let n := (e.len + gs - 1) / gs
  .elems ((List.range n).filterMap fun g =>
    let js := ((List.range gs).map fun j => g * gs + j).filter fun j => decide (j < e.len) && v.on j
    if js.isEmpty then none else some (g, dotOne one addC su e v g js))

/-- One output of a filter, from element `base` of A (R81). -/
def firOne (e : VEnv) (v : VIn) (base : Nat) : Res :=
  let taps := List.range (e.imm + 1)
  if isFloat e.ta then
    taps.foldl (fun s t => (numFma e.ta e.ta e.rm false false false (elt v.a (base + t)) (elt v.b t) s.1).raise s.2) (0, 0)
  else
    let x := (taps.map fun t => rawInt e.ta (elt v.b t) * rawInt e.ta (elt v.a (base + t))).foldl (· + ·) 0
    deliver e.ta e.rm true (fvInt x (2 * tyStep e.ta))

/-- VFIR, or VFIRD with decimation `m` (R77, R81). -/
def firOut (m : Nat) (e : VEnv) (v : VIn) : VOut := .elems ((v.live e.len).map fun i => (i, firOne e v (m * i)))

/-! ### FFT stages (R84) -/

/-- The four results of a radix-4 butterfly (R84); `inv` selects VIFFT4. -/
def radix4 (inv : Bool) (t : Ty) (rm : Rm) (x0 x1 x2 x3 w1 w2 w3 : Nat) : List Res :=
  let t0 := cAdd t rm false x0 x2
  let t1 := cAdd t rm true x0 x2
  let t2 := cAdd t rm false x1 x3
  let t3 := cAdd t rm true x1 x3
  let u1 := cAddJ t rm (!inv) t1.1 t3.1
  let u2 := cAdd t rm true t0.1 t2.1
  let u3 := cAddJ t rm inv t1.1 t3.1
  let y0 := cAdd t rm false t0.1 t2.1
  [y0.raise (t0.2 ||| t2.2), (cMul t rm u1.1 w1).raise (u1.2 ||| t1.2 ||| t3.2), (cMul t rm u2.1 w2).raise (u2.2 ||| t0.2 ||| t2.2),
   (cMul t rm u3.1 w3).raise (u3.2 ||| t1.2 ||| t3.2)]

/-- The two results of a radix-2 butterfly (R84). -/
def radix2 (t : Ty) (rm : Rm) (x0 x1 w : Nat) : List Res :=
  let d := cAdd t rm true x0 x1
  [cAdd t rm false x0 x1, (cMul t rm d.1 w).raise d.2]

/-- Point `p` of a stage: its block, its place k in the block and its leg (R84). -/
def fftPlace (legs q p : Nat) : Nat × Nat × Nat := (p / (legs * q) * (legs * q), p % q, p % (legs * q) / q)

/-- A radix-4 stage (R84). -/
def fft4Out (inv : Bool) (e : VEnv) (v : VIn) : VOut :=
  let q := 2 ^ (e.imm % 32)
  .elems ((List.range e.len).map fun p =>
    let (b, k, leg) := fftPlace 4 q p
    let x := fun j => elt v.a (b + k + j * q)
    (p, (radix4 inv e.ta e.rm (x 0) (x 1) (x 2) (x 3) (elt v.b (3 * k)) (elt v.b (3 * k + 1)) (elt v.b (3 * k + 2))).getD leg (0, 0)))

/-- A radix-2 stage (R84). -/
def fft2Out (e : VEnv) (v : VIn) : VOut :=
  let q := 2 ^ (e.imm % 32)
  .elems ((List.range e.len).map fun p =>
    let (b, k, leg) := fftPlace 2 q p
    (p, (radix2 e.ta e.rm (elt v.a (b + k)) (elt v.a (b + k + q)) (elt v.b k)).getD leg (0, 0)))

/-! ### Scans and reductions -/

/-- The minimum or maximum of what came before and the next element; the first element stands alone, quieted when it is a NaN (R77, R125). -/
def minStep (mx : Bool) (e : VEnv) (acc : Option Nat) (x : Nat) : Res :=
  match acc with
  | some a => numMinMax e.ta mx (byNumber e) a x
  | none => (nanRes e.ta [x]).getD (x, 0)

/-- A scan over the unmasked elements, from what came before (R75). -/
def scanFrom (f : Option Nat → Nat → Res) (v : VIn) : List Nat → Option Nat → List (Nat × Res)
  | [], _ => []
  | i :: t, acc => let r := f acc (elt v.a i); (i, r) :: scanFrom f v t (some r.1)

/-- VSCANMIN and VSCANMAX (R77). -/
def scanMinOut (mx : Bool) (e : VEnv) (v : VIn) : VOut := .elems (scanFrom (minStep mx e) v (v.live e.len) none)

/-- VSCANXOR (R77). -/
def scanXorOut (e : VEnv) (v : VIn) : VOut :=
  .elems (scanFrom (fun acc x => plainRes (Nat.xor (acc.getD 0) x)) v (v.live e.len) none)

/-- A reduction to D[0], not written when nothing is unmasked (R75). -/
def reduceOut (f : List Nat → Res) (e : VEnv) (v : VIn) : VOut :=
  let xs := (v.live e.len).map (elt v.a)
  if xs.isEmpty then .elems [] else .elems [(0, f xs)]

/-- The minimum or maximum of a list (R77). -/
def minOf (mx : Bool) (e : VEnv) (xs : List Nat) : Res :=
  let r := xs.foldl (fun (acc : Option Nat × FFlags) x => let y := minStep mx e acc.1 x; (some y.1, acc.2 ||| y.2)) (none, 0)
  (r.1.getD 0, r.2)

/-- Element `x` takes the place of the best `b` so far, for VARGMIN and VARGMAX: a NaN wins under IEEE minimum and loses under
minimumNumber. -/
def argBetter (mx number : Bool) (t : Ty) (b x : Nat) : Bool :=
  let p := decTy t b
  let q := decTy t x
  if p.isNan then number && !q.isNan
  else if q.isNan then !number
  else if mx then ltMin p q else ltMin q p

/-- VARGMIN and VARGMAX: the index of the first minimum or maximum (R77). -/
def argOut (mx : Bool) (e : VEnv) (v : VIn) : VOut :=
  match v.live e.len with
  | [] => .elems []
  | i :: t =>
    let best := t.foldl (fun b j => if argBetter mx (byNumber e) e.ta (elt v.a b) (elt v.a j) then j else b) i
    .elems [(0, (best, flagIf ((i :: t).any fun j => isFloat e.ta && decTy e.ta (elt v.a j) == .nan true) fNV))]

/-! ### Exact accumulation (R135 to R142) -/

/-- A term as it is taken in: not a NaN's kind but its value, with the flag at intake (R137). -/
abbrev Term := Fv × FFlags

/-- The product of two elements as a term (R136, R137). -/
def prodTerm (ta tb : Ty) (a b : Nat) : Term :=
  let x := decTy ta a
  let y := decTy tb b
  if x.isNan || y.isNan then (.nan false, flagIf (x == .nan true || y == .nan true) fNV)
  else match mulFv x y with
    | some p => (p, 0)
    | none => (.nan false, fNV)

/-- An element as a term, or its magnitude (R137). -/
def valTerm (t : Ty) (mag : Bool) (a : Nat) : Term :=
  let x := decTy t a
  if x.isNan then (.nan false, flagIf (x == .nan true) fNV) else (if mag then x.abs else x, 0)

/-- (A − B)² as a term (R136, R137). -/
def diff2Term (ta tb : Ty) (a b : Nat) : Term :=
  let x := decTy ta a
  let y := decTy tb b
  if x.isNan || y.isNan then (.nan false, flagIf (x == .nan true || y == .nan true) fNV)
  else match addFv .rne x (y.flip true) with
    | none => (.nan false, fNV)
    | some (.fin _ m e) => (.fin false (m * m) (e + e), 0)
    | some _ => (.inf false, 0)

/-- The accumulator after one term, negated when `neg` (R136, R137). -/
def eaTake (neg : Bool) (t : Fv) (a : EauAcc) : EauAcc :=
  match t with
  | .nan _ => { a with s := a.s ||| 1 }
  | .inf n => { a with s := a.s ||| (if n != neg then 4 else 2) }
  | .fin n m e => { a with v := a.v + BitVec.ofInt 4320 (fvNum (.fin (n != neg) m e) (-2176)) }

/-- The finite value of V. -/
def eaFv (a : EauAcc) : Fv := fvInt a.v.toInt (-2176)

/-- A value delivered to an integer or Q type as a float source is (R133, R141). -/
def fltToFix (t : Ty) (rm : Rm) (v : Fv) : Res :=
  match v with
  | .nan _ => (0, fNV)
  | .inf n => (wrapTo (tyBits t) (if n then tyMin t else tyMax t), if isQ t then fSAT else fNV)
  | .fin n m e =>
    let r := roundStep t rm n m e
    if isQ t then satQ t r.1 r.2
    else if r.1 < tyMin t || tyMax t < r.1 then ((satInt t r.1).1, fNV)
    else (wrapTo (tyBits t) r.1, flagIf r.2 fNX)

/-- The read-out of an accumulator (R141). -/
def eaRead (t : Ty) (rm : Rm) (a : EauAcc) : Res :=
  let s := a.s.toNat
  let flt := isFloat t
  if s % 2 = 1 then (if flt then (defNan t, 0) else (0, fNV))
  else if s = 6 then (if flt then (defNan t, fNV) else (0, fNV))
  else if s ≠ 0 then (if flt then (encInf t (s == 4), 0) else fltToFix t rm (.inf (s == 4)))
  else if a.v = 0 then (if flt then encZero t (rm == .rdn) else 0, 0)
  else if flt then deliver t rm false (eaFv a)
  else fltToFix t rm (eaFv a)

/-- Accumulator `n` of an instruction's view. -/
def VIn.ea (v : VIn) (n : Nat) : EauAcc := v.acc.getD (n % 8) .zero

/-- An intake of one term for each unmasked element into the named accumulator (R136, R138). -/
def intakeOut (neg : Bool) (term : Nat → Nat → Term) (e : VEnv) (v : VIn) : VOut :=
  let ts := (v.live e.len).map fun i => (i, term (elt v.a i) (elt v.b i))
  { d := [], intake := ts.map fun t => (t.1, t.2.2), accs := [(e.ea, ts.foldl (fun a t => eaTake neg t.2.1 a) (v.ea e.ea))], count := 0 }

/-- VEXCDOT: the four real products of each complex product (R77, R140). -/
def cdotOut (e : VEnv) (v : VIn) : VOut :=
  let conj := e.sub % 2 == 1
  let ts := (v.live e.len).map fun i =>
    let a := elt v.a i
    let b := elt v.b i
    (i, prodTerm e.ta e.tb (cRe e.ta a) (cRe e.tb b), prodTerm e.ta e.tb (cIm e.ta a) (cIm e.tb b),
      prodTerm e.ta e.tb (cRe e.ta a) (cIm e.tb b), prodTerm e.ta e.tb (cIm e.ta a) (cRe e.tb b))
  let re := ts.foldl (fun x t => eaTake (!conj) t.2.2.1.1 (eaTake false t.2.1.1 x)) (v.ea e.ea)
  let im := ts.foldl (fun x t => eaTake false t.2.2.2.2.1 (eaTake conj t.2.2.2.1.1 x)) (v.ea (e.ea + 1))
  { d := [], intake := ts.map fun t => (t.1, t.2.1.2 ||| t.2.2.1.2 ||| t.2.2.2.1.2 ||| t.2.2.2.2.2),
    accs := [(e.ea, re), (e.ea + 1, im)], count := 0 }

/-- VEACLR (R137). -/
def eaclrOut (e : VEnv) (_ : VIn) : VOut := { d := [], intake := [], accs := [(e.ea, .zero)], count := 0 }

/-- VEARD, which clears with SUB[0] (R141, R142). -/
def eardOut (e : VEnv) (v : VIn) : VOut :=
  { d := [(0, eaRead e.td e.rm (v.ea e.ea))], intake := [], accs := if e.sub % 2 = 1 then [(e.ea, .zero)] else [], count := 0 }

/-- VEAWR (R137). -/
def eawrOut (e : VEnv) (v : VIn) : VOut :=
  { d := [], intake := [], accs := [(e.ea, eaTake false (valTerm e.ta false (elt v.a 0)).1 .zero)], count := 0 }

/-- VEAADD (R137). -/
def eaaddOut (e : VEnv) (v : VIn) : VOut :=
  let x := v.ea e.ea
  let y := v.ea e.imm
  { d := [], intake := [], accs := [(e.ea, ⟨x.v + y.v, x.s ||| y.s, 0⟩)], count := 0 }

/-- The elements of VSCANADD on a float type, from the accumulator so far (R86). -/
def scanExact (e : VEnv) (v : VIn) : List Nat → EauAcc → FFlags → List (Nat × Res)
  | [], _, _ => []
  | i :: t, acc, f =>
    let x := valTerm e.ta false (elt v.a i)
    let acc1 := eaTake false x.1 acc
    let f1 := f ||| x.2
    (i, (eaRead e.td e.rm acc1).raise f1) :: scanExact e v t acc1 f1

/-- The elements of VSCANADD on an integer or Q type, from the sum so far (R86). -/
def scanSum (e : VEnv) (v : VIn) : List Nat → Int → List (Nat × Res)
  | [], _ => []
  | i :: t, acc =>
    let x := acc + rawInt e.ta (elt v.a i)
    (i, if isQ e.td then satInt e.td x else (wrapTo (tyBits e.td) x, 0)) :: scanSum e v t x

/-- VSCANADD (R86). -/
def scanAddOut (e : VEnv) (v : VIn) : VOut :=
  if isFloat e.ta then .elems (scanExact e v (v.live e.len) .zero 0) else .elems (scanSum e v (v.live e.len) 0)

end Sys2Proof.Machine
end

