-- ==== Sys2Proof/Machine/VseFn.lean ====
section
/-! DEFINITION. What each vector opcode computes from its sources (R73 to R86, R133, R136 to R142, R147). -/
namespace Sys2Proof.Machine

/-- A comparison as a BIT element (R77, R78). -/
def cmpRes (e : VEnv) (code a b : Nat) : Res := let r := numCmp e.ta code a b; (b2n r.1, r.2)

/-- VSEL: every element written, by the mask from A or from B (R75, R77). -/
def selOut (e : VEnv) (v : VIn) : VOut :=
  .elems ((List.range e.len).map fun i => (i, plainRes (if v.on i then elt v.a i else elt v.b i)))

/-- A part of VCMAC: C's part added to the product's. A NaN is taken in the order A, B, C: the product's when `ab` says that A or B holds
one, else C's (R83, R125). -/
def cmacPart (t : Ty) (rm : Rm) (ab : Bool) (p c : Nat) : Res :=
  if !ab && (decTy t c).isNan then (quiet t c, flagIf (decTy t c == .nan true) fNV) else numAdd t rm false false p c

/-- VCMAC: the product, then C added to each part with a second rounding (R83). -/
def cmacRes (e : VEnv) (a b c : Nat) : Res :=
  let t := e.ta
  let p := cMul t e.rm a b
  let ab := [cRe t a, cIm t a, cRe t b, cIm t b].any fun x => (decTy t x).isNan
  (cRes t (cmacPart t e.rm ab (cRe t p.1) (cRe t c)) (cmacPart t e.rm ab (cIm t p.1) (cIm t c))).raise p.2

/-- VCABS2: fma(Re A, Re A, Im A × Im A) (R83). -/
def cabs2Res (e : VEnv) (a : Nat) : Res :=
  let p := numMul e.ta e.rm false (cIm e.ta a) (cIm e.ta a)
  (numFma e.ta e.ta e.rm false false false (cRe e.ta a) (cRe e.ta a) p.1).raise p.2

/-- VNOP: nothing (R77). -/
def fnVnop : VEnv → VIn → VOut := fun _ _ => .elems []

/-- VADD: A + B (R77). -/
def fnVadd : VEnv → VIn → VOut := perElem (fun e a b _ => numAdd e.ta e.rm false false a b)

/-- VSUB: A − B (R77). -/
def fnVsub : VEnv → VIn → VOut := perElem (fun e a b _ => numAdd e.ta e.rm false true a b)

/-- VMUL: A × B (R77). -/
def fnVmul : VEnv → VIn → VOut := perElem (fun e a b _ => numMul e.ta e.rm false a b)

/-- VFMA: A × B + C (R77). -/
def fnVfma : VEnv → VIn → VOut := perElem (fun e a b c => numFma e.ta e.ta e.rm false false false a b c)

/-- VFMS: A × B − C (R77). -/
def fnVfms : VEnv → VIn → VOut := perElem (fun e a b c => numFma e.ta e.ta e.rm false false true a b c)

/-- VFNMA: −(A × B) + C (R77). -/
def fnVfnma : VEnv → VIn → VOut := perElem (fun e a b c => numFma e.ta e.ta e.rm false true false a b c)

/-- VFNMS: −(A × B) − C (R77). -/
def fnVfnms : VEnv → VIn → VOut := perElem (fun e a b c => numFma e.ta e.ta e.rm false true true a b c)

/-- VMIN: the smaller (R77). -/
def fnVmin : VEnv → VIn → VOut := perElem (fun e a b _ => numMinMax e.ta false (byNumber e) a b)

/-- VMAX: the larger (R77). -/
def fnVmax : VEnv → VIn → VOut := perElem (fun e a b _ => numMinMax e.ta true (byNumber e) a b)

/-- VABS: |A| (R77). -/
def fnVabs : VEnv → VIn → VOut := perElem (fun e a _ _ => numAbs e.ta e.rm false a)

/-- VNEG: −A (R77). -/
def fnVneg : VEnv → VIn → VOut := perElem (fun e a _ _ => numNeg e.ta e.rm false a)

/-- VABSD: |A − B| (R77). -/
def fnVabsd : VEnv → VIn → VOut := perElem (fun e a b _ => numAbsD e.ta e.rm a b)

/-- VCPY: A (R77). -/
def fnVcpy : VEnv → VIn → VOut := perElem (fun _ a _ _ => plainRes a)

/-- VCPSGN: |A| with the sign of B (R77). -/
def fnVcpsgn : VEnv → VIn → VOut := perElem (fun e a b _ => plainRes (withSign e.ta a (b.testBit (tyBits e.ta - 1))))

/-- VCLAMP: min(max(A, B), C) (R77). -/
def fnVclamp : VEnv → VIn → VOut := perElem (fun e a b c => clampRes e a b c)

/-- VAND: A AND B (R77). -/
def fnVand : VEnv → VIn → VOut := perElem (fun _ a b _ => plainRes (Nat.land a b))

/-- VOR: A OR B (R77). -/
def fnVor : VEnv → VIn → VOut := perElem (fun _ a b _ => plainRes (Nat.lor a b))

/-- VXOR: A XOR B (R77). -/
def fnVxor : VEnv → VIn → VOut := perElem (fun _ a b _ => plainRes (Nat.xor a b))

/-- VANDN: A AND NOT B (R77). -/
def fnVandn : VEnv → VIn → VOut := perElem (fun e a b _ => plainRes (Nat.land a (notN (tyBits e.ta) b)))

/-- VNOT: NOT A (R77). -/
def fnVnot : VEnv → VIn → VOut := perElem (fun e a _ _ => plainRes (notN (tyBits e.ta) a))

/-- VSHL: A shifted left by c (R77). -/
def fnVshl : VEnv → VIn → VOut := perElem (fun e a b _ => plainRes (shlN (tyBits e.ta) a (shiftCount e b)))

/-- VSHR: A shifted right by c, zeros entering (R77). -/
def fnVshr : VEnv → VIn → VOut := perElem (fun e a b _ => plainRes (shrN (tyBits e.ta) a (shiftCount e b)))

/-- VSRA: A shifted right by c, the sign entering (R77). -/
def fnVsra : VEnv → VIn → VOut := perElem (fun e a b _ => plainRes (sraN e.ta a (shiftCount e b)))

/-- VROL: A rotated left by c (R77). -/
def fnVrol : VEnv → VIn → VOut := perElem (fun e a b _ => plainRes (rolN (tyBits e.ta) a (shiftCount e b)))

/-- VROR: A rotated right by c (R77). -/
def fnVror : VEnv → VIn → VOut := perElem (fun e a b _ => plainRes (rorN (tyBits e.ta) a (shiftCount e b)))

/-- VCLZ: leading zero bits of A (R77). -/
def fnVclz : VEnv → VIn → VOut := perElem (fun e a _ _ => plainRes (clzN (tyBits e.ta) a))

/-- VPOPC: one bits of A (R77). -/
def fnVpopc : VEnv → VIn → VOut := perElem (fun e a _ _ => plainRes (popCount (tyBits e.ta) a))

/-- VAVG: ⌊(A + B + 1) / 2⌋ (R77). -/
def fnVavg : VEnv → VIn → VOut := perElem (fun e a b _ => plainRes (avgN e.ta a b))

/-- VMULH: the upper half of A × B (R77). -/
def fnVmulh : VEnv → VIn → VOut := perElem (fun e a b _ => plainRes (mulhN e.ta a b))

/-- VBSWAP: the bytes of A in reverse order (R77). -/
def fnVbswap : VEnv → VIn → VOut := perElem (fun e a _ _ => plainRes (bswapN (tyBits e.ta) a))

/-- VBREV: the bits of A in reverse order (R77). -/
def fnVbrev : VEnv → VIn → VOut := perElem (fun e a _ _ => plainRes (brevN (tyBits e.ta) a))

/-- VCMPEQ (R77). -/
def fnVcmpeq : VEnv → VIn → VOut := perElem (fun e a b _ => cmpRes e 0 a b)

/-- VCMPNE (R77). -/
def fnVcmpne : VEnv → VIn → VOut := perElem (fun e a b _ => cmpRes e 1 a b)

/-- VCMPLT (R77). -/
def fnVcmplt : VEnv → VIn → VOut := perElem (fun e a b _ => cmpRes e 2 a b)

/-- VCMPLE (R77). -/
def fnVcmple : VEnv → VIn → VOut := perElem (fun e a b _ => cmpRes e 3 a b)

/-- VCMPGT (R77). -/
def fnVcmpgt : VEnv → VIn → VOut := perElem (fun e a b _ => cmpRes e 4 a b)

/-- VCMPGE (R77). -/
def fnVcmpge : VEnv → VIn → VOut := perElem (fun e a b _ => cmpRes e 5 a b)

/-- VCMPUN (R77). -/
def fnVcmpun : VEnv → VIn → VOut := perElem (fun e a b _ => cmpRes e 6 a b)

/-- VCMPOR (R77). -/
def fnVcmpor : VEnv → VIn → VOut := perElem (fun e a b _ => cmpRes e 7 a b)

/-- VSEL: M ? A : B (R77). -/
def fnVsel : VEnv → VIn → VOut := selOut

/-- VCOMP: the selected elements packed (R77). -/
def fnVcomp : VEnv → VIn → VOut := compOut

/-- VEXPD: elements placed where M = 1 (R77). -/
def fnVexpd : VEnv → VIn → VOut := expdOut

/-- VMCNT: the number of ones (R77). -/
def fnVmcnt : VEnv → VIn → VOut := mcntOut

/-- VMFIRST: the index of the first 1 (R77). -/
def fnVmfirst : VEnv → VIn → VOut := mfirstOut

/-- VIOTA: D = i (R77). -/
def fnViota : VEnv → VIn → VOut := iotaOut

/-- VCLASS: the class bit of A (R77). -/
def fnVclass : VEnv → VIn → VOut := perElem (fun e a _ _ => plainRes (fltClass e.ta a))

/-- VZCROSS: 1 where the sign changes (R77). -/
def fnVzcross : VEnv → VIn → VOut := withPrev fun e x y => bitRes (crosses e.ta x y)

/-- VCVT: A in the type of D (R77). -/
def fnVcvt : VEnv → VIn → VOut := perElem (fun e a _ _ => cvt e.ta e.td e.rm a)

/-- VCVTX: A × 2^s in the type of D (R77). -/
def fnVcvtx : VEnv → VIn → VOut := perElem (fun e a _ _ => cvtScaled e.ta e.td e.rm (immSigned e) a)

/-- VRINT: A rounded to an integral value (R77). -/
def fnVrint : VEnv → VIn → VOut := perElem (fun e a _ _ => numRint e.ta e.rm a)

/-- VSCALE: A × 2^B (R77). -/
def fnVscale : VEnv → VIn → VOut := perElem (fun e a b _ => numScale e.ta e.rm a (rawInt e.tb b))

/-- VLOGB: the unbiased exponent of A (R77). -/
def fnVlogb : VEnv → VIn → VOut := perElem (fun e a _ _ => numLogb e.ta a)

/-- VMSBF: ones before the first 1 (R77). -/
def fnVmsbf : VEnv → VIn → VOut := msOut false

/-- VMSIF: ones up to and including the first 1 (R77). -/
def fnVmsif : VEnv → VIn → VOut := msOut true

/-- VMULW: A × B at twice the width (R77). -/
def fnVmulw : VEnv → VIn → VOut := perElem (fun e a b _ => mulWide e.ta e.tb e.td e.rm a b)

/-- VMACW: C + A × B at twice the width (R77). -/
def fnVmacw : VEnv → VIn → VOut := perElem (fun e a b c => numFma e.ta e.td e.rm false false false a b c)

/-- VMULWSU: signed A × unsigned B at twice the width (R77). -/
def fnVmulwsu : VEnv → VIn → VOut := perElem (fun e a b _ => mulWide e.ta e.tb e.td e.rm a b)

/-- VSQRW: A × A at twice the width (R77). -/
def fnVsqrw : VEnv → VIn → VOut := perElem (fun e a _ _ => mulWide e.ta e.ta e.td e.rm a a)

/-- VDOTW: sums of A × B (R77). -/
def fnVdotw : VEnv → VIn → VOut := dotOut false false false

/-- VDOTWA: C + sums of A × B (R77). -/
def fnVdotwa : VEnv → VIn → VOut := dotOut false true false

/-- VDOTWSU: sums of signed A × unsigned B (R77). -/
def fnVdotwsu : VEnv → VIn → VOut := dotOut false false true

/-- VSUMW: sums of A (R77). -/
def fnVsumw : VEnv → VIn → VOut := dotOut true false false

/-- VEXDOT: EA += Σ A × B (R77). -/
def fnVexdot : VEnv → VIn → VOut := fun e => intakeOut false (prodTerm e.ta e.tb) e

/-- VEXDOTN: EA −= Σ A × B (R77). -/
def fnVexdotn : VEnv → VIn → VOut := fun e => intakeOut true (prodTerm e.ta e.tb) e

/-- VEXSUM: EA += Σ A (R77). -/
def fnVexsum : VEnv → VIn → VOut := fun e => intakeOut false (fun a _ => valTerm e.ta false a) e

/-- VEXSSQ: EA += Σ A × A (R77). -/
def fnVexssq : VEnv → VIn → VOut := fun e => intakeOut false (fun a _ => prodTerm e.ta e.ta a a) e

/-- VEXCDOT: complex products into two accumulators (R77). -/
def fnVexcdot : VEnv → VIn → VOut := cdotOut

/-- VEACLR: EA = 0 (R77). -/
def fnVeaclr : VEnv → VIn → VOut := eaclrOut

/-- VEARD: D[0] = EA rounded once (R77). -/
def fnVeard : VEnv → VIn → VOut := eardOut

/-- VEAWR: EA = the exact value of A[0] (R77). -/
def fnVeawr : VEnv → VIn → VOut := eawrOut

/-- VEAADD: EA += EA(IMM[2:0]) (R77). -/
def fnVeaadd : VEnv → VIn → VOut := eaaddOut

/-- VEXSUMA: EA += Σ |A| (R77). -/
def fnVexsuma : VEnv → VIn → VOut := fun e => intakeOut false (fun a _ => valTerm e.ta true a) e

/-- VEXDIFF2: EA += Σ (A − B)² (R77). -/
def fnVexdiff2 : VEnv → VIn → VOut := fun e => intakeOut false (diff2Term e.ta e.tb) e

/-- VSCANADD: running sums (R77). -/
def fnVscanadd : VEnv → VIn → VOut := scanAddOut

/-- VSCANMIN: running minima (R77). -/
def fnVscanmin : VEnv → VIn → VOut := scanMinOut false

/-- VSCANMAX: running maxima (R77). -/
def fnVscanmax : VEnv → VIn → VOut := scanMinOut true

/-- VSCANXOR: running XOR (R77). -/
def fnVscanxor : VEnv → VIn → VOut := scanXorOut

/-- VREDMIN: the minimum (R77). -/
def fnVredmin : VEnv → VIn → VOut := fun e => reduceOut (minOf false e) e

/-- VREDMAX: the maximum (R77). -/
def fnVredmax : VEnv → VIn → VOut := fun e => reduceOut (minOf true e) e

/-- VREDOR: the OR of all A (R77). -/
def fnVredor : VEnv → VIn → VOut := reduceOut fun l => plainRes (l.foldl Nat.lor 0)

/-- VREDAND: the AND of all A (R77). -/
def fnVredand : VEnv → VIn → VOut := fun e => reduceOut (fun l => plainRes (l.foldl Nat.land (2 ^ tyBits e.ta - 1))) e

/-- VARGMIN: the index of the first minimum (R77). -/
def fnVargmin : VEnv → VIn → VOut := argOut false

/-- VARGMAX: the index of the first maximum (R77). -/
def fnVargmax : VEnv → VIn → VOut := argOut true

/-- VREDXOR: the XOR of all A (R77). -/
def fnVredxor : VEnv → VIn → VOut := reduceOut fun l => plainRes (l.foldl Nat.xor 0)

/-- VREDSUM: the sum of all A, wrapping (R77). -/
def fnVredsum : VEnv → VIn → VOut := fun e => reduceOut (fun l => intSum e.td (l.map (rawInt e.ta))) e

/-- VFIR (R77). -/
def fnVfir : VEnv → VIn → VOut := firOut 1

/-- VFIRD (R77). -/
def fnVfird : VEnv → VIn → VOut := fun e => firOut (e.sub + 1) e

/-- VCMUL: A × B, complex (R77). -/
def fnVcmul : VEnv → VIn → VOut := perElem (fun e a b _ => cMul e.ta e.rm a b)

/-- VCMULC: A × conj(B) (R77). -/
def fnVcmulc : VEnv → VIn → VOut := perElem (fun e a b _ => cMul e.ta e.rm a (cConj e.ta b))

/-- VCMAC: C + A × B, complex (R77). -/
def fnVcmac : VEnv → VIn → VOut := perElem (fun e a b c => cmacRes e a b c)

/-- VCABS2: Re(A)² + Im(A)² (R77). -/
def fnVcabs2 : VEnv → VIn → VOut := perElem (fun e a _ _ => cabs2Res e a)

/-- VFFT4 (R77). -/
def fnVfft4 : VEnv → VIn → VOut := fft4Out false

/-- VIFFT4 (R77). -/
def fnVifft4 : VEnv → VIn → VOut := fft4Out true

/-- VFFT2 (R77). -/
def fnVfft2 : VEnv → VIn → VOut := fft2Out

/-- VCONJ: conj(A) (R77). -/
def fnVconj : VEnv → VIn → VOut := perElem (fun e a _ _ => conjRes e.ta a)

/-- VLERP: A + (B − A) × C (R77). -/
def fnVlerp : VEnv → VIn → VOut := perElem (fun e a b c => lerpRes e a b c)

/-- VDIFF: A[i] − A[i − 1] (R77). -/
def fnVdiff : VEnv → VIn → VOut := withPrev fun e x y => numAdd e.ta e.rm false true x y

/-- VCMAG: |A| of a complex A (R77). -/
def fnVcmag : VEnv → VIn → VOut := perElem (fun e a _ _ => numCmag e.ta e.rm (cRe e.ta a) (cIm e.ta a))

/-- VDIV: A / B (R77). -/
def fnVdiv : VEnv → VIn → VOut := perElem (fun e a b _ => divRes e a b)

/-- VSQRT: √A (R77). -/
def fnVsqrt : VEnv → VIn → VOut := perElem (fun e a _ _ => numSqrt e.ta e.rm a)

/-- VRSQRT: 1 / √A (R77). -/
def fnVrsqrt : VEnv → VIn → VOut := perElem (fun e a _ _ => numRsqrt e.ta e.rm a)

/-- VREC: 1 / A (R77). -/
def fnVrec : VEnv → VIn → VOut := perElem (fun e a _ _ => numRec e.ta e.rm a)

/-- VMOD: the remainder (R77). -/
def fnVmod : VEnv → VIn → VOut := perElem (fun e a b _ => intMod e.ta a b)

/-- VADDS: A + B, saturating (R77). -/
def fnVadds : VEnv → VIn → VOut := perElem (fun e a b _ => numAdd e.ta e.rm true false a b)

/-- VSUBS: A − B, saturating (R77). -/
def fnVsubs : VEnv → VIn → VOut := perElem (fun e a b _ => numAdd e.ta e.rm true true a b)

/-- VMULS: A × B, saturating (R77). -/
def fnVmuls : VEnv → VIn → VOut := perElem (fun e a b _ => numMul e.ta e.rm true a b)

/-- VNEGS: −A, saturating (R77). -/
def fnVnegs : VEnv → VIn → VOut := perElem (fun e a _ _ => numNeg e.ta e.rm true a)

/-- VABSS: |A|, saturating (R77). -/
def fnVabss : VEnv → VIn → VOut := perElem (fun e a _ _ => numAbs e.ta e.rm true a)

/-- VSHLS: A shifted left by c, saturating (R77). -/
def fnVshls : VEnv → VIn → VOut := perElem (fun e a b _ => shlsN e.ta a (shiftCount e b))

/-- VRSHR: the rounding shift right (R77). -/
def fnVrshr : VEnv → VIn → VOut := perElem (fun e a b _ => rshrRes e.ta a (shiftCount e b))

/-- VMACS: C + A × B, saturating (R77). -/
def fnVmacs : VEnv → VIn → VOut := perElem (fun e a b c => numFma e.ta e.ta e.rm true false false a b c)

/-- Opcodes and what they compute, part 1. -/
def fnTable1 : List (Nat × (VEnv → VIn → VOut)) :=
  [(0x00, fnVnop), (0x01, fnVadd), (0x02, fnVsub), (0x03, fnVmul), (0x04, fnVfma), (0x05, fnVfms), (0x06, fnVfnma), (0x07, fnVfnms),
   (0x08, fnVmin), (0x09, fnVmax), (0x0A, fnVabs), (0x0B, fnVneg), (0x0C, fnVabsd), (0x0D, fnVcpy), (0x0E, fnVcpsgn), (0x0F, fnVclamp),
   (0x10, fnVand), (0x11, fnVor), (0x12, fnVxor), (0x13, fnVandn), (0x14, fnVnot), (0x15, fnVshl), (0x16, fnVshr), (0x17, fnVsra),
   (0x18, fnVrol), (0x19, fnVror), (0x1A, fnVclz), (0x1B, fnVpopc)]

/-- Opcodes and what they compute, part 2. -/
def fnTable2 : List (Nat × (VEnv → VIn → VOut)) :=
  [(0x1C, fnVavg), (0x1D, fnVmulh), (0x1E, fnVbswap), (0x1F, fnVbrev), (0x20, fnVcmpeq), (0x21, fnVcmpne), (0x22, fnVcmplt),
   (0x23, fnVcmple), (0x24, fnVcmpgt), (0x25, fnVcmpge), (0x26, fnVcmpun), (0x27, fnVcmpor), (0x28, fnVsel), (0x29, fnVcomp),
   (0x2A, fnVexpd), (0x2B, fnVmcnt), (0x2C, fnVmfirst), (0x2D, fnViota), (0x2E, fnVclass), (0x2F, fnVzcross), (0x30, fnVcvt),
   (0x31, fnVcvtx), (0x32, fnVrint), (0x33, fnVscale), (0x34, fnVlogb), (0x36, fnVmsbf), (0x37, fnVmsif), (0x38, fnVmulw)]

/-- Opcodes and what they compute, part 3. -/
def fnTable3 : List (Nat × (VEnv → VIn → VOut)) :=
  [(0x39, fnVmacw), (0x3A, fnVmulwsu), (0x3B, fnVsqrw), (0x3C, fnVdotw), (0x3D, fnVdotwa), (0x3E, fnVdotwsu), (0x3F, fnVsumw),
   (0x40, fnVexdot), (0x41, fnVexdotn), (0x42, fnVexsum), (0x43, fnVexssq), (0x44, fnVexcdot), (0x45, fnVeaclr), (0x46, fnVeard),
   (0x47, fnVeawr), (0x48, fnVeaadd), (0x49, fnVexsuma), (0x4A, fnVexdiff2), (0x50, fnVscanadd), (0x51, fnVscanmin), (0x52, fnVscanmax),
   (0x53, fnVscanxor), (0x54, fnVredmin), (0x55, fnVredmax), (0x56, fnVredor), (0x57, fnVredand), (0x58, fnVargmin), (0x59, fnVargmax)]

/-- Opcodes and what they compute, part 4. -/
def fnTable4 : List (Nat × (VEnv → VIn → VOut)) :=
  [(0x5A, fnVredxor), (0x5B, fnVredsum), (0x60, fnVfir), (0x61, fnVfird), (0x62, fnVcmul), (0x63, fnVcmulc), (0x64, fnVcmac),
   (0x65, fnVcabs2), (0x66, fnVfft4), (0x67, fnVifft4), (0x68, fnVfft2), (0x69, fnVconj), (0x6A, fnVlerp), (0x6B, fnVdiff),
   (0x6C, fnVcmag), (0x70, fnVdiv), (0x71, fnVsqrt), (0x72, fnVrsqrt), (0x73, fnVrec), (0x74, fnVmod), (0x78, fnVadds), (0x79, fnVsubs),
   (0x7A, fnVmuls), (0x7B, fnVnegs), (0x7C, fnVabss), (0x7D, fnVshls), (0x7E, fnVrshr), (0x7F, fnVmacs)]

/-- What an opcode computes; a reserved one, nothing. -/
def opFn (o : Nat) : VEnv → VIn → VOut :=
  match (fnTable1 ++ fnTable2 ++ fnTable3 ++ fnTable4).find? fun e => e.1 == o with
  | some e => e.2
  | none => fun _ _ => .elems []

end Sys2Proof.Machine
end

