-- ==== Sys2Proof/Machine/VseCmd.lean ====
section
/-! DEFINITION. Vector commands, what they name, and the checks that need no address (R36, R43, R69 to R72, R75, R78, R80 to R83, R95 to
R98). -/
namespace Sys2Proof.Machine

/-- A vector command's fields (R69). -/
structure VCmd where
  opc : Nat
  rm : Nat
  sub : Nat
  ea : Nat
  men : Bool
  grp : Nat
  lnr : Nat
  sm : Nat
  sd : Nat
  sc : Nat
  sb : Nat
  sa : Nat
  imm : Nat
  deriving DecidableEq, Repr

/-- The fields of a command word (R69). -/
def vcmdOf (w : Dword) : VCmd :=
  let f := nfld w.toNat
  { opc := f 63 57, rm := f 56 54, sub := f 53 50, ea := f 49 47, men := f 46 46 == 1, grp := f 45 44, lnr := f 43 40,
    sm := f 39 34, sd := f 33 28, sc := f 27 22, sb := f 21 16, sa := f 15 10, imm := f 9 0 }

/-- The command word of fields (R69). -/
def vcmdWord (c : VCmd) : Dword :=
  BitVec.ofNat 64 (c.imm % 1024 + 1024 * (c.sa % 64 + 64 * (c.sb % 64 + 64 * (c.sc % 64 + 64 * (c.sd % 64 + 64 * (c.sm % 64 +
    64 * (c.lnr % 16 + 16 * (c.grp % 4 + 4 * (b2n c.men + 2 * (c.ea % 8 + 8 * (c.sub % 16 + 16 * (c.rm % 8 + 8 * (c.opc % 128)))))))))))))

/-- How an operation uses its mask (R75). -/
inductive MaskUse where
  | y | c | s | n
  deriving DecidableEq, Repr

/-- The streams that an opcode's entry names: A, B, C and D (R33, R77, R80). -/
structure OpUse where
  a : Bool
  b : Bool
  c : Bool
  d : Bool
  mask : MaskUse
  deriving DecidableEq, Repr

/-- Uses A, B and D. -/
def useABD (m : MaskUse) : OpUse := ⟨true, true, false, true, m⟩
/-- Uses A and D. -/
def useAD (m : MaskUse) : OpUse := ⟨true, false, false, true, m⟩
/-- Uses A, B, C and D. -/
def useABCD (m : MaskUse) : OpUse := ⟨true, true, true, true, m⟩
/-- Uses A and C, with D. -/
def useACD (m : MaskUse) : OpUse := ⟨true, false, true, true, m⟩
/-- Uses A and B and no destination. -/
def useAB (m : MaskUse) : OpUse := ⟨true, true, false, false, m⟩
/-- Uses A and no destination. -/
def useA (m : MaskUse) : OpUse := ⟨true, false, false, false, m⟩
/-- Uses a destination alone. -/
def useD (m : MaskUse) : OpUse := ⟨false, false, false, true, m⟩
/-- Uses no stream. -/
def useNone : OpUse := ⟨false, false, false, false, .n⟩

/-- The opcode lies in a range. -/
def inRange (o lo hi : Nat) : Bool := decide (lo ≤ o) && decide (o ≤ hi)

/-- What opcode `o` names; none for a reserved opcode (R77, R78). -/
def opUse (o : Nat) : Option OpUse :=
  if o = 0 then some useNone
  else if inRange o 0x01 0x03 || inRange o 0x08 0x09 || o == 0x0C || o == 0x0E then some (useABD .y)
  else if inRange o 0x04 0x07 || o == 0x0F then some (useABCD .y)
  else if inRange o 0x0A 0x0B || o == 0x0D || o == 0x14 || inRange o 0x1A 0x1B || inRange o 0x1E 0x1F then some (useAD .y)
  else if inRange o 0x10 0x13 || inRange o 0x15 0x19 || inRange o 0x1C 0x1D then some (useABD .y)
  else if inRange o 0x20 0x27 then some (useABD .n)
  else if o = 0x28 then some (useABD .s)
  else if o = 0x29 ∨ o = 0x2A then some (useAD .s)
  else if o = 0x2B ∨ o = 0x2C then some (useAD .n)
  else if o = 0x2D then some (useD .y)
  else if o = 0x2E then some (useAD .y)
  else if o = 0x2F then some (useACD .n)
  else if inRange o 0x30 0x32 || o == 0x34 then some (useAD .y)
  else if o = 0x33 then some (useABD .y)
  else if o = 0x36 ∨ o = 0x37 then some (useAD .n)
  else if o = 0x38 ∨ o = 0x3A then some (useABD .y)
  else if o = 0x39 then some (useABCD .y)
  else if o = 0x3B then some (useAD .y)
  else if o = 0x3C ∨ o = 0x3E then some (useABD .c)
  else if o = 0x3D then some (useABCD .c)
  else if o = 0x3F then some (useAD .c)
  else if o = 0x40 ∨ o = 0x41 ∨ o = 0x44 ∨ o = 0x4A then some (useAB .c)
  else if o = 0x42 ∨ o = 0x43 ∨ o = 0x49 then some (useA .c)
  else if o = 0x45 ∨ o = 0x48 then some useNone
  else if o = 0x46 then some (useD .n)
  else if o = 0x47 then some (useA .n)
  else if inRange o 0x50 0x5B then some (useAD .c)
  else if inRange o 0x60 0x63 then some (useABD .y)
  else if o = 0x64 ∨ o = 0x6A then some (useABCD .y)
  else if o = 0x65 ∨ o = 0x69 ∨ o = 0x6C then some (useAD .y)
  else if inRange o 0x66 0x68 then some (useABD .n)
  else if o = 0x6B then some (useACD .y)
  else if o = 0x70 ∨ o = 0x74 then some (useABD .y)
  else if inRange o 0x71 0x73 then some (useAD .y)
  else if inRange o 0x78 0x7A || inRange o 0x7D 0x7E then some (useABD .y)
  else if o = 0x7B ∨ o = 0x7C then some (useAD .y)
  else if o = 0x7F then some (useABCD .y)
  else none

/-- The opcode shifts by a count (R76). -/
def isShift (o : Nat) : Bool := inRange o 0x15 0x19 || inRange o 0x7D 0x7E

/-- The opcode is an FFT stage (R83). -/
def isFft (o : Nat) : Bool := inRange o 0x66 0x68

/-- The opcode acts on an accumulator (R87). -/
def isEau (o : Nat) : Bool := inRange o 0x40 0x4A

/-- An intake into an accumulator. -/
def isIntake (o : Nat) : Bool := inRange o 0x40 0x44 || o == 0x49 || o == 0x4A

/-- The opcode reduces its stream to one element (R80). -/
def isReduction (o : Nat) : Bool := inRange o 0x54 0x5B || o == 0x2B || o == 0x2C

/-- A dot product into wider lanes (R82). -/
def isDot (o : Nat) : Bool := inRange o 0x3C 0x3F

/-- The opcode ignores its length register (R80). -/
def ignoresLen (o : Nat) : Bool := o == 0 || inRange o 0x45 0x48

/-- B is read: named by the opcode, and not replaced by an immediate count (R76). -/
def usesB (c : VCmd) : Bool :=
  match opUse c.opc with
  | some u => u.b && !(isShift c.opc && c.sub % 2 == 1)
  | none => false

/-- SUB holds a value that the opcode's entry defines (R71, R77). -/
def subOk (c : VCmd) : Bool :=
  if c.opc = 0x61 then true
  else if isShift c.opc || [0x08, 0x09, 0x44, 0x46, 0x51, 0x52, 0x54, 0x55, 0x58, 0x59].contains c.opc then decide (c.sub ≤ 1)
  else c.sub == 0

/-- IMM holds a value that the opcode's entry defines (R71, R76, R77, R81 to R83). -/
def immOk (c : VCmd) : Bool :=
  if isShift c.opc then (if c.sub % 2 = 1 then decide (c.imm < 64) else c.imm == 0)
  else if c.opc = 0x31 ∨ c.opc = 0x60 ∨ c.opc = 0x61 ∨ isDot c.opc = true then true
  else if c.opc = 0x48 then decide (c.imm < 8)
  else if c.opc = 0x66 ∨ c.opc = 0x67 then decide (c.imm ≤ 18)
  else if c.opc = 0x68 then decide (c.imm ≤ 19)
  else c.imm == 0

/-- EA holds a value that the opcode's entry defines (R71). -/
def eaOk (c : VCmd) : Bool := if isEau c.opc then !(c.opc == 0x44 && c.ea % 2 == 1) else c.ea == 0

/-- MEN agrees with the mask code (R75). -/
def menOk (u : OpUse) (men : Bool) : Bool :=
  match u.mask with
  | .s => men
  | .n => !men
  | _ => true

/-- A command that VISSUE accepts by its own fields (R71). -/
def vcmdOk (c : VCmd) : Bool :=
  match opUse c.opc with
  | none => false
  | some u => decide (c.rm ≤ 4) && subOk c && immOk c && eaOk c && menOk u c.men

/-! ### Descriptors -/

/-- A descriptor from its first five words (R36). -/
def descOf (w0 w1 w2 w3 w4 : Word) : Desc :=
  { base := w0.toNat, stride := sgn 32 w1.toNat, modlen := fld w2 20 0, modpos := fld w3 20 0, trans := wbit w4 31,
    remote := wbit w4 30, rcls := wbit w4 29, hash := wbit w4 28, idx := fld w4 21 16, idxen := wbit w4 15, field := fld w4 11 10,
    fcnt := fld w4 9 8, ty := fld w4 3 0 }

/-- Descriptor `d` of context `x` as the frame holds it (R58). -/
def descReg (s : State) (x d : Nat) : Desc :=
  let r := fun k => s.reg (VC_SD x (8 * d + k))
  descOf (r 0) (r 1) (r 2) (r 3) (r 4)

/-- A transient stream, whose address fields are ignored (R36). -/
def Desc.isGather (d : Desc) : Bool := d.idxen && !d.trans

/-- The circular ring is in use (R36). -/
def Desc.isRing (d : Desc) : Bool := d.modlen != 0 && !d.trans && !d.idxen

/-- The type of a descriptor; a reserved one counts as U8 where a type is needed. -/
def Desc.type (d : Desc) : Ty := (tyOf d.ty).getD .u8

/-- The element size in bytes, 0 for BIT. -/
def Desc.size (d : Desc) : Nat := tySize d.type

/-- The descriptors that a command names through its own fields, by stream: A, B, C, mask, destination (R35). -/
def namedDescs (c : VCmd) : List (Nat × Nat) :=
  match opUse c.opc with
  | none => []
  | some u =>
    (if u.a then [(0, c.sa)] else []) ++ (if usesB c then [(1, c.sb)] else []) ++ (if u.c then [(2, c.sc)] else []) ++
      (if c.men && u.mask != .n then [(3, c.sm)] else []) ++ (if u.d then [(4, c.sd)] else [])

/-- A command names descriptor `d`, itself or as the index descriptor of a named gather or scatter (R35). -/
def cmdNames (s : State) (x d : Nat) (c : VCmd) : Bool :=
  (namedDescs c).any fun e => e.2 == d || ((descReg s x e.2).isGather && (descReg s x e.2).idx == d)

/-- A command names length register `k` (R35). -/
def cmdNamesLen (k : Nat) (c : VCmd) : Bool := !ignoresLen c.opc && c.lnr == k

/-! ### Sampled instructions -/

/-- Step 1 of a survey for one command (R152). -/
def sampleInstr (s : State) (x : Nat) (w : Dword) : SInstr :=
  let c := vcmdOf w
  let n := namedDescs c
  let get := fun k => (n.find? fun e => e.1 == k).map fun e => descReg s x e.2
  let ix := fun k => match get k with | some d => descReg s x d.idx | none => descReg s x 0
  { w := w, len := s.rf (VC_LN x c.lnr) 20 0, a := get 0, b := get 1, c := get 2, m := get 3, d := get 4,
    ai := ix 0, bi := ix 1, ci := ix 2, mi := ix 3, di := ix 4 }

/-- The command of a sampled instruction. -/
def SInstr.cmd (i : SInstr) : VCmd := vcmdOf i.w

/-- The stream of a role: 0 to 2 for A to C, 3 the mask, 4 the destination. -/
def SInstr.stream (i : SInstr) (role : Nat) : Option Desc :=
  match role with
  | 0 => i.a | 1 => i.b | 2 => i.c | 3 => i.m | _ => i.d

/-- The index descriptor of a role. -/
def SInstr.index (i : SInstr) (role : Nat) : Desc :=
  match role with
  | 0 => i.ai | 1 => i.bi | 2 => i.ci | 3 => i.mi | _ => i.di

/-- The role is a complex stream (R83). -/
def complexRole (o role : Nat) : Bool :=
  if o = 0x44 then role == 0 || role == 1
  else if inRange o 0x62 0x64 then role == 0 || role == 1 || (role == 2 && o == 0x64) || role == 4
  else if o = 0x65 ∨ o = 0x6C then role == 0
  else if isFft o then role == 0 || role == 1 || role == 4
  else if o = 0x69 then role == 0 || role == 4
  else false

/-- Q of an FFT stage (R83). -/
def fftQ (c : VCmd) : Nat := 2 ^ (c.imm % 32)

/-- The legs of an FFT stage. -/
def fftLegs (o : Nat) : Nat := if o = 0x68 then 2 else 4

/-- How many elements of a role the survey covers, and the instruction reads or writes at most (R33, R80). -/
def extentOf (i : SInstr) (role : Nat) : Nat :=
  let c := i.cmd
  let o := c.opc
  let n := i.len
  let t := c.imm + 1
  if o = 0x46 ∨ o = 0x47 then 1
  else if o = 0 ∨ o = 0x45 ∨ o = 0x48 then 0
  else if n = 0 then 0
  else if o = 0x60 then (match role with | 0 => n + t - 1 | 1 => t | _ => n)
  else if o = 0x61 then (match role with | 0 => (c.sub + 1) * (n - 1) + t | 1 => t | _ => n)
  else if isDot o then (match role with | 2 | 4 => (n - 1) / t + 1 | _ => n)
  else if isReduction o then (match role with | 4 => 1 | _ => n)
  else if o = 0x6B ∨ o = 0x2F then (match role with | 2 => 1 | _ => n)
  else if isFft o then (match role with | 1 => (if o = 0x68 then fftQ c else 3 * fftQ c) | _ => n)
  else n

/-- The count of elements a producer writes, for chaining (R96). -/
def writtenCount (i : SInstr) : Nat :=
  let o := i.cmd.opc
  if isDot o then (if i.len = 0 then 0 else (i.len - 1) / (i.cmd.imm + 1) + 1)
  else if isReduction o || o == 0x46 then 1
  else i.len

/-- The operation maps element to element under R33 and is not listed in R80 (R157). -/
def elementwise (o : Nat) : Bool :=
  !(o == 0x60 || o == 0x61 || isDot o || o == 0x29 || o == 0x2A || isReduction o || o == 0x6B || o == 0x2F || isFft o || ignoresLen o)

/-! ### Operand types (R72, R78) -/

/-- Every type of a list is the same as the first. -/
def allSame (l : List Ty) : Bool :=
  match l with
  | [] => true
  | x :: t => t.all fun y => y == x

/-- F32 or F64. -/
def isCplxTy (t : Ty) : Bool := t == .f32 || t == .f64

/-- A widening multiply's types (R78, 0x38 to 0x3B). -/
def wideOk (o : Nat) (ta : Ty) (tb tc : Option Ty) (td : Ty) : Bool :=
  if o = 0x3A then
    isInt ta && isSigned ta && (match tb with | some t => isInt t && !isSigned t && tyBits t == tyBits ta | none => false) &&
      wideTy ta == some td
  else (match tb with | some t => t == ta | none => true) && (match tc with | some t => t == td | none => true) && wideTy ta == some td

/-- A dot product's types (R78, 0x3C to 0x3F): the wide side may be signed or unsigned, and VDOTWSU also takes a signed A beside an unsigned
B of its width, as R77 words it (log 20). -/
def dotOk (o : Nat) (ta : Ty) (tb tc : Option Ty) (td : Ty) : Bool :=
  let wide := fun t => if ta == .f16 then t == .f32 else isInt t && tyBits t == 4 * tyBits ta
  let small := ta == .f16 || (isInt ta && decide (tyBits ta ≤ 16))
  let bOk := match tb with
    | some t => t == ta || (o == 0x3E && isInt ta && isSigned ta && isInt t && !isSigned t && tyBits t == tyBits ta)
    | none => o != 0x3E
  small && bOk && wide td && (match tc with | some t => wide t | none => true)

/-- The operand types of R78, for the types of A, B, C and D where they are named; `men` says that a mask is named.
VREDMIN and VREDMAX take a numeric type only: their rows name none, and do not shut BIT out (DESIGN CHOICE, log 61). -/
def typesOk (c : VCmd) (a b cc d : Option Ty) : Bool :=
  let o := c.opc
  let l := [a, b, cc, d].filterMap id
  let ta := a.getD .u8
  let td := d.getD .u8
  let num := l.all isNumeric
  let flt := l.all isFloat
  let int := l.all isInt
  let bitMask := c.men && td == .bit && (match opUse o with | some u => u.mask == .y | none => false)
  if bitMask then false
  else if o = 0 ∨ o = 0x45 ∨ o = 0x48 then true
  else if o ≤ 0x0F then num && allSame l && (o != 0x0E || flt)
  else if o ≤ 0x14 then allSame l && (int || l.all fun t => t == .bit)
  else if o ≤ 0x19 then isInt ta && ta == td && (match b with | some t => isInt t | none => true)
  else if o ≤ 0x1F then int && allSame l && (o != 0x1E || tyBits ta != 8)
  else if o ≤ 0x27 then isNumeric ta && b == a && td == .bit
  else if o = 0x28 then allSame l
  else if o ≤ 0x2A then ta == td && ta != .bit
  else if o ≤ 0x2C then ta == .bit && (td == .u32 || td == .u64)
  else if o = 0x2D then isInt td
  else if o = 0x2E then isFloat ta && td == .u16
  else if o = 0x2F then (isSigned ta || isFloat ta) && cc == a && td == .bit
  else if o ≤ 0x31 then num
  else if o = 0x32 then flt && allSame l
  else if o = 0x33 then isFloat ta && ta == td && (match b with | some t => isInt t && isSigned t | none => false)
  else if o = 0x34 then isFloat ta && td == .s32
  else if o ≤ 0x37 then ta == .bit && td == .bit
  else if o ≤ 0x3B then wideOk o ta b cc td
  else if o ≤ 0x3F then dotOk o ta b cc td
  else if o = 0x44 then l.all isCplxTy
  else if o ≤ 0x4A then num
  else if o = 0x58 ∨ o = 0x59 then isNumeric ta && td == .u32
  else if o = 0x53 ∨ o = 0x56 ∨ o = 0x57 ∨ o = 0x5A ∨ o = 0x5B then int && allSame l
  else if o ≤ 0x55 then num && allSame l
  else if o ≤ 0x61 then allSame l && (isCplxTy ta || ta == .q15 || ta == .q31)
  else if o ≤ 0x69 then allSame l && isCplxTy ta
  else if o = 0x6A then flt && allSame l
  else if o = 0x6B then num && allSame l
  else if o = 0x6C then allSame l && isCplxTy ta
  else if o = 0x70 then allSame l && (flt || int)
  else if o ≤ 0x73 then flt && allSame l
  else if o = 0x74 then int && allSame l
  else if o = 0x7D ∨ o = 0x7E then (isInt ta || isQ ta) && ta == td && (match b with | some t => isInt t | none => true)
  else allSame l && l.all fun t => isInt t || isQ t

/-! ### Chain edges (R95 to R98) -/

/-- The nearest earlier instruction of the group that names descriptor `d` as its destination (R95). -/
def producerOf (ins : List SInstr) (k d : Nat) : Option Nat :=
  ((List.range k).reverse).find? fun j =>
    match ins[j]? with
    | some i => (match opUse i.cmd.opc with | some u => u.d && i.cmd.sd == d | none => false)
    | none => false

/-- The descriptor number that a role names. -/
def roleDesc (c : VCmd) (role : Nat) : Nat :=
  match role with
  | 0 => c.sa | 1 => c.sb | 2 => c.sc | 3 => c.sm | _ => c.sd

/-- A producer of a class that chains (R96, first table). VSEL, which always has MEN = 1, chains as the table lists it: it has no mask code Y or C
(DESIGN CHOICE, log 61). -/
def producerChains (i : SInstr) : Bool :=
  let c := i.cmd
  let o := c.opc
  let single := isReduction o || o == 0x46
  let yc := match opUse o with | some u => u.mask == .y || u.mask == .c | none => false
  !(yc && c.men) && !(o == 0x29 || o == 0x2A || isFft o) && (single || !isEau o) &&
    (match i.d with | some d => !d.isGather | none => false)

/-- An element-wise operation as the second table of R96 takes it: one that the table does not list by itself; VSEL is one, for its A and B beside the
M that the table lists (DESIGN CHOICE, log 61). -/
def plainElementwise (o : Nat) : Bool :=
  !(o == 0 || inRange o 0x29 0x2D || o == 0x2F || inRange o 0x38 0x3F || isEau o || inRange o 0x50 0x5B || o == 0x60 || o == 0x61 ||
    isFft o || o == 0x6B)

/-- The second table of R96: opcode `o` takes the stream of a role as elements that chain. -/
def roleChains (o role : Nat) : Bool :=
  if plainElementwise o then decide (role ≤ 3)
  else if o = 0x29 ∨ o = 0x2A then role == 0 || role == 3
  else if inRange o 0x50 0x5B || o == 0x2B || o == 0x2C || o == 0x47 then role == 0
  else if inRange o 0x38 0x3F || isIntake o then decide (role ≤ 2)
  else if o = 0x6B ∨ o = 0x2F then role == 0 || role == 2
  else if o = 0x60 ∨ o = 0x61 then role == 0 || role == 1
  else false

/-- A consumer's use of a stream that chains (R96, second table). -/
def useChains (i : SInstr) (role : Nat) : Bool :=
  roleChains i.cmd.opc role && (match i.stream role with | some d => !d.isGather | none => false)

/-- The edge into a role of instruction `k`, with its producer and whether it chains (R95, R96). The producer's element count of condition 3 is taken
as its count of written elements (DESIGN CHOICE, log 61). -/
def edgeInto (ins : List SInstr) (k role : Nat) : Option (Nat × Bool) :=
  match ins[k]? with
  | none => none
  | some i =>
    match i.stream role with
    | none => none
    | some d =>
      match producerOf ins k (roleDesc i.cmd role) with
      | none => none
      | some j =>
        match ins[j]? with
        | none => none
        | some p => some (j, producerChains p && useChains i role && (!d.isRing || decide (writtenCount p ≤ d.modlen)) &&
            decide (extentOf i role ≤ writtenCount p))

/-- The source and mask roles. -/
def srcRoles : List Nat := [0, 1, 2, 3]

/-- The destination of instruction `j` is chained: some edge from it chains (R92). -/
def chainedDest (ins : List SInstr) (j : Nat) : Bool :=
  (List.range ins.length).any fun k => srcRoles.any fun r => edgeInto ins k r == some (j, true)

/-- The slots that instruction `j`'s destination takes (R92). -/
def slotsOf (ins : List SInstr) (j : Nat) : Nat :=
  if chainedDest ins j then
    match ins[j]? with
    | some i => if complexRole i.cmd.opc 4 then 2 else 1
    | none => 0
  else 0

/-- The slots that a group needs (R92). -/
def slotCount (ins : List SInstr) : Nat := ((List.range ins.length).map (slotsOf ins)).foldl (· + ·) 0

/-- The chained producer at which the count first exceeds eight, with the whole count (R93). -/
def tooManySlots (ins : List SInstr) : Option (Nat × Nat) :=
  if slotCount ins ≤ 8 then none
  else some (((List.range ins.length).find? fun j => decide (8 < slotCountTo ins (j + 1))).getD 0, slotCount ins)
where
  /-- The slots of the first `n` positions. -/
  slotCountTo (ins : List SInstr) (n : Nat) : Nat := ((List.range n).map (slotsOf ins)).foldl (· + ·) 0

end Sys2Proof.Machine
end

