-- ==== Sys2Proof/Machine/VseSurvey.lean ====
section
/-! DEFINITION. The survey of a chain group and the end of a group (R38 to R43, R62, R91, R106 to R111, R152 to R162, R170). -/
namespace Sys2Proof.Machine

/-! ### Addresses -/

/-- The bytes of an element at position `k` of a stream (R38, R83): one stretch, or two for a complex element. -/
def partsAt (d : Desc) (cx : Bool) (k : Nat) : List (Nat × Nat) :=
  let va := (((d.base : Int) + k * d.stride + d.field * d.size) % 2 ^ 32).toNat
  (va, d.size) :: (if cx then [((va + d.size) % 2 ^ 32, d.size)] else [])

/-- The position that element `i` takes: through the index values, the ring, or itself; none where its index value could not be read
(R38). -/
def positionOf (d : Desc) (ix : List (Option Nat)) (i : Nat) : Option Nat :=
  if d.isGather then (ix.getD i none) else some (if d.isRing then (d.modpos + i) % d.modlen else i)

/-- The stretches of virtual memory that element `i` lies in (R38, R39). -/
def elemParts (d : Desc) (cx : Bool) (ix : List (Option Nat)) (i : Nat) : List (Nat × Nat) :=
  if d.type = .bit then [((d.base + i / 8) % 2 ^ 32, 1)]
  else match positionOf d ix i with
    | some k => partsAt d cx k
    | none => []

/-! ### Conditions -/

/-- A condition on a place of a group. -/
def condAt (status cause instr stream isrc elem : Nat) : Cond :=
  { status := status, cause := cause, instr := instr, stream := stream, isrc := isrc, elem := elem, count := 0, stage := false,
    probe := 0, va := none, ipa := none, pa := none }

/-- Vector status codes (R159). -/
def vsXLATE : Nat := 1
/-- ADTRAP (R159). -/
def vsADTRAP : Nat := 2
/-- SPAN (R159). -/
def vsSPAN : Nat := 3
/-- ALIGN (R159). -/
def vsALIGN : Nat := 4
/-- PERM (R159). -/
def vsPERM : Nat := 5
/-- CHAIN_FULL (R159). -/
def vsCHAIN : Nat := 6
/-- DEFER (R159). -/
def vsDEFER : Nat := 7
/-- MCHK (R159). -/
def vsMCHK : Nat := 8
/-- OVERLAP (R159). -/
def vsOVERLAP : Nat := 9
/-- FPTRAP (R159). -/
def vsFPTRAP : Nat := 10
/-- SUSPENDED (R159). -/
def vsSUSPENDED : Nat := 11
/-- REMOTE (R159). -/
def vsREMOTE : Nat := 12

/-- The place of a condition in the visiting order of R62: the instruction, then the instruction as a whole, its accumulators, its index streams, its
other streams, and within a stream the element. -/
def Cond.place (c : Cond) : Nat :=
  (c.instr * 16 + (if c.stream = 7 then 0 else if c.stream = 6 then 1 else if c.stream = 5 then 2 + c.isrc else 8 + c.stream)) * 2 ^ 22 + c.elem

/-- A condition kept: under each status the first in the visiting order is the one that can be reported (R62). -/
def addCond (l : List Cond) (c : Cond) : List Cond :=
  if l.any fun x => x.status == c.status && decide (x.place ≤ c.place) then l else (l.filter fun x => x.status != c.status) ++ [c]

/-- The condition that a group reports: the lowest status code (R62). -/
def worstCond : List Cond → Option Cond
  | [] => none
  | c :: t =>
    match worstCond t with
    | none => some c
    | some d => if c.status ≤ d.status then some c else some d

/-! ### Step 2 -/

/-- The roles of an instruction in their visiting order, without its index streams: A, B, C, the mask and the destination (R156). -/
def allRoles : List Nat := [0, 1, 2, 3, 4]

/-- A stream breaks a rule of R43 or R83 that needs no address. -/
def streamBad (i : SInstr) (role : Nat) (d : Desc) : Bool :=
  let bit := d.type == .bit
  let cx := complexRole i.cmd.opc role
  d.ty == 15 || (role == 3 && !bit) ||
    (!d.trans &&
      ((d.modlen != 0 && decide (d.modlen ≤ d.modpos)) ||
       (bit && (d.idxen || d.modlen != 0 || d.fcnt != 0)) ||
       (!bit && d.fcnt != 0 && (decide (d.stride.natAbs < (d.fcnt + 1) * d.size) || decide (d.fcnt < d.field))) ||
       (d.idxen && d.modlen != 0) ||
       (cx && (d.fcnt != 0 || d.idxen || decide (d.stride.natAbs < 2 * d.size))) ||
       (role == 4 && !bit && !d.idxen && decide (d.stride.natAbs < d.size))))

/-- An index descriptor breaks its rule of R43. -/
def indexBad (d : Desc) : Bool :=
  !(isInt d.type && decide (2 ≤ d.size) && d.ty != 15) || d.idxen || d.trans || d.modlen != 0 ||
    (d.fcnt != 0 && (decide (d.stride.natAbs < (d.fcnt + 1) * d.size) || decide (d.fcnt < d.field)))

/-- A transient edge that does not chain, or a transient source without a producer (R97). -/
def transientBad (ins : List SInstr) (k role : Nat) (d : Desc) : Bool :=
  d.trans && role != 4 && (match edgeInto ins k role with | some (_, ch) => !ch | none => true)

/-- The index descriptor's number is a destination of the group (R42). -/
def indexIsDest (ins : List SInstr) (n : Nat) : Bool :=
  ins.any fun i => match opUse i.cmd.opc with | some u => u.d && i.cmd.sd == n | none => false

/-- The instruction as a whole breaks a rule: its length, its operand types, an FFT's length (R43, R72, R83). A command that VISSUE would
not accept can only come from a save image; it counts here too.
A reserved TYPE is reported at its stream, and the types of that instruction are then not compared (DESIGN CHOICE, log 61). -/
def instrBad (i : SInstr) : Bool :=
  let c := i.cmd
  let gather := allRoles.any fun r => match i.stream r with | some d => d.isGather | none => false
  let reserved := allRoles.any fun r => match i.stream r with | some d => d.ty == 15 | none => false
  let lim := if gather then 65536 else 1048576
  let ty := fun (d : Option Desc) => d.map Desc.type
  !vcmdOk c || (!ignoresLen c.opc && decide (lim < i.len)) ||
    (!reserved && !typesOk c (ty i.a) (ty i.b) (ty i.c) (ty i.d)) ||
    (isFft c.opc && i.len % (fftLegs c.opc * fftQ c) != 0)

/-- The accumulators that a command names (R87). -/
def namedAccs (c : VCmd) : List Nat :=
  if !isEau c.opc then []
  else if c.opc = 0x44 then [c.ea, c.ea + 1]
  else if c.opc = 0x48 then [c.ea, c.imm % 8]
  else [c.ea]

/-- The conditions of step 2 on instruction `k`, in visiting order (R62, R152). -/
def step2Instr (s : State) (x : CtxId) (ins : List SInstr) (k : Nat) (i : SInstr) : List Cond :=
  let whole := if instrBad i then [condAt vsALIGN 0 k 7 0 0] else []
  let acc := if (namedAccs i.cmd).all fun m => eaOwner s m == some x.val then [] else [condAt vsPERM 7 k 6 0 0]
  let index := allRoles.flatMap fun r =>
    match i.stream r with
    | some d =>
      if d.isGather then
        (if indexBad (i.index r) then [condAt vsALIGN 0 k 5 r 0] else []) ++
          (if indexIsDest ins d.idx then [condAt vsOVERLAP 0 k 5 r 0] else [])
      else []
    | none => []
  let streams := allRoles.flatMap fun r =>
    match i.stream r with
    | some d => if streamBad i r d || transientBad ins k r d then [condAt vsALIGN 0 k r 0 0] else []
    | none => []
  whole ++ acc ++ index ++ streams

/-- The conditions of step 2 (R93, R152). -/
def step2 (s : State) (x : CtxId) (ins : List SInstr) : List Cond :=
  let full := match tooManySlots ins with
    | some (k, n) => [{ condAt vsCHAIN 0 k 7 0 0 with count := n }]
    | none => []
  ((List.range ins.length).zip ins).flatMap (fun e => step2Instr s x ins e.1 e.2) ++ full

/-! ### Step 3 -/

/-- The survey's work so far: the device, what it found, the findings that this pass over the streams has reached, the conditions met,
whether it stopped or waits, the index values by instruction and role, and the reads of a remote window that this pass has made (R54). -/
structure Sv where
  s : State
  found : List Found
  seen : List Found
  conds : List Cond
  stop : Bool
  wait : Bool
  idx : List (Nat × Nat × List (Option Nat))
  reads : List (Nat × Nat)
  deriving DecidableEq, Repr

/-- A pass over the streams that begins: what earlier passes found, and the conditions kept from them. -/
def Sv.start (s : State) (run : Run) : Sv := ⟨s, run.found, [], run.conds, false, false, [], []⟩

/-- The page that a finding is about: the page of its translation, or of one among `l` that holds its address, or for a refused access the
page of its table entry; none where no entry was found (R154). -/
def foundPage (l : List Found) (f : Found) : Option (Nat × Nat) :=
  let here := fun (g : Found) => match g.res with | .ok e => if e.va == pageOf e.sz f.va then some (e.va, e.sz) else none | _ => none
  match f.res with
  | .ok e => some (e.va, e.sz)
  | .fail w => if w.cause = wNOMAP ∨ w.cause = wDEV ∨ w.cause = wECC then none
               else some ((l.findSome? here).getD (pageOf w.size f.va, w.size))
  | _ => none

/-- The distinct pages among findings, those whose access is refused included (R154). -/
def pagesOf (l : List Found) : Nat := ((l.filterMap (foundPage l)).eraseDups).length

/-- The finding that the survey already has for an access. -/
def findingFor (l : List Found) (asid part va : Nat) (k : AccKind) : Option Found :=
  l.find? fun f => match f.res with
    | .ok e => e.holds asid part va && e.allows k false
    | .fail _ => f.va / 4096 == va / 4096 && f.kind == k
    | _ => false

/-- What the survey has already found for an access. -/
def foundFor (l : List Found) (asid part va : Nat) (k : AccKind) : Option XRes := (findingFor l asid part va k).map fun f => f.res

/-- A finding reached by this pass. -/
def Sv.reach (v : Sv) (f : Found) : Sv := if v.seen.contains f then v else { v with seen := v.seen ++ [f] }

/-- A translation of the survey: one already found, or a new one of this context (R154, R155). -/
def svXlate (x : CtxId) (run : Run) (k : AccKind) (va : Nat) (v : Sv) : XRes × Sv :=
  match findingFor v.found run.asid run.part va k with
  | some f => (f.res, v.reach f)
  | none =>
    let r := translate (8 + x.val) run.asid run.part va k false false v.s
    match r.1 with
    | .wait => (.wait, { v with s := r.2, stop := true, wait := true })
    | y =>
      let f : Found := ⟨va, k, y, []⟩
      (y, { v with s := r.2, found := v.found ++ [f] }.reach f)

/-- The condition of a failed translation (R161, R264). -/
def failCond (f : WalkFail) (base : Cond) (va : Nat) : Cond :=
  let c := { base with cause := f.cause, stage := f.s2, probe := f.probe, va := some va, ipa := some f.ipa }
  if f.cause = wREAD ∨ f.cause = wWRITE then { c with status := vsPERM }
  else if f.cause = wACCESSED ∨ f.cause = wDIRTY then { c with status := vsADTRAP }
  else { c with status := vsXLATE, ipa := if f.s2 then some f.ipa else none }

/-- The IPA of an address in a translated page. -/
def TlbEntry.ipaOf (e : TlbEntry) (va : Nat) : Nat := e.ipa + e.addr va % szBytes e.ipaSz

/-- The target of an element is none that a stream may have (R44, R154, R286, R289). -/
def targetBad (s : State) (d : Desc) (pa : Nat) : Bool :=
  if isErg pa then (List.range 8).any fun g => groupOos s g || s.rb ERG_BGCTL g
  else if isDram s pa then !s.rb DMC_STAT 31
  else if isRemote pa then !d.remote
  else true

/-- An Erg page waits for its bank groups (R288). -/
def targetWaits (s : State) (pa : Nat) : Bool := isErg pa && (List.range 8).any fun g => !groupOos s g && !groupReady s g

/-- The state with HASHMISS set where a stream that hints hashing meets a region without it (R48). -/
def hashHint (x : CtxId) (d : Desc) (pa : Nat) (s : State) : State :=
  if d.hash && isErg pa && !hashed s pa then s.setRb (VC_SHINT x) 0 true else s

/-- One stretch of an element: its page translated, counted, and its target and alignment checked (R43, R62, R154, R155). The value of a misaligned
index element is not read, and its target is not visited (DESIGN CHOICE, log 61).
`align` asks for alignment wherever it lies, as for an index element, also where its page refuses the access; `mis` says that the element is
not at a multiple of its size; the answer is its physical address when it can be read. -/
def visitPart (x : CtxId) (run : Run) (k : AccKind) (d : Desc) (align mis : Bool) (base : Cond) (elemVa va : Nat) (v : Sv) : Option Nat × Sv :=
  if v.stop then (none, v)
  else
    let misaligned : Cond := { base with status := vsALIGN, va := some elemVa }
    let r := svXlate x run k va v
    let tooMany := decide (1024 < pagesOf r.2.seen)
    let count := fun (v : Sv) => if tooMany then
      { v with conds := addCond v.conds { base with status := vsSPAN, count := 1025, va := some va }, stop := true } else v
    match r.1 with
    | .fail f =>
      let c := failCond f base elemVa
      let cs := addCond r.2.conds c
      (none, count { r.2 with conds := if align && mis then addCond cs misaligned else cs, stop := c.status == vsXLATE })
    | .ok e =>
      let pa := e.addr va
      let v1 := { r.2 with s := hashHint x d pa r.2.s }
      let cs := if mis && (align || isDram v1.s pa || isRemote pa) then addCond v1.conds misaligned else v1.conds
      if targetBad v1.s d pa then
        let c : Cond := { base with status := vsPERM, cause := 6, va := some elemVa, ipa := some (e.ipaOf va), pa := some pa }
        (none, count { v1 with conds := addCond cs c })
      else if tooMany then (none, count { v1 with conds := cs })
      else if targetWaits v1.s pa then (none, { v1 with stop := true, wait := true })
      else (if mis && align then none else some pa, { v1 with conds := cs })
    | _ => (none, { r.2 with stop := true, wait := true })

/-- An element: every stretch, and the second page of one that crosses (R154).
An element that crosses into a second page is not aligned, and a part of it in DRAM or a remote window makes it ALIGN (DEDUCED, log 61). -/
def visitElem (x : CtxId) (run : Run) (k : AccKind) (d : Desc) (align : Bool) (base : Cond) (parts : List (Nat × Nat)) (v : Sv) : Option Nat × Sv :=
  let va0 := match parts with | p :: _ => p.1 | [] => 0
  parts.foldl (fun (acc : Option Nat × Sv) p =>
    let mis := p.1 % p.2 != 0
    let r := visitPart x run k d align mis base va0 p.1 acc.2
    let last := (p.1 + p.2 - 1) % 2 ^ 32
    let r2 := if last / 4096 = p.1 / 4096 then r.2
      else (visitPart x run k d false mis base va0 (last / 4096 * 4096) r.2).2
    (r.1, r2)) (none, v)

/-- How many elements from this one on, at most `n`, the engine reads with one access: those in one Erg word of a stream with a stride below 8
(R50), and those of a contiguous remote run in one block of 256 bytes (R54, R300). -/
def indexRun (d : Desc) (pa n : Nat) : Nat :=
  if isRemote pa then (if d.stride = d.size then Nat.min n ((256 - pa % 256) / d.size) else 1)
  else if isErg pa && decide (d.stride.natAbs < 8) then
    ((List.range (if d.stride = 0 then n else Nat.min n 8)).takeWhile fun (j : Nat) =>
      decide (((pa : Int) + (j : Int) * d.stride) / 8 = (pa : Int) / 8)).length
  else 1

/-- The bytes of index element `j` of a run from physical address `pa` on. -/
def indexBytes (d : Desc) (pa j : Nat) : List Nat :=
  let a := ((pa : Int) + j * d.stride).toNat
  (List.range d.size).map fun k => a + k

/-- What one access brings for `n` index elements from physical address `pa` on (R42, R161, R284): their values, none for one that cannot be read, or
none at all while it waits. Of an Erg word the bytes that aligned elements need count, and a byte that fails fails the elements that need it. -/
def readIndex (x : CtxId) (d : Desc) (pa n : Nat) (v : Sv) : Option (List (Option Nat)) × Sv :=
  let value := fun (l : List Byte) => wrapTo 32 (rawInt d.type (leNat l))
  if isErg pa then
    let els := (List.range n).map (indexBytes d pa)
    let need := (els.filter fun l => (l.headD 0) % d.size == 0).flatten
    let r := ergWordRead 0 (pa / 8 * 8) need.contains v.s
    (some (els.map fun l => if l.any fun a => (eccDecode (v.s.wrong a)).bad then none else some (value (l.map (readByte r.2)))), { v with s := r.2 })
  else
    let len := n * d.size
    let occ := (v.reads.filter fun e => e.1 == pa && e.2 == len).length
    match vseRead x (rclsOf d) pa len occ v.s with
    | (.wait, s1) => (none, { v with s := s1, stop := true, wait := true })
    | (.ok b, s1) =>
      (some ((List.range n).map fun j => some (value ((b.drop (d.size * j)).take d.size))), { v with s := s1, reads := v.reads ++ [(pa, len)] })
    | (_, s1) => (some (List.replicate n none), { v with s := s1, reads := v.reads ++ [(pa, len)] })

/-- The elements from `i` on of an index stream: translated, and their values read when `read` (R152, R156); `buf` holds what the last access brought
for the elements to come. A value that could not be read ends the survey with IDX_ECC at its element (R161). -/
def visitIndex (x : CtxId) (run : Run) (instr role : Nat) (d : Desc) (read : Bool) :
    Nat → Nat → List (Option Nat) → Sv → List (Option Nat) → List (Option Nat) × Sv
  | 0, _, _, v, acc => (acc, v)
  | n + 1, i, buf, v, acc =>
    if v.stop then (acc, v)
    else
      let parts := elemParts d false [] i
      let base := { condAt 0 0 instr 5 role i with va := match parts with | p :: _ => some p.1 | [] => none }
      let r := visitElem x run .vsrc d true base parts v
      let fails := fun (pa : Nat) (w : Sv) =>
        { w with stop := true, conds := addCond w.conds { base with status := vsXLATE, cause := 3, pa := some pa } }
      match r.1, buf with
      | some _, some y :: t => visitIndex x run instr role d read n (i + 1) t r.2 (acc ++ [some y])
      | some pa, none :: _ => (acc ++ [none], fails pa r.2)
      | some pa, [] =>
        if read && !r.2.stop then
          let q := readIndex x d pa (indexRun d pa (n + 1)) r.2
          match q.1 with
          | some (some y :: t) => visitIndex x run instr role d read n (i + 1) t q.2 (acc ++ [some y])
          | some (none :: _) => (acc ++ [none], fails pa q.2)
          | _ => (acc ++ [none], q.2)
        else visitIndex x run instr role d read n (i + 1) [] r.2 (acc ++ [none])
      | none, b => visitIndex x run instr role d read n (i + 1) (b.drop 1) r.2 (acc ++ [none])

/-- The elements from `i` on of a stream (R154, R156). -/
def visitStream (x : CtxId) (run : Run) (instr role : Nat) (d : Desc) (cx : Bool) (ix : List (Option Nat)) : Nat → Nat → Sv → Sv
  | 0, _, v => v
  | n + 1, i, v =>
    if v.stop then v
    else
      let k : AccKind := if role = 4 then .vdst else .vsrc
      let v1 := (visitElem x run k d false (condAt 0 0 instr role 0 i) (elemParts d cx ix i) v).2
      visitStream x run instr role d cx ix n (i + 1) v1

/-- What a list holds for a role of an instruction: its index values, or what is known of them. -/
def idxOf {α : Type} (l : List (Nat × Nat × List α)) (instr role : Nat) : Option (List α) :=
  (l.find? fun e => e.1 == instr && e.2.1 == role).map fun e => e.2.2

/-- The index stream of a role visited, when it has one: its values, none at an element that could not be read. Values that the survey has
already are not read again. -/
def visitRoleIndex (x : CtxId) (run : Run) (instr : Nat) (i : SInstr) (read : Bool) (role : Nat) (v : Sv) : Sv :=
  match i.stream role with
  | some d =>
    if d.isGather && !v.stop then
      let have_ := idxOf run.idx instr role
      let r := visitIndex x run instr role (i.index role) (read && have_.isNone) (extentOf i role) 0 [] v []
      { r.2 with idx := r.2.idx ++ [(instr, role, match have_ with | some l => l.map some | none => r.1)] }
    else v
  | none => v

/-- The index streams whose values are all known. -/
def idxKnown (n : Nat → Nat → Nat) (l : List (Nat × Nat × List (Option Nat))) : List (Nat × Nat × List Nat) :=
  l.filterMap fun e => if e.2.2.all Option.isSome && decide (n e.1 e.2.1 ≤ e.2.2.length) then some (e.1, e.2.1, e.2.2.filterMap id) else none

/-- The stream of a role visited; a gather or scatter at the elements whose index values are known (R156). -/
def visitRole (x : CtxId) (run : Run) (instr : Nat) (i : SInstr) (role : Nat) (v : Sv) : Sv :=
  match i.stream role with
  | some d =>
    if d.trans || v.stop then v
    else if d.isGather then
      match idxOf v.idx instr role with
      | some l => visitStream x run instr role d (complexRole i.cmd.opc role) l (extentOf i role) 0 v
      | none => v
    else visitStream x run instr role d (complexRole i.cmd.opc role) [] (extentOf i role) 0 v
  | none => v

/-- Step 3 over the group's instructions (R152, R156). -/
def step3 (x : CtxId) (run : Run) (read : Bool) (v : Sv) : Sv :=
  ((List.range run.ins.length).zip run.ins).foldl (fun v e =>
    let v1 := allRoles.foldl (fun v r => visitRoleIndex x run e.1 e.2 read r v) v
    allRoles.foldl (fun v r => visitRole x run e.1 e.2 r v) v1) v

/-! ### Step 4 -/

/-- The physical address of a virtual one under the group's pins (R155). -/
def pinned (run : Run) (k : AccKind) (va : Nat) : Nat :=
  match foundFor run.found run.asid run.part va k with
  | some (.ok e) => e.addr va
  | _ => 0

/-- The physical bytes of an element. -/
def elemBytesPa (run : Run) (k : AccKind) (d : Desc) (cx : Bool) (ix : List (Option Nat)) (i : Nat) : List (Nat × Nat) :=
  (elemParts d cx ix i).flatMap fun p => (List.range p.2).map fun j => let va := (p.1 + j) % 2 ^ 32; (va, pinned run k va)

/-- Two streams' descriptors make an exact alias (R157). -/
def aliasDescs (i : SInstr) (d s : Desc) : Bool :=
  elementwise i.cmd.opc && d.base == s.base && d.stride == s.stride && d.modlen == s.modlen && d.modpos == s.modpos &&
    d.fcnt == s.fcnt && d.field == s.field && d.size == s.size && (d.type == .bit) == (s.type == .bit) && !d.idxen && !s.idxen &&
    decide (d.size ≤ d.stride.natAbs) && (d.modlen == 0 || decide (i.len ≤ d.modlen))

/-- The destination and a source A, B or C are an exact alias: by their descriptors, and each element pair physically too, from the address at which both
begin (R157). A real element beside a complex one coincides with its real part (DEDUCED, log 61). -/
def exactAlias (run : Run) (i : SInstr) (role : Nat) (d s : Desc) : Bool :=
  role != 3 && aliasDescs i d s && (List.range i.len).all fun e =>
    let a := (elemBytesPa run .vdst d (complexRole i.cmd.opc 4) [] e).map fun b => b.2
    let b := (elemBytesPa run .vsrc s (complexRole i.cmd.opc role) [] e).map fun b => b.2
    a.take b.length == b.take a.length

/-- The physical bytes of a whole stream of an instruction. -/
def streamPas (run : Run) (instr : Nat) (i : SInstr) (role : Nat) (d : Desc) : List Nat :=
  let ix := ((idxOf run.idx instr role).getD []).map some
  (List.range (extentOf i role)).flatMap fun e => (elemBytesPa run .vsrc d (complexRole i.cmd.opc role) ix e).map fun b => b.2

/-- The physical bytes that instruction `instr` reads and its destination must not share (R157). -/
def readPas (run : Run) (instr : Nat) (i : SInstr) (dst : Desc) : List Nat :=
  (srcRoles.flatMap fun r => match i.stream r with
    | some d => if d.trans || exactAlias run i r dst d then [] else streamPas run instr i r d
    | none => []) ++
  (allRoles.flatMap fun r => match i.stream r with
    | some d => if d.isGather then (List.range (extentOf i r)).flatMap fun e => (elemBytesPa run .vsrc (i.index r) false [] e).map fun b => b.2 else []
    | none => [])

/-- The first byte of instruction `instr`'s destination that it also reads: the element and the virtual address (R157). -/
def overlapOf (run : Run) (instr : Nat) (i : SInstr) : Option (Nat × Nat) :=
  match i.d with
  | none => none
  | some d =>
    if d.trans then none
    else
      let src := readPas run instr i d
      let ix := ((idxOf run.idx instr 4).getD []).map some
      (List.range (extentOf i 4)).findSome? fun e =>
        ((elemBytesPa run .vdst d (complexRole i.cmd.opc 4) ix e).find? fun b => src.contains b.2).map fun b => (e, b.1)

/-- Step 4: the overlap rule over the group (R157). -/
def step4 (run : Run) : Option Cond :=
  ((List.range run.ins.length).zip run.ins).findSome? fun e =>
    (overlapOf run e.1 e.2).map fun o => { condAt vsOVERLAP 0 e.1 4 0 o.1 with va := some o.2 }

/-! ### Step 5 -/

/-- The width of the widest operand that is not BIT, in bits; none when all are BIT or there is none (R434). -/
def widestOf (i : SInstr) : Option Nat :=
  let ws := allRoles.filterMap fun r => if r = 3 then none else match i.stream r with
    | some d => if d.type = .bit then none else some (tyBits d.type)
    | none => none
  if ws.isEmpty then none else some (ws.foldl Nat.max 0)

/-- count(i) of R434. -/
def elgCount (i : SInstr) : Nat :=
  let c := i.cmd
  match elgClass c.opc with
  | 0 => 0
  | 7 => if c.opc = 0x44 then 4 * i.len else i.len
  | 9 => i.len * (c.imm + 1)
  | _ => if (widestOf i).isNone then (i.len + 7) / 8 else i.len

/-- The costliest target among a stream's pages, in pJ per byte (R434). -/
def streamCost (s : State) (run : Run) (k : AccKind) (d : Desc) (cx : Bool) (ix : List (Option Nat)) (n : Nat) : Nat :=
  ((List.range n).flatMap fun e => (elemParts d cx ix e).map fun p =>
    let pa := pinned run k p.1
    elgMem s (if isErg pa then 0 else if isRemote pa then 2 else 1)).foldl Nat.max 0

/-- The energy of one stream, in pJ (R434). -/
def streamEnergy (s : State) (run : Run) (k : AccKind) (d : Desc) (cx : Bool) (ix : List (Option Nat)) (n : Nat) : Nat :=
  let bytes := if d.type = .bit then (n + 7) / 8 else n * d.size * (if cx then 2 else 1)
  bytes * streamCost s run k d cx ix n

/-- The energy of one instruction, in pJ (R434). -/
def instrEnergy (s : State) (run : Run) (instr : Nat) (i : SInstr) : Nat :=
  let own := elgCount i * elgOp s (elgClass i.cmd.opc) ((widestOf i).getD 8)
  let st := allRoles.map fun r => match i.stream r with
    | some d =>
      if d.trans then 0
      else
        let ix := ((idxOf run.idx instr r).getD []).map some
        let n := extentOf i r
        streamEnergy s run (if r = 4 then .vdst else .vsrc) d (complexRole i.cmd.opc r) ix n +
          (if d.isGather then streamEnergy s run .vsrc (i.index r) false [] n else 0)
    | none => 0
  own + st.foldl (· + ·) 0

/-- The group's estimate E in nJ (R434). -/
def groupEnergy (s : State) (run : Run) : Nat :=
  let pj := (s.reg ELG_GRPFIX).toNat + (((List.range run.ins.length).zip run.ins).map fun e => instrEnergy s run e.1 e.2).foldl (· + ·) 0
  (pj + 999) / 1000

/-! ### The end of a group -/

/-- The fault registers of a context (R161). -/
def faultRegs (x : CtxId) (c : Cond) (s : State) : State :=
  let info := 2 ^ 31 + c.cause % 16 * 2 ^ 24 + c.status * 2 ^ 16 + b2n c.stage * 2 ^ 15 + c.probe % 8 * 2 ^ 12 +
    (if c.stream = 5 then c.isrc * 2 ^ 9 else 0) + c.stream * 2 ^ 6 + c.instr % 8 * 8
  let s1 := (s.setReg (VC_FINFO x) (BitVec.ofNat 32 info)).setReg (VC_FELEM x) (BitVec.ofNat 32 (c.elem % 2 ^ 21))
  let s2 := match c.va with | some a => s1.setReg (VC_FVA x) (BitVec.ofNat 32 a) | none => s1
  let s3 := match c.ipa with | some a => s2.setReg64 (VC_FIPA_LO x) (VC_FIPA_HI x) a | none => s2
  match c.pa with | some a => s3.setReg64 (VC_FPA_LO x) (VC_FPA_HI x) a | none => s3

/-- The requests of a context that are still outstanding, abandoned (R370). -/
def abandonRequests (x : CtxId) (s : State) : State :=
  { s with outst := s.outst.map fun o => if o.owner = .vse x.val then { o with owner := .nobody, gone := true } else o }

/-- The head group's closing issue number. -/
def headIssue (s : State) (x : CtxId) : Nat :=
  match (s.vc x).closed with
  | g :: _ => (match g.cmds.getLast? with | some q => q.issue | none => 0)
  | [] => 0

/-- The head group leaves the queue, is appended again, or stays as retained (R111, R162). -/
def headLeaves (x : CtxId) (ok retain : Bool) (s : State) : State :=
  let c := s.vc x
  match c.closed with
  | [] => s
  | g :: t =>
    let g' := { g with fences := [], tooMany := none }
    if retain then s.setVc x { c with closed := g' :: t, cur := none, sv := none, retained := true, rsp := [], unsent := [] }
    else
      let c1 := { c with closed := if ok && c.rule == 2 then t ++ [g'] else t, cur := none, sv := if ok then c.sv else none,
                         retained := false, rsp := [], unsent := [] }
      headArrives x (s.setVc x c1)

/-- A group ends with a status: the queue, HALT, the fault registers, and its record with what follows it (R106 to R110, R161, R162). -/
def groupEnd (x : CtxId) (c : Cond) (retain : Bool) (flags energy : Nat) (s : State) : State :=
  let issue := headIssue s x
  let ok := c.status == 0
  let fin := c.status == 0 || c.status == vsFPTRAP
  let s1 := headLeaves x ok retain (walksAbandon (8 + x.val) (abandonRequests x s))
  let s2 := if ok then s1 else faultRegs x c (s1.setRb (VC_STAT x) 28 true)
  let s3 := if fin || !retain then s2.setReg (VSE_FPS x) (s2.reg (VSE_FPS x) ||| BitVec.ofNat 32 (flags % 64)) else s2
  let w0 := BitVec.ofNat 32 (x.val * 2 ^ 24 + c.status * 2 ^ 16 + issue % 65536)
  let w1 := if ok then 0 else BitVec.ofNat 32 (c.instr % 8 * 2 ^ 29 + c.stream * 2 ^ 26 + c.elem % 2 ^ 21)
  let r : CRec := ⟨[w0, w1, BitVec.ofNat 32 c.count, BitVec.ofNat 32 (flags % 64), BitVec.ofNat 32 energy], c.status, issue, false⟩
  let s4 := recGive x r s3
  if c.status = vsMCHK then icuEvent (64 + 8 * x.val + 3) s4 else s4

/-! ### Running the survey -/

/-- The microsequencer works: patch processing has locked it and no control-store error has stopped it (R186, R190). -/
def vmsRuns (s : State) : Bool := vmsLocked s && !s.rb VMS_ERR 30

/-- A survey of the context may go on now: the engine works, and no request waits that abandons it (R171, R172, R183). -/
def mayGoOn (s : State) (x : CtxId) : Bool :=
  vmsRuns s && ctxAlloc s x && !(s.vc x).suspPend && s.rf PMU_STAT 26 24 == 0 && decide (s.power ≤ 1)

/-- A group of the context may be dealt with at the head of its queue: the context is neither halted nor suspended (R110, R172). -/
def mayHead (s : State) (x : CtxId) : Bool := mayGoOn s x && !s.rb (VC_STAT x) 28 && !s.rb (VC_STAT x) 26

/-- A survey may start for a context now: its ring is not full (R91, R108). -/
def maySurvey (s : State) (x : CtxId) : Bool := mayHead s x && !ringFull s x

/-- The group of a context that its next survey takes, when it may begin: the head, or the next one while the head streams (R91, R111). -/
def surveyGroup (s : State) (x : CtxId) : Option Grp :=
  let c := s.vc x
  if c.sv.isSome then none
  else match c.cur with
    | none =>
      match c.closed with
      | g :: _ => if g.tooMany.isNone && !waitsTrigger s x then some g else none
      | [] => none
    | some _ => if trigRule s x = 0 then (match c.closed with | _ :: g :: _ => if g.tooMany.isNone then some g else none | _ => none) else none

/-- Step 1: a group's survey begins (R152). -/
def surveyBegin (s : State) (x : CtxId) (g : Grp) : Run :=
  { ins := g.cmds.map fun q => sampleInstr s x.val q.w, drm := s.rf (VSE_FPS x) 25 24, te := s.rf (VSE_FPS x) 13 8,
    asid := s.rf (VC_XLAT x) 7 0, part := s.rf (VC_XLAT x) 11 8, phase := .survey, found := [], idx := [], pages := 0, energy := 0,
    slow := false, slots := 0, stamp := 0, pos := 0, vals := [], wcnt := [], flags := 0, trap := none, vcomp := 0, stopped := none,
    refused := [], eard := [], conds := [], ended := false, checked := false, undo := [], fls := [], masks := [] }

/-- A group fails at survey: it is retained (R159, R162). Its VC_WCNTk stay those of the group before it, as the rules name no change of them
(DESIGN CHOICE, log 61). -/
def surveyFails (x : CtxId) (c : Cond) (energy : Nat) (s : State) : State := groupEnd x c true 0 energy s

/-- Step 5: the verdict, and the way to step 6 (R170, R435). -/
def surveyVerdict (x : CtxId) (run : Run) (s : State) : State :=
  match elgVerdict run.energy s with
  | (.wait, s1) => s1.modVc x fun c => { c with sv := some { run with phase := .inflight } }
  | (.defer n, s1) => surveyFails x { condAt vsDEFER 0 0 0 0 0 with count := n } run.energy s1
  | (v, s1) =>
    let s2 := if v = .slow then s1.setReg (VC_SLOWCNT x) (s1.reg (VC_SLOWCNT x) + 1) else s1
    let r := { run with phase := .table, slow := v == .slow, stamp := s2.stamps, pages := pagesOf run.found, slots := slotCount run.ins }
    { s2.modVc x fun c => { c with sv := none, cur := some r, rsp := [] } with stamps := s2.stamps + 1 }

/-- Step 3 done, or to be gone on with: the translations found and the conditions met are kept. -/
def Run.surveyed (run : Run) (v : Sv) : Run := { run with found := v.found, conds := v.conds, checked := true }

/-- Steps 2 to 5 of the head group's survey (R152). What a survey ahead of the head has met is reported now (R91). -/
def surveyFull (x : CtxId) (run : Run) (s : State) : State :=
  let c2 := if run.ended then run.conds else if run.checked then [] else step2 s x run.ins
  match worstCond c2 with
  | some c => surveyFails x c 0 s
  | none =>
    let v := step3 x run true (.start s run)
    let known := idxKnown (fun k r => match run.ins[k]? with | some i => extentOf i r | none => 0) v.idx
    let run1 := { run.surveyed v with idx := known }
    if v.wait then v.s.modVc x fun c => { c with sv := some { run1 with phase := .survey } }
    else match worstCond v.conds with
      | some c => surveyFails x c 0 v.s
      | none =>
        match step4 run1 with
        | some c => surveyFails x c 0 v.s
        | none => surveyVerdict x { run1 with energy := groupEnergy v.s run1 } v.s

/-- Steps 1 to 3 without index reads, while the previous group has not completed (R91): what they meet is kept, and reported later. -/
def surveyAhead (x : CtxId) (run : Run) (s : State) : State :=
  let c2 := if run.checked then [] else step2 s x run.ins
  if (worstCond c2).isSome then s.modVc x fun c => { c with sv := some { run with conds := c2, ended := true, phase := .prev } }
  else
    let v := step3 x run false (.start s run)
    v.s.modVc x fun c => { c with sv := some { run.surveyed v with ended := v.stop && !v.wait, phase := if v.wait then .survey else .prev } }

/-- A survey begun or gone on with. -/
def surveyRun (x : CtxId) (run : Run) (s : State) : State := if (s.vc x).cur.isSome then surveyAhead x run s else surveyFull x run s

/-- The engine surveys (R152): a survey under way goes on, or the next group's begins. -/
def surveyGo (x : CtxId) (s : State) : State :=
  match (s.vc x).sv with
  | some r => if mayGoOn s x && r.phase == .survey then surveyRun x r s else s
  | none =>
    match (if maySurvey s x then surveyGroup s x else none) with
    | some g => surveyRun x (surveyBegin s x g) s
    | none => s

/-- A survey that waited for the previous group goes on once that group has completed with OK (R91). Its start rule has been met when it began: a
triggered rule set since then holds for the groups that reach the head after it (DESIGN CHOICE, log 61). -/
def surveyResumed (x : CtxId) (s : State) : State :=
  match (s.vc x).sv with
  | some r => if mayGoOn s x && r.phase == .prev && (s.vc x).cur.isNone then surveyFull x r s else s
  | none => s

/-- A survey that waited in step 5 takes its verdict when the limit allows it (R436). -/
def surveyInflight (x : CtxId) (s : State) : State :=
  match (s.vc x).sv with
  | some r => if mayGoOn s x && r.phase == .inflight then surveyVerdict x r s else s
  | none => s

/-- A survey in steps 1 to 5 abandoned: the group stays whole in its queue (R171, R172). -/
def surveyAbandon (x : CtxId) (s : State) : State :=
  if (s.vc x).sv.isSome then
    walksAbandon (8 + x.val) (abandonIdx (s.modVc x fun c => { c with sv := none, rsp := if c.cur.isNone then [] else c.rsp }))
  else s
where
  /-- The index reads that have left are awaited no more while nothing streams. -/
  abandonIdx (t : State) : State := if (t.vc x).cur.isNone then abandonRequests x t else t

/-! ### Step 6 -/

/-- No other group of a phase came before this stamp. -/
def firstInPhase (s : State) (p : RunPhase) (stamp : Nat) : Bool :=
  s.vctx.toList.all fun c => match c.cur with | some r => !(r.phase == p && decide (r.stamp < stamp)) | none => true

/-- A group claims its survey-table entries, in the order of arrival (R155). -/
def tableClaim (x : CtxId) (s : State) : State :=
  match (s.vc x).cur with
  | some r =>
    if r.phase == .table && firstInPhase s .table r.stamp && decide (tableInUse s + r.pages ≤ 1024) then
      { s.modVc x fun c => { c with cur := some { r with phase := .slots, stamp := s.stamps } } with stamps := s.stamps + 1 }
    else s
  | none => s

/-- A stream of a group has an Erg element that is not naturally aligned (R45). -/
def runsUnaligned (run : Run) : Bool :=
  ((List.range run.ins.length).zip run.ins).any fun e => allRoles.any fun r =>
    match e.2.stream r with
    | some d =>
      !d.trans && d.type != .bit &&
        ((List.range (extentOf e.2 r)).any fun j =>
          (elemParts d (complexRole e.2.cmd.opc r) (((idxOf run.idx e.1 r).getD []).map some) j).any fun p =>
            let pa := pinned run (if r = 4 then .vdst else .vsrc) p.1
            isErg pa && pa % p.2 != 0)
    | none => false

/-- A group takes its slots, in the order in which the surveys completed, and starts to stream (R45, R94). -/
def slotClaim (x : CtxId) (s : State) : State :=
  match (s.vc x).cur with
  | some r =>
    if r.phase == .slots && firstInPhase s .slots r.stamp && decide (slotsInUse s + r.slots ≤ 8) then
      let s1 := if runsUnaligned r then s.setRb (VC_SHINT x) 1 true else s
      s1.modVc x fun c => { c with cur := some { r with phase := .stream } }
    else s
  | none => s

end Sys2Proof.Machine
end

