-- ==== Sys2Proof/Machine/VseRun.lean ====
section
/-! DEFINITION. The streaming of one instruction of an admitted group: its reads and its writes, and the end of a stopped group (R40, R41, R54 to R56,
R96 to R99, R131, R150, R161, R165 to R168). -/
namespace Sys2Proof.Machine

/-! ### Stretches of memory -/

/-- One access of a stream: the bytes it carries in stream order, each with its element, its virtual and its physical address, and how many accesses
of the instruction to the same bytes of a remote window stand before it (R54). -/
structure Chunk where
  bytes : List (Nat × Nat × Nat)
  occ : Nat
  deriving DecidableEq, Repr

/-- The first byte of an access. -/
def Chunk.head (c : Chunk) : Nat × Nat × Nat := c.bytes.headD (0, 0, 0)

/-- The element of its first byte. -/
def Chunk.elem (c : Chunk) : Nat := c.head.1

/-- The physical address of its first byte. -/
def Chunk.pa (c : Chunk) : Nat := c.head.2.2

/-- How many bytes it carries. -/
def Chunk.len (c : Chunk) : Nat := c.bytes.length

/-- A byte travels in the access whose last byte is `z`: in the Erg with the bytes of its element, and of its stream's neighbours when the
stride is below 8, that lie in one Erg word (R50); in a remote window with a contiguous run of elements, else of its own element, within one
block of 256 bytes (R54, R300). -/
def chunkJoins (d : Desc) (z b : Nat × Nat × Nat) : Bool :=
  let same := z.1 == b.1
  let contig := b.2.2 == z.2.2 + 1 && b.2.2 / 256 == z.2.2 / 256
  if isErg b.2.2 then isErg z.2.2 && b.2.2 / 8 == z.2.2 / 8 && (same || (!d.isGather && decide (d.stride.natAbs < 8)) || d.type == .bit)
  else contig && (same || (isRemote b.2.2 && !d.isGather))

/-- One byte more, in the last access or in one of its own; the accesses are held last first. -/
def chunkAdd (d : Desc) (l : List Chunk) (b : Nat × Nat × Nat) : List Chunk :=
  match l with
  | c :: t => if chunkJoins d (c.bytes.getLastD (0, 0, 0)) b then ⟨c.bytes ++ [b], 0⟩ :: t else ⟨[b], 0⟩ :: l
  | [] => [⟨[b], 0⟩]

/-- The accesses that carry the bytes of a stream, in order. -/
def chunksOf (d : Desc) (l : List (Nat × Nat × Nat)) : List Chunk := (l.foldl (chunkAdd d) []).reverse

/-- Two accesses to the same bytes of a remote window. -/
def Chunk.same (c d : Chunk) : Bool := isRemote c.pa && c.pa == d.pa && c.len == d.len

/-- The accesses of a stream told apart from those before them to the same bytes of a remote window: each is a request of its own (R54). -/
def numbered (before l : List Chunk) : List Chunk :=
  if l.any fun c => isRemote c.pa then l.foldl (fun acc c => acc ++ [{ c with occ := ((before ++ acc).filter c.same).length }]) [] else l

/-- A stream's index values under the group's survey. -/
def indexVals (run : Run) (instr role : Nat) : List (Option Nat) := ((idxOf run.idx instr role).getD []).map some

/-- The bytes of the elements `es` of a stream, each with its element and its addresses; a byte of a BIT stream stands once, under its first
element. -/
def streamBytes (run : Run) (instr role : Nat) (k : AccKind) (d : Desc) (cx : Bool) (es : List Nat) : List (Nat × Nat × Nat) :=
  let ix := indexVals run instr role
  if d.type = .bit then
    ((es.map fun e => e / 8).eraseDups).flatMap fun b =>
      let e := (es.find? fun e => e / 8 == b).getD 0
      (elemBytesPa run k d false [] (8 * b)).map fun p => (e, p.1, p.2)
  else es.flatMap fun e => (elemBytesPa run k d cx ix e).map fun p => (e, p.1, p.2)

/-! ### Reads -/

/-- A request of this address leaves the node, or is held, and is answered later (R20, R21). -/
def defers (s : State) (pa : Nat) : Bool :=
  isRemote pa && nodeValid s && (if nfld pa 45 32 == nodeId s then !masterOn s 5 else (routePort s (nfld pa 45 32)).isSome)

/-- A read that must wait for its answer has not got it yet. -/
def unanswered (s : State) (x : CtxId) (c : Chunk) : Bool :=
  let had := (vseAnswers s x c.pa c.len).length
  decide (had ≤ c.occ) && (defers s c.pa || decide (c.occ < had + vseSent s x c.pa c.len))

/-- Why a stream stopped: the element, its addresses and what its access brought. -/
structure Fail where
  elem : Nat
  va : Nat
  pa : Nat
  res : VRes
  deriving DecidableEq, Repr

/-- The byte of an access that could not be read, or written. -/
def badByte (s : State) (c : Chunk) : Nat × Nat × Nat :=
  (c.bytes.find? fun b =>
    if isErg b.2.2 then (eccDecode (s.wrong b.2.2)).bad else decide (2 ≤ smGet zeroDefault s.dramErr (b.2.2 / 8 * 8))).getD c.head

/-- The failure of an access: at the byte whose word failed, or at its first byte when the whole request did. -/
def failOf (s : State) (c : Chunk) (v : VRes) : Fail :=
  let b := if v = .mchk then badByte s c else c.head
  ⟨b.1, b.2.1, if v = .mchk then b.2.2 / 8 * 8 else b.2.2, v⟩

/-- One access of a stream read: an Erg word once, whatever bytes of it are needed. -/
def readChunk (x : CtxId) (cls : Nat) (c : Chunk) (s : State) : VRes × State :=
  if isErg c.pa then
    let r := ergWordRead 0 (c.pa / 8 * 8) (fun a => c.bytes.any fun b => b.2.2 == a) s
    (if r.1 then .mchk else .ok (c.bytes.map fun b => readByte s b.2.2), r.2)
  else vseRead x cls c.pa c.len c.occ s

/-- What the accesses of a stream bring, before any of them is performed: their bytes, 0 where one fails, the failures, and whether some must
wait. -/
def peekChunks (x : CtxId) (cls : Nat) (l : List Chunk) (s : State) : List Byte × List Fail × Bool :=
  l.foldl (fun acc c =>
    match (readChunk x cls c s).1 with
    | .ok b => (acc.1 ++ b, acc.2.1, acc.2.2)
    | .wait => (acc.1 ++ List.replicate c.len 0, acc.2.1, true)
    | v => (acc.1 ++ List.replicate c.len 0, acc.2.1 ++ [failOf s c v], acc.2.2)) ([], [], false)

/-- Bytes cut into elements of `n` bytes at the places of `es` among `count`; the others are 0. -/
def placeElems (n : Nat) (bytes : List Byte) (es : List Nat) (count : Nat) : List Nat :=
  let vs := (List.range es.length).zip es |>.map fun p => (p.2, leNat ((bytes.drop (n * p.1)).take n))
  (List.range count).map fun i => ((vs.find? fun p => p.1 == i).map fun p => p.2).getD 0

/-- The bits of a BIT stream at the places of `es`. -/
def placeBits (bytes : List Byte) (es : List Nat) (count : Nat) : List Nat :=
  let bs := (es.map fun e => e / 8).eraseDups
  (List.range count).map fun i =>
    match bs.idxOf? (i / 8) with
    | some k => b2n ((bytes.getD k 0).getLsbD (i % 8))
    | none => 0

/-- What a role holds: its elements, the failures of its accesses, whether some access must wait, and the accesses. -/
structure Rd where
  vals : List Nat
  fails : List Fail
  wait : Bool
  chunks : List Chunk
  deriving DecidableEq, Repr

/-- An instruction between the producer and position `k` writes, in memory, a byte of the stream (R99). -/
def writtenBetween (run : Run) (j k role : Nat) (i : SInstr) (d : Desc) : Bool :=
  let mine := streamPas run k i role d
  (List.range k).any fun m => decide (j < m) &&
    (match run.ins[m]? with
      | some w => (match w.d with
        | some e => !e.trans && ((streamBytes run m 4 .vdst e (complexRole w.cmd.opc 4) (List.range (extentOf w 4))).any fun b => mine.contains b.2.2)
        | none => false)
      | none => false)

/-- The elements that instruction `j` writes lie at addresses of their own: what a consumer finds there is what `j` formed (R99). -/
def writesApart (run : Run) (j : Nat) : Bool :=
  match run.ins[j]? with
  | some p => (match p.d with
    | some e => let l := (streamBytes run j 4 .vdst e (complexRole p.cmd.opc 4) (List.range (extentOf p 4))).map fun b => b.2.2
                l.eraseDups.length == l.length
    | none => true)
  | none => true

/-- The elements that the slot of a chained edge holds for a role; none when the role reads memory (R96 to R99). A stream that its producer
forms as real elements and its consumer takes as complex ones, or the other way, is read from memory, unless it is transient; so is one whose
elements share addresses. -/
def fromSlot (run : Run) (k role : Nat) (i : SInstr) (d : Desc) : Option (List Nat) :=
  match edgeInto run.ins k role with
  | some (j, true) =>
    let vs := run.vals.getD j []
    let cx := match run.ins[j]? with | some p => complexRole p.cmd.opc 4 | none => false
    if d.trans then some vs
    else if decide (extentOf i role ≤ vs.length) && !writtenBetween run j k role i d && writesApart run j && cx == complexRole i.cmd.opc role then some vs else none
  | _ => none

/-- Element `j` of a transient as its consumer takes it: the part of a complex element that a real consumer takes is the real one, and what a
complex consumer finds beside a real element is free (DESIGN CHOICE, log 61). -/
def slotElem (cxFrom cxTo : Bool) (t : Ty) (q j v : Nat) : Nat :=
  let n := if t = .bit then 1 else tyBits t
  if cxFrom == cxTo then v else if cxFrom then v % 2 ^ n else v + Config.unproduced (q + j) % 2 ^ n * 2 ^ n

/-- The elements of a role that are read, given the mask and how many elements it selects; `choice` decides for a masked-off one (R40). -/
def readsElem (o role : Nat) (on : Nat → Bool) (sel : Nat) (choice : Nat → Bool) (j : Nat) : Bool :=
  if role = 3 ∨ o = 0x28 ∨ o = 0x60 ∨ o = 0x61 ∨ o = 0x6B ∨ o = 0x2F ∨ isFft o = true ∨ (isDot o = true ∧ role = 2) then true
  else if o = 0x2A then decide (j < sel)
  else on j || choice j

/-- The stream lies in a remote window, by its first element. -/
def farStream (run : Run) (k role : Nat) (d : Desc) (cx : Bool) (es : List Nat) : Bool :=
  (streamBytes run k role .vsrc d cx (es.take 1)).any fun b => isRemote b.2.2

/-- The elements of a stream that are read from memory: a stream with stride 0 is read at its first element only (R50), except in a remote window,
where each element has a request of its own (R54). -/
def readElems (d : Desc) (far : Bool) (es : List Nat) : List Nat :=
  if d.stride = 0 ∧ d.isGather = false ∧ d.type ≠ .bit ∧ far = false then es.take 1 else es

/-- The accesses by which a role is read from memory, `before` those of the roles before it. -/
def roleChunks (run : Run) (k role : Nat) (i : SInstr) (pick : Nat → Bool) (before : List Chunk) : List Chunk :=
  match i.stream role with
  | none => []
  | some d =>
    if (fromSlot run k role i d).isSome then []
    else
      let cx := complexRole i.cmd.opc role
      let es := (List.range (extentOf i role)).filter pick
      numbered before (chunksOf d (streamBytes run k role .vsrc d cx (readElems d (farStream run k role d cx es) es)))

/-- What a role holds, from its slot with the free values from number `q` on, or as its accesses `cs` find memory. -/
def peekRole (x : CtxId) (run : Run) (k role : Nat) (i : SInstr) (pick : Nat → Bool) (q : Nat) (cs : List Chunk) (s : State) : Rd :=
  match i.stream role with
  | none => ⟨[], [], false, []⟩
  | some d =>
    let n := extentOf i role
    let cx := complexRole i.cmd.opc role
    match fromSlot run k role i d with
    | some vs =>
      let cxp := match edgeInto run.ins k role with
        | some (j, _) => (match run.ins[j]? with | some p => complexRole p.cmd.opc 4 | none => cx)
        | none => cx
      let more := (List.range (n - vs.length)).map fun j => Config.unproduced (q + vs.length + j) % 2 ^ (if d.type = .bit then 1 else tyBits d.type)
      ⟨((List.range vs.length).zip vs).map (fun p => slotElem cxp cx d.type q p.1 p.2) ++ more, [], false, []⟩
    | none =>
      let es := (List.range n).filter pick
      let r := peekChunks x (rclsOf d) cs s
      let w := d.size * (if cx then 2 else 1)
      let vals := if d.type = .bit then placeBits r.1 es n
        else if (readElems d (farStream run k role d cx es) es).length < es.length then List.replicate n (leNat (r.1.take w)) else placeElems w r.1 es n
      ⟨vals, r.2.1, r.2.2, cs⟩

/-- The accesses of a role performed, those that `reach` lets through: they are counted and reported (R283, R284, R492). -/
def touchRole (x : CtxId) (cls : Nat) (reach : Nat → Bool) (l : List Chunk) (s : State) : State :=
  l.foldl (fun t c => if reach c.elem then (readChunk x cls c t).2 else t) s

/-- The requests of the stretches that must be answered from another node, sent as far as the link takes them. -/
def sendReads (x : CtxId) (cls : Nat) (l : List Chunk) (s : State) : State :=
  l.foldl (fun t c => if unanswered t x c then (vseRead x cls c.pa c.len c.occ t).2 else t) s

/-- A failed source: its role and what failed. -/
abbrev SrcFail := Nat × Fail

/-- The traffic class of a role. -/
def roleCls (i : SInstr) (role : Nat) : Nat := match i.stream role with | some d => rclsOf d | none => 1

/-- The mask as truth values: all ones without a mask. -/
def maskOf (vals : List Nat) (named : Bool) (n : Nat) : List Bool := if named then vals.map fun x => x == 1 else List.replicate n true

/-- The requests of one role sent; the role waits when an answer is missing. -/
def roleSend (x : CtxId) (cls : Nat) (l : List Chunk) (s : State) : Bool × State :=
  let s1 := sendReads x cls l s
  (l.any (unanswered s1 x), s1)

/-- What an instruction's sources hold: the elements, every access that fails, whether some access must wait, and the accesses by role. Nothing of it
has been performed yet. -/
structure Srcs where
  vin : VIn
  fails : List SrcFail
  wait : Bool
  chunks : List (Nat × List Chunk)
  deriving DecidableEq, Repr

/-- The sources of an instruction that waits. -/
def Srcs.waits : Srcs := ⟨⟨[], [], [], [], []⟩, [], true, []⟩

/-- The sources of instruction `k` as they stand, the mask first (R33, R40, R75), with free values from number `q` on; the requests that they need are
sent, and while an answer from another node is missing nothing is read. -/
def peekSrcs (x : CtxId) (run : Run) (k : Nat) (i : SInstr) (q : Nat) (s : State) : Srcs × State :=
  let all := fun (_ : Nat) => true
  let cm := roleChunks run k 3 i all []
  let w3 := roleSend x (roleCls i 3) cm s
  if w3.1 then (.waits, w3.2)
  else
    let m := peekRole x run k 3 i all (q + 0xC00000) cm w3.2
    let mask := maskOf m.vals i.m.isSome i.len
    let sel := mask.countP id
    let pick := fun (r j : Nat) => if r = 3 then true else readsElem i.cmd.opc r (fun a => mask.getD a true) sel (Config.readsMasked (q + r)) j
    let ca := roleChunks run k 0 i (pick 0) cm
    let cb := roleChunks run k 1 i (pick 1) (cm ++ ca)
    let cc := roleChunks run k 2 i (pick 2) (cm ++ ca ++ cb)
    let sends := [(0, ca), (1, cb), (2, cc)].foldl (fun (acc : Bool × State) r =>
      let y := roleSend x (roleCls i r.1) r.2 acc.2; (acc.1 || y.1, y.2)) (false, w3.2)
    let a := peekRole x run k 0 i (pick 0) q ca sends.2
    let b := peekRole x run k 1 i (pick 1) (q + 0x400000) cb sends.2
    let c := peekRole x run k 2 i (pick 2) (q + 0x800000) cc sends.2
    if m.wait || sends.1 || a.wait || b.wait || c.wait then (.waits, sends.2)
    else
      (⟨⟨a.vals, b.vals, c.vals, mask, s.eau.toList⟩, [(3, m), (0, a), (1, b), (2, c)].flatMap fun r => r.2.fails.map fun f => (r.1, f), false,
        [(3, cm), (0, ca), (1, cb), (2, cc)]⟩, sends.2)

/-- The accesses of an instruction's sources performed, those that `reach` lets through by role and element (R283, R284, R492). -/
def touchSrcs (x : CtxId) (i : SInstr) (src : Srcs) (reach : Nat → Nat → Bool) (s : State) : State :=
  src.chunks.foldl (fun t r => touchRole x (roleCls i r.1) (reach r.1) r.2 t) s

/-- The full count of outputs, as VC_WCNTk reports it (R166). -/
def fullCount (i : SInstr) (out : VOut) : Nat :=
  let o := i.cmd.opc
  match i.d with
  | none => 0
  | some d =>
    if d.trans then 0
    else if o = 0x29 then out.count
    else if isReduction o || o == 0x46 then out.d.length
    else extentOf i 4

/-! ### Writes -/

/-- The destination's bytes for outputs in ascending order: the element, its addresses and the byte. -/
def dstBytes (run : Run) (k : Nat) (i : SInstr) (d : Desc) (outs : List (Nat × Res)) : List (Nat × Nat × Nat × Byte) :=
  if d.type = .bit then
    ((outs.map fun p => p.1 / 8).eraseDups).flatMap fun b =>
      let v := ((outs.filter fun p => p.1 / 8 == b).map fun p => p.2.1 % 2 * 2 ^ (p.1 % 8)).foldl (· + ·) 0
      (elemBytesPa run .vdst d false [] (8 * b)).map fun p => (8 * b, p.1, p.2, BitVec.ofNat 8 v)
  else
    let cx := complexRole i.cmd.opc 4
    let ix := indexVals run k 4
    outs.flatMap fun o =>
      let bs := elemBytesPa run .vdst d cx ix o.1
      (List.range bs.length).zip bs |>.map fun p => (o.1, p.2.1, p.2.2, BitVec.ofNat 8 (o.2.1 / 256 ^ p.1))

/-- One access of a destination: bytes that lie in one Erg word are written at once. -/
def writeChunk (x : CtxId) (cls : Nat) (c : Chunk) (b : List Byte) (s : State) : VRes × State :=
  if isErg c.pa then (.ok [], ergWordWrite (c.pa / 8 * 8) ((c.bytes.map fun e => e.2.2).zip b) s)
  else vseWrite (.vse x.val) cls c.pa b s

/-- Accesses of instruction `k`'s destination performed in order: the first refusal, and the state. After a refusal the elements that `ahead`
names are still written, up to 128 elements on (R167); a remote write that finds no free request is kept for later. -/
def writeChunks (x : CtxId) (k cls : Nat) (ahead : Nat → Bool) : List (Chunk × List Byte) → Option Fail → State → Option Fail × State
  | [], f, s => (f, s)
  | (c, b) :: t, f, s =>
    match f with
    | some g =>
      let s1 := if decide (c.elem ≤ g.elem + 128) && decide (g.elem < c.elem) && ahead c.elem then (writeChunk x cls c b s).2 else s
      writeChunks x k cls ahead t f s1
    | none =>
      match writeChunk x cls c b s with
      | (.ok _, s1) => writeChunks x k cls ahead t none s1
      | (.wait, s1) => writeChunks x k cls ahead t none (s1.modVc x fun v => { v with unsent := v.unsent ++ [⟨cls, k, c.elem, c.head.2.1, c.pa, b⟩] })
      | (r, s1) => writeChunks x k cls ahead t (some (failOf s c r)) s1

/-- Outputs written to memory, with the choice number of what an earlier refusal leaves. -/
def writeOuts (x : CtxId) (run : Run) (k : Nat) (i : SInstr) (d : Desc) (q : Nat) (outs : List (Nat × Res)) (s : State) : Option Fail × State :=
  let bs := dstBytes run k i d outs
  let cs := chunksOf d (bs.map fun b => (b.1, b.2.1, b.2.2.1))
  let bytes := bs.map fun b => b.2.2.2
  let cut := (cs.foldl (fun (acc : List (Chunk × List Byte) × List Byte) c => ((c, acc.2.take c.len) :: acc.1, acc.2.drop c.len)) ([], bytes)).1.reverse
  writeChunks x k (rclsOf d) (Config.aheadWritten q) cut none s

/-! ### The run of one instruction -/

/-- The rounding of a vector command (R126, R127). -/
def cmdRm (c : VCmd) (drm : Nat) : Rm := (rmOf c.rm drm).getD .rne

/-- What an operation needs of its instruction. -/
def envOf (run : Run) (i : SInstr) : VEnv :=
  let ty := fun (d : Option Desc) => match d with | some d => d.type | none => .u8
  { ta := ty i.a, tb := ty i.b, tc := ty i.c, td := ty i.d, rm := cmdRm i.cmd run.drm, sub := i.cmd.sub, imm := i.cmd.imm, ea := i.cmd.ea,
    len := i.len }

/-- All flags of a list of results. -/
def flagsOf (l : List FFlags) : FFlags := l.foldl (· ||| ·) 0

/-- The enabled flags among an instruction's: the stream and element that FPTRAP reports (R150). -/
def trapOf (te : Nat) (out : VOut) : Option (Nat × Nat) :=
  let en := fun (f : FFlags) => f.toNat &&& te != 0
  let low := fun (l : List (Nat × FFlags)) => (l.filter fun p => en p.2).foldl (fun (m : Option Nat) p =>
    match m with | none => some p.1 | some a => some (Nat.min a p.1)) none
  match low (out.d.map fun p => (p.1, p.2.2)), low out.intake with
  | none, none => none
  | some a, none => some (4, a)
  | none, some b => some (6, b)
  | some a, some b => if a ≤ b then some (4, a) else some (6, b)

/-- The written counts with what was refused: the lowest refused element of an instruction is its count (R166). -/
def refusedCounts (run : Run) : List Nat :=
  run.refused.foldl (fun w f => w.set f.k (Nat.min f.elem (w.getD f.k f.elem))) run.wcnt

/-- The condition that a stopped group reports at its end: for a refused write the lowest refused element of its instruction, and for every
one the count of its instruction (R161, R166). -/
def stopReport (run : Run) (c : Cond) : Cond :=
  let w := refusedCounts run
  let low := (run.refused.filter fun f => f.k == c.instr).foldl (fun (m : Option WrRefused) f =>
    match m with | some g => if f.elem < g.elem then some f else some g | none => some f) none
  match (if c.status = vsREMOTE ∧ c.stream = 4 then low else none) with
  | some f => { c with elem := f.elem, va := some f.va, pa := some f.pa, cause := f.cause, count := f.elem }
  | none => { c with count := w.getD c.instr c.count }

/-- The group's registers at its end: every instruction's written count (R166), and its estimate out of the sum in flight (R436). -/
def admittedEnd (x : CtxId) (run : Run) (c : Cond) (s : State) : State :=
  let w := refusedCounts run
  let s1 := (List.range 8).foldl (fun t k => t.setReg (VC_WCNT x k) (BitVec.ofNat 32 (w.getD k 0))) s
  groupEnd x c false run.flags.toNat run.energy (elgRelease run.energy s1)

/-- The accumulators that a stopped group leaves undefined: those it names, when it has an intake (R167). -/
def eauLost (ins : List SInstr) (s : State) : State :=
  if ins.any fun i => isIntake i.cmd.opc then
    ((ins.flatMap fun i => namedAccs i.cmd).eraseDups).foldl (fun t m =>
      let (q, t1) := t.draw
      t1.setEa m ⟨(Config.eauUndefined q).1, (Config.eauUndefined q).2, 0⟩) s
  else s

/-- Writes of the context's group are on their way, or wait for a request. -/
def writesOut (s : State) (x : CtxId) : Bool :=
  !(s.vc x).unsent.isEmpty || (s.outst.any fun o => o.owner == .vse x.val && o.kind == 1) ||
    s.ended.any fun e => e.1.owner == .vse x.val && e.1.kind == 1

/-- A group that REMOTE stopped, or that runs when the engine stops, ends once each of its remote writes has been answered (R55, R56, R168, R186). -/
def remoteSettle (x : CtxId) (s : State) : State :=
  match (s.vc x).cur with
  | some r =>
    match r.stopped with
    | some c => if (c.status = vsREMOTE ∨ s.rb VMS_ERR 30 = true) ∧ writesOut s x = false then admittedEnd x r (stopReport r c) s else s
    | none => s
  | none => s

/-- A group stopped while it streams (R56, R169): it runs no further instruction; the writes already counted go on to their end (R55, R168). -/
def groupStops (x : CtxId) (run : Run) (c : Cond) (s : State) : State :=
  remoteSettle x ((eauLost run.ins s).modVc x fun v => { v with cur := some { run with stopped := some c } })

/-- The condition of a failed access (R161). -/
def failedCond (k role : Nat) (f : Fail) (count : Nat) : Cond :=
  match f.res with
  | .remote cause => { condAt vsREMOTE cause k role 0 f.elem with count := count, va := some f.va, pa := some f.pa }
  | _ => { condAt vsMCHK 8 k role 0 f.elem with count := count, pa := some f.pa }

/-- The instruction, the element and its address that a remote write at `pa` belongs to (R161). -/
def remoteWriteOf (r : Run) (pa : Nat) : Option (Nat × Nat × Nat) :=
  (List.range r.pos).findSome? fun k =>
    match r.ins[k]? with
    | some i => (match i.d with
      | some d =>
        if d.trans then none
        else ((streamBytes r k 4 .vdst d (complexRole i.cmd.opc 4) (List.range (extentOf i 4))).find? fun b => b.2.2 == pa).map fun b => (k, b.1, b.2.1)
      | none => none)
    | none => none

/-- The accumulators whose contents an instruction changes. -/
def accsChanged (c : VCmd) : List Nat :=
  if c.opc = 0x46 then (if c.sub % 2 = 1 then [c.ea] else []) else if c.opc = 0x48 then [c.ea] else namedAccs c

/-- A later instruction that has run changes accumulator `m`. -/
def eaLater (run : Run) (k m : Nat) : Bool :=
  (List.range (Nat.min run.pos run.ins.length)).any fun j => decide (k < j) &&
    (match run.ins[j]? with | some i => (accsChanged i.cmd).contains m | none => false)

/-- An accumulator that a VEARD cleared is as it was when D[0] is not written (R167), unless a later instruction has written it since; where the group has an
intake its accumulators are undefined already. -/
def eardUndo (run : Run) (k : Nat) (s : State) : State :=
  if run.ins.any fun i => isIntake i.cmd.opc then s
  else (run.eard.filter fun e => e.1 == k && !eaLater run k e.2.1).foldl (fun t e => t.setEa e.2.1 e.2.2) s

/-- A remote write of a streaming group was refused: the group stops with REMOTE unless it has stopped already, and the unsent writes of that
instruction above the element go no further (R56, R166 to R168). -/
def writeRefused (x : CtxId) (f : WrRefused) (s : State) : State :=
  match (s.vc x).cur with
  | some r =>
    let s1 := (eardUndo r f.k s).modVc x fun v => { v with unsent := v.unsent.filter fun p => !(p.k == f.k && decide (f.elem < p.elem)) }
    let r1 := { r with refused := r.refused ++ [f] }
    if r.stopped.isSome then s1.modVc x fun v => { v with cur := some r1 }
    else groupStops x r1 (failedCond f.k 4 ⟨f.elem, f.va, f.pa, .remote f.cause⟩ f.elem) s1
  | none => s

/-- The answer to a remote write at `pa` says that it failed. -/
def remoteWriteFails (x : CtxId) (pa cause : Nat) (s : State) : State :=
  match (s.vc x).cur with
  | some r =>
    let p := (remoteWriteOf r pa).getD (0, 0, 0)
    writeRefused x ⟨p.1, p.2.1, p.2.2, pa, cause⟩ s
  | none => s

/-- The remote writes that no request has carried yet, sent in order as far as requests are free. -/
def flushUnsent (x : CtxId) : List PendWrite → State → State
  | [], s => remoteSettle x (s.modVc x fun v => { v with unsent := [] })
  | p :: t, s =>
    let live := match (s.vc x).cur with
      | some r => !(r.refused.any fun f => f.k == p.k && decide (f.elem < p.elem))
      | none => false
    if !live then flushUnsent x t s
    else match vseWrite (.vse x.val) p.cls p.pa p.bytes s with
      | (.wait, s1) => s1.modVc x fun v => { v with unsent := p :: t }
      | (.remote cause, s1) => flushUnsent x t (writeRefused x ⟨p.k, p.elem, p.va, p.pa, cause⟩ s1)
      | (_, s1) => flushUnsent x t s1

end Sys2Proof.Machine
end

