-- ==== Sys2Proof/Machine/VseStop.lean ====
section
/-! DEFINITION. The run of one instruction of a streaming group, and what the group leaves when a failure stops it (R51, R85, R99, R131, R150, R161,
R166 to R169, R492).

An instruction runs to its last element by itself (R99). When a failure stops the group, the instructions that stream beside the one that failed stand where
it stands, within the lookahead of R51: what an earlier one has written beyond that is put back, and what a later one may have written by then is written. -/
namespace Sys2Proof.Machine

/-! ### The work of a group -/

/-- How far the instruction's work has come when it needs element `j` of a role, out of how much (R51, R84): a filter needs its taps at once. -/
def workPos (i : SInstr) (mask : List Bool) (role j : Nat) : Nat × Nat :=
  let o := i.cmd.opc
  let q := fftQ i.cmd
  let legs := fftLegs o
  if isFft o then (if role = 1 then j / (legs - 1) else j / (legs * q) * q + j % q, i.len / legs)
  else if (o = 0x60 ∨ o = 0x61) ∧ role = 1 then (0, 1)
  else if o = 0x2A ∧ role = 0 then (((List.range i.len).filter fun p => mask.getD p true).getD j i.len, i.len)
  else (j, extentOf i role)

/-- The work reaches one point before another. -/
def workBefore (a b : Nat × Nat) : Bool := decide (a.1 * b.2 < b.1 * a.2)

/-- Of the failures, the one that the instruction's work meets first. -/
def firstFail (i : SInstr) (mask : List Bool) : List SrcFail → Option SrcFail
  | [] => none
  | f :: t =>
    match firstFail i mask t with
    | none => some f
    | some g => if workBefore (workPos i mask g.1 g.2.elem) (workPos i mask f.1 f.2.elem) then some g else some f

/-- Element `j` of a role is read before the group stops at work `w`: at most `ahead` of its own elements beyond it (R51, R492). -/
def reached (i : SInstr) (mask : List Bool) (w : Nat × Nat) (ahead role j : Nat) : Bool :=
  let p := workPos i mask role j
  decide (p.1 * w.2 ≤ w.1 * p.2 + ahead * w.2)

/-- The physical pages that a stream of an instruction touches, each with its size (R99). -/
def streamPages (run : Run) (k role : Nat) (i : SInstr) (d : Desc) : List (Nat × Nat) :=
  let kind : AccKind := if role = 4 then .vdst else .vsrc
  if d.trans then []
  else ((List.range (extentOf i role)).flatMap fun e =>
    (elemParts d (complexRole i.cmd.opc role) (indexVals run k role) e).filterMap fun p =>
      match foundFor run.found run.asid run.part p.1 kind with
      | some (.ok t) => some (pageOf t.sz (t.addr p.1), szBytes t.sz)
      | _ => none).eraseDups

/-- The pages that an instruction reads, or writes. -/
def instrPages (run : Run) (k : Nat) (wr : Bool) : List (Nat × Nat) :=
  match run.ins[k]? with
  | some i => (if wr then [4] else srcRoles).flatMap fun r => match i.stream r with | some d => streamPages run k r i d | none => []
  | none => []

/-- Some page of one list overlaps one of the other. -/
def pagesMeet (a b : List (Nat × Nat)) : Bool := a.any fun p => b.any fun q => touches p.1 p.2 q.1 q.2

/-- A chain edge passes elements from instruction `j` to instruction `k`. -/
def chained (run : Run) (j k : Nat) : Bool := srcRoles.any fun r => edgeInto run.ins k r == some (j, true)

/-- Instruction `k` starts only once the earlier `j` has come to its last element: by an edge that does not chain, by the pages that they share without
one that does, or by an accumulator (R97, R99). -/
def ordered (run : Run) (j k : Nat) : Bool :=
  let accs := fun (m : Nat) => match run.ins[m]? with | some i => namedAccs i.cmd | none => []
  (srcRoles.any fun r => edgeInto run.ins k r == some (j, false)) ||
    (!chained run j k && (pagesMeet (instrPages run j true) (instrPages run k false ++ instrPages run k true) ||
      pagesMeet (instrPages run j false) (instrPages run k true))) ||
    ((accs j).any fun m => (accs k).contains m)

/-- Instruction `k` starts only once `j` has ended, by itself or by what stands between them; the first argument bounds the chain. -/
def startsAfter (run : Run) : Nat → Nat → Nat → Bool
  | 0, _, _ => false
  | n + 1, j, k => ordered run j k || (List.range k).any fun m => decide (j < m) && startsAfter run n j m && (ordered run m k || chained run m k)

/-! ### What a failure leaves unwritten -/

/-- The lowest output that depends on element `j` of a role (R169). -/
def firstDep (i : SInstr) (mask : List Bool) (role j : Nat) : Nat :=
  let c := i.cmd
  let o := c.opc
  if role = 3 then (if o = 0x29 then (mask.take j).countP id else if isDot o then j / (c.imm + 1) else if isReduction o then 0 else j)
  else if o = 0x60 ∨ o = 0x61 then
    (if role = 1 then 0 else let m := if o = 0x61 then c.sub + 1 else 1; (j - c.imm + m - 1) / m)
  else if isDot o then (if role = 2 then j else j / (c.imm + 1))
  else if o = 0x29 then (mask.take j).countP id
  else if o = 0x2A then (((List.range i.len).filter fun p => mask.getD p true).getD j i.len)
  else if isReduction o || o == 0x46 then 0
  else j

/-- Point `p` of an FFT stage lies in a butterfly that needs element `j` of a role (R84). -/
def fftDep (i : SInstr) (role j p : Nat) : Bool :=
  let q := fftQ i.cmd
  let legs := fftLegs i.cmd.opc
  if role = 1 then p % q == (if legs = 2 then j else j / 3) else p / (legs * q) == j / (legs * q) && p % q == j % q

/-- The butterfly that point `p` belongs to. -/
def fftBfly (i : SInstr) (p : Nat) : Nat := p / (fftLegs i.cmd.opc * fftQ i.cmd) * fftQ i.cmd + p % fftQ i.cmd

/-- The outputs whose inputs the work has reached at `w`, with the lookahead, out of `full` (R51). -/
def stopBound (i : SInstr) (mask : List Bool) (w : Nat × Nat) (full : Nat) : Nat :=
  let n := if extentOf i 0 = 0 then i.len else extentOf i 0
  let b := w.1 * n / w.2 + 128
  if n ≤ b then full else Nat.min full (firstDep i mask 0 b)

/-- Point `p` of an FFT stage that stops at work `w` is written, as far as the failures allow: whole butterflies, in an order left open (R166, R167). -/
def fftWritten (i : SInstr) (fails : List SrcFail) (w : Nat × Nat) (q p : Nat) : Bool :=
  fails.all (fun f => !fftDep i f.1 f.2.elem p) && Config.aheadWritten q (fftBfly i p) &&
    decide (fftBfly i p * w.2 ≤ w.1 * (i.len / fftLegs i.cmd.opc) + 128 * w.2)

/-- How many outputs an instruction that stops at work `w` has written at most, `fails` being every word of its own that fails (R169); of a BIT destination
whole bytes (R166). -/
def stopCount (i : SInstr) (mask : List Bool) (fails : List SrcFail) (w : Nat × Nat) (q full : Nat) : Nat :=
  let lim := fails.foldl (fun m f => Nat.min m (firstDep i mask f.1 f.2.elem)) (stopBound i mask w full)
  let n := Nat.min lim (Config.stopExtent q)
  match i.d with
  | some d => if d.type = .bit ∧ n ≠ full then n / 8 * 8 else n
  | none => n

/-- The outputs that a stopped instruction has written, and how many (R166, R167). -/
def partialOuts (i : SInstr) (out : VOut) (mask : List Bool) (fails : List SrcFail) (w : Nat × Nat) (q : Nat) : List (Nat × Res) × Nat :=
  if isFft i.cmd.opc then
    let l := out.d.filter fun p => fftWritten i fails w q p.1
    (l, l.length)
  else
    let n := stopCount i mask fails w q (fullCount i out)
    (out.d.filter fun p => decide (p.1 < n), n)

/-! ### Writes put back -/

/-- The bytes of local memory that an instruction is to write over, as they stand: of an address that it writes twice, what its earlier write leaves. -/
def oldBytes (run : Run) (k : Nat) (i : SInstr) (d : Desc) (outs : List (Nat × Res)) (s : State) : List OldByte :=
  ((dstBytes run k i d outs).foldl (fun (acc : List (Nat × Byte) × List OldByte) b =>
    let pa := b.2.2.1
    if isRemote pa then acc
    else
      let o : OldByte := match acc.1.find? fun e => e.1 == pa with
        | some e => ⟨k, b.1, pa, e.2, 0, 0⟩
        | none => ⟨k, b.1, pa, s.byte pa, s.wrong pa, if isErg pa then 0 else smGet zeroDefault s.dramErr (pa / 8 * 8)⟩
      ((pa, b.2.2.2) :: acc.1, acc.2 ++ [o])) ([], [])).2

/-- A byte put back as it was. -/
def putBack (o : OldByte) (s : State) : State :=
  let s1 := (s.setByte o.pa o.b).setEcc o.pa o.ecc
  if o.dram = 0 then s1 else { s1 with dramErr := smPut zeroDefault s1.dramErr (o.pa / 8 * 8) o.dram }

/-- The writes that are not `kept` put back, latest first; an address that a later kept write holds stays. -/
def putBackAll (kept : OldByte → Bool) : List OldByte → List Nat → State → State
  | [], _, s => s
  | o :: t, held, s =>
    if kept o then putBackAll kept t (o.pa :: held) s
    else putBackAll kept t held (if held.contains o.pa then s else putBack o s)

/-! ### The stop of a group -/

/-- The pass over a group that stops: the device, the group's run with the counts, elements and flags of the instructions passed, which of them came to their
last element, and how many of their outputs depend on no word that fails. -/
structure StopPass where
  s : State
  run : Run
  whole : List Bool
  lims : List Nat
  deriving DecidableEq, Repr

/-- Every instruction that must have ended before `k` starts has. -/
def StopPass.starts (g : StopPass) (k : Nat) : Bool := (List.range k).all fun j => !startsAfter g.run 8 j k || g.whole.getD j false

/-- An instruction passed: whether it came to its last element, how many outputs are sound, and its count, elements and flags. -/
def StopPass.push (g : StopPass) (whole : Bool) (lim w : Nat) (vals : List Nat) (fl : FFlags) (s : State) : StopPass :=
  { s := s, whole := g.whole ++ [whole], lims := g.lims ++ [lim],
    run := { g.run with wcnt := g.run.wcnt ++ [w], vals := g.run.vals ++ [vals], fls := g.run.fls ++ [fl] } }

/-- An instruction that the group's stop keeps from starting. -/
def StopPass.unstarted (g : StopPass) (i : SInstr) : StopPass := g.push false 0 0 (List.replicate (extentOf i 4) 0) 0 g.s

/-- The destination of an instruction lies in a remote window, in part at least: what has left for it cannot be put back. -/
def remoteDest (run : Run) (k : Nat) (i : SInstr) : Bool :=
  match i.d with
  | some d => !d.trans && (streamBytes run k 4 .vdst d (complexRole i.cmd.opc 4) (List.range (extentOf i 4))).any fun b => isRemote b.2.2
  | none => false

/-- Where the earlier instruction `j` stands when the group stops at work `w` of instruction `kf`: whether it came to its last element, and its count. -/
def earlierStands (run : Run) (j kf : Nat) (i : SInstr) (starts : Bool) (w : Nat × Nat) (q : Nat) : Bool × Nat :=
  let full := run.wcnt.getD j 0
  let o := i.cmd.opc
  if j = kf then (false, full)
  else if !starts then (false, 0)
  else if startsAfter run 8 j kf || remoteDest run j i || (isEau o && !isIntake o && o != 0x46) then (true, full)
  else match i.d with
    | some d =>
      if d.trans then (Config.aheadWritten (q + j) 0, full)
      else
        let n := if isFft o then ((List.range full).filter (fftWritten i [] w (q + j))).length
          else stopCount i (run.masks.getD j []) [] w (q + j) full
        (n == full, n)
    | none => (Config.aheadWritten (q + j) 0, full)

/-- A write of an earlier instruction stands. -/
def earlierKept (run : Run) (kf : Nat) (w : Nat × Nat) (q : Nat) (g : StopPass) (o : OldByte) : Bool :=
  o.k == kf || g.whole.getD o.k true ||
    (match run.ins[o.k]? with
      | some i => if isFft i.cmd.opc then decide (0 < g.run.wcnt.getD o.k 0) && fftWritten i [] w (q + o.k) o.elem
                  else decide (o.elem < g.run.wcnt.getD o.k 0)
      | none => true)

/-- The instructions before `from_` passed: what they have written beyond where they stand is put back, and an accumulator that a VEARD cleared whose D[0]
is not written is as it was (R51, R167, R169). -/
def earlierStop (run : Run) (from_ kf : Nat) (w : Nat × Nat) (q : Nat) (s : State) : StopPass :=
  let g := (List.range from_).foldl (fun (g : StopPass) j =>
    match run.ins[j]? with
    | some i =>
      let e := earlierStands run j kf i (g.starts j) w q
      let fl := run.fls.getD j 0
      { g.push e.1 0 e.2 (run.vals.getD j []) (if e.1 then fl else fl &&& Config.stopFlags (q + j)) g.s with
        s := if i.cmd.opc == 0x46 && e.2 == 0 && j != kf then eardUndo run j g.s else g.s }
    | none => g) ⟨s, { run with wcnt := [], vals := [], fls := [] }, [], []⟩
  { g with s := putBackAll (earlierKept run kf w q g) run.undo.reverse [] g.s }

/-- The accumulators whose contents an instruction needs: those it names, but for one that it replaces (R137, R169). -/
def accsNeeded (c : VCmd) : List Nat := if c.opc = 0x45 ∨ c.opc = 0x47 then [] else namedAccs c

/-- The accumulators read: a correctable error is corrected and counted in EAU_ECC (R151). -/
def accsCorrected (l : List Nat) (s : State) : State :=
  l.foldl (fun t m => if (t.ea m).err = 1 then (t.setEa m { t.ea m with err := 0 }).countUp EAU_ECC 15 0 1 else t) s

/-- The first of the accumulators that holds an uncorrectable error. -/
def accBad (s : State) (l : List Nat) : Option Nat := l.find? fun m => decide (2 ≤ (s.ea m).err)

/-- The elements of chained streams that the stop keeps an instruction from having: those that depend on a word that fails. -/
def slotFails (g : StopPass) (from_ m : Nat) (i : SInstr) : List SrcFail :=
  [3, 0, 1, 2].filterMap fun r =>
    match edgeInto g.run.ins m r with
    | some (j, true) => if decide (from_ ≤ j) && decide (g.lims.getD j 0 < extentOf i r) then some (r, ⟨g.lims.getD j 0, 0, 0, .mchk⟩) else none
    | _ => none

/-- Instruction `m`, which had not run, passed: what it may have read and written by the time at which the group stops at work `w` (R51, R167, R169,
R492). -/
def laterStop (x : CtxId) (from_ m : Nat) (w : Nat × Nat) (q : Nat) (i : SInstr) (g : StopPass) : StopPass :=
  let p := if g.starts m then (peekSrcs x g.run m i (q + 0x1000000 * (m + 1)) g.s).1 else .waits
  if p.wait then g.unstarted i
  else
    let fails := p.fails ++ slotFails g from_ m i
    let bad := (accBad g.s (accsNeeded i.cmd)).isSome
    let mask := p.vin.m
    let s1 := touchSrcs x i p (reached i mask w (Config.lookahead q % 129)) g.s
    let out := opFn i.cmd.opc (envOf g.run i) p.vin
    let full := fullCount i out
    let lim := if bad then 0 else fails.foldl (fun n f => Nat.min n (firstDep i mask f.1 f.2.elem)) (extentOf i 4)
    let fl := flagsOf ((out.d.map fun p => p.2.2) ++ out.intake.map fun p => p.2)
    let sound := fails.isEmpty && !bad
    match (if bad then none else i.d) with
    | some d =>
      if d.trans then
        let whole := sound && Config.aheadWritten (q + m) 0
        g.push whole lim 0 (out.d.map fun p => p.2.1) (if whole then fl else fl &&& Config.stopFlags (q + m)) s1
      else
        let o := partialOuts i out mask fails w (q + m)
        let r := writeOuts x g.run m i d (q + m) o.1 s1
        let n := match r.1 with | some f => Nat.min f.elem o.2 | none => o.2
        let whole := sound && n == full
        g.push whole lim n (out.d.map fun p => p.2.1) (if whole then fl else fl &&& Config.stopFlags (q + m))
          (if whole then out.accs.foldl (fun t a => t.setEa a.1 a.2) r.2 else r.2)
    | none =>
      let whole := sound && Config.aheadWritten (q + m) 0
      g.push whole lim 0 [] (if whole then fl else fl &&& Config.stopFlags (q + m)) (if whole then out.accs.foldl (fun t a => t.setEa a.1 a.2) s1 else s1)

/-- A group stops at work `w` of instruction `kf`; the instructions from `from_` on have not run. `c` is the condition it ends with, given the count of
`kf` (R56, R166 to R169). -/
def stopGroup (x : CtxId) (run : Run) (from_ kf : Nat) (w : Nat × Nat) (c : Nat → Cond) (s : State) : State :=
  let q := s.fresh
  let g0 := earlierStop run from_ kf w q { s with fresh := q + 0x10000000 }
  let g := (List.range run.ins.length).foldl (fun (g : StopPass) m =>
    if from_ ≤ m then (match run.ins[m]? with | some i => laterStop x from_ m w q i g | none => g) else g) g0
  groupStops x { g.run with pos := run.ins.length, flags := flagsOf g.run.fls } (c (g.run.wcnt.getD kf 0)) g.s

/-- The failures that instructions after `k` meet on words of memory while they stream beside it: the instruction, its failure and its work. -/
def laterFails (x : CtxId) (run : Run) (k q : Nat) (s : State) : List (Nat × SrcFail × (Nat × Nat)) :=
  let pad := { run with vals := run.vals ++ (run.ins.drop k).map fun i => List.replicate (extentOf i 4) 0 }
  (List.range run.ins.length).filterMap fun m =>
    if m ≤ k ∨ (List.range m).any (fun j => decide (k ≤ j) && startsAfter run 8 j m) = true then none
    else match run.ins[m]? with
      | some i =>
        let p := (peekSrcs x pad m i (q + 0x1000000 * (m + 1)) s).1
        (firstFail i p.vin.m p.fails).map fun f => (m, f, workPos i p.vin.m f.1 f.2.elem)
      | none => none

/-- An instruction whose sources fail: the group stops at the failure that its work meets first (R169, R492). -/
def runFails (x : CtxId) (run : Run) (k : Nat) (i : SInstr) (mask : List Bool) (f : SrcFail) (q : Nat) (s : State) : State :=
  let own : Nat × SrcFail × (Nat × Nat) := (k, f, workPos i mask f.1 f.2.elem)
  let best := (laterFails x run k q s).foldl (fun b e => if workBefore e.2.2 b.2.2 then e else b) own
  stopGroup x run k best.1 best.2.2 (failedCond best.1 best.2.1.1 best.2.1.2) s

/-- An instruction whose accumulator holds an uncorrectable error: EAU_ECC reports it, nothing that depends on it is written or taken in, and
the group stops with MCHK at the accumulator (R161, R169). -/
def accFails (x : CtxId) (run : Run) (k m : Nat) (s : State) : State :=
  let s1 := (s.setRb EAU_ECC 31 true).setRf EAU_ECC 26 24 (m % 8)
  stopGroup x run k k (0, 1) (fun _ => condAt vsMCHK 8 k 6 0 0) s1

/-- An instruction carried through: its writes, accumulators, flags and counts (R85, R131, R150, R166). A write of its own that is refused stops the
group. -/
def runDone (x : CtxId) (run : Run) (k : Nat) (i : SInstr) (mask : List Bool) (out : VOut) (s : State) : State :=
  let (q, s1) := s.draw
  let dst := match i.d with | some d => if d.trans then none else some d | none => none
  let old : List OldByte := match dst with | some d => if k + 1 < run.ins.length then oldBytes run k i d out.d s1 else [] | none => []
  let r : Option Fail × State := match dst with | some d => writeOuts x run k i d q out.d s1 | none => (none, s1)
  let fl := flagsOf ((out.d.map fun p => p.2.2) ++ out.intake.map fun p => p.2)
  let run1 : Run := { run with pos := k + 1, vals := run.vals ++ [out.d.map fun p => p.2.1], undo := run.undo ++ old, masks := run.masks ++ [mask] }
  match r.1 with
  | some f =>
    let no : List WrRefused := match f.res with | .remote c => [⟨k, f.elem, f.va, f.pa, c⟩] | _ => []
    stopGroup x { run1 with wcnt := run.wcnt ++ [f.elem], fls := run.fls ++ [fl], refused := run.refused ++ no } (k + 1) k
      (f.elem, fullCount i out) (failedCond k 4 f) r.2
  | none =>
    let s2 := out.accs.foldl (fun t a => t.setEa a.1 a.2) r.2
    let trap : Option (Nat × Nat × Nat) := match run.trap with
      | some t => some t
      | none => (trapOf run.te out).map fun t => (k, t.1, t.2)
    let cleared := if i.cmd.opc = 0x46 then out.accs.map fun a => (k, a.1, s.ea a.1) else []
    let run2 := { run1 with wcnt := run.wcnt ++ [fullCount i out], flags := run.flags ||| fl, fls := run.fls ++ [fl], trap := trap,
                            vcomp := if i.cmd.opc = 0x29 then out.count else run.vcomp, eard := run.eard ++ cleared }
    s2.modVc x fun v => { v with cur := some run2, rsp := [] }

/-- The memories that the instruction reaches through M2 take its accesses now. -/
def m2Ready (s : State) (run : Run) (k : Nat) (i : SInstr) : Bool :=
  masterOn s 2 || allRoles.all fun r =>
    match i.stream r with
    | some d => d.trans || (streamBytes run k r (if r = 4 then .vdst else .vsrc) d (complexRole i.cmd.opc r) (List.range (extentOf i r))).all fun b => isErg b.2.2
    | none => true

/-- The instruction of a streaming group that runs next. -/
def nextInstr (s : State) (x : CtxId) : Option (Run × SInstr) :=
  match (s.vc x).cur with
  | some r => if r.phase == .stream && r.stopped.isNone then (r.ins[r.pos]?).map fun i => (r, i) else none
  | none => none

/-- The writes that wait for a request sent, and what the next instruction then finds. -/
def flushed (x : CtxId) (s : State) : State := if (s.vc x).unsent.isEmpty then s else flushUnsent x (s.vc x).unsent s

/-- An instruction of opcode `opc` may run now: it is the group's next, the engine works, and a slow group may issue (R186, R437). -/
def mayRun (s : State) (opc : Nat) (run : Run) (i : SInstr) : Bool :=
  i.cmd.opc == opc && vmsRuns s && decide (s.power ≤ 1) && !(run.slow && !slowMayIssue s) && m2Ready s run run.pos i

/-- The next instruction of context `x`'s group runs, when it is opcode `opc`: `f` says what it computes from its sources (R33, R99). -/
def vectorRun (x : CtxId) (opc : Nat) (f : VEnv → VIn → VOut) (s0 : State) : State :=
  let s := flushed x s0
  match nextInstr s x with
  | none => s
  | some (run, i) =>
    if !mayRun s opc run i then s
    else
      let s1 := accsCorrected (accsNeeded i.cmd) s
      let q := s1.fresh
      let src := peekSrcs x run run.pos i q s1
      if src.1.wait then src.2
      else
        let s2 := { src.2 with fresh := q + 0x10000000 }
        match accBad s2 (accsNeeded i.cmd) with
        | some m => accFails x run run.pos m s2
        | none =>
          match firstFail i src.1.vin.m src.1.fails with
          | some g => runFails x run run.pos i src.1.vin.m g q s2
          | none => runDone x run run.pos i src.1.vin.m (f (envOf run i) src.1.vin) (touchSrcs x i src.1 (fun _ _ => true) s2)

/-! ### The end of a streaming group -/

/-- Every instruction has run and every write of the group is visible and acknowledged (R102). -/
def groupFinished (s : State) (x : CtxId) (r : Run) : Bool :=
  r.phase == .stream && r.stopped.isNone && decide (r.ins.length ≤ r.pos) && (s.vc x).unsent.isEmpty &&
    !(s.outst.any fun o => o.owner == .vse x.val) && !writesOut s x

/-- The condition that a finished group ends with: OK, or FPTRAP (R102, R150). -/
def finishCond (r : Run) : Cond :=
  match r.trap with
  | none => { condAt 0 0 0 0 0 0 with count := r.vcomp }
  | some (k, st, e) => { condAt vsFPTRAP 0 k st 0 e with count := r.vcomp }

/-- A group completes (R102, R107). -/
def groupCompletes (x : CtxId) (s0 : State) : State :=
  let s := flushed x s0
  match (s.vc x).cur with
  | some r => if vmsRuns s && groupFinished s x r then admittedEnd x r (finishCond r) s else s
  | none => s

/-- A group that an uncorrectable error stopped ends with MCHK, once each of its remote writes has been answered (R55, R169). -/
def groupMchkEnds (x : CtxId) (s0 : State) : State :=
  let s := flushed x s0
  match (s.vc x).cur with
  | some r =>
    match r.stopped with
    | some c => if c.status = vsMCHK ∧ writesOut s x = false then admittedEnd x r (stopReport r c) s else s
    | none => s
  | none => s

end Sys2Proof.Machine
end

