-- ==== Sys2Proof/Machine/VseCore.lean ====
section
/-! DEFINITION. The vector-class instructions of a core: descriptors, commands, contexts, fences, images and suspension (R35, R58, R63 to
R68, R71, R89 to R93, R104, R112 to R119, R163, R164, R172, R272). -/
namespace Sys2Proof.Machine

/-! ### Bindings -/

/-- The context bound to a core (VC_BINDS). -/
def boundCtx (s : State) (c : CoreId) : Option CtxId :=
  ((List.range 8).find? fun x => s.rb (VC_BINDS x) c.val).map ctxNo

/-- A core bound to no context. -/
def unbind (c : CoreId) (s : State) : State := (List.range 8).foldl (fun t x => t.setRb (VC_BINDS x) c.val false) s

/-- The Safety Island has no vector class (R404); the instruction is illegal there. -/
def vecAllowed (c : CoreId) (w : Word) (k : State → Acc Flow) (s : State) : Acc Flow :=
  if isSI c then .exc (excIllegal w) s else k s

/-- The bound context, or VNOCTX (R67, R112). -/
def withCtx (c : CoreId) (w : Word) (k : CtxId → State → Acc Flow) (s : State) : Acc Flow :=
  match boundCtx s c with
  | some x => k x s
  | none => .exc (.plain cVNOCTX w) s

/-- A context instruction of S and M level (R112, R163). -/
def ctxInstr (c : CoreId) (w : Word) (k : State → Acc Flow) : State → Acc Flow :=
  vecAllowed c w fun s => if s.lvl c == .u then .exc (excPriv w) s else k s

/-- Result codes (R113). -/
def rcVC_FULL : Word := 0x80000001
/-- EA_BUSY (R113). -/
def rcEA_BUSY : Word := 0x80000002
/-- BADIMAGE (R113). -/
def rcBADIMAGE : Word := 0x80000003
/-- CTX_BUSY (R113). -/
def rcCTX_BUSY : Word := 0x80000004
/-- NOT_ALLOC (R113). -/
def rcNOT_ALLOC : Word := 0x80000005

/-! ### Waits for groups -/

/-- How many closed groups at the front count as completed: the retained one, and those that a suspension holds (R35, R104). -/
def doneGroups (v : VCtx) : Nat :=
  let heldN := ((List.range (v.closed.length + 1)).filter fun n => decide (((v.closed.take n).flatMap fun g => g.cmds).length ≤ v.held)).foldl Nat.max 0
  Nat.max heldN (if v.retained then 1 else 0)

/-- The groups that a core waits for named, and no other of any context: those beyond the ones that count as completed and for which `p` holds, by place. -/
def markGroups (c : CoreId) (x : CtxId) (p : Nat → Grp → Bool) (s : State) : State :=
  let clear := fun (g : Grp) => { g with fences := g.fences.filter (· != c.val) }
  let s1 : State := { s with vctx := s.vctx.map fun v => { v with closed := v.closed.map clear } }
  s1.modVc x fun v =>
    let d := doneGroups v
    { v with closed := ((List.range v.closed.length).zip v.closed).map fun e =>
        { e.2 with fences := if decide (d ≤ e.1) && p e.1 e.2 then e.2.fences ++ [c.val] else e.2.fences } }

/-- The core waits for a group still. -/
def groupsPending (s : State) (c : CoreId) : Bool :=
  s.vctx.toList.any fun v => v.closed.any fun g => g.fences.contains c.val

/-- The wait of an instruction for groups of context `x`: they are named when it is first issued, and it proceeds once none is left. -/
def awaitGroups (c : CoreId) (x : CtxId) (p : Nat → Grp → Bool) (k : State → Acc Flow) (s : State) : Acc Flow :=
  let s1 := if (s.core c).marked then s else (markGroups c x p s).modCore c fun k => { k with marked := true }
  if groupsPending s1 c then .wait s1 else k s1

/-! ### VSD and VLDD -/

/-- The bits that word `w` of a descriptor holds (R36). -/
def sdMask (w : Nat) : Word :=
  match w with
  | 0 | 1 | 5 => 0xFFFFFFFF
  | 2 | 3 => 0x1FFFFF
  | 4 => 0xF03F8F0F
  | _ => 0

/-- Word `w` of descriptor `d` written (R8, R36, R58). -/
def setSd (x : CtxId) (d w : Nat) (v : Word) (s : State) : State := s.setReg (VC_SD x (8 * d + w)) (v &&& sdMask w)

/-- Length register `k` written (R58). -/
def setLn (x : CtxId) (k : Nat) (v : Word) (s : State) : State := s.setReg (VC_LN x k) (v &&& 0x1FFFFF)

/-- What VSD writes (R64). -/
def vsdWrite (x : CtxId) (d w : Nat) (gs gt : Word) (s : State) : State :=
  match w with
  | 6 => setSd x d 1 gt (setSd x d 0 gs s)
  | 7 => setLn x d gs s
  | n => setSd x d n gs s

/-- Some command names one of the descriptors from `d` on, `n` of them, or length register `d` when `ln` (R35). -/
def namesAny (s : State) (x : CtxId) (ln : Bool) (d n : Nat) (w : Dword) : Bool :=
  let c := vcmdOf w
  if ln then cmdNamesLen d c else (List.range n).any fun k => cmdNames s x.val (d + k) c

/-- The checks and the wait of R35 before a write of descriptors or a length register. -/
def descWrite (c : CoreId) (w : Word) (x : CtxId) (ln : Bool) (d n : Nat) (k : State → Acc Flow) (s : State) : Acc Flow :=
  if (s.vc x).opened.any fun q => namesAny s x ln d n q.w then .exc (.plain cVCMD w) s
  else awaitGroups c x (fun _ g => g.cmds.any fun q => namesAny s x ln d n q.w) k s

/-- VSD (R64). -/
def vsdBody (c : CoreId) (gs gt : GReg) (sd w : Nat) : State → Acc Flow :=
  let word := encVsd gs.val gt.val sd w
  vecAllowed c word fun s =>
    if w = 7 ∧ 16 ≤ sd then .exc (excIllegal word) s
    else withCtx c word (fun x => descWrite c word x (w == 7) sd 1 fun t =>
      .ok .next (vsdWrite x sd w (t.g c gs) (t.g c gt) t)) s

/-- A range of virtual addresses translated page by page, `fuel` bounding the pages; of the exceptions of its pages the one that ranks first is raised
(R236). -/
def rangePieces (c : CoreId) (k : AccKind) : Nat → Nat → Nat → State → Acc (List Piece)
  | 0, _, _, s => .ok [] s
  | fuel + 1, va, len, s =>
    if len = 0 then .ok [] s
    else
      let n := Nat.min len (4096 - va % 4096)
      match transPieces c (va % 2 ^ 32) n k false s with
      | .wait s1 => .wait s1
      | .ok ps s1 => (rangePieces c k fuel (va + n) (len - n) s1).bind fun qs s2 => .ok (ps ++ qs) s2
      | .exc e s1 =>
        match rangePieces c k fuel (va + n) (len - n) s1 with
        | .wait s2 => .wait s2
        | .exc e2 s2 => if xlateRank e2 < xlateRank e then .exc e2 s2 else .exc e s1
        | .ok .. => .exc e s1

/-- Pieces of at most 32 bytes each. -/
def smallPieces (ps : List Piece) : List Piece :=
  ps.flatMap fun p => (List.range ((p.len + 31) / 32)).map fun j =>
    { p with pa := p.pa + 32 * j, va := p.va + 32 * j, len := Nat.min 32 (p.len - 32 * j) }

/-- `len` bytes loaded from a range that is translated whole before any byte is read (R65, R119). -/
def loadRange (c : CoreId) (va len : Nat) (s : State) : Acc (List Byte) :=
  (rangePieces c .load (len / 4096 + 2) va len s).bind fun ps s1 => loadPieces c (smallPieces ps) s1

/-- Descriptor words loaded from bytes, `n` descriptors from `d` on. -/
def loadDescs (x : CtxId) (d n : Nat) (b : List Byte) (s : State) : State :=
  (List.range (8 * n)).foldl (fun t j => setSd x (d + j / 8) (j % 8) (wordAt b j) t) s

/-- VLDD (R58, R65). -/
def vlddBody (c : CoreId) (gs : GReg) (sd n1 : Nat) : State → Acc Flow :=
  let word := encVldd gs.val sd n1
  let n := n1 + 1
  vecAllowed c word fun s =>
    if 64 < sd + n then .exc (excIllegal word) s
    else withCtx c word (fun x => descWrite c word x false sd n fun t =>
      let va := t.g c gs
      if va.toNat % 32 ≠ 0 then .exc (.plain cALIGN va) t
      else (loadRange c va.toNat (32 * n) t).bind fun b t1 => .ok .next (loadDescs x sd n b t1)) s

/-! ### VISSUE -/

/-- The command breaks a rule of R71 or R90. -/
def vissueBad (v : VCtx) (w : Dword) : Bool :=
  let c := vcmdOf w
  !vcmdOk c || (decide (c.grp = 0 ∨ c.grp = 2) && v.opened.isEmpty) || (decide (c.grp = 1 ∨ c.grp = 3) && !v.opened.isEmpty) ||
    (c.grp == 0 && decide (7 ≤ v.opened.length))

/-- The slot count of a group as it closes (R93). -/
def closeCount (s : State) (x : CtxId) (cmds : List QCmd) : Option (Nat × Nat) :=
  tooManySlots (cmds.map fun q => sampleInstr s x.val q.w)

/-- A group put at the end of the queue; the first one meets the start rule (R111). -/
def queueGroup (x : CtxId) (g : Grp) (s : State) : State :=
  let s1 := s.modVc x fun v => { v with closed := v.closed ++ [g] }
  if (s.vc x).closed.isEmpty then headArrives x s1 else s1

/-- Core `c` waits with a VSD or VLDD of context `x` for the groups that name its target, and a group of these commands is one (R35). -/
def waitsForDesc (s : State) (x : CtxId) (cmds : List QCmd) (c : CoreId) : Bool :=
  (s.core c).marked && boundCtx s c == some x &&
    (match (s.core c).stall with
      | some (.vsd _ _ _ sd w) => cmds.any fun q => namesAny s x (w == 7) sd.toNat 1 q.w
      | some (.vldd _ _ sd n1) => cmds.any fun q => namesAny s x false sd.toNat (n1.toNat + 1) q.w
      | _ => false)

/-- The cores whose VSD or VLDD waits for a group that closes now. -/
def descWaiters (s : State) (x : CtxId) (cmds : List QCmd) : List Nat :=
  (List.range 4).filter fun c => waitsForDesc s x cmds (coreNo c)

/-- A command accepted into the queue (R66, R89, R93). A group that closes while a core waits to write a descriptor that it names is waited for too
(R35). -/
def queueCmd (x : CtxId) (q : QCmd) (s : State) : State :=
  let cmds := (s.vc x).opened ++ [q]
  let grp := (vcmdOf q.w).grp
  if grp = 0 ∨ grp = 1 then s.modVc x fun v => { v with opened := cmds }
  else queueGroup x ⟨cmds, closeCount s x cmds, descWaiters s x cmds⟩ (s.modVc x fun v => { v with opened := [] })

/-- VISSUE (R66, R67, R90). -/
def vissueBody (c : CoreId) (gd gs gt : GReg) : State → Acc Flow :=
  let word := encVec gd.val gs.val gt.val 3
  vecAllowed c word <| withCtx c word fun x s =>
    let w := (s.g c gt) ++ (s.g c gs)
    if !drained s c then .wait s
    else if (s.core c).stPend then .exc ⟨cSTORE_ERR, 0, none, none⟩ s
    else if vissueBad (s.vc x) w then .exc (.plain cVCMD word) s
    else if 64 ≤ (s.vc x).queue.length then .wait s
    else
      let n := ctxIssue s x
      let s1 := queueCmd x ⟨w, n⟩ (s.setRf (VC_STAT x) 15 0 (n + 1))
      putG c gd (BitVec.ofNat 32 (x.val * 2 ^ 16 + n)) s1

/-! ### Fences -/

/-- The place of the group whose closing command carries an issue number. -/
def groupPlace (v : VCtx) (n : Nat) : Option Nat :=
  v.closed.findIdx? fun g => match g.cmds.getLast? with | some q => q.issue % 65536 == n | none => false

/-- VFENCE (R104). -/
def vfenceBody (c : CoreId) (gs : GReg) : State → Acc Flow :=
  let word := encVec 0 gs.val 0 7
  vecAllowed c word <| withCtx c word fun x s =>
    let place := groupPlace (s.vc x) (fld (s.g c gs) 15 0)
    awaitGroups c x (fun k _ => gs.val == 0 || (match place with | some p => decide (k ≤ p) | none => false)) (fun t => .ok .next t) s

/-- A translation that a group found, in the scope of a VINV (R270, R272). -/
def foundMatch (ty asid part addr : Nat) (f : Found) : Bool :=
  match f.res with
  | .ok e => invMatch ty asid part addr e
  | _ => false

/-- The group's translations marked for a core, or freed of its mark. -/
def markFound (c : CoreId) (p : Found → Bool) (r : Run) : Run :=
  { r with found := r.found.map fun f => let o := f.old.filter (· != c.val); { f with old := if p f then o ++ [c.val] else o } }

/-- Some group still holds a translation that a core's VINV waits for (R272). -/
def vinvPending (s : State) (c : CoreId) : Bool :=
  let old := fun (r : Option Run) => match r with | some r => r.found.any fun f => f.old.contains c.val | none => false
  s.vctx.toList.any fun v => old v.cur || old v.sv

/-- VINV (R269, R270, R272). -/
def vinvBody (c : CoreId) (ga gb : GReg) (ty : Nat) (s : State) : Acc Flow :=
  match invRefusal s c ty (encInv gb.val ga.val ty 11) with
  | some e => .exc e s
  | none =>
    if !drained s c then .wait s
    else
      let sc := invScope s c ga gb
      let mark := markFound c (foundMatch ty sc.1 sc.2.1 sc.2.2)
      let s1 := if (s.core c).marked then s
        else
          let t := (invalidate none ty sc.1 sc.2.1 sc.2.2 s).modCore c fun k => { k with marked := true }
          { t with vctx := t.vctx.map fun v => { v with cur := v.cur.map mark, sv := v.sv.map mark } }
      if vinvPending s1 c then .wait s1 else .ok .next s1

/-! ### Contexts -/

/-- The engine gives no context: patch processing forbids it, or it has stopped (R186, R191). -/
def vmsNoCtx (s : State) : Bool := !s.rb VMS_PSTAT 30 || s.rb VMS_ERR 30

/-- The lowest free context. -/
def freeCtx (s : State) : Option CtxId :=
  if vmsNoCtx s then none else ((List.range 8).find? fun x => !ctxAlloc s (ctxNo x)).map ctxNo

/-- The frame of context `x` holds the address. -/
def inCtxFrame (x : CtxId) (pa : Nat) : Bool := pa / 0x10000 == 0x2011 + x.val

/-- Context `x` with the reset values of its frame, allocated (R114). -/
def ctxFresh (x : CtxId) (s : State) : State :=
  let s1 := s.resetRegs fun a => inCtxFrame x a || a == VSE_FPS x
  (s1.setVc x VCtx.reset).setRb (VC_STAT x) 31 true

/-- VCTX_ALLOC (R114). -/
def vctxAllocBody (c : CoreId) (gd : GReg) : State → Acc Flow :=
  ctxInstr c (encVec gd.val 0 0 4) fun s =>
    match freeCtx s with
    | none => putG c gd rcVC_FULL s
    | some x =>
      let sp := coreSpace s c
      putG c gd (BitVec.ofNat 32 x.val) ((ctxFresh x s).setReg (VC_XLAT x) (BitVec.ofNat 32 (sp.2 * 256 + sp.1)))

/-- The accumulators that a context owns. -/
def ownedAccs (s : State) (x : CtxId) : List Nat := (List.range 8).filter fun m => s.rb (VC_EAOWN x) m

/-- Accumulators cleared. -/
def clearAccs (l : List Nat) (s : State) : State := l.foldl (fun t m => t.setEa m .zero) s

/-- VCTX_FREE (R116). -/
def vctxFreeBody (c : CoreId) (gd gs : GReg) : State → Acc Flow :=
  ctxInstr c (encVec gd.val gs.val 0 5) fun s =>
    let x := ctxNo (fld (s.g c gs) 2 0)
    if !ctxAlloc s x then putG c gd rcNOT_ALLOC s
    else if (s.vc x).busy then putG c gd rcCTX_BUSY s
    else
      let v := s.vc x
      let s1 := clearAccs (ownedAccs s x) (s.setVc x { VCtx.reset with recs := v.recs, lap := v.lap })
      let s2 := ((s1.setReg (VC_EAOWN x) 0).setReg (VC_BINDS x) 0).setReg (VSE_FPS x) 0
      putG c gd 0 (s2.setRb (VC_STAT x) 31 false)

/-- VBIND (R112). -/
def vbindBody (c : CoreId) (gd gs : GReg) : State → Acc Flow :=
  ctxInstr c (encVec gd.val gs.val 0 6) fun s =>
    let v := s.g c gs
    let x := ctxNo (fld v 2 0)
    if wbit v 31 then putG c gd 0 (unbind c s)
    else if !ctxAlloc s x then putG c gd rcNOT_ALLOC s
    else putG c gd 0 ((unbind c s).setRb (VC_BINDS x) c.val true)

/-- A group of the context, queued or running, names accumulator `m` (R115); the commands of the open group and of a retained one count too (DESIGN CHOICE,
log 61). -/
def accInUse (v : VCtx) (m : Nat) : Bool := v.queue.any fun q => (namedAccs (vcmdOf q.w)).contains m

/-- Grants and releases of accumulators to context `x` (R115). -/
def eaownWrite (x : CtxId) (v : Word) (s : State) : State :=
  let grant := (List.range 8).filter fun m => wbit v m && (eaOwner s m).isNone
  let s1 := clearAccs grant (grant.foldl (fun t m => t.setRb (VC_EAOWN x) m true) s)
  let drop := (List.range 8).filter fun m => wbit v (8 + m) && s1.rb (VC_EAOWN x) m && !accInUse (s1.vc x) m
  clearAccs drop (drop.foldl (fun t m => t.setRb (VC_EAOWN x) m false) s1)

/-- VEAOWN (R112, R115). -/
def veaownBody (c : CoreId) (gd gs : GReg) : State → Acc Flow :=
  let word := encVec gd.val gs.val 0 8
  ctxInstr c word <| withCtx c word fun x s =>
    let s1 := eaownWrite x (s.g c gs) s
    putG c gd (s1.reg (VC_EAOWN x)) s1

/-! ### Save images -/

/-- The registers that a save image holds between 0x008 and 0x033, with their places (R117). -/
def imageRegs (x : CtxId) : List (Nat × Nat × Word) :=
  [(0x008, VC_CTL x, 0x3C), (0x00C, VC_XLAT x, 0xFFF), (0x014, VSE_FPS x, 0x03003F3F), (0x018, VC_SHINT x, 3), (0x01C, VC_DONE x, 0xFFFFFF),
   (0x020, VC_CRBASE_LO x, 0xFFFFFFE0), (0x024, VC_CRBASE_HI x, 0xFFFF), (0x028, VC_CRSIZE x, 0xF), (0x02C, VC_CRHEAD x, 0xFFF),
   (0x030, VC_CRTAIL x, 0xFFF)]

/-- The word at offset `o` of the fixed part of an image (R117). -/
def imageWord (s : State) (x : CtxId) (o : Nat) : Word :=
  let v := s.vc x
  let q := v.queue
  if o = 0 then 0x43565141
  else if o = 4 then BitVec.ofNat 32 (1 + 256 * fld (s.reg (VC_EAOWN x)) 7 0 + 2 ^ 16 * (q.length % 128) + 2 ^ 23 * b2n (!v.opened.isEmpty))
  else if o = 0x10 then BitVec.ofNat 32 (ctxIssue s x)
  else if 0x100 ≤ o ∧ o < 0x140 then s.reg (VC_LN x ((o - 0x100) / 4))
  else if 0x200 ≤ o ∧ o < 0x400 then
    match q[(o - 0x200) / 8]? with
    | some c => BitVec.ofNat 32 (c.w.toNat / (if o % 8 = 0 then 1 else 2 ^ 32))
    | none => 0
  else if 0x400 ≤ o ∧ o < 0xC00 then s.reg (VC_SD x ((o - 0x400) / 4))
  else match (imageRegs x).find? fun e => e.1 == o with
    | some e => s.reg e.2.1
    | none => 0

/-- An accumulator in an image (R143). -/
def accBytes (a : EauAcc) : List Byte := leBytes 540 a.v.toNat ++ leBytes 4 a.s.toNat

/-- The whole image of context `x` (R117). -/
def imageBytes (s : State) (x : CtxId) : List Byte :=
  ((List.range 896).flatMap fun k => leBytes 4 (imageWord s x (4 * k)).toNat) ++ (ownedAccs s x).flatMap fun m => accBytes (s.ea m)

/-- VCSAVE (R112, R118). A suspended context that has taken commands since is no context without queued groups: CTX_BUSY, also where they only have opened a
group (DESIGN CHOICE, log 61). -/
def vcsaveBody (c : CoreId) (gd gs gt : GReg) : State → Acc Flow :=
  ctxInstr c (encVec gd.val gs.val gt.val 9) fun s =>
    let va := s.g c gs
    let x := ctxNo (fld (s.g c gt) 2 0)
    if va.toNat % 32 ≠ 0 then .exc (.plain cALIGN va) s
    else if !ctxAlloc s x then putG c gd rcNOT_ALLOC s
    else if !s.rb (VC_STAT x) 26 || (s.vc x).busy || (s.vc x).held != (s.vc x).queue.length then putG c gd rcCTX_BUSY s
    else
      let b := imageBytes s x
      (rangePieces c .store (b.length / 4096 + 2) va.toNat b.length s).bind fun ps s1 =>
        (storePieces c (smallPieces ps) b s1).bind fun _ s2 => putG c gd 0 s2

/-- Held commands of an image as groups: the closed ones, and the open one (R89, R117). -/
def regroup : List QCmd → List QCmd → List Grp × List QCmd
  | [], acc => ([], acc)
  | q :: t, acc =>
    if (vcmdOf q.w).grp ≥ 2 then let r := regroup t []; (⟨acc ++ [q], none, []⟩ :: r.1, r.2)
    else regroup t (acc ++ [q])

/-- The held commands of an image, numbered back from the next issue count. -/
def imageCmds (b : List Byte) : List QCmd :=
  let n := fld (wordAt b 1) 22 16
  let next := fld (wordAt b 4) 15 0
  (List.range n).map fun k =>
    ⟨wordAt b (128 + 2 * k + 1) ++ wordAt b (128 + 2 * k), (next + 65536 - (n - k)) % 65536⟩

/-- An accumulator from its 544 bytes (R143). -/
def accOf (b : List Byte) : EauAcc := ⟨BitVec.ofNat 4320 (leNat (b.take 540)), BitVec.ofNat 3 (leNat ((b.drop 540).take 4)), 0⟩

/-- An image restored into context `x` (R119). -/
def imageRestore (x : CtxId) (b : List Byte) (accs : List Byte) (s : State) : State :=
  let own := (List.range 8).filter fun m => wbit (wordAt b 1) (8 + m)
  let s1 := (imageRegs x).foldl (fun t e => t.setReg e.2.1 (wordAt b (e.1 / 4) &&& e.2.2)) (ctxFresh x s)
  let s2 := (List.range 16).foldl (fun t k => setLn x k (wordAt b (0x40 + k)) t) s1
  let s3 := loadDescs x 0 64 ((b.drop 0x400).take 2048) s2
  let s4 := (s3.setRf (VC_STAT x) 15 0 (fld (wordAt b 4) 15 0)).setReg (VC_EAOWN x) (BitVec.ofNat 32 (fld (wordAt b 1) 15 8))
  let s5 := ((List.range own.length).zip own).foldl (fun t e => t.setEa e.2 (accOf ((accs.drop (544 * e.1)).take 544))) s4
  let g := regroup (imageCmds b) []
  let (q, s6) := s5.draw
  headArrives x (s6.modVc x fun v => { v with closed := g.1, opened := g.2, lap := Config.restoredPhase q })

/-- VCRST (R112, R119). -/
def vcrstBody (c : CoreId) (gd gs : GReg) : State → Acc Flow :=
  ctxInstr c (encVec gd.val gs.val 0 0xA) fun s =>
    let va := s.g c gs
    if va.toNat % 32 ≠ 0 then .exc (.plain cALIGN va) s
    else (loadRange c va.toNat 3584 s).bind fun b s1 =>
      if wordAt b 0 != 0x43565141 || fld (wordAt b 1) 7 0 != 1 then putG c gd rcBADIMAGE s1
      else match freeCtx s1 with
        | none => putG c gd rcVC_FULL s1
        | some x =>
          let own := (List.range 8).filter fun m => wbit (wordAt b 1) (8 + m)
          if own.any fun m => (eaOwner s1 m).isSome then putG c gd rcEA_BUSY s1
          else (loadRange c (va.toNat + 3584) (544 * own.length) s1).bind fun a s2 =>
            putG c gd (BitVec.ofNat 32 x.val) (imageRestore x b a s2)

/-! ### Suspension -/

/-- VSUSP: new surveys stop; one under way is abandoned at the next POLL point (R172, R183). -/
def vsuspBody (c : CoreId) (gd gs : GReg) : State → Acc Flow :=
  ctxInstr c (encVec gd.val gs.val 0 0xB) fun s =>
    let x := ctxNo (fld (s.g c gs) 2 0)
    if !ctxAlloc s x then putG c gd rcNOT_ALLOC s
    else putG c gd 0 (s.modVc x fun v => { v with suspPend := true })

/-- The retained group at the head discarded without a record (R164). -/
def discardHead (x : CtxId) (s : State) : State :=
  headArrives x (s.modVc x fun v => { v with closed := v.closed.drop 1, retained := false })

/-- A halted or suspended context resumes (R164). -/
def resumeCtx (x : CtxId) (discard : Bool) (s : State) : State :=
  if !s.rb (VC_STAT x) 28 && !s.rb (VC_STAT x) 26 then s
  else
    let s1 := if discard && (s.vc x).retained then discardHead x s else s
    let s2 := s1.modVc x fun v => { v with held := 0, retained := false }
    ((s2.setRb (VC_STAT x) 28 false).setRb (VC_STAT x) 26 false).setRb (VC_FINFO x) 31 false

/-- VRESUME (R163, R164). -/
def vresumeBody (c : CoreId) (gd gs gt : GReg) : State → Acc Flow :=
  ctxInstr c (encVec gd.val gs.val gt.val 0xC) fun s =>
    let x := ctxNo (fld (s.g c gs) 2 0)
    if !ctxAlloc s x then putG c gd rcNOT_ALLOC s
    else putG c gd 0 (resumeCtx x (wbit (s.g c gt) 0) s)

/-! ### The instructions -/

/-- VSD (R64). -/
def execVsd (c : CoreId) (gs gt : GReg) (sd : BitVec 6) (w : BitVec 3) (s : State) : Out :=
  .next (run c (.vsd c gs gt sd w) .none (vsdBody c gs gt sd.toNat w.toNat) s)

/-- VLDD (R65). -/
def execVldd (c : CoreId) (gs : GReg) (sd n1 : BitVec 6) (s : State) : Out :=
  .next (run c (.vldd c gs sd n1) .none (vlddBody c gs sd.toNat n1.toNat) s)

/-- A VSD or VLDD that waited for a group goes on once it has completed (R35). -/
def execDescWriteRelease (c : CoreId) (s : State) : Out :=
  .next (match (s.core c).stall with
    | some (.vsd d gs gt sd w) => run c (.vsd d gs gt sd w) .none (vsdBody c gs gt sd.toNat w.toNat) s
    | some (.vldd d gs sd n1) => run c (.vldd d gs sd n1) .none (vlddBody c gs sd.toNat n1.toNat) s
    | _ => s)

/-- VISSUE (R66). -/
def execVissue (c : CoreId) (gd gs gt : GReg) (s : State) : Out := .next (run c (.vissue c gd gs gt) .none (vissueBody c gd gs gt) s)

/-- A VISSUE that waited goes on once an entry of the queue is free (R67). -/
def execVissueQueueRoom (c : CoreId) (s : State) : Out :=
  .next (match (s.core c).stall with
    | some (.vissue d gd gs gt) => run c (.vissue d gd gs gt) .none (vissueBody c gd gs gt) s
    | _ => s)

/-- VCTX_ALLOC (R114). -/
def execVctxAlloc (c : CoreId) (gd : GReg) (s : State) : Out := .next (run c (.vctxAlloc c gd) .none (vctxAllocBody c gd) s)

/-- VCTX_FREE (R116). -/
def execVctxFree (c : CoreId) (gd gs : GReg) (s : State) : Out := .next (run c (.vctxFree c gd gs) .none (vctxFreeBody c gd gs) s)

/-- VBIND (R112). -/
def execVbind (c : CoreId) (gd gs : GReg) (s : State) : Out := .next (run c (.vbind c gd gs) .none (vbindBody c gd gs) s)

/-- VFENCE (R104). -/
def execVfence (c : CoreId) (gs : GReg) (s : State) : Out := .next (run c (.vfence c gs) .none (vfenceBody c gs) s)

/-- A VFENCE that waited goes on once the groups it waits for have completed (R104). -/
def execVfenceRelease (c : CoreId) (s : State) : Out :=
  .next (match (s.core c).stall with
    | some (.vfence d gs) => run c (.vfence d gs) .none (vfenceBody c gs) s
    | _ => s)

/-- VEAOWN (R115). -/
def execVeaown (c : CoreId) (gd gs : GReg) (s : State) : Out := .next (run c (.veaown c gd gs) .none (veaownBody c gd gs) s)

/-- VCSAVE (R118). -/
def execVcsave (c : CoreId) (gd gs gt : GReg) (s : State) : Out := .next (run c (.vcsave c gd gs gt) .none (vcsaveBody c gd gs gt) s)

/-- VCRST (R119). -/
def execVcrst (c : CoreId) (gd gs : GReg) (s : State) : Out := .next (run c (.vcrst c gd gs) .none (vcrstBody c gd gs) s)

/-- VSUSP (R163, R172). -/
def execVsusp (c : CoreId) (gd gs : GReg) (s : State) : Out := .next (run c (.vsusp c gd gs) .none (vsuspBody c gd gs) s)

/-- VRESUME (R163, R164). -/
def execVresume (c : CoreId) (gd gs gt : GReg) (s : State) : Out := .next (run c (.vresume c gd gs gt) .none (vresumeBody c gd gs gt) s)

/-- VINV (R272). -/
def execVinv (c : CoreId) (ga gb : GReg) (ty : BitVec 4) (s : State) : Out :=
  .next (run c (.vinv c ga gb ty) .none (vinvBody c ga gb ty.toNat) s)

/-- A VINV that waited goes on once no group holds a translation it waits for (R272). -/
def execVinvRelease (c : CoreId) (s : State) : Out :=
  .next (match (s.core c).stall with
    | some (.vinv d ga gb ty) => run c (.vinv d ga gb ty) .none (vinvBody c ga gb ty.toNat) s
    | _ => s)

end Sys2Proof.Machine
end

