-- ==== Sys2Proof/Machine/VseEvents.lean ====
section
/-! DEFINITION. Events of the vector engine: the survey's steps, the ends of groups, suspension, completion rings and the microsequencer
(R91 to R94, R102, R106, R108, R152 to R157, R169, R172, R183 to R186, R190, R436). -/
namespace Sys2Proof.Machine

/-- A word written to a register by master `m`, as a transaction of its own (core 0 at level M for M0 and M1). -/
def masterWrite (m : Master) (pa : Nat) (v : Word) (s : State) : State :=
  postWrite m.val 0 .m pa (leBytes 4 v.toNat) s

/-- A closed group's survey begins, or goes on after its walks (R152). -/
def execGroupSurvey (x : CtxId) (s : State) : Out := .next (clocked (surveyGo x) s)

/-- A survey that waited for the previous group goes on (R91). -/
def execSurveyResume (x : CtxId) (s : State) : Out := .next (clocked (surveyResumed x) s)

/-- A survey that waited for the sum in flight takes its verdict (R436). -/
def execElgInflightWaitEnd (x : CtxId) (s : State) : Out := .next (clocked (surveyInflight x) s)

/-- A surveyed group claims its survey-table entries (R155). -/
def execSurveyTableClaim (x : CtxId) (s : State) : Out := .next (clocked (tableClaim x) s)

/-- A surveyed group takes its slots and starts to stream (R94). -/
def execCaravanSlotClaim (x : CtxId) (s : State) : Out := .next (clocked (slotClaim x) s)

/-- A group completes with OK or FPTRAP (R102, R150). -/
def execGroupComplete (x : CtxId) (s : State) : Out := .next (clocked (groupCompletes x) s)

/-- A group that an uncorrectable error stopped ends with MCHK (R169). -/
def execGroupMchk (x : CtxId) (s : State) : Out := .next (clocked (groupMchkEnds x) s)

/-- A group that needs more than eight slots fails at the head of its queue (R93). -/
def chainFullReport (x : CtxId) (s : State) : State :=
  match (s.vc x).closed with
  | g :: _ =>
    match g.tooMany with
    | some (k, n) =>
      if (s.vc x).cur.isNone && mayHead s x then groupEnd x { condAt vsCHAIN 0 k 7 0 0 with count := n } true 0 0 s else s
    | none => s
  | [] => s

/-- CHAIN_FULL reported (R93). -/
def execChainFullReport (x : CtxId) (s : State) : Out := .next (clocked (chainFullReport x) s)

/-- The SUSPENDED record (R161, R172). -/
def suspendRecord (s : State) (x : CtxId) : CRec :=
  let v := s.vc x
  let issue := match v.queue with | q :: _ => q.issue | [] => ctxIssue s x
  ⟨[BitVec.ofNat 32 (x.val * 2 ^ 24 + vsSUSPENDED * 2 ^ 16 + issue % 65536), 0, BitVec.ofNat 32 v.queue.length, 0, 0], vsSUSPENDED, issue, false⟩

/-- A suspension takes effect once nothing of the context runs: every queued command is held (R172). -/
def suspendEffect (x : CtxId) (s : State) : State :=
  let v := s.vc x
  if v.suspPend && v.cur.isNone && v.sv.isNone then
    let r := suspendRecord s x
    let s1 := s.modVc x fun v =>
      { v with suspPend := false, held := v.queue.length, closed := v.closed.map fun g => { g with fences := [] } }
    recGive x r ((s1.setRb (VC_STAT x) 26 true).setRb (VC_STAT x) 28 true)
  else s

/-- A suspension takes effect (R172). -/
def execSuspendEffect (x : CtxId) (s : State) : Out := .next (clocked (suspendEffect x) s)

/-- VC_CRTAIL written by a master (R108). -/
def execVcCrtailWrite (m : Master) (x : CtxId) (v : Word) (s : State) : Out := .next (masterWrite m (VC_CRTAIL x) v s)

/-- VC_CRBASE_LO written by a master (R106). -/
def execVcCrbaseLoWrite (m : Master) (x : CtxId) (v : Word) (s : State) : Out := .next (masterWrite m (VC_CRBASE_LO x) v s)

/-- A POLL point: the interval is held against MAX, a forced one is counted, and pending requests that act in a survey are taken; while a group
streams they are not (R183, R184). -/
def pollPoint (x : CtxId) (forced : Bool) (s : State) : State :=
  let n := Nat.min 64 (s.vc x).useq.since
  let s1 := if forced then s.countUp VMS_POLLSTAT 31 16 1 else s
  let s2 := (s1.setRf VMS_POLLSTAT 6 0 (Nat.max n (s1.rf VMS_POLLSTAT 6 0))).modVc x fun c => { c with useq := { c.useq with since := 0 } }
  if (s2.vc x).suspPend || s2.rf PMU_STAT 26 24 != 0 then surveyAbandon x s2 else s2

/-- A word of a routine that begins 64 VCLK or more after its last POLL point (R183). -/
def forcedPoll (x : CtxId) (s : State) : State :=
  if (s.vc x).busy then pollPoint x true (s.modVc x fun c => { c with useq := { c.useq with since := 64 } }) else s

/-- A forced POLL (R183). -/
def execForcedPoll (x : CtxId) (s : State) : Out := .next (clocked (forcedPoll x) s)

/-- What an uncorrectable control-store error does to one context: a survey is abandoned, and a group past step 5 stops with MCHK at the instruction
that runs, or at the last one when all have run; one that has stopped already keeps its condition. It ends once each of its remote writes has been answered
(R55, R166 to R168, R186, R193). -/
def cserrCtx (x : CtxId) (s : State) : State :=
  let s1 := surveyAbandon x s
  match (s1.vc x).cur with
  | some r =>
    if r.stopped.isSome then remoteSettle x s1
    else groupStops x r { condAt vsMCHK 8 (Nat.min r.pos (r.ins.length - 1)) 7 0 0 with pa := some 0 } s1
  | none => s1

/-- An uncorrectable control-store error (R186). -/
def vmsCserr (uaddr : BitVec 13) (s : State) : State :=
  let w := putFld (putBit (putBit (s.reg VMS_ERR) 31 true) 30 true) 12 0 uaddr.toNat
  icuEvent 191 ((List.range 8).foldl (fun t x => cserrCtx (ctxNo x) t) (s.setReg VMS_ERR w))

/-- An uncorrectable control-store error (R186). -/
def execVmsCserr (uaddr : BitVec 13) (s : State) : Out := .next (clocked (vmsCserr uaddr) s)

/-- VMS_LOCK.LOCK set by a master (R190). -/
def execVmsLockSet (m : Master) (s : State) : Out := .next (masterWrite m VMS_LOCK 1 s)

/-! ### Work abandoned -/

/-- The bytes in local memory of a group's destinations (R173). -/
def runDestPas (r : Run) : List Nat :=
  ((List.range r.ins.length).zip r.ins).flatMap fun e =>
    match e.2.d with
    | some d =>
      if d.trans then []
      else ((streamBytes r e.1 4 .vdst d (complexRole e.2.cmd.opc 4) (List.range (extentOf e.2 4))).map fun b => b.2.2).filter fun pa => !isRemote pa
    | none => []

/-- A running group abandoned: its destinations and accumulators are undefined (R173). -/
def abandonRun (x : CtxId) (s : State) : State :=
  match (s.vc x).cur with
  | some r =>
    let (q, s1) := (eauLost r.ins s).draw
    (runDestPas r).foldl (fun t pa => t.storeBytes pa [Config.abandonedByte q pa]) s1
  | none => s

/-- Every group abandoned (R173). -/
def abandonGroups (s : State) : State :=
  (List.range 8).foldl (fun t n => let x := ctxNo n; abandonRequests x (surveyAbandon x (abandonRun x t))) s

/-- A group of some context has passed step 5 and not ended. -/
def groupsRun (s : State) : Bool := s.vctx.toList.any fun v => v.cur.isSome

end Sys2Proof.Machine
end

