-- ==== Sys2Proof/Machine/LinkCmds.lean ====
section
/-! DEFINITION. Events of the Idene Link: ports, packets, remote requests, class-0 slots and fabric time (R351 to R376). -/
namespace Sys2Proof.Machine

/-! ### Answers to requests -/

/-- The ID that the XBM records for a remote request: a core's number for its accesses (R303). -/
def ReqOwner.busId : ReqOwner → Nat
  | .load c => c.val
  | .store c _ => c.val
  | _ => plainId

/-- A DECODE or TARGET that comes back from the owning node is a response like any other at the XBM, which records it (R311); a transaction
of the matrix records its own. -/
def remoteLogged (e : OutReq × Nat × List Byte) (s : State) : State :=
  if e.1.owner.isXact then s else (xbmLogged e.1.m e.1.owner.busId (e.1.kind != 0) e.1.pa (.done e.2.1 e.2.2, s)).2

/-- An answer reaches its requester (R309, R369). -/
def deliverOne (e : OutReq × Nat × List Byte) (s₀ : State) : State :=
  let s := remoteLogged e s₀
  let r := e.1
  match r.owner with
  | .load c => s.modCore c fun k => { k with rsp := k.rsp ++ [⟨r.pa, r.len, e.2.1, e.2.2⟩] }
  | .store c lvl => if e.2.1 = rOKAY then s else storeError c r.pa r.len lvl e.2.1 s
  | .xact m id => xactAnswered m id r.pa r.len e.2.1 e.2.2 s
  | .vse x =>
    let c := ctxNo x
    if r.kind = 0 then s.modVc c fun v => { v with rsp := v.rsp ++ [⟨r.pa, r.len, e.2.1, e.2.2⟩] }
    else if e.2.1 = rOKAY then remoteSettle c s else remoteSettle c (remoteWriteFails c r.pa (remoteCause e.2.1) s)
  | .record x => recAnswered (ctxNo x) (e.2.1 == rOKAY) s
  | .nobody => s

/-- Every answer that has come reaches its requester. -/
def deliverEnded (s : State) : State := s.ended.foldl (fun t e => deliverOne e { t with ended := t.ended.drop 1 }) s

/-- Requests to the node's own window performed in their order, as far as their targets take them (R20). -/
def serveOwnList : List OutReq → State → State
  | [], s => s
  | r :: t, s =>
    match ownerPerform (nodeId s) r.kind (r.pa % 2 ^ 32) r.len r.fn r.data r.coll s with
    | (.done c b, s1) => serveOwnList t (endRequest r.tag c c b s1)
    | (.wait, s1) => s1

/-- The requests to the node's own window that wait, performed as far as M5 takes them (R20, R312). -/
def serveOwn (s : State) : State := serveOwnList (s.outst.filter fun r => r.port == 6) s

/-! ### Packets in -/

/-- A packet whose check failed is discarded and counted (R351, R378). -/
def crcCount (p : Nat) (s : State) : State :=
  let s1 := portCount IDL_P_CRCERR p s
  let th := s.rf (IDL_P_CTL p) 15 0
  if th != 0 && s1.rf (IDL_P_CRCERR p) 15 0 == th && s.rf (IDL_P_CRCERR p) 15 0 != th then icuEvent (194 + 8 * p) s1 else s1

/-- A receiver finds a bad HCRC or CRC: the packet is discarded, counted, and requested again (R351). -/
def linkCrcError (p : Nat) (s : State) : State :=
  if portUp s p then { crcCount p s with retryReq := s.retryReq ||| (1#6 <<< p) } else s

/-- A packet arrives at port `p`: a stomped one is counted and not requested again, one with a bad check is requested again unless its good
header says class 0, and a good one is what `body` says (R351). -/
def arrival (p : Nat) (k : Packet) (body : State → State) (s : State) : State :=
  if !portUp s p then s
  else if stomped k then portCount IDL_P_STOMP p s
  else if !packetOk k then (if hcrcOk k && pktCls k == 0 then crcCount p s else linkCrcError p s)
  else body { s with retryReq := s.retryReq &&& ~~~(1#6 <<< p) }

/-- A packet is for this node (R360). -/
def isLocal (s : State) (k : Packet) : Bool := nodeValid s && pktDst k == nodeId s

/-- The payload of a packet is as long as LEN says. -/
def lenOk (k : Packet) : Bool := k.payload.length == pktLen k

/-- The answer to a request, sent back in its class (R363, R368). -/
def answer (k : Packet) (ty code : Nat) (bytes : List Byte) (s : State) : State :=
  sendRouted (mkPacket (pktCls k) (pktSrc k) (srcId s) ty 15 (pktTag k) 0 0 bytes.length k.w2.toNat code bytes) s

/-- What the request of a local packet asks of M5: 0 a read, 1 a write, 2 an atomic, and how many bytes. -/
def inKind (k : Packet) : Nat × Nat := (if pktTy k = 3 then 1 else pktTy k, if pktTy k = 2 then 4 else pktLen k)

/-- The request of a local packet that came through port `p` served: false while M5 or its target makes it wait (R371). -/
def serveIn (p : Nat) (k : Packet) (s : State) : Bool × State :=
  let a := inKind k
  match ownerPerform (pktSrc k) a.1 k.w2.toNat a.2 (fld k.w1 10 9) k.payload [] s with
  | (.wait, s1) => (false, s1)
  | (.done c b, s1) =>
    (true, match pktTy k with
      | 3 => if inboundFails s a.1 k.w2.toNat a.2 then portCount IDL_P_DROP p s1 else s1
      | 1 => answer k 9 c [] s1
      | _ => answer k 8 c b s1)

/-- Requests served in the order of their arrival, as far as they go. -/
def serveInList : List (Nat × Packet) → State → State
  | [], s => { s with inHeld := [] }
  | e :: t, s =>
    match serveIn e.1 e.2 s with
    | (true, s1) => serveInList t s1
    | (false, s1) => { s1 with inHeld := e :: t }

/-- The requests and the management records that wait tried again. -/
def serveHeldIn (s : State) : State := mgmtWrite s.mgmtHeld (serveInList s.inHeld s)

/-- A request taken in, behind any that wait. -/
def takeIn (p : Nat) (k : Packet) (s : State) : State := serveInList (s.inHeld ++ [(p, k)]) s

/-- An inbound request (R371). -/
def inbound (p ty : Nat) (k : Packet) (s : State) : State :=
  if pktTy k = ty then arrival p k (fun t => if isLocal t k && (ty == 0 || lenOk k) then takeIn p k t else t) s else s

/-- An inbound READ (R371). -/
def execRead (p : Fin 6) (pkt : Packet) (s : State) : Out := .next (clocked (inbound p.val 0 pkt) s)

/-- An inbound WRITE (R371). -/
def execWrite (p : Fin 6) (pkt : Packet) (s : State) : Out := .next (clocked (inbound p.val 1 pkt) s)

/-- An inbound ATOMIC (R371). -/
def execAtomic (p : Fin 6) (pkt : Packet) (s : State) : Out := .next (clocked (inbound p.val 2 pkt) s)

/-- An inbound C0WRITE (R371). -/
def execC0write (p : Fin 6) (pkt : Packet) (s : State) : Out := .next (clocked (inbound p.val 3 pkt) s)

/-- The request that a response of type `ty` may end (R368, R370). -/
def awaited (s : State) (ty tag : Nat) : Bool :=
  s.outst.any fun r => r.tag == tag && decide (r.port < 6) && (ty == 0xA || (r.kind == 1) == (ty == 9))

/-- A response or a NACK arrives: it ends its request, or it is late (R369, R370). -/
def responseEnds (ty : Nat) (k : Packet) (s : State) : State :=
  if isLocal s k then
    if awaited s ty (pktTag k) then
      if ty = 0xA then (if decide (4 ≤ pktCode k) && decide (pktCode k ≤ 6) then deliverEnded (endRequest (pktTag k) rLINK (pktCode k) [] s) else s)
      else if pktCode k ≤ 3 then deliverEnded (endRequest (pktTag k) (pktCode k) (pktCode k) k.payload s) else s
    else lateAnswer (pktTag k) s
  else s

/-- A packet of a response's type `ty` arrives (R369). -/
def responseIn (p ty : Nat) (k : Packet) (s : State) : State := if pktTy k = ty then arrival p k (responseEnds ty k) s else s

/-- RDRESP (R369). -/
def execRdresp (p : Fin 6) (pkt : Packet) (s : State) : Out := .next (clocked (responseIn p.val 8 pkt) s)

/-- WRACK (R369). -/
def execWrack (p : Fin 6) (pkt : Packet) (s : State) : Out := .next (clocked (responseIn p.val 9 pkt) s)

/-- NACK (R369). -/
def execNack (p : Fin 6) (pkt : Packet) (s : State) : Out := .next (clocked (responseIn p.val 0xA pkt) s)

/-- A request's time expires (R370). -/
def execRemoteRequestTimeout (tag : BitVec 10) (s : State) : Out := .next (clocked (fun s => deliverEnded (endRequest tag.toNat rLINK 8 [] s)) s)

/-- TYPE is one of R353's. -/
def knownType (ty : Nat) : Bool := decide (ty ≤ 3) || ty == 8 || ty == 9 || ty == 0xA || ty == 0xC || ty == 0xD

/-- A packet of a reserved TYPE is discarded and counted (R353). -/
def execReservedPacket (p : Fin 6) (pkt : Packet) (s : State) : Out :=
  .next (clocked (fun s => if knownType (pktTy pkt) then s else arrival p.val pkt (portCount IDL_P_DROP p.val) s) s)

/-- A packet with TTL reduced by one (R361). -/
def ttlLess (k : Packet) : Packet := sealPacket { k with w1 := putFld k.w1 27 24 (pktTtl k - 1) }

/-- A packet that is routed by its DST and is not for this node (R353, R360). -/
def transit (s : State) (k : Packet) : Bool := knownType (pktTy k) && pktTy k != 0xD && !isLocal s k

/-- A routed packet that is not local goes on, or is discarded (R360, R361). -/
def forward (p : Nat) (k : Packet) (s : State) : State :=
  let drop := fun (code : Nat) => let t := portCount IDL_P_DROP p s; if isRequest (pktTy k) then sendNack k code t else t
  if !transit s k then s
  else if pktTtl k = 0 then drop 5
  else match routePort s (pktDst k) with
    | none => drop 4
    | some q => outputPut q (ttlLess k) s

/-- The head of a packet whose CRC then fails may be on its way already: the copy ends with a stomp (R351). Classes 0 to 2 are forwarded
cut-through (R364). -/
def headForwarded (k : Packet) (s : State) : State :=
  if transit s k && hcrcOk k && decide (pktCls k ≤ 2) && decide (1 ≤ pktTtl k) then
    let (q, s1) := s.draw
    match routePort s1 (pktDst k) with
    | some o => if Config.cutThrough q then outputPut o (stomp (ttlLess k)) s1 else s1
    | none => s1
  else s

/-- A transit packet arrives (R351, R360). -/
def transitIn (p : Nat) (k : Packet) (s : State) : State :=
  if portUp s p && !packetOk k then headForwarded k (arrival p k id s) else arrival p k (forward p k) s

/-- A transit packet (R360). -/
def execPacketForward (p : Fin 6) (pkt : Packet) (s : State) : Out := .next (clocked (transitIn p.val pkt) s)

/-- A routed management packet for this node (R359). -/
def execMgmt (p : Fin 6) (pkt : Packet) (s : State) : Out :=
  .next (clocked (fun s => if pktTy pkt = 0xC then arrival p.val pkt (fun t => if isLocal t pkt then mgmtDeliver p.val pkt (tbNs t) t else t) s else s) s)

/-- A directed packet passed on: the nibble becomes the ingress port, HOPIDX and TTL follow (R352, R358). -/
def hopOn (p h : Nat) (k : Packet) : Packet :=
  sealPacket { k with w1 := putFld (putFld k.w1 13 11 (h + 1)) 27 24 (pktTtl k - 1), w2 := putFld k.w2 (4 * h + 3) (4 * h) p }

/-- A directed management packet: delivered at the end of its list, else sent on (R358). -/
def directed (p : Nat) (k : Packet) (s : State) : State :=
  let h := fld k.w1 13 11
  let n := hopNibble k.w2 h
  if n = 15 then mgmtDeliver p k (tbNs s) s
  else if pktTtl k = 0 || !portUp s n then portCount IDL_P_DROP p s
  else outputPut n (hopOn p h k) s

/-- A directed management packet (R358). -/
def execMgmtdir (p : Fin 6) (pkt : Packet) (s : State) : Out := .next (clocked (fun s => if pktTy pkt = 0xD then arrival p.val pkt (directed p.val pkt) s else s) s)

/-! ### The link layer -/

/-- The packets of a port with link sequence numbers up to an acknowledged one (R351). -/
def ackDrop (port : Nat) (seq : BitVec 8) (l : List LinkOut) : List LinkOut :=
  let mine := l.filter fun e => e.port == port && e.sent
  match mine.findIdx? fun e => e.seq == seq with
  | none => l
  | some i => let gone := mine.take (i + 1); l.filter fun e => !gone.contains e

/-- An acknowledgement (R351). -/
def linkAck (p : Nat) (seq : BitVec 8) (s : State) : State :=
  if portUp s p then { s with linkTx := ackDrop p seq s.linkTx, retries := s.retries.setIfInBounds p (0, 0) } else s

/-- An acknowledgement frees packets of the replay buffer (R351). -/
def execLinkAck (p : Fin 6) (seq : BitVec 8) (s : State) : Out := .next (clocked (linkAck p.val seq) s)

/-- A retry request: the packet is sent again, and after eight retries in a row the port goes down (R351, R355). -/
def linkRetry (p : Nat) (seq : BitVec 8) (s : State) : State :=
  if portUp s p && (s.linkTx.any fun e => e.port == p && e.sent && e.seq == seq) then
    let r := s.retries.toList.getD p (0, 0)
    let n := if r.1 = seq then r.2 + 1 else 1
    if 8 < n then deliverEnded (portFall p s)
    else { portCount IDL_P_RETRY p s with retries := s.retries.setIfInBounds p (seq, n) }
  else s

/-- A retry request (R351). -/
def execLinkRetry (p : Fin 6) (seq : BitVec 8) (s : State) : Out := .next (clocked (linkRetry p.val seq) s)

/-- A bad HCRC or CRC (R351). -/
def execLinkCrcError (p : Fin 6) (s : State) : Out := .next (clocked (linkCrcError p.val) s)

/-! ### Ports -/

/-- IDL_PnCTL written (R354). -/
def execIdlPortEnable (m : Master) (p : Fin 6) (v : Word) (s : State) : Out := .next (deliverEnded (masterWrite m (IDL_P_CTL p.val) v s))

/-- RETRAIN written (R355). -/
def execRetrain (m : Master) (p : Fin 6) (s : State) : Out :=
  .next (deliverEnded (masterWrite m (IDL_P_CTL p.val) (putBit (s.reg (IDL_P_CTL p.val)) 30 true) s))

/-- The state of port `p` (R354). -/
def portState (s : State) (p : Nat) : Nat := s.rf (IDL_P_STAT p) 31 29

/-- A port reaches UP (R376). -/
def portRise (p : Nat) (s : State) : State := pulse 121 (icuEvent (192 + 8 * p) (s.setRf (IDL_P_STAT p) 31 29 6))

/-- A bring-up state completes (R354); it waits for LPLL (R429), and HELLO completes with the first HELLO received. -/
def portAdvance (p : Nat) (s : State) : State :=
  let st := portState s p
  if s.rb (IDL_P_CTL p) 31 && s.rb PMU_PLL 0 && decide (1 ≤ st) then
    if st ≤ 4 then s.setRf (IDL_P_STAT p) 31 29 (st + 1)
    else if st = 5 && s.helloIn.getLsbD p then portRise p s
    else s
  else s

/-- A bring-up state completes (R354). -/
def execPortStateAdvance (p : Fin 6) (s : State) : Out := .next (clocked (portAdvance p.val) s)

/-- A bring-up state takes too long (R354). -/
def execPortStateTimeout (p : Fin 6) (s : State) : Out :=
  .next (clocked (fun s => if 1 ≤ portState s p.val ∧ portState s p.val ≤ 5 then portDown p.val s else s) s)

/-- Block lock lost (R355). -/
def execBlockLockLoss (p : Fin 6) (s : State) : Out := .next (clocked (fun s => if portUp s p.val then deliverEnded (portFall p.val s) else s) s)

/-- No HELLO for 16 µs (R355). -/
def execHelloSilence (p : Fin 6) (s : State) : Out := .next (clocked (fun s => if portUp s p.val then deliverEnded (portFall p.val s) else s) s)

/-- The HELLO that this node sends on port `p` (R356). -/
def ownHello (p : Nat) (s : State) : Hello :=
  { uid := s.otp.uid, id := BitVec.ofNat 14 (nodeId s), valid := nodeValid s, port := BitVec.ofNat 3 p,
    role := (let r := s.rf IDL_TCTL 31 30; BitVec.ofNat 2 (if r = 3 then 0 else r)), locked := s.rb IDL_TSTAT 31 }

/-- HELLOs flow in the states HELLO and UP (R356). -/
def hellosFlow (s : State) (p : Nat) : Bool := portState s p == 5 || portState s p == 6

/-- A HELLO sent (R356). -/
def execHelloSend (p : Fin 6) (s : State) : Out :=
  .next (clocked (fun s => if hellosFlow s p.val then { s with helloSent := s.helloSent.set p.val (some (ownHello p.val s)) } else s) s)

/-- A HELLO received: held, and an upstream neighbour that is neither a master nor a locked slave ends the lock (R356, R373). -/
def helloTake (p : Nat) (h : Hello) (s : State) : State :=
  if hellosFlow s p then
    let good := h.role == 1 || (h.role == 2 && h.locked)
    let w := putFld (putFld (putBit (putBit (s.reg (IDL_P_STAT p)) 28 h.valid) 27 good) 26 24 h.port.toNat) 13 0 h.id.toNat
    let s1 := (s.setReg (IDL_P_STAT p) w).setReg64 (IDL_P_NBRUID_LO p) (IDL_P_NBRUID_HI p) h.uid.toNat
    let s2 : State := { s1 with helloIn := s1.helloIn ||| (1#6 <<< p) }
    if ftSlave s2 && ftUport s2 == p && !good then ftUnlock s2 else s2
  else s

/-- A HELLO received (R356). -/
def execHello (p : Fin 6) (h : Hello) (s : State) : Out := .next (clocked (helloTake p.val h) s)

/-! ### The node -/

/-- IDL_MTXGO written with GO (R358). -/
def execIdlMtxgo (m : Master) (s : State) : Out := .next (masterWrite m IDL_MTXGO 1 s)

/-- IDL_NODEID written (R357). -/
def execIdlNodeidWrite (m : Master) (v : Word) (s : State) : Out := .next (masterWrite m IDL_NODEID v s)

/-- The packet of a class-0 slot goes out, or is dropped (R365). -/
def c0Send (k : Nat) (data : Option (List Byte)) (s : State) : State :=
  let dst := s.rf (IDL_C0D0 k) 13 0
  let len := s.rf (IDL_C0D3 k) 6 0
  if !s.rb (IDL_C0D0 k) 31 || len == 0 || decide (64 < len) then s
  else match data, nodeValid s && dst != nodeId s, routePort s dst with
    | some b, true, some q =>
      outputPut q (mkPacket 0 dst (srcId s) 3 15 0 0 0 b.length (s.reg (IDL_C0D1 k)).toNat 0 b) s
    | _, _, _ => s.countUp IDL_C0DROP 15 0 1

/-- The launch time of the oldest slot of descriptor `k` has come: 256 ns after its start (R365). -/
def c0Launch (k : Nat) (s : State) : State :=
  match s.c0.find? fun e => e.k == k with
  | some e =>
    if e.start + 256 ≤ tbNs s then c0Send k e.data { s with c0 := s.c0.erase e } else s
  | none => s

/-- A class-0 launch (R365). -/
def execC0Launch (k : Fin 32) (s : State) : Out := .next (clocked (c0Launch k.val) s)

/-- An exchange on UPORT (R372). -/
def execTimeExchange (t1 t2 t3 t4 : BitVec 80) (s : State) : Out := .next (clocked (ftExchange t1 t2 t3 t4) s)

/-- An exchange that a neighbour began at port `p` answered: the node stamps its arrival, t2, and the answer it sends, t3, which leaves a free time
later (R372). -/
def exchangeReply (p : Fin 6) (s : State) : State :=
  if portUp s p.val then
    let (q, s1) := s.draw
    { s1 with exchSent := s1.exchSent.set p.val (some (s.tb, s.tb + (Config.replyTime q).setWidth 80)) }
  else s

/-- An exchange answered (R372). -/
def execTimeExchangeReply (p : Fin 6) (s : State) : Out := .next (clocked (exchangeReply p) s)

end Sys2Proof.Machine
end

