-- ==== Sys2Proof/Machine/MemCmds.lean ====
section
/-! DEFINITION. Events of the Erg, the memory integrity unit and the DRAM controller (R47, R60, R283, R286, R288 to R290, R293 to R298). -/
namespace Sys2Proof.Machine

/-- An admitted group still uses the bank groups: it has an Erg page (R286). -/
def vseUsesErg (s : State) : Bool :=
  s.vctx.toList.any fun v => match v.cur with
    | some r => r.found.any fun f => (match f.res with | .ok e => isErg e.pa | _ => false)
    | none => false

/-- Bank group `g` leaves service once nothing admitted uses it (R286). -/
def bankGroupLeave (g : Nat) (s : State) : State :=
  if s.rb ERG_BGCTL g && !groupOos s g && !vseUsesErg s then { groupLeave g s with fillRun := s.fillRun &&& ~~~(1#8 <<< g), ergSlots := s.ergSlots &&& ~~~(1#8 <<< g) } else s

/-- A requested zero-fill starts (R288). -/
def zeroFillStart (g : Nat) (s : State) : State :=
  if s.rb ERG_INIT g && !groupOos s g && !s.fillRun.getLsbD g && !vseUsesErg s then { s with fillRun := s.fillRun ||| (1#8 <<< g) } else s

/-- Group `g` has power and its clock: the device runs, or it is waking from COCOON and the group's slot is over (R287, R288). -/
def groupPowered (g : Nat) (s : State) : Bool := decide (s.pwr ≤ 1) || (s.pwr == 2 && s.ergSlots != 0 && !s.ergSlots.getLsbD g)

/-- A zero-fill ends: the group holds zeros and is ready (R288). -/
def zeroFillDone (g : Nat) (s : State) : State :=
  if s.fillRun.getLsbD g && groupPowered g s then
    let s1 := ((groupZero g s).setRb ERG_BGSTAT g true).setRb ERG_INIT g false
    { s1 with fillRun := s1.fillRun &&& ~~~(1#8 <<< g) }
  else s

/-- The groups that a self-test result fails: those of a failing checker's bank (R298). -/
def failedGroups (erg : BitVec 128) : List Nat := (List.range 8).filter fun g => (List.range 16).any fun b => erg.getLsbD (16 * g + b)

/-- The self-test's result (R297, R298). -/
def selftestDone (erg : BitVec 128) (si : Bool) (dmc : BitVec 2) (s : State) : State :=
  if s.rb MIU_STEST 31 then s
  else
    let fg := failedGroups erg
    let mask := bitsNat ((List.range 8).map fg.contains)
    let s1 := fg.foldl (fun t g => ((groupLeave g t).setRb ERG_BGSTAT (16 + g) true).setRb ERG_BGCTL g true) s
    let w := 2 ^ 31 + b2n si * 2 ^ 24 + dmc.toNat * 2 ^ 16 + mask * 2 ^ 8
    let s2 := s1.setReg MIU_STEST (BitVec.ofNat 32 w)
    if dmc = 0 then s2 else (s2.setRb DMC_STAT 8 true).setReg DMC_CAP 0

/-- A pending write-back is performed (R283). -/
def execCeWriteback (bank : Fin 128) (s : State) : Out := .next (clocked (ceWriteback bank.val) s)

/-- The scrubber finishes a row (R294). -/
def execScrubRow (s : State) : Out := .next (clocked scrubRow s)

/-- The scrubber finishes a lap (R295). -/
def execScrubLapEnd (s : State) : Out := .next (clocked scrubLapEnd s)

/-- The running lap passes its limit (R295). -/
def execLapslow (s : State) : Out := .next (clocked lapSlow s)

/-- ERG_BGCTL.OOS written (R286). -/
def execErgBgctlOos (m : Master) (mask : BitVec 8) (s : State) : Out := .next (masterWrite m ERG_BGCTL (mask.zeroExtend 32) s)

/-- A bank group leaves service (R286). -/
def execBankGroupLeaveService (g : Fin 8) (s : State) : Out := .next (clocked (bankGroupLeave g.val) s)

/-- ERG_INIT.FILL written (R288). -/
def execErgInitFill (m : Master) (mask : BitVec 8) (s : State) : Out := .next (masterWrite m ERG_INIT (mask.zeroExtend 32) s)

/-- A zero-fill starts (R288). -/
def execZeroFillStart (g : Fin 8) (s : State) : Out := .next (clocked (zeroFillStart g.val) s)

/-- ERG_HASH written (R47). -/
def execErgHashWrite (m : Master) (v : Word) (s : State) : Out := .next (masterWrite m ERG_HASH v s)

/-- ERG_XQOS written (R60). -/
def execErgXqosWrite (m : Master) (v : Word) (s : State) : Out := .next (masterWrite m ERG_XQOS v s)

/-- MIU_INJ armed (R296). -/
def execMiuInjArm (m : Master) (s : State) : Out := .next (masterWrite m MIU_INJ 1 s)

/-- DMC_CTL written (R289). -/
def execDmcEnable (m : Master) (v : Word) (s : State) : Out := .next (masterWrite m DMC_CTL v s)

/-- Training ends (R289). -/
def execDmcTrainingDone (fail : BitVec 2) (s : State) : Out := .next (clocked (dmcTrained fail.toNat) s)

/-- DMC_CAP written (R290). -/
def execDmcCapWrite (m : Master) (v : Word) (s : State) : Out := .next (masterWrite m DMC_CAP v s)

/-- The patrol reads a block (R293). -/
def execDmcPatrolRead (ch : Fin 2) (s : State) : Out := .next (clocked (patrolRead ch.val) s)

end Sys2Proof.Machine
end

