-- ==== Sys2Proof/Machine/Tnc.lean ====
section
/-! DEFINITION. The train networks' shared operations: frame releases, CAN requests, MVB master frames and port buffers, UART starts
(R383, R395 to R402). -/
namespace Sys2Proof.Machine

/-- A MAC's own state. -/
def State.macSt (s : State) (n : Nat) : MacSt := s.mac[n % 4]'(Nat.mod_lt _ (by decide))

/-- A MAC's own state changed. -/
def State.modMac (s : State) (n : Nat) (f : MacSt → MacSt) : State :=
  { s with mac := s.mac.set (n % 4) (f (s.macSt n)) (Nat.mod_lt _ (by decide)) }

/-- A CAN controller's own state. -/
def State.canSt (s : State) (c : Nat) : CanSt := s.can[c % 4]'(Nat.mod_lt _ (by decide))

/-- A CAN controller's own state changed. -/
def State.modCan (s : State) (c : Nat) (f : CanSt → CanSt) : State :=
  { s with can := s.can.set (c % 4) (f (s.canSt c)) (Nat.mod_lt _ (by decide)) }

/-- A UART's own state. -/
def State.uartSt (s : State) (u : Nat) : UartSt := s.uart[u % 4]'(Nat.mod_lt _ (by decide))

/-- A UART's own state changed. -/
def State.modUart (s : State) (u : Nat) (f : UartSt → UartSt) : State :=
  { s with uart := s.uart.set (u % 4) (f (s.uartSt u)) (Nat.mod_lt _ (by decide)) }

/-- A counter register that wraps, counted up. -/
def State.countWrap (s : State) (a : Nat) : State := s.setReg a (s.reg a + 1)

/-- The function `f` is placed on a pin (R474). -/
def fnPlaced (s : State) (f : Nat) : Bool := s.rb (PCU_FPIN (f - 0x10)) 31

/-- One frame of queue `q` of MAC `n` released, when the queue waits for releases (R383, R402). -/
def macRelease (n q : Nat) (s : State) : State :=
  if s.rb (MAC_QCFG n q) 0 then
    s.modMac n fun m => { m with rel := smPut zeroDefault m.rel q (smGet zeroDefault m.rel q + 1) }
  else s

/-- Transmission of buffer `b` of CAN controller `c` requested: an empty buffer is counted (R398). The manual gives no register that loads a
buffer: whether software has loaded an empty one by now is free (log 44). -/
def canRequest (c b : Nat) (s : State) : State :=
  let (q, s0) := s.draw
  if (s.canSt c).held.getLsbD b || Config.canLoaded q then
    s0.modCan c fun k => { k with held := k.held ||| (1#32 <<< b), req := k.req ||| (1#32 <<< b) }
  else s0.countWrap (CAN_TXMISS c)

/-- The transmit ring of UART `u` started (R402). -/
def uartStart (u : Nat) (s : State) : State := s.modUart u fun k => { k with go := true }

/-! ### The multifunction vehicle bus -/

/-- Word `w` of the port table's entry for port `a` (R396). -/
def MVB_PORT (a w : Nat) : Nat := 0x20b60000 + 16 * a + 4 * w

/-- The bits of word `w` of a port-table entry (R396). -/
def mvbPortMask (w : Nat) : Word :=
  match w with
  | 0 => 0xC0000007 | 1 => 0x03FFFFE0 | 2 => 0xFFFFFFFF | _ => 0xFF

/-- The bytes of process data of an F-code (R396). -/
def mvbBytes (f : Nat) : Nat := 2 ^ (f + 1)

/-- A line of the bus reaches the controller: MVB_RXA or MVB_RXB is placed (R395, R475). -/
def mvbPinned (s : State) : Bool := fnPlaced s 0x72 || fnPlaced s 0x73

/-- A frame received: the controller selects the line by its own standard (R395), and which one MVB_STAT.ACTLINE then names is free. -/
def mvbLine (s : State) : State := let (q, s1) := s.draw; s1.setRb MVB_STAT 30 (Config.mvbLine q)

/-- The controller is on. -/
def mvbOn (s : State) : Bool := s.rb MVB_CTL 31

/-- The port that a master frame names is in use with the frame's F-code (R396). -/
def mvbPortFits (s : State) (w : Nat) : Bool :=
  let e := s.reg (MVB_PORT (w % 4096) 0)
  decide (w / 4096 ≤ 4) && wbit e 31 && fld e 2 0 == w / 4096

/-- The Erg buffer of a port (R396). -/
def mvbBuf (s : State) (a : Nat) : Nat := s.rf (MVB_PORT a 1) 25 5 * 32

/-- FRESH of a port becomes TB_NS[41:10] (R396). -/
def mvbFresh (a : Nat) (s : State) : State := s.setReg (MVB_PORT a 2) (BitVec.ofNat 32 (tbNs s / 1024))

/-- A source port's answer to a master frame: its buffer, read through M7 (R396); none where the read fails, and it waits as long as the
read does (R312). -/
def mvbAnswer (w : Nat) (s : State) : State :=
  match busRead 7 0 .nobody plainId (mvbBuf s (w % 4096)) (mvbBytes (w / 4096)) s with
  | (.done 0 b, s1) => { s1 with mvbSent := some b, mvbWait := none, mvbRead := none }
  | (.wait, s1) => { s1 with mvbWait := some w, mvbRead := some w }
  | (_, s1) => { s1 with mvbWait := some w, mvbRead := none }

/-- The answer whose read waits tried again. -/
def mvbRetry (s : State) : State := match s.mvbRead with | some w => mvbAnswer w s | none => s

/-- A master frame on the bus, `w` its F-code and address: a source port answers it with its buffer (R395, R396); any other waits for the
slave frame of the port it names (R397). -/
def mvbFrame (w : Nat) (s : State) : State :=
  if mvbPortFits s w && s.rb (MVB_PORT (w % 4096) 0) 30 then mvbAnswer w s else { s with mvbWait := some w, mvbRead := none }

/-- A master frame sent by this device in its administrator role (R395, R396). -/
def mvbMaster (w : Nat) (s : State) : State := if mvbOn s && s.rb MVB_CTL 30 then mvbFrame (w % 65536) s else s

/-- A sink write goes through M7: FRESH and then SEQ follow the data, and a failed one counts in MVB_ERRCNT (R396); false while it must wait. -/
def mvbStore (a : Nat) (data : List Byte) (s : State) : Bool × State :=
  match busWriteV 7 0 .m .nobody plainId (mvbBuf s a) data s with
  | (.wait, s1) => (false, s1)
  | (.done 0 _, s1) =>
    let s2 := mvbFresh a s1
    (true, pulse 136 (icuEvent 360 (s2.setRf (MVB_PORT a 3) 7 0 (s2.rf (MVB_PORT a 3) 7 0 + 1))))
  | (_, s1) => (true, s1.countWrap MVB_ERRCNT)

/-- A CAN frame reaches its receive ring through M7 (R398, R401): the manual gives the ring no registers, so the frames stand in a list. -/
def canStore (c t : Nat) (f : List Byte) (s : State) : Bool × State :=
  if masterOn s 7 then (true, pulse (138 + c) (icuEvent (368 + 4 * c) (s.modCan c fun k => { k with rx := k.rx ++ [(t, f)] }))) else (false, s)

/-- A received character stored through M7 (R399); the manual gives the ring no registers. -/
def uartStore (u : Nat) (ch : BitVec 9) (s : State) : Bool × State :=
  if masterOn s 7 then (true, s.modUart u fun k => { k with rx := k.rx ++ [ch] }) else (false, s)

/-- A transfer of M7 tried; what is left of it waits. -/
def mvbStep (d : Dma) (s : State) : Option Dma × State :=
  let (done, s1) := match d with
    | .mvb a data => mvbStore a data s
    | .can c t f => canStore c t f s
    | .uart u ch => uartStore u ch s
    | .rx .. | .back .. => (false, s)
  (if done then none else some d, s1)

/-- The port that makes a transfer. -/
def Dma.port : Dma → Nat
  | .rx .. | .back .. => 6
  | _ => 7

/-- A transfer that begins: it is done as far as it goes at once, or held behind those of its port (R312). -/
def dmaStart (step : Dma → State → Option Dma × State) (d : Dma) (s : State) : State :=
  if s.dmaHeld.any fun e => e.port == d.port then { s with dmaHeld := s.dmaHeld ++ [d] }
  else match step d s with
    | (none, s1) => s1
    | (some e, s1) => { s1 with dmaHeld := s1.dmaHeld ++ [e] }

/-- The two copies of a frame, on lines A and B, disagree (R395, R401). -/
def mvbDisagree (disagree : Bool) (s : State) : State := if disagree then icuEvent 362 (s.setRb MVB_STAT 31 true) else s

/-- A slave frame: a sink port takes it (R396). -/
def mvbSlave (data : List Byte) (disagree : Bool) (s : State) : State :=
  if !mvbOn s || !mvbPinned s then s
  else
    let s1 := mvbDisagree disagree (mvbLine s)
    match s1.mvbWait with
    | none => s1
    | some w =>
      let s2 : State := { s1 with mvbWait := none, mvbRead := none }
      if mvbPortFits s2 w && !s2.rb (MVB_PORT (w % 4096) 0) 30 && data.length == mvbBytes (w / 4096) then dmaStart mvbStep (.mvb (w % 4096) data) s2
      else s2

/-- A master frame received: of a controller in the administrator role it may mean that another holds the mastership, which the source BA
reports; when it does is free (R395, R401, log 44). -/
def mvbMasterIn (w : Nat) (disagree : Bool) (s : State) : State :=
  if !mvbOn s || !mvbPinned s then s
  else
    let (q, s1) := (mvbDisagree disagree (mvbLine s)).draw
    mvbFrame w (if s1.rb MVB_CTL 30 && Config.mvbMastership q then icuEvent 363 s1 else s1)

/-- A master frame goes unanswered (R397). -/
def mvbUnanswered (s : State) : State :=
  match s.mvbWait with
  | some _ => pulse 137 (icuEvent 361 { s with mvbWait := none, mvbRead := none })
  | none => s

end Sys2Proof.Machine
end

