-- ==== Sys2Proof/Machine/EventCmds.lean ====
section
/-! DEFINITION. Events: interrupt sources, the event router, the time base, timers and capture inputs (R313 to R349). -/
namespace Sys2Proof.Machine

/-! ### Interrupt sources -/

/-- An event at an ICU source (R314). -/
def execIcuEvent (n : Nat) (s : State) : Out := .next (if icuAssigned n then icuEvent n s else s)

/-- ICU_SWI written (R313). -/
def execIcuSwi (m : Master) (v : Word) (s : State) : Out := .next (masterWrite m ICU_SWI v s)

/-- An event at a SIC source (R418). -/
def execSicEvent (n : Nat) (s : State) : Out := .next (sicEvent n s)

/-! ### Capture inputs -/

/-- Capture input `n` is set to detect an edge of this sense (R346). -/
def capDetects (s : State) (n : Nat) (rising : Bool) : Bool :=
  s.rb (CAP_CTL n) 31 && s.rb (CAP_CTL n) (if rising then 4 else 5)

/-- The stamp that the capture set of input `n` holds. -/
def capLast (s : State) (n : Nat) : Nat := s.reg64 (CAP_NS_LO n) (CAP_NS_HI n) * 2 ^ 16 + s.rf (CAP_FRAC n) 15 0

/-- The capture set of input `n` replaced by a stamp of TB, to 62.5 ps and within 125 ps, and never before the last (R328, R346, R347). -/
def capStamp (n : Nat) (rising : Bool) (s : State) : State :=
  let (q, s0) := s.draw
  let t := Nat.max (capLast s n) ((s.tb.toNat / 4096 + (Config.captureStep q).val - 2) * 4096)
  let st := s0.reg (CAP_STAT n)
  let st1 := if wbit st 31 then putBit st 30 true else st
  let st2 := putFld (putFld (putBit st1 31 true) 8 8 (b2n rising)) 7 0 (fld st 7 0 + 1)
  let s1 := s0.setReg (CAP_STAT n) st2
  let s2 := s1.setReg (CAP_FRAC n) (BitVec.ofNat 32 (t / 2 ^ 16 % 65536 * 65536 + t % 65536))
  let s3 := s2.setReg64 (CAP_NS_LO n) (CAP_NS_HI n) (t / 2 ^ 16)
  let s4 := if s3.rb (CAP_CTL n) 8 then icuEvent (500 + n) s3 else s3
  { s4 with capDead := s4.capDead ||| (1#16 <<< n) }

/-- A detected edge: its producer pulses, and it is stamped in RUN and DOZE, or lost in the dead time (R346). -/
def capEdge (n : Nat) (rising : Bool) (s : State) : State :=
  let s1 := pulse (64 + n) s
  if s1.power ≤ 1 then
    if s1.capDead.getLsbD n then s1.setRb (CAP_STAT n) 30 true else capStamp n rising s1
  else s1

/-- An edge at the source of capture input `n`: the pin, REFCLK or MOTHCLK (R346); in DORMANT only a pin whose function is held (R477). -/
def captureEdge (n : Nat) (rising : Bool) (s : State) : State :=
  let src := s.rf (CAP_CTL n) 2 0
  let there := match src with
    | 0 => fnPlaced s (0x40 + n) && decide (s.power ≤ 3)
    | 2 => decide (s.power ≤ 2)
    | 3 => decide (s.power ≤ 2)
    | _ => false
  if there && capDetects s n rising then capEdge n rising s else s

/-- An edge at a capture input (R346). -/
def execCaptureEdge (n : Fin 16) (rising : Bool) (s : State) : Out := .next (captureEdge n.val rising s)

/-- The dead time after a stamp ends (R346). -/
def execCaptureDeadTimeEnd (n : Fin 16) (s : State) : Out := .next { s with capDead := s.capDead &&& ~~~(1#16 <<< n.val) }

/-- CAPn_NS_HI read by a master (R347). -/
def execCapNsHiRead (m : Master) (n : Fin 16) (s : State) : Out := .next (postRead m.val 0 (CAP_NS_HI n.val) 4 s)

/-! ### The event router -/

/-- A bit of a word array set. -/
def setBitOf (reg : Nat → Nat) (n : Nat) (s : State) : State := s.setRb (reg (n / 32)) (n % 32) true

/-- An event at the event input of reload timer `n` (R339, R341): it ticks under SRC 5, then the event-input action acts. -/
def timerEvent (n : Nat) (s : State) : State :=
  let s1 := if timerTakes s n 5 then timerCycle n s else s
  act n (s1.rf (tmReg TM_ACT n) 23 16) 2 s1

/-- An event at EVOUT `n`: a pulse, during which the output is busy, or a toggle (R332, EVR_CSEL.MODE). -/
def evoutEvent (n : Nat) (s : State) : State :=
  if s.rb (EVR_CSEL (168 + n)) 30 then { s with evoutLvl := s.evoutLvl ^^^ (1#16 <<< n) }
  else if s.evoutBusy.getLsbD n then setBitOf EVR_OVR (168 + n) s
  else { s with evoutBusy := s.evoutBusy ||| (1#16 <<< n), evoutLvl := s.evoutLvl ||| (1#16 <<< n) }

/-- An event at PMU wake input `k`: with its WAKEEN bit it is a wake event for an entry or a sleep (R427). -/
def wakeInput (k : Nat) (s : State) : State :=
  if s.rb PMU_WAKEEN k then
    let s1 : State := { s with pmu := { s.pmu with wakeAt := some s.xclk } }
    if s.rb PMU_SLEEP 16 || s.power = 2 || s.power = 3 then { s1 with wakeReq := s.wakeReq ||| (1#8 <<< k) } else s1
  else s

/-- An event at consumer 184 + `n`: its start is a rising edge of the capture input with SRC = EVR and its end a falling one (R335, R346); in the dead
time the input is busy (R332). -/
def captureEvent (n : Nat) (s : State) : State :=
  if s.rf (CAP_CTL n) 2 0 = 1 ∧ (capDetects s n true || capDetects s n false) then
    if s.capDead.getLsbD n then setBitOf EVR_OVR (184 + n) s
    else
      let s1 := if capDetects s n true then capEdge n true s else s
      if capDetects s1 n false then capEdge n false s1 else s1
  else s

/-- Consumer `c` acts on an event, or loses it because it is busy (R332, R336). -/
def consumerActs (c : Nat) (s : State) : State :=
  if c < 8 then
    let r := vseTrigger (ctxNo c) s
    if r.1 then r.2 else setBitOf EVR_OVR c r.2
  else if c < 56 then timerEvent (c - 8) s
  else if c < 64 then
    let s1 := sicEvent (c - 8) s
    if c < 60 then safeTrigger (c - 48) s1 else s1
  else if c < 68 then macRelease (c - 64) (s.rf (MAC_CTL (c - 64)) 10 8) s
  else if c < 72 then canRequest (c - 68) (s.rf (CAN_CTL (c - 68)) 4 0) s
  else if c < 76 then uartStart (c - 72) s
  else if c = 76 then
    if s.mvbWait.isSome then setBitOf EVR_OVR 76 s else mvbMaster (s.rf MVB_CTL 15 0) s
  else if 96 ≤ c ∧ c < 160 then icuEvent (c + 448) s
  else if 160 ≤ c ∧ c < 168 then wakeInput (c - 160) s
  else if 168 ≤ c ∧ c < 184 then evoutEvent (c - 168) s
  else if 184 ≤ c ∧ c < 200 then
    captureEvent (c - 184) s
  else s

/-- An event reaches consumer `c` (R337): a wake input and an ICU source act in every state as their own rules say, any other consumer
holds one event in COCOON, loses a second, and discards events where its domain is off. -/
def consumerGets (c : Nat) (s : State) : State :=
  if 96 ≤ c ∧ c < 168 then consumerActs c s
  else if s.power ≤ 1 then consumerActs c s
  else if s.power = 2 then
    if s.evrHeld.contains c then setBitOf EVR_OVR c s else { s with evrHeld := s.evrHeld ++ [c] }
  else s

/-- The events held through COCOON acted on, lowest consumer first (R337). -/
def releaseHeld (s : State) : State :=
  let h := s.evrHeld
  ((List.range 256).filter h.contains).foldl (fun t c => consumerActs c t) { s with evrHeld := [] }

/-- The enabled consumer of channel `n` (R333). -/
def channelConsumer (s : State) (n : Nat) : Option Nat :=
  (List.range 256).find? fun c => s.rb (EVR_CSEL c) 31 && s.rf (EVR_CSEL c) 7 0 == n

/-- A producer's edge at channel `n`: it joins the event in progress, or makes an event (R335). -/
def channelEdge (joins : Bool) (n : Nat) (s : State) : State :=
  if joins then setBitOf EVR_MERGE n s
  else
    let s1 := setBitOf EVR_SEEN n s
    match channelConsumer s1 n with
    | some c => consumerGets c s1
    | none => s1

/-- The channels that producer `p` feeds (R333). -/
def channelsOf (s : State) (p : Nat) : List Nat := (List.range 192).filter fun n => s.rb (EVR_PMASK (8 * n + p / 32)) (p % 32)

/-- A producer's edge reaches the channels (R331, R335): an EVIN edge comes from its pin, any other one from a block that has pulsed. -/
def evrEvent (p : Nat) (joins : List Nat) (s : State) : State :=
  let reach := fun (t : State) => (channelsOf s p).foldl (fun t n => channelEdge (joins.contains n) n t) t
  let evin := decide (80 ≤ p) && decide (p < 96)
  if evin then
    if fnPlaced s p && decide (s.power ≤ 3) then reach s else s
  else if s.edges.contains p then reach { s with edges := s.edges.erase p }
  else s

/-- A producer edge becomes a channel event, or joins the one in progress on each channel of `joins` (R335). -/
def execEvrEvent (p : BitVec 8) (joins : List Nat) (s : State) : Out := .next (evrEvent p.toNat joins s)

/-- EVR_CSELc written (R333, R334). -/
def execEvrCselWrite (m : Master) (cons : BitVec 8) (v : Word) (s : State) : Out := .next (masterWrite m (EVR_CSEL cons.toNat) v s)

/-- EVR_SWP written (R331). -/
def execEvrSwp (m : Master) (v : Word) (s : State) : Out := .next (masterWrite m EVR_SWP v s)

/-- The pulse of EVOUT `n` ends (R332); in COCOON the output holds its level (R477). -/
def execEvoutPulseEnd (n : Fin 16) (s : State) : Out :=
  .next (if s.evoutBusy.getLsbD n.val && s.power != 2 then
      { s with evoutBusy := s.evoutBusy &&& ~~~(1#16 <<< n.val), evoutLvl := s.evoutLvl &&& ~~~(1#16 <<< n.val) }
    else s)

/-! ### The time base -/

/-- A calibration window of MOTHCLK ends while REFCLK runs (R326). -/
def execMothclkCalWindow (period : Word) (s : State) : Out :=
  .next (if s.power ≤ 2 then (s.setReg TB_MCAL period).setRb TB_STAT 2 true else s)

/-- TB_RATE written (R327). -/
def execTbRateWrite (m : Master) (v : Word) (s : State) : Out := .next (masterWrite m TB_RATE v s)

/-- TB_ADJ written (R327). -/
def execTbAdjWrite (m : Master) (v : Word) (s : State) : Out := .next (masterWrite m TB_ADJ v s)

/-- TB_STEP_HI written (R327). -/
def execTbStep (m : Master) (v : Word) (s : State) : Out := .next (masterWrite m TB_STEP_HI v s)

/-- A due wake compare fires (R330). -/
def execWakeCompareFire (n : Fin 2) (s : State) : Out := .next (if wakeDue s n.val then wakeFire n.val s else s)

/-! ### Timers -/

/-- The TMU is clocked: RUN or DOZE (R344). -/
def tmuRuns (s : State) : Bool := decide (s.power ≤ 1)

/-- Timer `n` runs from a clock, SRC 0 to 4 (R339): ticks of events and of wraps come with those, and SRC 7 gives none. -/
def clockTicks (s : State) (n : Nat) : Bool := s.rb (tmReg TM_CTL n) 31 && decide (s.rf (tmReg TM_CTL n) 30 28 ≤ 4)

/-- Timer `n` takes the tick that wraps it (R340). -/
def execTimerWrap (n : Fin 48) (s : State) : Out :=
  .next (if tmuRuns s && clockTicks s n.val && s.reg (tmReg TM_CNT n.val) == s.reg (tmReg TM_RELOAD n.val) then timerTick n.val s else s)

/-- The count after timer `n`'s next tick (R340). -/
def timerNext (s : State) (n : Nat) : Word :=
  if s.reg (tmReg TM_CNT n) = s.reg (tmReg TM_RELOAD n) then 0 else s.reg (tmReg TM_CNT n) + 1

/-- Timer `n` takes the tick that makes it match (R340). -/
def execTimerMatch (n : Fin 48) (s : State) : Out :=
  .next (if tmuRuns s && clockTicks s n.val && timerNext s n.val == s.reg (tmReg TM_MATCH n.val) then timerTick n.val s else s)

/-- TMU_GCMD written with start (R343). -/
def execTmuGcmdStart (m : Master) (s : State) : Out := .next (masterWrite m TMU_GCMD 1 s)

/-- TMU_GCMD written with stop (R343). -/
def execTmuGcmdStop (m : Master) (s : State) : Out := .next (masterWrite m TMU_GCMD 2 s)

/-- TMU_GCMD written with reset and start (R343). -/
def execTmuGcmdResetStart (m : Master) (s : State) : Out := .next (masterWrite m TMU_GCMD 3 s)

/-- A due machine compare channel fires (R345). -/
def execMcFire (k : Fin 4) (s : State) : Out := .next (if tmuRuns s && cmpDue s k.val then cmpFire k.val s else s)

/-- A due compare channel of the Safety Island fires (R421). -/
def execScFire (k : Fin 4) (s : State) : Out := .next (if tmuRuns s && cmpDue s (4 + k.val) then cmpFire (4 + k.val) s else s)

end Sys2Proof.Machine
end

