-- ==== Sys2Proof/Machine/SafetyCmds.lean ====
section
/-! DEFINITION. The Safety Island's commands and events, and a write that places a function on a pin (R405, R410 to R417, R474). -/
namespace Sys2Proof.Machine

/-- The SI oscillator runs: it stops in COCOON and is off where the Safety domain is (R413, R415). -/
def oscRuns (s : State) : Bool := decide (s.power ≤ 1)

/-- The comparator finds a difference (R405). -/
def execLockstepMismatch (s : State) : Out := .next (if oscRuns s then lockstepMismatch s else s)

/-- SI_LSCTL.TEST written (R405). -/
def execSiLsctlTest (m : Master) (s : State) : Out := .next (masterWrite m SI_LSCTL 1 s)

/-- SI_SSC written with FORCE (R410). -/
def execSiSscForce (m : Master) (v : Word) (s : State) : Out := .next (masterWrite m SI_SSC v s)

/-- SI_SSC written with KEY (R412). -/
def execSiSscRelease (m : Master) (v : Word) (s : State) : Out := .next (masterWrite m SI_SSC v s)

/-- SI_WDCTL written (R414). -/
def execSiWdctlEn (m : Master) (v : Word) (s : State) : Out := .next (masterWrite m SI_WDCTL v s)

/-- SI_WDKICK written (R415). -/
def execSiWdkick (m : Master) (v : Word) (s : State) : Out := .next (masterWrite m SI_WDKICK v s)

/-- The watchdog runs (R414, R415). -/
def wdRuns (s : State) : Bool := s.rb SI_WDCTL 31 && oscRuns s

/-- The count stands where WDWARN is raised (R415). -/
def wdWarns (s : State) : Bool := wdRuns s && s.rf SI_WDCNT 15 0 + s.rf SI_WDWIN 31 16 == s.rf SI_WDCTL 15 0

/-- The count stands at PERIOD (R415). -/
def wdExpires (s : State) : Bool := wdRuns s && s.rf SI_WDCNT 15 0 == s.rf SI_WDCTL 15 0

/-- WDWARN is raised (R415). -/
def execWdwarn (s : State) : Out := .next (if wdWarns s then sicEvent 2 s else s)

/-- The watchdog expires (R415). -/
def execWdExpiry (s : State) : Out := .next (if wdExpires s then safeTrigger 3 s else s)

/-- A count of a 1 µs window lies outside ±LIMIT % of a nominal frequency in MHz (R416). -/
def clockOut (limit nominal count : Nat) : Bool :=
  decide (nominal * limit < (count - nominal) * 100) || decide (nominal * limit < (nominal - count) * 100)

/-- SI_CMCTL.LIMIT; 0 acts as 1. -/
def cmLimit (s : State) : Nat := Nat.max 1 (s.rf SI_CMCTL 11 8)

/-- The SI oscillator is faulted in a correction window of 1,024 REFCLK cycles in which it made `n` cycles: outside 50 MHz ±15 %, or moved by more than
LIMIT % since the window before (R416). -/
def oscOut (s : State) (n : Nat) : Bool :=
  decide (n * 100 < 2048 * 85) || decide (2048 * 115 < n * 100) ||
    (match s.si.oscLast with
      | some m => decide (m * cmLimit s < (n - m) * 100) || decide (m * cmLimit s < (m - n) * 100)
      | none => false)

/-- A count is out of range for a nominal frequency once its window, of 50 cycles of the SI oscillator, is corrected to 1 µs by the oscillator's measured
frequency (R416). -/
def windowOut (s : State) (nominal count : Nat) : Bool := clockOut (cmLimit s) (nominal * 2048) (count * s.si.oscCorr)

/-- REFCLK is out of range in a window (R416). -/
def refclkOut (w : ClockWindow) (s : State) : Bool := windowOut s 25 w.refclk

/-- The fault of the SI oscillator: as the correction window that ends with this window finds it while REFCLK is in range, else as it stood. -/
def oscFault (w : ClockWindow) (s : State) : Bool :=
  match w.siosc with
  | some n => if refclkOut w s then s.cmNow.getLsbD 5 else oscOut s n
  | none => s.cmNow.getLsbD 5

/-- The clocks that a window finds out of range: bit 5 the SI oscillator, then REFCLK, XCLK, VCLK, KCLK and SCLK (R416).
A clock that the PMU gates or stops is not monitored, and the SI oscillator only against a REFCLK in range. -/
def clockFaults (w : ClockWindow) (s : State) : BitVec 6 :=
  let on := fun b => s.rb SI_CMCTL b
  let run := decide (s.power = 0)
  let f := [on 0 && windowOut s 600 w.sclk, on 1 && run && windowOut s 1200 w.kclk,
    on 2 && run && s.vclkStop.isNone && windowOut s (if vclkHalved s then 600 else 1200) w.vclk,
    on 3 && windowOut s 600 w.xclk, on 4 && refclkOut w s, oscFault w s]
  BitVec.ofNat 6 (bitsNat f)

/-- What a correction window leaves: the count as the last one measured, and as the timing of the windows where neither REFCLK nor the SI oscillator is
faulted (R416). -/
def oscMeasured (w : ClockWindow) (s : State) : State :=
  match w.siosc with
  | some n =>
    if refclkOut w s then s
    else { s with si := { s.si with oscLast := some n, oscCorr := if oscOut s n then s.si.oscCorr else n } }
  | none => s

/-- A monitor window ends: faults are recorded and reported, and trigger CLKMON (R416). -/
def clockWindow (w : ClockWindow) (s : State) : State :=
  if oscRuns s then
    let f := clockFaults w s
    let s1 := oscMeasured w { s.setReg SI_CMSTAT (s.reg SI_CMSTAT ||| f.zeroExtend 32) with cmNow := f }
    if f = 0 then s1 else safeTrigger 4 (sicEvent 3 s1)
  else s

/-- A monitor window ends (R416). -/
def execClkmonWindow (w : ClockWindow) (s : State) : Out := .next (clockWindow w s)

/-- SI_A2SDB written (R417). -/
def execSiA2sdbWrite (m : Master) (v : Word) (s : State) : Out := .next (masterWrite m SI_A2SDB v s)

/-- SI_S2ADB written (R417). -/
def execSiS2adbWrite (m : Master) (v : Word) (s : State) : Out := .next (masterWrite m SI_S2ADB v s)

/-- PCU_PINn written, for one of the 412 multiplexed pins (R474). -/
def execPcuFuncWrite (m : Master) (n : Nat) (v : Word) (s : State) : Out := .next (if n < 412 then masterWrite m (PCU_PIN n) v s else s)

end Sys2Proof.Machine
end

