-- ==== Sys2Proof/Machine/TncCmds.lean ====
section
/-! DEFINITION. Events of the schedule engine and of the train networks (R381 to R401). -/
namespace Sys2Proof.Machine

/-! ### The schedule engine -/

/-- An entry of a bank (R382). -/
structure SceEntry where
  time : Word
  w1 : Word
  p2 : Word
  p3 : Word
  deriving DecidableEq, Repr

/-- The entry that the engine performs next. -/
def sceCur (s : State) : SceEntry :=
  let b := sceActive s
  let i := 4 * s.rf SCE_INDEX 14 0
  ⟨sceWord s b i, sceWord s b (i + 1), sceWord s b (i + 2), sceWord s b (i + 3)⟩

/-- The time of the next entry, in ns. -/
def sceTime (s : State) : Nat := s.sce.bnd + (sceCur s).time.toNat

/-- The next entry is due: the engine runs, its macrocycle goes on, and TB has reached the entry's time (R384). -/
def sceDue (s : State) : Bool :=
  s.rb SCE_CTL 0 && s.sce.begun && !s.sce.ended && decide (s.power ≤ 1) && !boundaryDue s && decide (sceTime s ≤ tbNs s)

/-- The entry counted as performed: late when TB is more than 2 XCLK past its time (R384). -/
def sceNextEntry (s : State) : State :=
  let e := sceCur s
  let i := s.rf SCE_INDEX 14 0
  let late := decide (sceTime s * 65536 * 3 + 10 * 65536 < s.tb.toNat * 3)
  let s1 : State := { s.setReg SCE_INDEX (BitVec.ofNat 32 ((i + 1) % 32768)) with
    sce := { s.sce with ended := wbit e.w1 27 || i == 32767 } }
  if late then icuEvent 402 ((s1.countWrap SCE_LATECNT).setRb SCE_STAT 3 true) else s1

/-- An entry performed: the next one when it is due and its action is one of `act`. -/
def sceDo (act : Nat → Bool) (f : SceEntry → State → State) (s : State) : State :=
  let e := sceCur s
  if sceDue s && act (fld e.w1 31 28) then f e (sceNextEntry s) else s

/-- Writes of M10 sent in order, as far as it takes them; an error response is to be reported (R385). -/
def sceWriteOut : List (Nat × Word) → State → State
  | [], s => { s with sce := { s.sce with wr := [] } }
  | (pa, v) :: t, s =>
    match busWriteV 10 0 .m .nobody plainId pa (leBytes 4 v.toNat) s with
    | (.wait, s1) => { s1 with sce := { s1.sce with wr := (pa, v) :: t } }
    | (.done c _, s1) =>
      let s2 : State := if c = rOKAY then s1 else { s1 with sce := { s1.sce with errs := s1.sce.errs ++ [(pa, c)] } }
      sceWriteOut t s2

/-- The writes that wait tried again. -/
def sceFlush (s : State) : State := sceWriteOut s.sce.wr s

/-- GATE (R383, R391). -/
def sceGateDo (e : SceEntry) (s : State) : State :=
  s.modMac (fld e.w1 25 24) fun k =>
    { k with gates := BitVec.ofNat 8 (fld e.w1 7 0), closing := if e.p2 = 0 then 0 else BitVec.ofNat 8 (fld e.p3 7 0),
             closeAt := if e.p2 = 0 then none else some (s.tb.toNat + e.p2.toNat * 65536) }

/-- The payload read of a class-0 slot, through M5 (R365): it waits as long as M5 or its bank group makes it wait. -/
def c0Read (e : C0Slot) (s : State) : C0Slot × State :=
  let pa := s.rf (IDL_C0D2 e.k) 25 0
  let n := s.rf (IDL_C0D3 e.k) 6 0
  if !e.reads then (e, s)
  else match busGate (newXact s 5 0 plainId 0 pa n 0 .m false [] [(pa, [])]) (fun t => xbmLogged 5 plainId false pa (localRead pa n t)) s with
    | (.done 0 b, s1) => ({ e with reads := false, data := some b }, s1)
    | (.done _ _, s1) => ({ e with reads := false }, s1)
    | (.wait, s1) => (e, s1)

/-- C0SLOT: the payload is read through M5 for a slot that starts at the entry's time (R365, R383). -/
def c0Start (e : SceEntry) (start : Nat) (s : State) : State :=
  let k := fld e.w1 4 0
  let len := s.rf (IDL_C0D3 k) 6 0
  let r := c0Read ⟨k, start, s.rb (IDL_C0D0 k) 31 && decide (0 < len) && decide (len ≤ 64), none⟩ s
  { r.2 with c0 := r.2.c0 ++ [r.1] }

/-- The payload reads that wait, tried again until the launch time (R365). -/
def c0Retry (s : State) : State :=
  s.c0.foldl (fun t e =>
    let r := if tbNs t < e.start + 256 then c0Read e t else (e, t)
    { r.2 with c0 := r.2.c0 ++ [r.1] }) { s with c0 := [] }

/-- SGATE (R383). -/
def sgateDo (e : SceEntry) (s : State) : State :=
  let m := BitVec.ofNat 32 (fld e.w1 15 0)
  s.setReg TNC_SGATE ((s.reg TNC_SGATE &&& ~~~m) ||| (e.p2 &&& m))

/-- SCE_CTL.EN set (R381). -/
def execSceEnable (m : Master) (s : State) : Out := .next (masterWrite m SCE_CTL 1 s)

/-- A macrocycle boundary (R381). -/
def execSceBoundary (s : State) : Out := .next (clocked sceBoundary s)

/-- SCE_SWAP.REQ written (R386). -/
def execSceSwapReq (m : Master) (s : State) : Out := .next (masterWrite m SCE_SWAP 1 s)

/-- The check of the shadow bank finishes (R386). -/
def execSceCheckDone (s : State) : Out := .next (clocked checkDone s)

/-- NOP (R383). -/
def execNop (s : State) : Out := .next (clocked (fun s => sceDo (· == 0) (fun _ t => t) s) s)

/-- GATE (R383, R391). -/
def execSceGate (s : State) : Out := .next (clocked (fun s => sceDo (· == 1) sceGateDo s) s)

/-- TXTRIG (R383). -/
def execTxtrig (s : State) : Out := .next (clocked (fun s => sceDo (· == 2) (fun e t => macRelease (fld e.w1 25 24) (fld e.w1 2 0) t) s) s)

/-- C0SLOT (R365, R383). -/
def execC0slot (s : State) : Out := .next (clocked (fun s => sceDo (· == 3) (fun e t => c0Start e (sceTime s) t) s) s)

/-- EVENT (R383). -/
def execSceEvent (s : State) : Out := .next (clocked (fun s => sceDo (· == 4) (fun e t => pulse (104 + fld e.w1 3 0) t) s) s)

/-- WRITE (R383, R385). -/
def execSceWrite (s : State) : Out :=
  .next (clocked (fun s => sceDo (· == 5) (fun e t => sceWriteOut (t.sce.wr ++ [(e.p2.toNat, e.p3)]) t) s) s)

/-- An error response to a WRITE reported (R385). -/
def sceWrerr (pa : Nat) (resp : Nat) (s : State) : State :=
  if s.sce.errs.contains (pa, resp) then
    let s1 : State := { s with sce := { s.sce with errs := s.sce.errs.erase (pa, resp) } }
    let s2 := if s1.rb SCE_STAT 4 then s1 else (s1.setReg SCE_WLOG (BitVec.ofNat 32 pa)).setReg SCE_WLOG_INFO (BitVec.ofNat 32 resp)
    icuEvent 403 (s2.setRb SCE_STAT 4 true)
  else s

/-- An error response to a WRITE (R385). -/
def execSceWrerr (pa : Word) (resp : BitVec 3) (s : State) : Out := .next (clocked (sceWrerr pa.toNat resp.toNat) s)

/-- MVBMF (R383, R396). -/
def execMvbmf (s : State) : Out := .next (clocked (fun s => sceDo (· == 6) (fun e t => mvbMaster (fld e.w1 15 0) t) s) s)

/-- CANTX (R383, R398). -/
def execCantx (s : State) : Out := .next (clocked (fun s => sceDo (· == 7) (fun e t => canRequest (fld e.w1 25 24) (fld e.w1 4 0) t) s) s)

/-- SGATE (R383, R391). -/
def execSgate (s : State) : Out := .next (clocked (fun s => sceDo (· == 8) sgateDo s) s)

/-- A reserved ACT acts as NOP and is counted (R383). -/
def execSceBadact (s : State) : Out := .next (clocked (fun s => sceDo (fun a => decide (9 ≤ a)) (fun _ t => t.countWrap SCE_BADACT) s) s)

/-! ### Ethernet: what a frame is -/

/-- Byte `i` of a frame. -/
def frByte (f : List Byte) (i : Nat) : Nat := (f.getD i 0).toNat

/-- The two bytes at `i`, the first the more significant. -/
def frPair (f : List Byte) (i : Nat) : Nat := frByte f i * 256 + frByte f (i + 1)

/-- The frame carries an 802.1Q tag. -/
def frTagged (f : List Byte) : Bool := frPair f 12 == 0x8100

/-- The frame's VID; 0 without a tag. -/
def frVid (f : List Byte) : Nat := if frTagged f then frPair f 14 % 4096 else 0

/-- Where the frame's own type stands. -/
def frTypeAt (f : List Byte) : Nat := if frTagged f then 16 else 12

/-- The 48-bit address at `i`. -/
def frAddr (f : List Byte) (i : Nat) : Nat := beNat ((f.drop i).take 6)

/-- The sequence number of an 802.1CB R-TAG, when the frame has one. -/
def frSeq (f : List Byte) : Option Nat := let i := frTypeAt f; if frPair f i = 0xF1C1 then some (frPair f (i + 4)) else none

/-- The frame carries an 802.1AS event message. -/
def frAsEvent (f : List Byte) : Bool := let i := frTypeAt f; frPair f i == 0x88F7 && decide (frByte f (i + 2) % 16 < 4)

/-! ### Ethernet: filters (R392) -/

/-- Stream filter `k` matches a frame of MAC `n`. -/
def filterMatches (s : State) (n k : Nat) (f : List Byte) : Bool :=
  let w1 := s.reg (TNC_FLT1 k)
  wbit w1 31 && s.rb (TNC_FLT2 k) (28 + n) && fld w1 27 16 == frVid f &&
    frAddr f (if wbit w1 30 then 6 else 0) == fld w1 15 0 * 2 ^ 32 + (s.reg (TNC_FLT0 k)).toNat

/-- The winning filter. -/
def filterOf (s : State) (n : Nat) (f : List Byte) : Option Nat := (List.range 1024).find? fun k => filterMatches s n k f

/-- The meter of a filter: none when the frame exceeds it. The bucket holds CBS bytes and refills at CIR × 64 kb/s; its debt is kept in
units of 1/125,000 byte, of which a nanosecond repays CIR. -/
def meterTake (k : Nat) (len : Nat) (s : State) : Option State :=
  let cir := s.rf (TNC_FLT3 k) 31 16
  if cir = 0 then some s
  else
    let t := tbNs s
    let d := smGet zeroDefault s.qciDebt k - cir * (t - smGet zeroDefault s.qciLast k)
    let x := d + len * 125000
    if s.rf (TNC_FLT3 k) 15 0 * 125000 < x then none
    else some { s with qciDebt := smPut zeroDefault s.qciDebt k x, qciLast := smPut zeroDefault s.qciLast k t }

/-- A frame dropped by its filter and counted. -/
def qciDrop (r : Nat) (s : State) : State := icuEvent 352 (s.countWrap r)

/-- A frame through its winning filter: dropped, or its internal priority (R392). -/
def filterPass (k : Nat) (f : List Byte) (s : State) : Option Nat × State :=
  let w2 := s.reg (TNC_FLT2 k)
  if fld w2 13 0 < f.length then (none, qciDrop TNC_QCI_SDU s)
  else if wbit w2 19 && !s.rb TNC_SGATE (fld w2 23 20) then (none, qciDrop TNC_QCI_GATE s)
  else match meterTake k f.length s with
    | none => (none, qciDrop TNC_QCI_METER s)
    | some s1 => (some (fld w2 26 24), s1)

/-! ### Ethernet: 802.1CB recovery (R390) -/

/-- What a recovery function that has seen nothing holds. -/
def frerDefault (_ : Nat) : FrerSt := .reset

/-- The history length of a recovery function, 1 to 32. -/
def frerLen (s : State) (r : Nat) : Nat := Nat.max 1 (Nat.min 32 (s.rf (TNC_REC0 r) 5 0))

/-- The vector recovery algorithm on a sequence number: whether the frame passes, and the function's new state. Bit `i` of the history says
that the number `i` below the highest has come. -/
def frerStep (len n : Nat) (st : FrerSt) : Bool × FrerSt :=
  if !st.live then (true, ⟨n, 1, true⟩)
  else
    let up := (n + 65536 - st.seq) % 65536
    let dn := (st.seq + 65536 - n) % 65536
    if 0 < up ∧ up < len then (true, ⟨n, (st.hist * 2 ^ up + 1) % 2 ^ len, true⟩)
    else if dn < len then (if st.hist.testBit dn then (false, st) else (true, ⟨st.seq, st.hist + 2 ^ dn, true⟩))
    else (false, st)

/-- The recovery functions that serve a filter. -/
def frerOf (s : State) (k : Nat) : List Nat := (List.range 256).filter fun r => s.rb (TNC_REC0 r) 31 && s.rf (TNC_REC0 r) 25 16 == k

/-- A frame through the recovery functions of its filter: whether it passes all of them. -/
def frerPass (k : Nat) (f : List Byte) (s : State) : Bool × State :=
  match frSeq f with
  | none => (true, s)
  | some n => (frerOf s k).foldl (fun a r =>
      let q := frerStep (frerLen a.2 r) n (smGet frerDefault a.2.frer r)
      (a.1 && q.1, { a.2 with frer := smPut frerDefault a.2.frer r q.2 })) (true, s)

/-- A frame with a sequence number may show the recovery functions of its filter a latent error (R390, R401, log 44). -/
def frerCheck (k : Nat) (f : List Byte) (s : State) : State :=
  if (frSeq f).isSome && !(frerOf s k).isEmpty then
    let (q, s1) := s.draw
    if Config.frerLatent q then icuEvent 353 s1 else s1
  else s

/-! ### Ethernet: rings (R389) -/

/-- The number of descriptors of a ring, from its SIZE; 0 for a ring that is off. -/
def ringSize (w : Word) : Nat := let l := fld w 3 0; if 4 ≤ l ∧ l ≤ 12 then 2 ^ l else 0

/-- The descriptor at a physical address, through M6: none while it waits, and no descriptor when it cannot be read. -/
def ringRead (pa : Nat) (s : State) : Option (Option RingDesc) × State :=
  match busRead 6 0 .nobody plainId pa 16 s with
  | (.done 0 b, s1) =>
    (some (some ⟨(wordAt b 0).toNat + fld (wordAt b 1) 15 0 * 2 ^ 32, fld (wordAt b 1) 31 16, wordAt b 2⟩), s1)
  | (.wait, s1) => (none, s1)
  | (_, s1) => (some none, s1)

/-- Words 2 and 3 of the descriptor at a physical address written back, the stamp only where one is given: false while it waits. -/
def ringWrite (pa : Nat) (w2 : Word) (stamp : Option Nat) (s : State) : Bool × State :=
  let b := leBytes 4 w2.toNat ++ (match stamp with | some t => leBytes 4 t | none => [])
  match busWriteV 6 0 .m .nobody plainId (pa + 8) b s with
  | (.wait, s1) => (false, s1)
  | (_, s1) => (true, s1)

/-- The STATUS of a buffer access's response (R389). -/
def ringStatus (r : Resp) : Nat := if r ≤ 4 then r else 2

/-- TB_NS[31:0] with a signed PHY delay in units of 2^-4 ns added. -/
def stampAdj (tb : Time80) (d : Int) : Nat := wrapTo 32 (((tb.toNat : Int) + d * 4096) / 65536)

/-! ### Ethernet: reception -/

/-- The descriptor of a received frame given back with its STATUS and stamp: HEAD moves on and RX is raised (R389, R401). -/
def rxBack (n q : Nat) (at_ : Time80) (pa : Nat) (w2 : Word) (s : State) : Bool × State :=
  match ringWrite pa w2 (some (stampAdj at_ (-(sgn 16 (s.rf (MAC_TSADJ n) 31 16))))) s with
  | (false, s1) => (false, s1)
  | (true, s1) =>
    let h := s1.rf (MAC_RX_HEAD n q) 11 0
    let s2 := icuEvent (320 + 8 * n) (s1.setRf (MAC_RX_HEAD n q) 11 0 ((h + 1) % Nat.max 1 (ringSize (s1.reg (MAC_RX_SIZE n q)))))
    (true, if fld w2 3 0 = 0 then s2 else icuEvent (322 + 8 * n) s2)

/-- The bytes of a received frame that its buffer takes: all, or a free part of one that is too long (R389). -/
def rxBody (d : RingDesc) (f : List Byte) (s : State) : List Byte × State :=
  let (j, s1) := s.draw
  (if d.len < f.length then f.take (Nat.min d.len (Config.rxPart j)) else f, s1)

/-- STATUS of a received frame whose buffer access ended with `c` (R389). -/
def rxStatus (d : RingDesc) (f : List Byte) (crcOk : Bool) (c : Resp) : Nat :=
  if c != rOKAY then ringStatus c else if !crcOk then 5 else if d.len < f.length then 7 else 0

/-- A received frame stored through the descriptor that has been read: its bytes, then its STATUS (R389). -/
def rxFill (n q : Nat) (f : List Byte) (crcOk : Bool) (at_ : Time80) (pa : Nat) (d : RingDesc) (s : State) : Option Dma × State :=
  if !wbit d.w2 31 then (none, s)
  else
    let (body, s1) := rxBody d f s
    match (if body.isEmpty then (BusRes.done rOKAY [], s1) else busWriteV 6 0 .m .nobody plainId d.addr body s1) with
    | (.wait, s2) => (some (.rx n q f crcOk at_ (some d) none), s2)
    | (.done c _, s2) =>
      let w2 := putFld (putBit (putBit d.w2 31 false) 30 true) 3 0 (rxStatus d f crcOk c)
      match rxBack n q at_ pa w2 s2 with
      | (true, s3) => (none, s3)
      | (false, s3) => (some (.rx n q f crcOk at_ (some d) (some w2)), s3)

/-- A frame that arrived at `at_` stored to receive ring `q` of MAC `n`, as far as M6 and its targets take it: `got` is its descriptor once it has been
read, `fin` what is to be written back once its bytes have been stored (R389). -/
def rxStore (n q : Nat) (f : List Byte) (crcOk : Bool) (at_ : Time80) (got : Option RingDesc) (fin : Option Word) (s : State) : Option Dma × State :=
  let sz := ringSize (s.reg (MAC_RX_SIZE n q))
  let h := s.rf (MAC_RX_HEAD n q) 11 0
  let pa := s.reg64 (MAC_RX_BASE_LO n q) (MAC_RX_BASE_HI n q) + 16 * h
  match got, fin with
  | _, some w2 =>
    (match rxBack n q at_ pa w2 s with
    | (true, s1) => (none, s1)
    | (false, s1) => (some (.rx n q f crcOk at_ got fin), s1))
  | some d, none => rxFill n q f crcOk at_ pa d s
  | none, none =>
    if sz = 0 || h % sz == s.rf (MAC_RX_TAIL n q) 11 0 % sz then (none, s)
    else match ringRead pa s with
      | (none, s1) => (some (.rx n q f crcOk at_ none none), s1)
      | (some none, s1) => (none, s1)
      | (some (some d), s1) => rxFill n q f crcOk at_ pa d s1

/-- The physical address of transmit descriptor `i` of a queue. -/
def txDescPa (s : State) (n q i : Nat) : Nat := s.reg64 (MAC_TX_BASE_LO n q) (MAC_TX_BASE_HI n q) + 16 * i

/-- A transmitted frame whose descriptors have all been given back: TX is raised, ERR where a buffer failed, and the producer of a descriptor
with TS pulses (R401, R402). -/
def txOver (n : Nat) (t : TxFrame) (s : State) : State :=
  let s1 := icuEvent (321 + 8 * n) s
  let s2 := if t.status = 0 then s1 else icuEvent (322 + 8 * n) s1
  if t.descs.any fun d => wbit d.w2 29 then pulse (132 + n) s2 else s2

/-- The descriptors of a transmitted frame given back from the one numbered `i` on, with the STATUS of the buffer whose access failed and the stamp
where TS asks for it (R389). -/
def txBack (n : Nat) (t : TxFrame) (h : Nat) : List RingDesc → Nat → State → Option Dma × State
  | [], _, s => (none, txOver n t s)
  | d :: r, i, s =>
    let pa := txDescPa s n t.q ((h + i) % Nat.max 1 (ringSize (s.reg (MAC_TX_SIZE n t.q))))
    let w2 := putFld (putBit d.w2 31 false) 3 0 (if i = t.bad then t.status else 0)
    match ringWrite pa w2 (if wbit d.w2 29 then some t.stamp else none) s with
    | (true, s1) => txBack n t h r (i + 1) s1
    | (false, s1) => (some (.back n t h i), s1)

/-- A transfer of M6 or M7 tried (R22); what is left of it waits. -/
def dmaStep (d : Dma) (s : State) : Option Dma × State :=
  match d with
  | .rx n q f ok t got fin => rxStore n q f ok t got fin s
  | .back n t h i => txBack n t h (t.descs.drop i) i s
  | d => mvbStep d s

/-- The transfers that wait tried again, each port's in their order (R312). -/
def dmaRetry (s : State) : State :=
  s.dmaHeld.foldl (fun t d => dmaStart dmaStep d t) { s with dmaHeld := [] }

/-- MAC `n` has its clock: MAC0 and MAC1 wait for LPLL (R388, R429). -/
def macClocked (s : State) (n : Nat) : Bool := decide (2 ≤ n) || s.rb PMU_PLL 0

/-- MAC `n` has its receive pins: RXC, RX_CTL and RXD0 to RXD3 of MAC2 and MAC3 must be placed (R473, R475). -/
def macPinned (s : State) (n : Nat) : Bool := decide (n < 2) || (List.range 6).all fun k => fnPlaced s (0x10 * (n - 1) + 6 + k)

/-- A frame received by MAC `n` (R389 to R392, R402). -/
def ethReceive (n : Nat) (f : List Byte) (crcOk : Bool) (s : State) : State :=
  if !s.rb (MAC_CTL n) 31 || !macClocked s n || !macPinned s n then s
  else
    let s0 := if crcOk && frAsEvent f then pulse (128 + n) s else s
    let s1 := if crcOk && frAsEvent f && s.rb TNC_AS_CTL 31 then icuEvent (323 + 8 * n) s0 else s0
    match filterOf s1 n f with
    | none => dmaStart dmaStep (.rx n (s1.rf (MAC_CTL n) 2 0) f crcOk s.tb none none) s1
    | some k =>
      match filterPass k f s1 with
      | (none, s2) => s2
      | (some q, s2) =>
        let r := frerPass k f (frerCheck k f s2)
        if r.1 then dmaStart dmaStep (.rx n q f crcOk s.tb none none) r.2 else r.2

/-- A frame received (R392). -/
def execEthFrameReceive (n : Fin 4) (frame : List Byte) (crcOk : Bool) (s : State) : Out := .next (clocked (ethReceive n.val frame crcOk) s)

/-! ### Ethernet: transmission -/

/-- The descriptors that queue `q` hands to the device: how many, from HEAD to TAIL. -/
def txReady (s : State) (n q : Nat) : Nat :=
  let sz := ringSize (s.reg (MAC_TX_SIZE n q))
  if sz = 0 then 0 else (s.rf (MAC_TX_TAIL n q) 11 0 + sz - s.rf (MAC_TX_HEAD n q) 11 0 % sz) % sz

/-- The descriptors of the frame at the head of queue `q` read on behind those in `l`, at most `k` of them, up to the one with EOF: whether that one was
found (a frame of which the device does not own every descriptor is not ready), none while a read waits (R389). -/
def txDescs (n q : Nat) : Nat → List RingDesc → State → Option Bool × List RingDesc × State
  | 0, l, s => (some false, l, s)
  | k + 1, l, s =>
    let i := (s.rf (MAC_TX_HEAD n q) 11 0 + l.length) % Nat.max 1 (ringSize (s.reg (MAC_TX_SIZE n q)))
    match ringRead (txDescPa s n q i) s with
    | (none, s1) => (none, l, s1)
    | (some none, s1) => (some false, l, s1)
    | (some (some d), s1) =>
      if !wbit d.w2 31 then (some false, l, s1)
      else if wbit d.w2 30 then (some true, l ++ [d], s1)
      else txDescs n q k (l ++ [d]) s1

/-- What stands at the head of queue `q`, as its descriptors say. -/
def txHead (n q : Nat) (s : State) : Option Bool × List RingDesc :=
  let r := txDescs n q (txReady s n q) [] s
  (r.1, r.2.1)

/-- Nanoseconds that a byte takes on the wire of MAC `n`. -/
def byteTime (s : State) (n : Nat) : Nat := match s.rf (MAC_CTL n) 29 28 with | 0 => 800 | 1 => 80 | _ => 8

/-- A frame's time on the wire: preamble, the frame padded to 60 bytes, its FCS, and the inter-frame gap (R391). -/
def wireTime (s : State) (n len : Nat) : Nat := byteTime s n * (8 + Nat.max 60 len + 4 + 12)

/-- Queue `q` of MAC `n` may start a frame of `len` bytes: its gate is open, the frame fits before CLOSE where the last GATE closes it, and a
triggered queue holds a release (R383, R391). -/
def txMay (s : State) (n q len : Nat) : Bool :=
  let m := s.macSt n
  m.gates.getLsbD q && (!s.rb (MAC_QCFG n q) 0 || decide (0 < smGet zeroDefault m.rel q)) &&
    (match m.closeAt with
      | some c => !m.closing.getLsbD q || decide (s.tb.toNat + wireTime s n len * 65536 ≤ c)
      | none => true)

/-- The bytes of a frame's descriptors. -/
def descsLen (l : List RingDesc) : Nat := (l.map fun d => d.len).foldl (· + ·) 0

/-- The bytes of a frame on the wire: those of its descriptors, and the six of an R-TAG that the device inserts (R389, R390). -/
def txLen (l : List RingDesc) : Nat := descsLen l + (match l with | d :: _ => if wbit d.w2 28 then 6 else 0 | [] => 0)

/-- The device's own frame that queue `q` sends before those of its ring (R390). -/
def macOwn (s : State) (n q : Nat) : Option (List Byte) := ((s.macSt n).own.find? fun e => e.1 == q).map fun e => e.2

/-- Queue `q` has a frame that is ready and may start. -/
def txWants (s : State) (n q : Nat) : Bool :=
  match macOwn s n q with
  | some f => txMay s n q f.length
  | none => (match txHead n q s with
    | (some true, l) => txMay s n q (txLen l)
    | _ => false)

/-- The bytes of a frame's buffers through M6, from buffer `i` on and behind the bytes `b`: they go on, or end with the STATUS and the number of the
first that fails, and after how many a read waits. -/
def txBytes : List RingDesc → Nat → List Byte → State → Option (Nat × Nat) × Nat × List Byte × State
  | [], i, b, s => (some (0, 0), i, b, s)
  | d :: t, i, b, s =>
    match busRead 6 0 .nobody plainId d.addr d.len s with
    | (.wait, s1) => (none, i, b, s1)
    | (.done c x, s1) => if c != rOKAY then (some (ringStatus c, i), i, [], s1) else txBytes t (i + 1) (b ++ x) s1

/-- A frame with an 802.1CB R-TAG of a sequence number put behind its addresses and VLAN tag. -/
def withRtag (f : List Byte) (n : Nat) : List Byte :=
  let i := frTypeAt f
  f.take i ++ [0xF1, 0xC1, 0, 0] ++ beBytes 2 n ++ f.drop i

/-- A frame goes on the wire of MAC `n` from queue `q`: a queue that waits for releases uses one up (R383, R391). -/
def macSend (n q : Nat) (descs : List RingDesc) (st : Nat × Nat) (f : List Byte) (s : State) : State :=
  s.modMac n fun k =>
    { k with tx := some { q := q, descs := descs, status := st.1, bad := st.2, stamp := stampAdj s.tb (sgn 16 (s.rf (MAC_TSADJ n) 15 0)), frame := f },
             rel := if s.rb (MAC_QCFG n q) 0 then smPut zeroDefault k.rel q (smGet zeroDefault k.rel q - 1) else k.rel }

/-- A frame with an R-TAG takes the next number of its generation function, and may be replicated onto a second MAC, where the copy waits for its
queue; which MAC and queue is free (R390, log 44). -/
def frerTag (n : Nat) (w : Word) (b : List Byte) (s : State) : List Byte × State :=
  if wbit w 28 then
    let g := fld w 27 20
    let f := withRtag b (smGet zeroDefault s.genSeq g)
    let (q, s1) := { s with genSeq := smPut zeroDefault s.genSeq g ((smGet zeroDefault s.genSeq g + 1) % 65536) }.draw
    (f, match Config.frerSecond q with
      | some (m, p) => if m.toNat ≠ n ∧ s1.rb (MAC_CTL m.toNat) 31 then s1.modMac m.toNat fun k => { k with own := k.own ++ [(p.toNat, f)] } else s1
      | none => s1)
  else (b, s)

/-- The fetch of MAC `n`'s next frame taken on: its descriptors, then its buffers, then it goes on the wire where its queue may still send it
(R389, R391). -/
def txGo (n : Nat) (t : TxFetch) (s : State) : State :=
  let hold := fun (t : TxFetch) (s : State) => s.modMac n fun k => { k with fetch := some t }
  let (end_, l, s1) := if t.whole then (some true, t.descs, s) else txDescs n t.q (txReady s n t.q - t.descs.length) t.descs s
  match end_ with
  | none => hold { t with descs := l } s1
  | some false => s1.modMac n fun k => { k with fetch := none }
  | some true =>
    let (st, i, b, s2) := txBytes (l.drop t.bufs) t.bufs t.data s1
    match st with
    | none => hold { t with descs := l, whole := true, bufs := i, data := b } s2
    | some st =>
      let s3 := s2.modMac n fun k => { k with fetch := none }
      if txMay s3 n t.q (txLen l) then
        let (f, s4) := frerTag n ((l.head?.map fun d => d.w2).getD 0) b s3
        macSend n t.q l st f s4
      else s3

/-- The fetches that wait taken on (R312). -/
def txRetry (s : State) : State :=
  (List.range 4).foldl (fun t n => match (t.macSt n).fetch with | some f => txGo n f t | none => t) s

/-- The queue's next frame may be tried: the device's own, or one of its ring that is ready or that a read of the ring still keeps back. -/
def txTry (s : State) (n q : Nat) : Bool := txWants s n q || (macOwn s n q).isNone && (txHead n q s).1.isNone

/-- A queue starts a frame (R388 to R391): no frame is on the wire, and no queue of higher priority may start one. -/
def ethStart (n q : Nat) (s : State) : State :=
  let m := s.macSt n
  if !s.rb (MAC_CTL n) 31 || !macClocked s n || m.tx.isSome || m.fetch.isSome || !txTry s n q ||
      ((List.range 8).any fun p => decide (q < p) && txWants s n p) then s
  else match macOwn s n q with
    | some f => macSend n q [] (0, 0) f (s.modMac n fun k => { k with own := k.own.erase (q, f) })
    | none => txGo n ⟨q, [], false, 0, []⟩ s

/-- A queue starts a frame (R391). -/
def execEthFrameTransmit (n : Fin 4) (q : Fin 8) (s : State) : Out := .next (clocked (ethStart n.val q.val) s)

/-- A frame of queue `q` finishes on the wire: HEAD moves past its descriptors, which are given back (R389, R401, R402). -/
def ethFinish (n q : Nat) (s : State) : State :=
  match (s.macSt n).tx with
  | some t =>
    if t.q = q then
      let h := s.rf (MAC_TX_HEAD n q) 11 0
      let s1 := s.modMac n fun k => { k with tx := none }
      if t.descs.isEmpty then s1
      else
        let s2 := if frAsEvent t.frame && s1.rb TNC_AS_CTL 31 then icuEvent (323 + 8 * n) s1 else s1
        let s3 := s2.setRf (MAC_TX_HEAD n q) 11 0 ((h + t.descs.length) % Nat.max 1 (ringSize (s.reg (MAC_TX_SIZE n q))))
        dmaStart dmaStep (.back n t h 0) s3
    else s
  | none => s

/-- A transmit frame finishes on the wire (R389). -/
def execEthFrameTransmitDone (n : Fin 4) (q : Fin 8) (s : State) : Out := .next (clocked (ethFinish n.val q.val) s)

/-! ### Ethernet: 802.1AS, 802.1CB, TTDP -/

/-- The servo runs on port `n` (R393). -/
def asSlaveOn (s : State) : Bool := s.rb TNC_AS_CTL 31 && s.rb TNC_AS_CTL 30

/-- The servo loses its lock, if it had one: an unlocked period begins where there was none (R393). -/
def asUnlock (s : State) : State :=
  if s.rb TNC_AS_STAT 31 then tbUnlockFrom 2 (icuEvent 354 ({ s with as := .reset }.setRb TNC_AS_STAT 31 false))
  else { s with as := { s.as with good := 0 } }

/-- What the servo makes of a Sync with its measured offset, in units of 2^-16 ns, and the rate correction that follows from it (R393). -/
def asServo (off : Int) (rate : Word) (s : State) : State :=
  if asSlaveOn s then
    let (j, s0) := s.draw
    let units := off / 4096 + (if Config.offsetUp j && off % 4096 != 0 then 1 else 0)
    let s1 := s0.setRf TNC_AS_STAT 23 0 (sat24 units)
    let s2 : State :=
      if tbDisc s1 = 2 then
        let t := tbSetRate rate s1
        if s.as.fresh && decide (off < -(1000000 * 65536)) then tbStepBy false ((-off) / 65536).toNat t else tbOffsetBy (-off * 2 ^ 32) t
      else s1
    let s2 : State := { s2 with as := ⟨s.as.good, false⟩ }
    if decide (40 * 65536 < off) || decide (off < -(40 * 65536)) then asUnlock s2
    else
      let good := if decide (off ≤ 10 * 65536) && decide (-(10 * 65536) ≤ off) then s.as.good + 1 else 0
      let s3 : State := { s2 with as := ⟨good, false⟩ }
      if 8 ≤ good && !s3.rb TNC_AS_STAT 31 then icuEvent 354 (s3.setRb TNC_AS_STAT 31 true) else s3
  else s

/-- A Sync received on port ASPORT: producer 146 pulses, and the servo takes it (R393, R402). -/
def asSync (off : Int) (rate : Word) (s : State) : State :=
  if s.rb (MAC_CTL (s.rf TNC_AS_CTL 29 28)) 31 && decide (s.power ≤ 1) then asServo off rate (pulse 146 s) else s

/-- An 802.1AS Sync (R393). -/
def execAsSync (offset : BitVec 64) (rate : Word) (s : State) : Out := .next (clocked (asSync offset.toInt rate) s)

/-- Three Sync intervals without a Sync (R393). -/
def execAsSyncTimeout (s : State) : Out := .next (clocked (fun s => if asSlaveOn s then asUnlock s else s) s)

/-- A TTDP HELLO timeout on MAC0 or MAC1 (R394). -/
def execTtdp (n : Fin 2) (s : State) : Out :=
  .next (clocked (fun s => if s.rf TNC_TTDP (16 * n.val + 15) (16 * n.val) = 0 then s else pulse 147 (icuEvent 355 s)) s)

/-- A Pdelay request formed by the device: it waits for its queue, and the source AS of its MAC is raised for the event message (R390, R401). Its bytes
and its queue are free (log 44). -/
def pdelayRequest (n : Nat) (s : State) : State :=
  if s.rb TNC_AS_CTL 31 && s.rb TNC_AS_CTL n && s.rb (MAC_CTL n) 31 then
    let (q, s1) := s.draw
    let m := Config.asFrame q
    icuEvent (323 + 8 * n) (s1.modMac n fun k => { k with own := k.own ++ [(m.2.toNat, m.1)] })
  else s

/-- A periodic Pdelay request sent (R390). -/
def execAsPdelayRequest (n : Fin 4) (s : State) : Out := .next (clocked (pdelayRequest n.val) s)

/-- A recovery function's history is reset (R390). -/
def execFrerResetTimeout (r : BitVec 8) (s : State) : Out :=
  .next (clocked (fun s => if s.rb (TNC_REC0 r.toNat) 31 then { s with frer := smErase s.frer r.toNat } else s) s)

/-- The link of MAC `n` goes up or down (R393, R401). -/
def linkChange (n : Nat) (up : Bool) (s : State) : State :=
  if (s.macSt n).up = up then s
  else
    let s1 := icuEvent (324 + 8 * n) (s.modMac n fun k => { k with up := up })
    if !up && asSlaveOn s1 && s1.rf TNC_AS_CTL 29 28 == n then asUnlock s1 else s1

/-- A MAC's link changes (R401). -/
def execEthLinkChange (n : Fin 4) (up : Bool) (s : State) : Out := .next (clocked (linkChange n.val up) s)

/-! ### MVB, CAN FD, UARTs -/

/-- A master frame received (R395). -/
def execMvbMasterFrame (fcode : BitVec 4) (addr : MvbAddr) (s : State) : Out :=
  .next (clocked (mvbMasterIn (fcode.toNat * 4096 + addr.addr.toNat) addr.disagree) s)

/-- A slave frame received (R396). -/
def execMvbSlaveFrame (data : List Byte) (disagree : Bool) (s : State) : Out := .next (clocked (mvbSlave data disagree) s)

/-- A master frame unanswered (R397). -/
def execMvbReplyTimeout (s : State) : Out := .next (clocked mvbUnanswered s)

/-- A CAN controller that takes part in its bus: enabled, its receive pin placed, and not bus-off, from which it recovers after a free time (R398,
log 44). -/
def canAlive (c : Nat) (s : State) : Bool × State :=
  if !s.rb (CAN_CTL c) 31 then (false, s)
  else if (s.canSt c).tec < 256 then (true, s)
  else
    let (q, s1) := s.draw
    if Config.canRecovered q then (true, s1.modCan c fun k => { k with tec := 0 }) else (false, s1)

/-- A frame that CAN controller `c` receives: with an error it raises ERR, else it is accepted and stamped (R398, R401, R402). -/
def canReceive (c : Nat) (f : Option (List Byte)) (s : State) : State :=
  let (on, s1) := canAlive c s
  if !on || !fnPlaced s (0x81 + 3 * c) then s1
  else match f with
    | none => icuEvent (370 + 4 * c) s1
    | some b => if Config.canAccepts c b then dmaStart dmaStep (.can c (tbNs s) b) s1 else s1

/-- A CAN frame received (R398). -/
def execCanFrameReceive (c : Fin 4) (frame : Option (List Byte)) (s : State) : Out := .next (clocked (canReceive c.val frame) s)

/-- The transmission of buffer `b` has been requested: by SCE, by an event, or by software, whose requests are free (R398, log 44). -/
def canAsked (c b : Nat) (s : State) : Bool × State :=
  if (s.canSt c).req.getLsbD b then (true, s) else let (q, s1) := s.draw; (Config.canReleased q, s1)

/-- A requested frame on the bus: sent, or ended by an error, which leaves it requested, counts and raises ERR (R398, R401). -/
def canSend (c b : Nat) (ok : Bool) (s : State) : State :=
  let (on, s1) := canAlive c s
  if !on then s1
  else
    let (asked, s2) := canAsked c b s1
    if !asked then s2
    else if ok then
      icuEvent (369 + 4 * c) (s2.modCan c fun k =>
        { k with req := k.req &&& ~~~(1#32 <<< b), held := k.held &&& ~~~(1#32 <<< b), tec := k.tec - 1 })
    else icuEvent (370 + 4 * c) (s2.modCan c fun k => { k with req := k.req ||| (1#32 <<< b), held := k.held ||| (1#32 <<< b), tec := k.tec + 8 })

/-- A requested CAN frame sent (R398, R401). -/
def execCanFrameTransmit (c : Fin 4) (b : CanTx) (s : State) : Out := .next (clocked (canSend c.val b.buf.val b.ok) s)

/-- A character received (R399); while DE is asserted the line is ignored unless ECHO is set. -/
def uartReceive (u : Nat) (ch : BitVec 9) (bad : Bool) (s : State) : State :=
  if s.rb (UART_CTL u) 31 && fnPlaced s (0x91 + 4 * u) && (!(s.uartSt u).de || s.rb (UART_CTL u) 30) then
    let s1 := s.modUart u fun k => { k with idle := true }
    if bad then icuEvent (386 + 4 * u) (s1.countWrap (UART_ERRCNT u)) else dmaStart dmaStep (.uart u ch) s1
  else s

/-- A character received (R399). -/
def execUartReceive (u : Fin 4) (ch : BitVec 9) (bad : Bool) (s : State) : Out := .next (clocked (uartReceive u.val ch bad) s)

/-- The idle timeout expires (R399, R402). -/
def execUartIdleTimeout (u : Fin 4) (s : State) : Out :=
  .next (clocked (fun s => if s.rb (UART_CTL u.val) 31 && s.rf (UART_CTL u.val) 7 0 != 0 && (s.uartSt u.val).idle then
      pulse (142 + u.val) (icuEvent (384 + 4 * u.val) (s.modUart u.val fun k => { k with idle := false }))
    else s) s)

/-- The transmit ring of UART `u` has been started: by its consumer, or by software, whose starts are free (R399, R402, log 44). -/
def uartAsked (u : Nat) (s : State) : Bool × State :=
  if (s.uartSt u).go then (true, s) else let (q, s1) := s.draw; (Config.uartStarted q, s1)

/-- A transmission starts, its characters read through M7: DE is asserted (R22, R399). -/
def uartTransmit (u : Nat) (s : State) : State :=
  if s.rb (UART_CTL u) 31 && masterOn s 7 then
    let (asked, s1) := uartAsked u s
    if asked then s1.modUart u fun k => { k with de := true, go := false } else s1
  else s

/-- A transmission starts (R399). -/
def execUartTransmit (u : Fin 4) (s : State) : Out := .next (clocked (uartTransmit u.val) s)

/-- A transmission ends: DE is released (R399, R401). -/
def execUartTransmitDone (u : Fin 4) (s : State) : Out :=
  .next (clocked (fun s => if (s.uartSt u.val).de then icuEvent (385 + 4 * u.val) (s.modUart u.val fun k => { k with de := false }) else s) s)

/-! ### Bypass relays -/

/-- TNC_BYP written (R400). -/
def execTncBypHold (m : Master) (v : Word) (s : State) : Out := .next (masterWrite m TNC_BYP v s)

/-- TNC_BYPWD.KICK written (R400). -/
def execBypwdKick (m : Master) (s : State) : Out := .next (masterWrite m TNC_BYPWD (putBit (s.reg TNC_BYPWD) 31 true) s)

/-- TNC_BYPWD.PERIOD written (R400). -/
def execBypwdPeriodWrite (m : Master) (v : Word) (s : State) : Out := .next (masterWrite m TNC_BYPWD v s)

/-- The bypass watchdog expires (R400). -/
def execBypWatchdogExpiry (s : State) : Out := .next (clocked (fun s => if bypExpired s then bypRelease 2 s else s) s)

end Sys2Proof.Machine
end

