-- ==== Sys2Proof/Machine/PowerCmds.lean ====
section
/-! DEFINITION. Power states, the energy ledger's instants and the power-failure sequence (R423 to R442). -/
namespace Sys2Proof.Machine

/-! ### DOZE -/

/-- A start is in progress. -/
def starting (s : State) : Bool :=
  match s.boot.phase with
  | .off | .done | .failed => false
  | _ => true

/-- Every application core that has been released waits in WAIT (R424, R425); while a start is in progress none does. -/
def coresWait (s : State) : Bool :=
  !starting s && (List.range 4).all fun c => let k := s.core (coreNo c); !k.released || k.waiting

/-- A group of context `x` is surveyed or streamed, or its head may go on (R424, R425). -/
def ctxRunnable (s : State) (x : CtxId) : Bool :=
  let v := s.vc x
  v.cur.isSome || v.sv.isSome ||
    (maySurvey s x && (surveyGroup s x).isSome) || (mayHead s x && (match v.closed with | g :: _ => g.tooMany.isSome | [] => false))

/-- No vector work runs or could (R424, R425). -/
def vseQuiet (s : State) : Bool := (List.range 8).all fun x => !ctxRunnable s (ctxNo x)

/-- PMU_STAT.STATE written. -/
def pmuState (v : Nat) (s : State) : State := s.setRf PMU_STAT 2 0 v

/-- DOZE is entered (R424). -/
def dozeEntry (s : State) : State :=
  if decide (s.power = 0) && coresWait s && vseQuiet s then pmuState 1 { s with pwr := 1 } else s

/-- DOZE ends (R424). -/
def dozeExit (s : State) : State :=
  if decide (s.power = 1) && !(coresWait s && vseQuiet s) then pmuState 0 { s with pwr := 0 } else s

/-- DOZE is entered (R424). -/
def execDozeEntry (s : State) : Out := .next (dozeEntry s)

/-- DOZE ends (R424). -/
def execDozeExit (s : State) : Out := .next (dozeExit s)

/-! ### COCOON and DORMANT -/

/-- PMU_SLEEP written with GO and a target by master `m` (R425); a core's write carries its level. -/
def sleepWrite (m : Master) (core : AppCore) (t : Nat) (s : State) : State :=
  postWrite m.val core.val (masterLvl s m core) PMU_SLEEP (leBytes 4 (2 ^ 16 + t)) s

/-- PMU_SLEEP written with TARGET COCOON (R425). -/
def execPmuSleepCocoon (m : Master) (core : AppCore) (s : State) : Out := .next (sleepWrite m core 1 s)

/-- PMU_SLEEP written with TARGET DORMANT (R425). -/
def execPmuSleepDormant (m : Master) (core : AppCore) (s : State) : Out := .next (sleepWrite m core 2 s)

/-- PMU_SLEEP written with a TARGET that names no state (R425). -/
def execPmuSleepInvalid (m : Master) (core : AppCore) (t : BitVec 2) (s : State) : Out :=
  .next (if t = 0 ∨ t = 3 then sleepWrite m core t.toNat s else s)

/-- A request is pending. -/
def sleepAsked (s : State) : Bool := s.rb PMU_SLEEP 16 && decide (s.power ≤ 1)

/-- The cores are not all in WAIT 1 ms after the request (R425). -/
def execSleepWaitTimeout (s : State) : Out :=
  .next (if sleepAsked s && !coresWait s then sleepRefused 2 s else s)

/-- The first condition of R425 beside the second that does not hold, 0 when all hold. -/
def sleepCond (s : State) : Nat :=
  if !s.rb PMU_SLEEP 8 then 1
  else if !vseQuiet s then 3
  else if s.rb TNC_BYP 31 then 4
  else if s.rb BCU_ST_STAT 31 || s.rb BCU_ST_STAT 30 then 5
  else if !s.pwrfailN then 6
  else 0

/-- The SerDes domain turned off: every Idene Link and SGMII port goes down (R375, R426). -/
def serdesOff (s : State) : State :=
  let s1 := (List.range 6).foldl (fun t p => portDown p t) s
  linkChange 1 false (linkChange 0 false (deliverEnded s1))

/-- The in-service bank groups as a mask. -/
def inServiceMask (s : State) : BitVec 8 := BitVec.ofNat 8 (bitsNat ((List.range 8).map fun g => !groupOos s g))

/-- What COCOON leaves of the Erg: a group whose KEEP is clear loses its contents, with a zero-fill that ran there, and none is ready
(R287, R426). -/
def ergSleeps (s : State) : State :=
  let s1 := (List.range 8).foldl (fun t g => if t.rb ERG_RET g then t else groupZero g t) s
  let s2 := s1.setRf ERG_BGSTAT 7 0 0
  { s2 with fillRun := s2.fillRun &&& BitVec.ofNat 8 (s.rf ERG_RET 7 0) }

/-- The five steps of an entry (R426). -/
def sleepEnter (s : State) : State :=
  let deep := s.rf PMU_SLEEP 1 0 == 2
  let s1 := serdesOff (chkFlush (s.setRb PMU_SLEEP 16 false))
  let s2 := pmuState 2 (vclkStops (s1.setReg PMU_PLL 0))
  if deep then { s2 with pwr := 3, icuHeld := [] }
  else
    let (q, s3) := (ergSleeps s2).draw
    { s3 with pwr := 2, pmu := { s3.pmu with padHold := some q } }

/-- A transaction of the bus matrix is in flight: one granted, or a request that has left for a remote window (R426 step 1). -/
def inFlight (s : State) : Bool :=
  (s.outst.any fun r => !r.gone) || (s.xacts.any fun x => x.granted && !x.answered && !x.gone) || !(waitsAt s).isEmpty

/-- An entry, once every application core waits and what is in flight has completed: refused for the first condition that fails, or performed (R425, R426); a wake event that has
come stands in its way. -/
def sleepEntry (s : State) : State :=
  if sleepAsked s && coresWait s && decide (s.wakeReq = 0) && !inFlight s then
    if sleepCond s = 0 then sleepEnter s else sleepRefused (sleepCond s) s
  else s

/-- An entry (R426). -/
def execSleepEntry (s : State) : Out := .next (sleepEntry s)

/-- A source held by the wake logic would meet R315 for a core, or one meets it (R321, R427). -/
def icuWake (s : State) : Bool :=
  (List.range 4).any (icuWakes s) ||
    s.icuHeld.any fun n => let w := s.reg (ICU_SRC n); wbit w 31 && !wbit w 6 && fld w 11 8 != 0

/-- The wake event named has come: an input with its WAKEEN bit, or in COCOON an ICU source (R427). -/
def wakeCame (src : Option (Fin 8)) (s : State) : Bool :=
  match src with
  | some k => s.wakeReq.getLsbD k.val
  | none => decide (s.power = 2) && icuWake s

/-- A wake from COCOON begins: the power slots of the eight bank groups follow in turn (R288, R427). -/
def cocoonWake (src : Option (Fin 8)) (s : State) : State :=
  let mask := match src with | some k => 2 ^ k.val | none => 0
  pmuState 3 (({ s with wakeReq := 0, ergSlots := 0xFF } : State).setRf PMU_STAT 15 8 mask)

/-- The device is in RUN again: the clocks run, the PLLs that anything wants are locked, and held interrupts and events arrive
(R288, R427). -/
def cocoonRun (s : State) : State :=
  let pll := 0x1C + 2 * b2n (dmcOn s) + b2n (lpllWanted s)
  let s1 : State := { s with pwr := 0, icuHeld := [], pmu := { s.pmu with padHold := none } }
  let s2 := pmuState 0 ((vclkRuns s1).setReg PMU_PLL (BitVec.ofNat 32 pll))
  releaseHeld (s.icuHeld.foldl (fun t n => icuEvent n t) s2)

/-- The power slot of bank group `g` ends on wake (R288): a retained group is ready unless a zero-fill was asked of it, another one's zero-fill
starts, and one out of service stays off. -/
def groupSlotEnds (g : Nat) (s : State) : State :=
  if groupOos s g then s
  else if s.rb ERG_RET g then (if s.rb ERG_INIT g then s else s.setRb ERG_BGSTAT g true)
  else { s with fillRun := s.fillRun ||| (1#8 <<< g) }

/-- The slots end in turn, and with group 7's the device is in RUN, unless a power failure has begun (R288, R441). -/
def bankGroupReady (g : Nat) (s : State) : State :=
  if s.pwr == 2 && s.ergSlots.getLsbD g && (List.range g).all fun j => !s.ergSlots.getLsbD j then
    let s1 := groupSlotEnds g { s with ergSlots := s.ergSlots &&& ~~~(1#8 <<< g) }
    if g = 7 && s.rf PMU_STAT 26 24 == 0 then cocoonRun s1 else s1
  else s

/-- A bank group's power slot ends (R288). -/
def execBankGroupReady (g : Fin 8) (s : State) : Out := .next (bankGroupReady g.val s)

/-- A wake event: it cancels a pending entry, which with one in the XCLK of its GO is refused, or wakes the device from COCOON; a power failure that
has begun is not stopped by it (R426, R427, R441, R442). -/
def wakeEvent (src : Option (Fin 8)) (s : State) : State :=
  if !wakeCame src s then s
  else if sleepAsked s then
    let (here, s1) := sameXclk s.pmu.goAt s
    if here then sleepRefused 2 s1 else { s1.setRb PMU_SLEEP 16 false with wakeReq := 0 }
  else if decide (s.power = 2) && s.rf PMU_STAT 26 24 == 0 && s.ergSlots == 0 then cocoonWake src s
  else s

/-- A wake event (R427). -/
def execWakeEvent (src : Option (Fin 8)) (s : State) : Out := .next (wakeEvent src s)

/-! ### The energy ledger -/

/-- The channels sampled in the present state (R431). -/
def elgSampled (s : State) (d : Nat) : Bool :=
  match s.power with
  | 0 | 1 => true
  | 2 => d == 0 || d == 1 || d == 2 || d == 4 || d == 6
  | 3 | 4 => d == 4
  | _ => false

/-- An amount added to a 64-bit counter, which wraps (R431). -/
def addTo64 (lo hi x : Nat) (s : State) : State := s.setReg64 lo hi ((s.reg64 lo hi + x) % 2 ^ 64)

/-- A sample of channel `d` (R431), counted into PFE from T0 on (R439). -/
def elgSample (d x : Nat) (s : State) : State :=
  if elgSampled s d then
    let s1 := addTo64 (ELG_E_LO d) (ELG_E_HI d) x s
    if s.rf PMU_STAT 26 24 = 0 then s1 else addTo64 ELG_PFE_LO ELG_PFE_HI x s1
  else s

/-- The refill of one instant (R433). -/
def elgCreditRefill (s : State) : State :=
  let cap : Int := ((s.reg ELG_CAP).toNat : Int)
  if s.rb ELG_CTL 31 && decide (s.power ≤ 1) && decide (s.elgCredit < cap) then
    let x := s.elgCredit + (s.rf ELG_RATE 23 0 : Nat)
    setCredit (if cap < x then cap else x) s
  else s

/-- The nJ that the channels sampled in the present state have drawn since the last sample (R431). -/
def elgDrawn (s : State) (e : List Nat) : Nat := ((List.range 8).map fun d => if elgSampled s d then e.getD d 0 else 0).sum

/-- A refill instant: where TB has passed a multiple of 1,000 ns since the last, credit, and a sample of every channel, which counts in the present
1 ms too (R431, R433, R438). -/
def elgRefill (e : List Nat) (s : State) : State :=
  if s.elg.due && decide (s.power ≤ 2) then
    let s1 := (List.range 8).foldl (fun t d => elgSample d (e.getD d 0) t) (elgCreditRefill s)
    { s1 with elg := { s1.elg with due := false, win := s.elg.win + elgDrawn s e } }
  else s

/-- A refill instant (R433). -/
def execElgRefill (e : List Nat) (s : State) : Out := .next (elgRefill e s)

/-- Channel 4 sampled while MOTHCLK alone runs (R431). -/
def execElgDormantSample (e : Nat) (s : State) : Out :=
  .next (if s.power = 3 ∨ s.power = 4 then elgSample 4 e s else s)

/-- HOLDOFF as the average of 1 ms gives it: an average of MW mW is 1,000 × MW nJ in 1 ms (R438). -/
def elgPlim (nj : Nat) (s : State) : State :=
  let lim := s.rf ELG_PLIM 23 0
  if lim = 0 then s
  else if lim * 1000 < nj then
    (if holdOff s then s else pulse 162 (icuEvent 611 (s.setRb ELG_STAT 31 true)))
  else s.setRb ELG_STAT 31 false

/-- The end of 1 ms of TB: what the samples of it add up to is compared with the power limit (R438). -/
def elgWindow (s : State) : State :=
  if s.elg.plimDue && decide (s.power ≤ 2) then
    elgPlim s.elg.win { s with elg := { s.elg with plimDue := false, win := 0 } }
  else s

/-- The average of 1 ms compared with the power limit: its end is a refill instant too, whose samples come first where they are not taken yet (R431,
R438). -/
def execElgPlimWindow (e : List Nat) (s : State) : Out := .next (elgWindow (elgRefill e s))

/-- ELG_SNAP.GO written (R432). -/
def execElgSnap (m : Master) (s : State) : Out := .next (masterWrite m ELG_SNAP 1 s)

/-- ELG_CREDIT_LO written (R437). -/
def execElgCreditWrite (m : Master) (v : Word) (s : State) : Out := .next (masterWrite m ELG_CREDIT_LO v s)

/-! ### Power failure -/

/-- The step of the sequence in progress (PMU_STAT.PFSTEP). -/
def pfStep (s : State) : Nat := s.rf PMU_STAT 26 24

/-- The sequence at another step. -/
def setPfStep (n : Nat) (s : State) : State := s.setRf PMU_STAT 26 24 n

/-- PWRFAIL_N falls: the filter time starts (R439). -/
def execPwrfailNFall (s : State) : Out :=
  .next (if s.pwrfailN then { s with pwrfailN := false, pfFilter := decide (pfStep s = 0) && decide (s.power ≤ 3) } else s)

/-- PWRFAIL_N rises: a filter time in progress ends without effect (R441, R442). -/
def execPwrfailNRise (s : State) : Out := .next { s with pwrfailN := true, pfFilter := false }

/-- What T0 does to the store: ERASE and PROGRAM are abandoned, and with no COMMIT in progress AUTO starts one (R467). -/
def pfStore (s : State) : State :=
  match s.nvmOp with
  | .commit _ _ _ => s
  | _ =>
    let s1 := stEndAtUnit s
    if s1.rb BCU_ST_CTL 30 && decide (s.power ≤ 1) then commitStart s1 else s1

/-- T0 (R439, R441, R442, R470): the ledger admits nothing, surveys are abandoned at their next POLL points, a pending sleep request and a start in progress
end, and the alerts are raised; step 2 follows where the Core domain runs. -/
def pwrfailT0 (s : State) : State :=
  if s.pfFilter && !s.pwrfailN && decide (pfStep s = 0) then
    let s0 : State := { s with pfFilter := false, pfT0 := tbNs s, wakeReq := 0 }
    let s1 := setPfStep (if s.power ≤ 1 then 2 else 1) (s0.setReg64 ELG_PFE_LO ELG_PFE_HI 0)
    let s2 := sicEvent 10 (pulse 161 (icuEvent 608 s1))
    if s.power ≤ 1 then
      let s3 := (chkFlush s2).setRb PMU_SLEEP 16 false
      let s4 := if starting s3 then { s3 with boot := .reset } else s3
      pfStore s4
    else s2
  else s

/-- T0 (R439). -/
def execPwrfailT0 (s : State) : Out := .next (pwrfailT0 s)

/-- The commit reports done: none is in progress or about to begin (R467). -/
def commitOver (s : State) : Bool :=
  (match s.nvmOp with | .commit _ _ _ => false | _ => true) && !s.rb BCU_ST_CTL 31

/-- Step 3 begins (R439, R441). -/
def pfStep3Due (s : State) : Bool :=
  if s.power = 2 then pfStep s == 1 || pfStep s == 2
  else
    pfStep s == 2 && (commitOver s ||
      decide (((s.reg ELG_EHOLD).toNat : Int) - ((s.reg ELG_ESAFE).toNat : Int) ≤ (s.reg64 ELG_PFE_LO ELG_PFE_HI : Nat)) ||
      decide (s.pfT0 + s.rf PMU_PFCTL 15 0 * 1000 ≤ tbNs s))

/-- Step 3: the safe-state latch is signalled, and a commit still in progress is abandoned (R410, R439). -/
def execPfSafeSignal (s : State) : Out :=
  .next (if pfStep3Due s then safeTrigger 5 (stAbandon (setPfStep 3 s)) else s)

/-- Step 4: BYP_HOLD goes low (R400, R439). -/
def execPfBypassRelease (s : State) : Out := .next (if pfStep s = 3 then bypRelease 4 (setPfStep 4 s) else s)

/-- Every vector group abandoned, and nothing left in flight for the ledger (R173, R436). -/
def vseAbandoned (s : State) : State := (abandonGroups s).setReg ELG_INFLIGHT 0

/-- Step 5: vector work is abandoned, the clocks stop, and PF is set (R439); in DORMANT it follows whatever step the sequence stands at (R441). -/
def pfShutdown (s : State) : State :=
  if pfStep s = 4 ∨ (1 ≤ pfStep s ∧ pfStep s ≤ 3 ∧ s.power = 3) then
    let s1 := stAbandon (if s.power ≤ 1 then vseAbandoned s else s)
    let s2 := ((setPfStep 5 (vclkStops s1)).setReg PMU_PLL 0).setRb PMU_STAT 31 true
    { s2 with pwr := 4, icuHeld := [], evrHeld := [] }
  else s

/-- Step 5 (R439). -/
def execPfShutdown (s : State) : Out := .next (pfShutdown s)

end Sys2Proof.Machine
end

