-- ==== Sys2Proof/Machine/BootOps.lean ====
section
/-! DEFINITION. The boot image, the patch image and the start-up sequence (R187 to R191, R446 to R458). -/
namespace Sys2Proof.Machine

/-! ### The boot image (R447 to R449) -/

/-- A field of `n` bytes at offset `o` of the image at NVM offset `b`. -/
def imgNat (s : State) (b o n : Nat) : Nat := s.nvmNat (b + o) n

/-- Bytes of an image. -/
def imgBytes (s : State) (b o n : Nat) : List Byte := s.nvmBytes (b + o) n

/-- The image is unsigned and unencrypted (FLAGS.PLAIN). -/
def imgPlain (s : State) (b : Nat) : Bool := imgNat s b 6 2 % 2 == 1

/-- NITEM. -/
def imgNitem (s : State) (b : Nat) : Nat := imgNat s b 0x0E 2

/-- TOTAL. -/
def imgTotal (s : State) (b : Nat) : Nat := imgNat s b 0x10 4

/-- SVN. -/
def imgSvn (s : State) (b : Nat) : Nat := imgNat s b 0x0C 1

/-- Entry `k` of the item table (R448). -/
def imgItem (s : State) (b k : Nat) : BootItem :=
  let o := 0xA0 + 16 * k
  let w0 := imgNat s b o 4
  { ty := nfld w0 31 28, clear := w0.testBit 27, dest := nfld w0 15 0 * 2 ^ 32 + imgNat s b (o + 12) 4, offs := imgNat s b (o + 4) 4,
    len := imgNat s b (o + 8) 4 }

/-- The item table. -/
def imgItems (s : State) (b : Nat) : List BootItem := (List.range (imgNitem s b)).map (imgItem s b)

/-- An item by itself is as R448 gives. -/
def itemOk (s : State) (b : Nat) (i : BootItem) : Bool :=
  (i.ty == 1 || i.ty == 2 || i.ty == 3) && i.offs % 16 == 0 && decide (0xA0 + 16 * imgNitem s b ≤ i.offs) &&
    decide (i.offs + i.len + 96 ≤ imgTotal s b) &&
    (match i.ty with
      | 1 => decide (i.len ≤ 131072) && (!i.clear || imgPlain s b) && i.dest == 0
      | 2 => isErg i.dest || inDramRange i.dest || isSiSram i.dest
      | _ => i.clear && i.dest == 0)

/-- No item overlaps a later one. -/
def itemsApart : List BootItem → Bool
  | [] => true
  | i :: t => t.all (fun j => decide (i.offs + i.len ≤ j.offs) || decide (j.offs + j.len ≤ i.offs) || i.len == 0 || j.len == 0) && itemsApart t

/-- No LOAD into DRAM stands before a CONFIG item. -/
def configFirst : List BootItem → Bool
  | [] => true
  | i :: t => (!(i.ty == 2 && inDramRange i.dest) || !(t.any fun j => j.ty == 1)) && configFirst t

/-- The item rules of R448. -/
def itemsOk (s : State) (b : Nat) : Bool :=
  let l := imgItems s b
  l.all (itemOk s b) && itemsApart l && configFirst l && decide ((l.filter fun i => i.ty == 1).length ≤ 1) &&
    decide ((l.filter fun i => i.ty == 3).length ≤ 1)

/-- MAGIC, FORMAT, the zero fields, TOTAL and the item rules (R447 to R449). -/
def imgFormatOk (s : State) (b : Nat) : Bool :=
  imgNat s b 0 4 == 0x4D495141 && imgNat s b 4 2 == 1 && decide (imgNat s b 6 2 < 4) &&
    decide (1 ≤ imgNitem s b) && decide (imgNitem s b ≤ 32) && decide (imgTotal s b ≤ 0x1000000) &&
    decide (imgNat s b 0x1C 1 < 16) && imgNat s b 0x1E 2 == 0 && itemsOk s b

/-- The lifecycle state acts as FIELD (R444). -/
def lcsField (s : State) : Bool := s.otp.lcs == 2 || decide (4 ≤ s.otp.lcs.toNat)

/-- The OTP keys are usable (R444). -/
def keysUsable (s : State) : Bool := s.otp.lcs != 3

/-- The public key of an image: x, then y, least significant byte first (R447). -/
def imgPubKey (s : State) (b : Nat) : List Byte := imgBytes s b 0x40 96

/-- KEYDIG(KEYIDX) is provisioned, is not revoked and fits the public key (R449). -/
def keyOk (s : State) (b : Nat) : Bool :=
  let k := imgNat s b 0x0D 1
  keysUsable s && keyDigOf s k != 0 && !s.otp.keyRev.getLsbD k && Config.sha384 (imgPubKey s b) == keyDigOf s k

/-- The signature verifies (R447, R449). -/
def sigOk (s : State) (b : Nat) : Bool :=
  let n := imgTotal s b - 96
  Config.ecdsaOk (BitVec.ofNat 768 (leNat (imgPubKey s b))) (Config.sha384 (imgBytes s b 0 n)) (imgBytes s b n 96)

/-- The additional authenticated data of an image (R447). -/
def imgAad (s : State) (b : Nat) : List Byte := imgBytes s b 0 0x24 ++ imgBytes s b 0xA0 (16 * imgNitem s b)

/-- The ciphertext of an image: every item with CLEAR = 0, in table order (R447). -/
def imgCipher (s : State) (b : Nat) : List Byte := ((imgItems s b).filter fun i => !i.clear).flatMap fun i => imgBytes s b i.offs i.len

/-- The GCM tag of an image verifies (R447, R449). -/
def tagOk (s : State) (b : Nat) : Bool :=
  Config.gcmOk s.otp.imgKey (imgBytes s b 0x24 12) (imgAad s b) (imgCipher s b) (imgBytes s b 0x30 16)

/-- A slot is absent (R449). -/
def slotAbsent (s : State) (k : Nat) : Bool := imgOffs s k == 0 || s.nvmNat (imgOffs s k) 4 == 0xFFFFFFFF

/-- Pass 1 of a slot: the cause of the first check that fails, 0 when none does (R449). -/
def slotCause (s : State) (k : Nat) : Nat :=
  let b := imgOffs s k
  if slotAbsent s k then 7
  else if !imgFormatOk s b then 1
  else if imgPlain s b && lcsField s then 2
  else if decide (imgSvn s b < s.otp.imgCtr) then 3
  else if imgPlain s b then 0
  else if !keyOk s b then 4
  else if !sigOk s b then 5
  else if !tagOk s b then 6
  else 0

/-- The slot tried first (R449, R463). -/
def firstSlot (s : State) : Nat :=
  if slotAbsent s 1 then 0
  else if slotAbsent s 0 then 1
  else b2n (serialLater (s.nvmNat (imgOffs s 1 + 8) 4) (s.nvmNat (imgOffs s 0 + 8) 4))

/-! ### Failure (R457) -/

/-- STAGE of BCU_BSTAT written. -/
def bootStage (n : Nat) (s : State) : State := s.setRf BCU_BSTAT 31 28 n

/-- The safe-state latch set as a fatal failure leaves it, with cause BOOT where a record has released it, and BYP_HOLD low (R400, R413, R457). -/
def bootUnsafe (s : State) : State :=
  let s0 : State := { s with si := { s.si with relPend := false } }
  let s1 := if s.rb SI_SSC 23 then s0 else icuEvent 633 (s0.setReg SI_SSC (putBit (putBit (s.reg SI_SSC) 0 true) 23 true))
  bypRelease 3 s1

/-- A fatal failure: the BCU stops, and waits for a retry while TRIES is below BOOTRETRY (R457). -/
def bootFail (result : Nat) (s : State) : State :=
  let s1 := (bootStage 0xF (bootUnsafe s)).setRf BCU_BSTAT 7 0 result
  let s2 := s1.setReg XBM_MEN (s1.reg XBM_MEN &&& ~~~0x4FF)
  let ph : BootPhase := if s2.rf BCU_BSTAT 27 26 < s2.otp.bootRetry.toNat then .retry else .failed
  { s2 with boot := { BootSt.reset with phase := ph, t0 := tbNs s }, xspi := { s2.xspi with hiz := true } }

/-! ### The patch (R187 to R191) -/

/-- The length of a patch image's ciphertext. -/
def patchLen (s : State) (b : Nat) : Nat := 4 * imgNat s b 0x0A 2 + 22 * imgNat s b 0x0C 2

/-- The plaintext of a patch image. -/
def patchPlain (s : State) (b : Nat) : List Byte :=
  let n := patchLen s b
  let ct := imgBytes s b 0x40 n
  (List.range n).map (Config.gcmByte s.otp.patchAes (imgBytes s b 0x14 12) ct)

/-- Magic, format, zero fields and the limits of NRDIR and NWORDS (R188 step 2). -/
def patchFormatOk (s : State) (b : Nat) : Bool :=
  imgNat s b 0 4 == 0x504D5141 && imgNat s b 4 2 == 1 && decide (imgNat s b 9 1 < 2) &&
    decide (imgNat s b 0x0A 2 ≤ 64) && decide (imgNat s b 0x0C 2 ≤ 1024) && imgNat s b 0x0E 2 == 0 && imgNat s b 0x30 16 == 0

/-- Redirect entry `k` of a plaintext. -/
def redirOf (plain : List Byte) (k : Nat) : Word := wordAt plain k

/-- Microword `k` of a plaintext with `nr` redirect entries. -/
def microOf (plain : List Byte) (nr k : Nat) : List Byte := (plain.drop (4 * nr + 22 * k)).take 22

/-- The contents of a patch are right (R188 step 7). -/
def patchContentOk (plain : List Byte) (nr nw : Nat) : Bool :=
  let l := (List.range nr).map (redirOf plain)
  let valid := (l.filter fun w => wbit w 31).map fun w => fld w 12 0
  ((List.range nw).all fun k => let w := BitVec.ofNat 176 (leNat (microOf plain nr k)); Config.microFix w == some w) &&
    (l.all fun w => decide (fld w 12 0 < 0x1000) && decide (fld w 28 16 < 0x1000 + nw)) && decide valid.Nodup

/-- Steps 1 to 7 of a patch image: the code of the first that fails, 0 when none does (R188, R444). -/
def patchCause (s : State) (b : Nat) : Nat :=
  let n := patchLen s b
  if !patchFormatOk s b then 2
  else if imgNat s b 6 2 != s.rf VMS_ID 15 0 then 3
  else if decide (imgNat s b 8 1 < s.otp.patchCtr) || (s.otp.patchCtr == 64 && imgNat s b 8 1 != 64) then 4
  else if s.otp.patchKey = 0 || !keysUsable s then 9
  else if !Config.ecdsaOk s.otp.patchKey (Config.sha384 (imgBytes s b 0 (0x40 + n))) (imgBytes s b (0x40 + n) 96) then 5
  else if !Config.gcmOk s.otp.patchAes (imgBytes s b 0x14 12) (imgBytes s b 0 0x14) (imgBytes s b 0x40 n) (imgBytes s b 0x20 16) then 6
  else if !patchContentOk (patchPlain s b) (imgNat s b 0x0A 2) (imgNat s b 0x0C 2) then 7
  else 0

/-- A microword written to patch RAM (R188 step 8). -/
def patchWord (a : Nat) (m : List Byte) (s : State) : State :=
  (List.range 6).foldl (fun t w => let r := 0x20208000 + 32 * a + 4 * w; t.setReg r (wordAt m w &&& vmsMask r)) s

/-- A patch image that passed: the redirect table and patch RAM are written (R188 step 8). -/
def patchLoad (b : Nat) (s : State) : State :=
  let p := patchPlain s b
  let nr := imgNat s b 0x0A 2
  let nw := imgNat s b 0x0C 2
  let s1 := (List.range nr).foldl (fun t k => t.setReg (VMS_REDIR k) (redirOf p k &&& 0x9FFF1FFF)) s
  let s2 := (List.range nw).foldl (fun t k => patchWord k (microOf p nr k) t) s1
  (s2.setReg VMS_PSTAT (BitVec.ofNat 32 (nw * 2 ^ 16 + nr * 2 ^ 8))).setReg VMS_PVER
    (BitVec.ofNat 32 (imgNat s b 8 1 * 2 ^ 24 + s.otp.patchCtr * 2 ^ 16 + imgNat s b 0x10 4 % 65536))

/-- The offset of the patch image that the image in use holds. -/
def patchAt (s : State) : Option Nat := ((imgItems s s.boot.img).find? fun i => i.ty == 3).map fun i => s.boot.img + i.offs

/-- Patch processing up to step 8: the image, or its failure, and the lock (R188, R191); ABSENT and a failure disable the engine where a patch is
required. -/
def patchProcess (s : State) : State :=
  let (q, s0) := s.draw
  let cause := match patchAt s with
    | none => 1
    | some b => if Config.nvmReadFails q then 8 else patchCause s b
  match (if cause = 0 then patchAt s else none) with
  | some b => vmsLock true (patchLoad b s0)
  | none => vmsLock (!s.otp.patchReq) ((s0.setRf VMS_PSTAT 7 0 cause).setRf VMS_PVER 23 16 s.otp.patchCtr)

/-- The value that step 9 advances the anti-rollback counter to, where it must advance: the patch was loaded, ADV is 1 and SVN is above the
counter, which holds at most 64 (R188, R189). -/
def patchTarget (s : State) : Option Nat :=
  match patchAt s with
  | some b =>
    let svn := Nat.min 64 (imgNat s b 8 1)
    if s.rf VMS_PSTAT 7 0 = 0 && imgNat s b 9 1 = 1 && decide (s.otp.patchCtr < svn) then some svn else none
  | none => none

/-- One bit of the anti-rollback counter burnt (R189). -/
def patchBurn (s : State) : State :=
  let n := s.otp.patchCtr + 1
  ({ s with otp := { s.otp with patchCtr := n } } : State).setRf VMS_PVER 23 16 n

/-! ### Pass 2 and the release (R450, R451, R454, R455) -/

/-- An access of the BCU, on M8. -/
def bcuWrite (pa : Nat) (bytes : List Byte) (s : State) : BusRes × State := busWrite 8 0 .m .nobody plainId pa bytes [] s

/-- A word read by the BCU, on M8. -/
def bcuRead (pa : Nat) (s : State) : BusRes × State := busRead 8 0 .nobody plainId pa 4 s

/-- The bytes of ciphertext before an item. -/
def cipherBefore (offs : Nat) : List BootItem → Nat
  | [] => 0
  | i :: t => if i.offs = offs then 0 else (if i.clear then 0 else i.len) + cipherBefore offs t

/-- An item's contents, decrypted where it is encrypted (R450). -/
def itemData (s : State) (i : BootItem) : List Byte :=
  let b := s.boot.img
  if i.clear || imgPlain s b then imgBytes s b i.offs i.len
  else
    let o := cipherBefore i.offs ((imgItems s b).filter fun j => j.len != 0)
    let ct := imgCipher s b
    (List.range i.len).map fun n => Config.gcmByte s.otp.imgKey (imgBytes s b 0x24 12) ct (o + n)

/-- The configuration record that 16 bytes spell (R452). -/
def recordOf (l : List Byte) : CfgRec :=
  let w := wordAt l 0
  { op := fld w 31 28, flag := wbit w 24, n := fld w 23 0, addr := (wordAt l 1).toNat, value := wordAt l 2, mask := wordAt l 3 }

/-- The records of a CONFIG item (R452). -/
def recordsOf (l : List Byte) : List CfgRec := (List.range (l.length / 16)).map fun k => recordOf ((l.drop (16 * k)).take 16)

/-- The selected payload copied to STDST (R447, R454): `false` while the Erg makes the write wait. -/
def storeCopy (s : State) : Bool × State :=
  let d := imgNat s s.boot.img 0x20 4
  match storeSelected s with
  | some n =>
    if d = 0xFFFFFFFF then (true, s)
    else match bcuWrite d (slotData s n) s with
      | (.wait, s1) => (false, s1)
      | (_, s1) => (true, s1)
  | none => (true, s)

/-- IMGCTR is to advance towards SVN: ADV is 1 and SVN exceeds the counter, which holds at most 64 (R443, R451). -/
def imgBehind (s : State) : Bool :=
  let b := s.boot.img
  imgNat s b 6 2 / 2 % 2 == 1 && decide (s.otp.imgCtr < Nat.min 64 (imgSvn s b))

/-- One bit of IMGCTR burnt (R451). -/
def imgBurn (s : State) : State := { s with otp := { s.otp with imgCtr := s.otp.imgCtr + 1 } }

/-- A master enabled (R25). -/
def masterEnable (m : Nat) (s : State) : State := s.setRb XBM_MEN m true

/-- The SI released with M4, when the image asks for it and SI SRAM is in service (R25, R454, R458). -/
def siRelease (s : State) : State :=
  let b := s.boot.img
  if imgNat s b 0x1D 1 = 1 && !s.rb MIU_STEST 24 then releaseCore siCore (imgNat s b 0x14 4) (masterEnable 4 s) else s

/-- The application masters enabled and the cores of CORES released (R25, R454, R455). -/
def coresRelease (s : State) : State :=
  let b := s.boot.img
  let s1 := (List.range 4).foldl (fun t m => masterEnable m t) s
  (onesOf 4 (imgNat s b 0x1C 1)).foldl (fun t c => releaseCore (coreNo c) (imgNat s b 0x18 4) t) s1

/-- The start at another phase. -/
def bootPhase (p : BootPhase) (s : State) : State := { s with boot := { s.boot with phase := p } }

/-- The SI released, after the patch; the cores follow (R454). -/
def bootSi (s : State) : State := bootPhase .cores (siRelease s)

/-- The last action of step 4: the cores are released, and the start is done (R454). -/
def bootCores (s : State) : State :=
  let s1 := bootStage 5 (coresRelease s)
  { s1 with boot := { s1.boot with phase := .done, items := [], recs := [] } }

/-- Step 9 of patch processing, one bit at a time, and then the release of the SI (R189, R454). -/
def bootCounter (s : State) : State :=
  match patchTarget s with
  | none => bootSi s
  | some _ =>
    let s1 := patchBurn s
    if (patchTarget s1).isNone then bootSi s1 else s1

/-- Step 4 begins: the patch is loaded; then its anti-rollback counter advances, or the SI is released (R188, R454). -/
def bootPatch (s : State) : State :=
  let s1 := patchProcess s
  if (patchTarget s1).isSome then bootPhase .counter s1 else bootSi s1

/-- Step 3 is over once IMGCTR stands at SVN: it advances one bit at a time (R451, R454). -/
def bootImgCounter (s : State) : State :=
  if imgBehind s then
    let s1 := imgBurn s
    if imgBehind s1 then s1 else bootPhase .patch (bootStage 4 s1)
  else bootPhase .patch (bootStage 4 s)

/-- The end of pass 2 (R450, R454): the tag is formed again and the store payload copied; then IMGCTR advances, and step 4 follows. -/
def bootFinish (s : State) : State :=
  if !imgPlain s s.boot.img && !tagOk s s.boot.img then bootFail 3 s
  else match storeCopy s with
    | (false, s1) => { s1 with boot := { s1.boot with phase := .fill, items := [] } }
    | (true, s1) =>
      if imgBehind s1 then { s1 with boot := { s1.boot with phase := .imgCounter, items := [] } }
      else bootPhase .patch (bootStage 4 { s1 with boot := { s1.boot with items := [] } })

/-- A LOAD item written to DEST through M8 (R450): its response, or none while its target makes it wait; one for an SI SRAM that is out of service
is left out (R458). -/
def loadItem (i : BootItem) (s : State) : BusRes × State :=
  if isSiSram i.dest && s.rb MIU_STEST 24 then (.done rOKAY [], s) else bcuWrite i.dest (itemData s i) s

/-- The items of pass 2 in table order, as far as the next configuration record (R450). -/
def bootItems : List BootItem → State → State
  | [], s => bootFinish s
  | i :: t, s =>
    match i.ty with
    | 1 =>
      match recordsOf (itemData s i) with
      | [] => bootItems t s
      | l => { s with boot := { s.boot with phase := .records, items := t, recs := l, idx := 0 } }
    | 2 =>
      match loadItem i s with
      | (.done 0 _, s1) => bootItems t s1
      | (.done _ _, s1) => bootFail 7 s1
      | (.wait, s1) => { s1 with boot := { s1.boot with phase := .fill, items := i :: t } }
    | _ => bootItems t s

/-- The records ended: pass 2 goes on (R453). -/
def recordsEnd (s : State) : State := bootItems s.boot.items { s with boot := { s.boot with phase := .fill, recs := [] } }

/-! ### Steps 2 and 3 -/

/-- SI SRAM zero-filled (R454). -/
def siZero (s : State) : State := { s with mem := smDrop isSiSram s.mem, ecc := smDrop isSiSram s.ecc }

/-- Pass 2 begins, or goes on, once every group in service is zero-filled (R450, R454). -/
def bootPass2 (s : State) : State :=
  if s.boot.phase = .fill && decide (s.fillRun = 0) then bootItems s.boot.items s else s

/-- Step 2 ends with the self-test: its report, SI SRAM zero-filled, and step 3 (R449, R454, R458). -/
def bootSelftest (s : State) : State :=
  if s.boot.phase = .selftest && s.rb MIU_STEST 31 then
    let s0 := (s.setRb BCU_BSTAT 25 (s.rb MIU_STEST 24)).setRb BCU_BSTAT 24 (s.rf MIU_STEST 17 16 != 0)
    let s1 := if s0.rb MIU_STEST 24 then s0 else siZero s0
    let b := s.boot.img
    bootPass2 (bootStage 3 { s1 with boot := { BootSt.reset with phase := .fill, img := b, items := imgItems s b }, fillRun := inServiceMask s1 })
  else s

/-- An image was chosen: its report; the rest of step 2 is the self-test (R449, R454). -/
def bootChosen (k first c0 c1 : Nat) (s : State) : State :=
  let b := imgOffs s k
  let s1 := s.setReg BCU_BINFO (BitVec.ofNat 32 (imgSvn s b * 2 ^ 16 + c1 * 2 ^ 8 + c0))
  let s2 := ((s1.setReg BCU_VERSION (BitVec.ofNat 32 (imgNat s b 8 4))).setRb BCU_BSTAT 15 (k == 1)).setRb BCU_BSTAT 14 (k != first)
  bootSelftest { s2 with boot := { BootSt.reset with phase := .selftest, img := b } }

/-- The xSPI host in the mode and with the clock and read command of the header in use (R445, R446). -/
def xspiSwitch (s : State) : State :=
  { s with xspi := { mode := headerNat s 6 1, div := Nat.max 3 (headerNat s 7 1), dummy := headerNat s 8 1, cmd := headerNat s 9 1, hiz := false } }

/-- Step 2 once the PLLs have locked, in parallel with the self-test: the header, the xSPI mode, the store, pass 1 (R445, R446, R449, R454, R462). -/
def bootScan (s : State) : State :=
  match headerAt s with
  | none => bootFail 1 s
  | some _ =>
    let s2 := storeReport (xspiSwitch s)
    let f := firstSlot s2
    let c := slotCause s2 f
    let c' := slotCause s2 (1 - f)
    let at0 := fun (x y : Nat) => if f = 0 then x else y
    if c = 0 then bootChosen f f 0 0 s2
    else if c' = 0 then bootChosen (1 - f) f (at0 c 0) (at0 0 c) s2
    else bootFail 2 ((s2.setReg BCU_BINFO (BitVec.ofNat 32 (at0 c' c * 2 ^ 8 + at0 c c'))).setRb BCU_BSTAT 14 true)

/-- What the BCU waits for may have come: the locks and the self-test of step 2, or the zero-fill of step 3; in steps 3 and 4 it goes on by itself
(R429, R454). -/
def bootAdvance (s : State) : State :=
  match s.boot.phase with
  | .locks => if s.rf PMU_PLL 4 2 == 7 then bootScan s else s
  | .selftest => bootSelftest s
  | .fill => bootPass2 s
  | .imgCounter => bootImgCounter s
  | .patch => bootPatch s
  | .counter => bootCounter s
  | .cores => bootCores s
  | _ => s

/-! ### How a start begins -/

/-- The frames of the Moth domain (R30). -/
def mothReg (pa : Nat) : Bool := let f := pa / 0x10000; f == 0x2080 || f == 0x2090 || f == 0x20E0 || f == 0x20E1

/-- Everything outside the Moth domain reset, and the registers given: the OTP, the NVM, memory and the board's levels stay (R9, R30). -/
def resetKeeping (regs : List (Nat × Word)) (s : State) : State :=
  { State.reset with
    pending := s.pending, regs := regs, mem := s.mem, ecc := s.ecc, dramErr := s.dramErr, fresh := s.fresh, edges := s.edges, tb := s.tb,
    tbSub := s.tbSub, adjPend := s.adjPend, xclk := s.xclk, scrubT0 := tbNs s, pwrfailN := s.pwrfailN, cmNow := s.cmNow,
    pfFilter := s.pfFilter, elgCredit := s.elgCredit, elgStage := s.elgStage, elg := s.elg, pfT0 := s.pfT0, otp := s.otp, nvm := s.nvm }

/-- The start-up sequence from step 2: the PLLs start, and M11 is enabled where the lifecycle state permits the test port; a power-failure sequence
in progress lets nothing start (R25, R429, R454, R470). -/
def startStep2 (s : State) : State :=
  let s1 := bootStage 2 (s.setReg PMU_PLL 0)
  let s2 := if lcsField s1 then s1 else masterEnable 11 s1
  if pfStep s2 = 0 then { s2 with boot := { BootSt.reset with phase := .locks } } else s2

/-- What SRST_N keeps of a register outside the Moth domain: the latch and its causes, SI_TRIGEN, the SAFE levels and SAFEACT (R413, R476). -/
def srstKept (pa : Nat) (v : Word) : Word :=
  if pa = SI_SSC then putFld (putBit (regReset pa) 23 (wbit v 23)) 15 0 (fld v 15 0)
  else if pa = SI_TRIGEN ∨ pa = SI_SAFELVL ∨ pa = SI_RUNLVL then v
  else if PCU_PIN 0 ≤ pa ∧ pa < PCU_PIN 412 then putFld (regReset pa) 31 30 (fld v 31 30)
  else regReset pa

/-- The registers after SRST_N (R9, R30, R413, R476). -/
def srstRegs (s : State) : List (Nat × Word) :=
  (s.regs.filter fun e => !mothReg e.1).foldl (fun l e => smPut regReset l e.1 (srstKept e.1 e.2)) (smDrop (fun a => !mothReg a) s.regs)

/-- The device reset as by SRST_N: vector work and a store command are abandoned (R173, R413, R470). -/
def softReset (s : State) : State :=
  let s1 := stAbandon (vseAbandoned s)
  pmuState 0 (resetKeeping (srstRegs s1) s1)

/-- DRAM over DORMANT: its contents survive where the board has kept the LPDDR5 supplies up, which is a free choice; else it holds what memory
holds that nothing has written (R292, logs 2 and 51). -/
def dramOverDormant (s : State) : State :=
  let (q, s1) := s.draw
  if Config.dramKept q then s1
  else { s1 with mem := smDrop inDramRange s1.mem, dramErr := smDrop inDramRange s1.dramErr }

/-- A start from DORMANT, or after a power failure: the Moth frames are kept, everything else is as at PRST_N (R428, R441). -/
def dormantStart (src : Nat) (s : State) : State :=
  let s1 := dramOverDormant (resetKeeping (smDrop (fun a => !mothReg a) s.regs) s)
  let s2 := (pmuState 0 (s1.setRb PMU_STAT 30 true)).setRf PMU_STAT 15 8 src
  startStep2 (setPfStep 0 s2)

end Sys2Proof.Machine
end

