-- ==== Sys2Proof/Machine/BootCmds.lean ====
section
/-! DEFINITION. Resets and starts, configuration records, PLLs, and the store unit's commands and events (R429, R441 to R470, R477). -/
namespace Sys2Proof.Machine

/-! ### Resets -/

/-- PRST_N released: every register at its reset value, the OTP and what the NVM holds as they are, and the start-up sequence from step 1
(R9, R413, R454). -/
def prstRelease (nvm : List (Nat × Byte)) (s : State) : State :=
  let s0 : State := { State.reset with
    pending := s.pending, fresh := s.fresh, otp := s.otp, pwrfailN := s.pwrfailN, cmNow := s.cmNow,
    pfFilter := !s.pwrfailN, nvm := nvm.foldl (fun l e => smPut nvmDefault l e.1 e.2) [] }
  startStep2 s0

/-- PRST_N released (R454). -/
def execPrstNRelease (nvm : List (Nat × Byte)) (s : State) : Out := .next (prstRelease nvm s)

/-- PRST_N driven low: the whole device is in reset (R477). -/
def execPrstNAssert (s : State) : Out :=
  .next { State.reset with
    pending := s.pending, fresh := s.fresh, otp := s.otp, nvm := (stAbandon s).nvm, pwrfailN := s.pwrfailN, cmNow := s.cmNow, pwr := 5 }

/-- SRST_N: everything but the Moth frames and the retained fields is reset, and a start begins at step 2 (R9, R30, R413, R454). -/
def srst (s : State) : State := if s.power ≤ 2 then startStep2 (softReset s) else s

/-- SRST_N (R454). -/
def execSrstN (s : State) : Out := .next (srst s)

/-- A retry of a failed start, 1 s of TB after its failure: TRIES is kept and counted (R457). -/
def bootRetry (s : State) : State :=
  if s.boot.phase = .retry && decide (s.power ≤ 1) && decide (s.boot.t0 + 1000000000 ≤ tbNs s) then
    let n := s.rf BCU_BSTAT 27 26
    startStep2 ((softReset s).setRf BCU_BSTAT 27 26 (n + 1))
  else s

/-- A retry (R457). -/
def execBootRetry (s : State) : Out := .next (bootRetry s)

/-- A wake from DORMANT by input `k` (R428). -/
def dormantWake (k : Nat) (s : State) : State :=
  if decide (s.power = 3) && s.wakeReq.getLsbD k && decide (pfStep s = 0) then dormantStart (2 ^ k) s else s

/-- A wake from DORMANT (R428). -/
def execDormantWake (k : Fin 8) (s : State) : Out := .next (dormantWake k.val s)

/-- PWRFAIL_N has stayed high for RESTART ms after step 5: the device restarts as from DORMANT (R441). -/
def execPfRestart (s : State) : Out := .next (if decide (s.power = 4) && s.pwrfailN then dormantStart 0 s else s)

/-! ### What a start waits for -/

/-- PLL `p` is wanted: KPLL, VPLL and XPLL in RUN and DOZE, DPLL with DMC_CTL.EN, LPLL with a port or MAC0 or MAC1 (R429). -/
def pllWanted (p : Nat) (s : State) : Bool :=
  decide (s.power ≤ 1) && (if p = 0 then lpllWanted s else if p = 1 then dmcOn s else true)

/-- A PLL reaches lock (R429). -/
def execPllLock (p : Fin 5) (s : State) : Out :=
  .next (if pllWanted p.val s then bootAdvance (s.setRb PMU_PLL p.val true) else s)

/-- A zero-fill ends (R288). -/
def execZeroFillDone (g : Fin 8) (s : State) : Out := .next (bootAdvance (zeroFillDone g.val s))

/-- The self-test ends (R297, R298). -/
def execMiuSelftestDone (erg : BitVec 128) (si : Bool) (dmc : BitVec 2) (s : State) : Out :=
  .next (clocked (fun t => bootAdvance (selftestDone erg si dmc t)) s)

/-! ### Configuration records (R452, R453) -/

/-- The record just applied: CFGPOS follows, and the next record is the one `skip` further on. -/
def recordDone (skip : Nat) (s : State) : State :=
  let s1 := s.setRf BCU_CFGPOS 12 0 s.boot.idx
  let rest := s.boot.recs.drop (1 + skip)
  let s2 : State := { s1 with boot := { s1.boot with phase := .records, recs := rest, idx := s1.boot.idx + 1 + skip } }
  if rest.isEmpty then recordsEnd s2 else s2

/-- The next configuration record, when it is an `op`, acted on by `f`. -/
def withRecord (op : Nat → Bool) (f : CfgRec → State → State) (s : State) : State :=
  match s.boot.phase, s.boot.recs with
  | .records, r :: _ => if op r.op then f r s else s
  | _, _ => s

/-- A record's read, and what follows with the word; a response other than OKAY fails the start with CFGBUS. -/
def recordRead (r : CfgRec) (f : Word → State → State) (s : State) : State :=
  match bcuRead r.addr s with
  | (.done 0 b, s1) => f (leWord b) s1
  | (.done _ _, s1) => bootFail 6 s1
  | (.wait, s1) => s1

/-- A record's write (R453). -/
def recordWrite (r : CfgRec) (v : Word) (s : State) : State :=
  match bcuWrite r.addr (leBytes 4 v.toNat) s with
  | (.done 0 _, s1) => recordDone 0 s1
  | (.done _ _, s1) => bootFail 6 s1
  | (.wait, s1) => s1

/-- The word read fits the record. -/
def recordFits (r : CfgRec) (w : Word) : Bool := w &&& r.mask == r.value

/-- END (R453). -/
def execCfgEnd (s : State) : Out :=
  .next (clocked (withRecord (· == 0) fun _ t => recordsEnd (t.setRf BCU_CFGPOS 12 0 t.boot.idx)) s)

/-- WRITE (R453). -/
def execCfgWrite (s : State) : Out :=
  .next (clocked (withRecord (· == 1) fun r t =>
    if r.mask = 0xFFFFFFFF then recordWrite r r.value t
    else recordRead r (fun w u => recordWrite r ((w &&& ~~~r.mask) ||| (r.value &&& r.mask)) u) t) s)

/-- One read of a WAIT (R453). -/
def execCfgWait (s : State) : Out :=
  .next (clocked (withRecord (· == 2) fun r t =>
    recordRead r (fun w u => if recordFits r w then recordDone 0 u else u) t) s)

/-- The last read of a WAIT, at its timeout (R453, R470). -/
def execCfgWaitTimeout (s : State) : Out :=
  .next (clocked (withRecord (· == 2) fun r t =>
    recordRead r (fun w u =>
      if recordFits r w then recordDone 0 u
      else if r.flag then bootFail 5 u
      else recordDone 0 (u.setRb BCU_BSTAT 13 true)) t) s)

/-- DELAY begins (R453). -/
def execCfgDelay (s : State) : Out :=
  .next (clocked (withRecord (· == 3) fun _ t => { t with boot := { t.boot with phase := .delay } }) s)

/-- DELAY ends (R453). -/
def execCfgDelayExpiry (s : State) : Out :=
  .next (clocked (fun t => if t.boot.phase = .delay then recordDone 0 t else t) s)

/-- SKIP (R453). -/
def execCfgSkip (s : State) : Out :=
  .next (clocked (withRecord (· == 4) fun r t =>
    recordRead r (fun w u => recordDone (if recordFits r w != r.flag then r.n else 0) u) t) s)

/-- A record with a reserved OP (R453). -/
def execCfgop (s : State) : Out := .next (clocked (withRecord (fun o => decide (5 ≤ o)) fun _ t => bootFail 4 t) s)

/-! ### The store -/

/-- BCU_ST_CTL written with GO and an operation, AUTO as it stands (R465, R468). -/
def stWrite (m : Master) (op : Nat) (s : State) : State :=
  masterWrite m BCU_ST_CTL (BitVec.ofNat 32 (2 ^ 31 + b2n (s.rb BCU_ST_CTL 30) * 2 ^ 30 + op)) s

/-- GO with OP COMMIT (R465). -/
def execBcuCommit (m : Master) (s : State) : Out := .next (stWrite m 0 s)

/-- GO with OP ERASE (R468). -/
def execBcuErase (m : Master) (s : State) : Out := .next (stWrite m 1 s)

/-- GO with OP PROGRAM (R468). -/
def execBcuProgram (m : Master) (s : State) : Out := .next (stWrite m 2 s)

/-- GO with the reserved OP (R468). -/
def execBcuOpInvalid (m : Master) (s : State) : Out := .next (stWrite m 3 s)

/-- A commit ends (R465). -/
def execBcuStdone (s : State) : Out := .next (clocked commitDone s)

/-- The next slot is erased (R465). -/
def execBcuReady (s : State) : Out := .next (clocked storeReady s)

/-- An ERASE or a PROGRAM ends (R468). -/
def execNvmOpDone (s : State) : Out := .next (clocked nvmDone s)

/-- A page program or an erase exceeds its time (R465). -/
def execNvmtmo (s : State) : Out := .next (clocked nvmTimeout s)

/-- BCU_REL written (R455). -/
def execBcuRel (m : Master) (v : Word) (s : State) : Out := .next (masterWrite m BCU_REL v s)

/-- KSU_REVOKE written (R443). -/
def execKsuRevoke (m : Master) (v : Word) (s : State) : Out := .next (masterWrite m KSU_REVOKE v s)

end Sys2Proof.Machine
end

