-- ==== Sys2Proof/Machine/Control.lean ====
section
/-! DEFINITION. Branches, calls with saved registers, and the hardware loop (R197, R206 to R209, R213, R214). -/
namespace Sys2Proof.Machine

/-- An instruction that may not stand at LEND: there it raises ILLEGAL (R214). -/
def notAtLend (c : CoreId) (w : Word) (body : State → Acc Flow) (s : State) : Acc Flow :=
  if atLend s c then .exc (excIllegal w) s else body s

/-- BR (R197). -/
def execBr (c : CoreId) (off : BitVec 26) (s : State) : Out :=
  .next (run c (.br c off) .none (notAtLend c (encB 0x20 off.toNat) fun t => .ok (.jump (branchTo (t.pc c) off)) t) s)

/-- CALL: G31 gets the address after it (R194, R197). -/
def execCall (c : CoreId) (off : BitVec 26) (s : State) : Out :=
  .next (run c (.call c off) .none (notAtLend c (encB 0x21 off.toNat) fun t =>
    .ok (.jump (branchTo (t.pc c) off)) (t.setG c (gno 31) (t.pc c + 4))) s)

/-- A conditional branch (R197). -/
def branchIf (c : CoreId) (i : Instr) (cond : Word → Word → Bool) (a b : GReg) (off : BitVec 16) (s : State) : State :=
  run c i .none (fun t => .ok (if cond (t.g c a) (t.g c b) then .jump (branchTo (t.pc c) off) else .next) t) s

/-- BEQ (R197, R198). -/
def execBeq (c : CoreId) (a b : GReg) (off : BitVec 16) (s : State) : Out := .next (branchIf c (.beq c a b off) (fun x y => x == y) a b off s)

/-- BNE (R197, R198). -/
def execBne (c : CoreId) (a b : GReg) (off : BitVec 16) (s : State) : Out := .next (branchIf c (.bne c a b off) (fun x y => x != y) a b off s)

/-- BLT (R197, R198). -/
def execBlt (c : CoreId) (a b : GReg) (off : BitVec 16) (s : State) : Out := .next (branchIf c (.blt c a b off) (fun x y => x.slt y) a b off s)

/-- BGE (R197, R198). -/
def execBge (c : CoreId) (a b : GReg) (off : BitVec 16) (s : State) : Out := .next (branchIf c (.bge c a b off) (fun x y => !x.slt y) a b off s)

/-- BLTU (R197, R198). -/
def execBltu (c : CoreId) (a b : GReg) (off : BitVec 16) (s : State) : Out := .next (branchIf c (.bltu c a b off) (fun x y => x.ult y) a b off s)

/-- BGEU (R197, R198). -/
def execBgeu (c : CoreId) (a b : GReg) (off : BitVec 16) (s : State) : Out := .next (branchIf c (.bgeu c a b off) (fun x y => !x.ult y) a b off s)

/-- JMPR: to (Ga + IMM) with bits [1:0] cleared; Gd gets the address after it (R197). -/
def execJmpr (c : CoreId) (d a : GReg) (imm : BitVec 16) (s : State) : Out :=
  .next (run c (.jmpr c d a imm) .none (notAtLend c (encI 0x28 d.val a.val imm.toNat) fun t =>
    .ok (.jump (effAddr t c a imm &&& 0xFFFFFFFC)) (t.setG c d (t.pc c + 4))) s)

/-- The registers that a MASK names, rising (R206). -/
def maskRegs (mask : Nat) : List GReg := (onesOf 16 mask).map fun k => gno (14 + k)

/-- The frame size of a MASK (R206). -/
def frameSize (mask : Nat) : Nat := (8 + 4 * popCount 16 mask + 7) / 8 * 8

/-- The words of a frame stored over its pieces: each as a store of its own, or in deterministic mode together (R206, R235). -/
def storeFrame (c : CoreId) (ps : List Piece) (ws : List Word) (s : State) : Acc Unit :=
  let bs := (withBytes ps (ws.flatMap fun w => leBytes 4 w.toNat)).filter fun e => !e.2.isEmpty
  if s.det c then storeNow c bs s else pushPieces c 4 bs s

/-- The words at `n` addresses rising from one. -/
def loadWords (c : CoreId) (va : Word) (n : Nat) (s : State) : Acc (List Word) :=
  Acc.forAll (fun k t => (loadAt c (va + BitVec.ofNat 32 (4 * k)) 4 t).bind fun b t1 => .ok (leWord b) t1) (List.range n) s

/-- CALLM (R206, R207, R209). -/
def callmBody (c : CoreId) (a : GReg) (mask : Nat) (s : State) : Acc Flow :=
  let target := s.g c a &&& 0xFFFFFFFC
  let sp := s.g c (gno 30) - BitVec.ofNat 32 (frameSize mask)
  if (s.g c (gno 30)).toNat % 8 ≠ 0 then .exc (.plain cALIGN (s.g c (gno 30))) s
  else (transPieces c sp.toNat (frameSize mask) .store false s).bind fun ps s1 =>
    let words := BitVec.ofNat 32 mask :: s1.g c (gno 31) :: (maskRegs mask).map fun r => s1.g c r
    (storeFrame c ps words s1).bind fun _ s2 =>
      .ok (.jump target) ((s2.setG c (gno 30) sp).setG c (gno 31) (s2.pc c + 4))

/-- CALLM Ga, MASK (R206). -/
def execCallm (c : CoreId) (a : GReg) (mask : BitVec 16) (s : State) : Out :=
  .next (run c (.callm c a mask) .none (notAtLend c (encCallm a.val mask.toNat) (callmBody c a mask.toNat)) s)

/-- Registers written from words, in order. -/
def setGs (c : CoreId) (l : List (GReg × Word)) (s : State) : State := l.foldl (fun t e => t.setG c e.1 e.2) s

/-- RETM (R208, R209). -/
def retmBody (c : CoreId) (w : Word) (s : State) : Acc Flow :=
  let ret := s.g c (gno 31) &&& 0xFFFFFFFC
  let sp := s.g c (gno 30)
  if sp.toNat % 8 ≠ 0 then .exc (.plain cALIGN sp) s
  else (loadAt c sp 4 s).bind fun b s1 =>
    let hdr := leNat b
    if 0xFFFF < hdr then .exc (excIllegal w) s1
    else (transPieces c sp.toNat (frameSize hdr) .load false s1).bind fun _ s2 =>
      (loadWords c (sp + 4) (1 + popCount 16 hdr) s2).bind fun ws s3 =>
        let s4 := setGs c ((maskRegs hdr).zip (ws.drop 1)) s3
        .ok (.jump ret) ((s4.setG c (gno 31) (ws.headD 0)).setG c (gno 30) (sp + BitVec.ofNat 32 (frameSize hdr)))

/-- RETM (R208). -/
def execRetm (c : CoreId) (s : State) : Out :=
  .next (run c (.retm c) .none (notAtLend c (encB 0x2A 0) (retmBody c (encB 0x2A 0))) s)

/-- LOOP Gc, N (R213): inside an active body it is ILLEGAL (R214); a zero counter skips the body. -/
def loopBody (c : CoreId) (gc : GReg) (n1 : Nat) (s : State) : Acc Flow :=
  let a := s.pc c
  let last := a + BitVec.ofNat 32 (4 * (n1 + 1))
  if loopOn s c && inBody s c a then .exc (excIllegal (encLoop gc.val n1)) s
  else if s.g c gc = 0 then .ok (.jump (last + 4)) s
  else
    let s1 := (((s.setSr c 0x020 (a + 4)).setSr c 0x021 last).setSr c 0x022 (BitVec.ofNat 32 (2 ^ 31 + gc.val))).setPc c (a + 4)
    .ok .placed (loopCapture c (loopForget c s1))

/-- LOOP (R213). -/
def execLoop (c : CoreId) (gc : GReg) (n1 : BitVec 6) (s : State) : Out :=
  .next (run c (.loop c gc n1) .none (loopBody c gc n1.toNat) s)

/-- The end of a loop whose counter has reached zero at LEND: ACTIVE is cleared and the core stands at LEND + 4 (R213). -/
def execLoopCountExpiry (c : CoreId) (s : State) : Out := .next (loopSettle c s)

end Sys2Proof.Machine
end

