-- ==== Sys2Proof/Machine/CoreEvents.lean ====
section
/-! DEFINITION. What happens to a core at an instruction boundary: interrupts, store errors, floating-point traps, and the end of
hold windows and of the short-vector unit's waits (R148, R220, R225, R227, R231, R236 to R238, R319, R320). -/
namespace Sys2Proof.Machine

/-- A core that stands at a boundary takes what R236 takes there, when that is what `p` asks for. -/
def atBoundaryTake (c : CoreId) (p : State → Bool) (s : State) : State :=
  let s0 := attempt c s
  if alive s0 c && atBoundary s0 c && p s0 then
    match boundary c s0 with
    | some (.entered s1) => s1
    | some (.wait s1) => s1
    | none => s
  else s

/-- Nothing of R236 that ranks before the interrupts is pending. -/
def noTrap (s : State) (c : CoreId) : Bool := !(s.core c).stPend && (s.core c).fpTrap.isNone

/-- A normal-class interrupt taken at an instruction boundary (R227, R236). -/
def execIntN (c : CoreId) (s : State) : Out := .next (atBoundaryTake c (fun t => noTrap t c && intReady t c 0 && !intReady t c 1) s)

/-- A fast-class interrupt taken at an instruction boundary (R227, R319). -/
def execIntF (c : CoreId) (s : State) : Out := .next (atBoundaryTake c (fun t => noTrap t c && intReady t c 1) s)

/-- A pending store error taken at an instruction boundary (R236, R237). -/
def execStoreErr (c : CoreId) (s : State) : Out := .next (atBoundaryTake c (fun t => (t.core c).stPend) s)

/-- A pending floating-point trap taken at an instruction boundary (R148, R236). -/
def execFptrap (c : CoreId) (s : State) : Out := .next (atBoundaryTake c (fun t => !(t.core c).stPend && (t.core c).fpTrap.isSome) s)

/-- The open hold window ends (R231). -/
def execHoldWindowEnd (c : CoreId) (s : State) : Out := .next (clocked (fun t => t.modCore c fun k => { k with hold := 0 }) s)

/-- The SVU has gone 10,000 KCLK without an instruction (R220): it powers down, unless KEEP or deterministic mode keeps it up. -/
def execSvuPowerDown (c : CoreId) (s : State) : Out :=
  .next (clocked (fun t =>
    let w := t.sr c 0x030
    if wbit w 31 && !wbit w 30 && !wbit (t.sr c 0x100) 31 && fld w 13 0 == 10000 then t.setSr c 0x030 (putBit w 31 false) else t) s)

/-- The SVU's wake ends (R220): the unit is powered and the waiting instruction may issue. -/
def execSvuWakeDone (c : CoreId) (s : State) : Out :=
  .next (clocked (fun t =>
    if (t.core c).svuWaking then
      (t.setSr c 0x030 (putFld (putBit (t.sr c 0x030) 31 true) 13 0 0)).modCore c fun k => { k with svuWaking := false }
    else t) s)

end Sys2Proof.Machine
end

