-- ==== Sys2Proof/Machine/LoadStore.lean ====
section
/-! DEFINITION. Loads, stores and atomics of general and floating-point registers (R201 to R203). -/
namespace Sys2Proof.Machine

/-- A load of `n` bytes at Ga + IMM into Gd, its value by `ext` (R201). -/
def loadG (c : CoreId) (i : Instr) (n : Nat) (ext : Nat → Word) (d a : GReg) (imm : BitVec 16) (s : State) : State :=
  run c i .none (fun t => (loadAt c (effAddr t c a imm) n t).bind fun b t1 => putG c d (ext (leNat b)) t1) s

/-- A store of the low `n` bytes of Gd at Ga + IMM (R201). -/
def storeG (c : CoreId) (i : Instr) (n : Nat) (d a : GReg) (imm : BitVec 16) (s : State) : State :=
  run c i .none (fun t => (storeAt c (effAddr t c a imm) (leBytes n (t.g c d).toNat) t).bind fun _ t1 => .ok .next t1) s

/-- A load of `n` bytes at Ga + IMM into Fd, zeros above them (R195, R201). -/
def loadF (c : CoreId) (i : Instr) (n : Nat) (d : FReg) (a : GReg) (imm : BitVec 16) (s : State) : State :=
  run c i .none (fun t => (loadAt c (effAddr t c a imm) n t).bind fun b t1 => putF c d (BitVec.ofNat 64 (leNat b)) t1) s

/-- A store of the low `n` bytes of Fd at Ga + IMM (R195, R201). -/
def storeF (c : CoreId) (i : Instr) (n : Nat) (d : FReg) (a : GReg) (imm : BitVec 16) (s : State) : State :=
  run c i .none (fun t => (storeAt c (effAddr t c a imm) (leBytes n (t.f c d).toNat) t).bind fun _ t1 => .ok .next t1) s

/-- An ATOM's access, behind the buffered stores to its word: the words that meet port V are a free choice (R203, R280). -/
def coreAtomic (c : CoreId) (fn : Nat) (v : Word) (p : Piece) (s : State) : BusRes × State :=
  let s1 := drain c s
  let m := corePort s1 c p.cached
  if ((s1.core c).sbuf.any fun b => decide (b.pa < p.pa + 4) && decide (p.pa < b.pa + b.bytes.length)) then (.wait, s1)
  else coreGate c (coreXact s1 c m 2 p.pa 4 fn (leBytes 4 v.toNat)) (atomicIssued m (.load c) c.val p.pa fn v) (loopKeep c p.pa 4 s1)

/-- The access of an ATOM at a piece: the old word, and whether its write was discarded (R203, R279). -/
def atomPiece (c : CoreId) (fn : Nat) (v : Word) (p : Piece) (s : State) : Acc (Resp × List Byte) :=
  Acc.ofBus c .atom p.pa p.va true (access c p.pa 4 (coreAtomic c fn v p) s)

/-- ATOM (R203): aligned or refused, the word combined by FN, Gd the old word, and a discarded write reported as STORE_ERR. -/
def atomBody (c : CoreId) (fn : Nat) (d a b : GReg) (s : State) : Acc Flow :=
  let va := s.g c a
  if va.toNat % 4 ≠ 0 then .exc (.plain cALIGN va) s
  else (transPieces c va.toNat 4 .atom false s).bind fun ps s1 =>
    match ps with
    | [] => .ok .next s1
    | p :: _ => (atomPiece c fn (s1.g c b) p s1).bind fun r s2 =>
      putG c d (leWord r.2) (if r.1 = rCOLLIDE then storeError c p.pa 4 (s2.lvl c).code rCOLLIDE s2 else s2)

/-- LDB (R201). -/
def execLdb (c : CoreId) (d a : GReg) (imm : BitVec 16) (s : State) : Out :=
  .next (loadG c (.ldb c d a imm) 1 (fun x => ((BitVec.ofNat 8 x).signExtend 32)) d a imm s)

/-- LDBU (R201). -/
def execLdbu (c : CoreId) (d a : GReg) (imm : BitVec 16) (s : State) : Out :=
  .next (loadG c (.ldbu c d a imm) 1 (BitVec.ofNat 32) d a imm s)

/-- LDH (R201). -/
def execLdh (c : CoreId) (d a : GReg) (imm : BitVec 16) (s : State) : Out :=
  .next (loadG c (.ldh c d a imm) 2 (fun x => ((BitVec.ofNat 16 x).signExtend 32)) d a imm s)

/-- LDHU (R201). -/
def execLdhu (c : CoreId) (d a : GReg) (imm : BitVec 16) (s : State) : Out :=
  .next (loadG c (.ldhu c d a imm) 2 (BitVec.ofNat 32) d a imm s)

/-- LDW (R201). -/
def execLdw (c : CoreId) (d a : GReg) (imm : BitVec 16) (s : State) : Out :=
  .next (loadG c (.ldw c d a imm) 4 (BitVec.ofNat 32) d a imm s)

/-- STB (R201). -/
def execStb (c : CoreId) (d a : GReg) (imm : BitVec 16) (s : State) : Out := .next (storeG c (.stb c d a imm) 1 d a imm s)

/-- STH (R201). -/
def execSth (c : CoreId) (d a : GReg) (imm : BitVec 16) (s : State) : Out := .next (storeG c (.sth c d a imm) 2 d a imm s)

/-- STW (R201). -/
def execStw (c : CoreId) (d a : GReg) (imm : BitVec 16) (s : State) : Out := .next (storeG c (.stw c d a imm) 4 d a imm s)

/-- FLDS (R195, R201). -/
def execFlds (c : CoreId) (d : FReg) (a : GReg) (imm : BitVec 16) (s : State) : Out := .next (loadF c (.flds c d a imm) 4 d a imm s)

/-- FLDD (R195, R201). -/
def execFldd (c : CoreId) (d : FReg) (a : GReg) (imm : BitVec 16) (s : State) : Out := .next (loadF c (.fldd c d a imm) 8 d a imm s)

/-- FSTS (R195, R201). -/
def execFsts (c : CoreId) (d : FReg) (a : GReg) (imm : BitVec 16) (s : State) : Out := .next (storeF c (.fsts c d a imm) 4 d a imm s)

/-- FSTD (R195, R201). -/
def execFstd (c : CoreId) (d : FReg) (a : GReg) (imm : BitVec 16) (s : State) : Out := .next (storeF c (.fstd c d a imm) 8 d a imm s)

/-- ATOM with FN SWAP (R203). -/
def execAtomSwap (c : CoreId) (d a b : GReg) (s : State) : Out := .next (run c (.atomSwap c d a b) .none (atomBody c 0 d a b) s)

/-- ATOM with FN ADD (R203). -/
def execAtomAdd (c : CoreId) (d a b : GReg) (s : State) : Out := .next (run c (.atomAdd c d a b) .none (atomBody c 1 d a b) s)

/-- ATOM with FN AND (R203). -/
def execAtomAnd (c : CoreId) (d a b : GReg) (s : State) : Out := .next (run c (.atomAnd c d a b) .none (atomBody c 2 d a b) s)

/-- ATOM with FN OR (R203). -/
def execAtomOr (c : CoreId) (d a b : GReg) (s : State) : Out := .next (run c (.atomOr c d a b) .none (atomBody c 3 d a b) s)

end Sys2Proof.Machine
end

