-- ==== Sys2Proof/Machine/Micro.lean ====
section
/-! DEFINITION. The VSE microsequencer: the control store, microwords, sequencing and POLL points (R177 to R186).

What the microcode makes the engine do is fixed by the other chapters whatever words it consists of (R176), and the engine's commands do it; a
microword here moves the sequencer's own state. -/
namespace Sys2Proof.Machine

/-! ### The microword (R179 to R181) -/

/-- Field `[hi:lo]` of a microword. -/
def mwf (w : BitVec 176) (hi lo : Nat) : Nat := nfld w.toNat hi lo

/-- CLASS: a data-class word. -/
def mwData (w : BitVec 176) : Bool := w.getLsbD 175

/-- POLL: the word is a POLL point. -/
def mwPoll (w : BitVec 176) : Bool := w.getLsbD 174

/-- SEQ. -/
def mwSeq (w : BitVec 176) : Nat := mwf w 173 170

/-- NADDR. -/
def mwNaddr (w : BitVec 176) : BitVec 13 := w.extractLsb' 157 13

/-- COND. -/
def mwCond (w : BitVec 176) : Nat := mwf w 156 151

/-- WAIT of a data word. -/
def mwWait (w : BitVec 176) : Bool := w.getLsbD 150

/-- ECNT of a data word: at most 2,048 elements. -/
def mwEcnt (w : BitVec 176) : Nat := Nat.min 2048 (mwf w 117 106)

/-- What a data word asks of the lanes, with the elements that an issue of it moves (R181). -/
def dataOp (w : BitVec 176) (moved : Nat) : DataOp :=
  { lop := mwf w 149 142, ty := mwf w 141 138, pa := mwf w 137 134, pb := mwf w 133 130, pc := mwf w 129 126, pm := mwf w 125 122,
    pd := mwf w 121 118, ecnt := mwEcnt w, rmsel := mwf w 105 103, flgen := w.getLsbD 102, moved := moved }

/-! ### The control store (R177, R178, R185) -/

/-- The word that patch RAM holds at place `a`. -/
def patchRam (s : State) (a : Nat) : BitVec 176 :=
  BitVec.ofNat 176 (((List.range 6).map fun w => (s.reg (0x20208000 + 32 * a + 4 * w)).toNat * 2 ^ (32 * w)).foldl (· + ·) 0)

/-- The microaddress that a fetch from `a` takes: the target of a valid redirect entry whose source is this ROM word, else `a` (R178). -/
def redirected (s : State) (a : Nat) : Nat :=
  if a < 0x1000 then
    match (List.range 64).find? fun k => s.rb (VMS_REDIR k) 31 && s.rf (VMS_REDIR k) 12 0 == a with
    | some k => s.rf (VMS_REDIR k) 28 16
    | none => a
  else a

/-- The word at microaddress `a` fetched: none from a reserved microaddress or with an uncorrectable error; a corrected one is counted, and one of patch
RAM is to be written back (R177, R185). -/
def microFetch (s : State) (a : Nat) : Option (BitVec 176) × State :=
  if 0x1400 ≤ a then (none, s)
  else
    let raw := if a < 0x1000 then Config.romWord a else patchRam s (a - 0x1000)
    match Config.microFix raw with
    | none => (none, s)
    | some w =>
      if w = raw then (some w, s)
      else
        let s1 := s.countUp VMS_CECNT 15 0 1
        (some w, if a < 0x1000 ∨ s1.microWb.contains (a - 0x1000) = true then s1 else { s1 with microWb := s1.microWb ++ [a - 0x1000] })

/-- A word of patch RAM made what its CHK corrects it to. -/
def microStored (a : Nat) (w : BitVec 176) (s : State) : State :=
  (List.range 6).foldl (fun t k => let r := 0x20208000 + 32 * a + 4 * k
    t.setReg r (BitVec.ofNat 32 (w.toNat / 2 ^ (32 * k)) &&& vmsMask r)) s

/-- A corrected patch-RAM word written back, whatever the lock (R185). An event that tells of a word that needs correction and that no fetch of the model
has corrected counts the correction too. -/
def microWriteback (a : Nat) (s : State) : State :=
  let s0 : State := { s with microWb := s.microWb.filter (· != a) }
  match Config.microFix (patchRam s a) with
  | some w => if w = patchRam s a then s0 else microStored a w (if s.microWb.contains a then s0 else s0.countUp VMS_CECNT 15 0 1)
  | none => s0

/-- The corrected words that wait written back, in a VCLK in which no context fetches from patch RAM (R185). -/
def writebacksGo (s : State) : State := s.microWb.foldl (fun t a => microWriteback a t) s

/-- PATCH_RAM_WRITEBACK (R185). -/
def execPatchRamWriteback (a : BitVec 10) (s : State) : Out := .next (clocked (microWriteback a.toNat) s)

/-! ### Conditions (R182) -/

/-- A walk of context `x` is under way for its survey. -/
def walkPending (s : State) (x : CtxId) : Bool := s.walks.any fun w => w.ag == 8 + x.val && w.wanted && w.res.isNone

/-- A fault condition stands against the context's group (R159). -/
def faultFound (c : VCtx) : Bool :=
  (match c.cur with | some r => r.stopped.isSome | none => false) || (match c.sv with | some r => !r.conds.isEmpty | none => false)

/-- The instruction that the context's routine carries out. -/
def microIns (c : VCtx) : Option SInstr :=
  match c.cur, c.sv with
  | some r, _ => r.ins[Nat.min c.useq.ins (r.ins.length - 1)]?
  | none, some r => r.ins[Nat.min c.useq.ins (r.ins.length - 1)]?
  | none, none => none

/-- Each Caravan input that the word names has the elements of its next issue: its producer has formed them (R92, R105). -/
def caravanIn (c : VCtx) (o : DataOp) : Bool :=
  match c.cur, microIns c with
  | some r, some i => [(o.pa, 0), (o.pb, 1), (o.pc, 2), (o.pm, 3)].all fun p => p.1 != 7 ||
      (match edgeInto r.ins (Nat.min c.useq.ins (r.ins.length - 1)) p.2 with
        | some (j, true) => decide (Nat.min (c.useq.done + o.ecnt) (extentOf i p.2) ≤ (r.vals.getD j []).length)
        | _ => false)
  | _, _ => true

/-- Every stream of the context's instruction has reached LEN, or has been stopped (R169). -/
def streamsEnded (c : VCtx) : Bool :=
  match c.cur, microIns c with
  | some r, some i => r.stopped.isSome || decide (c.useq.ins < r.pos) || decide (i.len ≤ c.useq.done)
  | _, _ => true

/-- Condition `code` holds for context `x` and word `w`; `q` is the number of the free choices, for what a bank, a pipe or a slot does within a VCLK
(log 60). Reserved codes never hold. -/
def condHolds (s : State) (x : CtxId) (w : BitVec 176) (q code : Nat) : Bool :=
  let c := s.vc x
  match code with
  | 0x00 => true
  | 0x02 => caravanIn c (dataOp w 0) && Config.microCond q code
  | 0x03 => match c.cur with | some r => !r.slow || slowMayIssue s | none => true
  | 0x06 => masterOn s 2 && decide (xactCount s 2 false < xactLimit 2)
  | 0x07 => !walkPending s x
  | 0x10 => c.useq.alu == 0
  | 0x11 => c.useq.alu.getLsbD 31
  | 0x12 => c.useq.miss
  | 0x13 => c.useq.fault
  | 0x14 => (match c.sv with | some r => r.phase != .survey || Config.microCond q code | none => true)
  | 0x15 => streamsEnded c
  | 0x01 | 0x04 | 0x05 => Config.microCond q code
  | _ => false

/-! ### Sequencing (R179) -/

/-- The place of the instruction that is to start. -/
def microPos (c : VCtx) : Nat :=
  match c.cur with
  | some r => r.pos
  | none => 0

/-- The opcode of the instruction that is to start. -/
def microOpc (c : VCtx) : Nat :=
  let at_ := fun (r : Run) => match r.ins[Nat.min r.pos (r.ins.length - 1)]? with | some i => i.cmd.opc | none => 0
  match c.cur, c.sv with
  | some r, _ => at_ r
  | none, some r => at_ r
  | none, none => 0

/-- The sequencer after word `w`, `hold` being COND and `ended` STREAM_END: none where SEQ makes it an uncorrectable control-store error. -/
def microSeq (opc : Nat) (hold ended : Bool) (w : BitVec 176) (u : USeq) : Option USeq :=
  let next : USeq := { u with upc := u.upc + 1 }
  let to_ : USeq := { u with upc := mwNaddr w }
  match mwSeq w with
  | 0 => some next
  | 1 => some to_
  | 2 => some (if hold then to_ else next)
  | 3 => some (if hold then next else to_)
  | 4 => if 4 ≤ u.stack.length then none else some { to_ with stack := (u.upc + 1) :: u.stack }
  | 5 => match u.stack with | a :: t => some { u with upc := a, stack := t } | [] => none
  | 6 => some { u with upc := BitVec.ofNat 13 opc }
  | 7 => if mwData w then some (if ended then next else u) else none
  | 8 => some { u with live := false }
  | _ => none

/-- A control word begins: its ALU operation, its unit request in its first VCLK, SETUP, and its time (R180). A reserved UNIT makes no request; `miss`
says that a translation asked for now is not at hand. -/
def controlWord (w : BitVec 176) (miss : Bool) (u : USeq) : USeq :=
  let unit := mwf w 127 124
  let imm := w.extractLsb' 84 32
  let r := Config.microAlu (w.extractLsb' 128 6) (u.u.toList.getD (mwf w 148 144) 0) (u.u.toList.getD (mwf w 143 139) 0) imm
  { u with alu := r, u := u.u.setIfInBounds (mwf w 138 134) r, setup := w.extractLsb' 48 36, since := u.since + 1, word := w, left := mwf w 150 149,
           req := if 1 ≤ unit ∧ unit ≤ 8 then some (unit, mwf w 123 116, imm) else u.req, miss := if unit = 2 then miss else u.miss, waiting := false }

/-- A data word issued: it moves up to ECNT elements in one VCLK (R181). -/
def dataWord (moved : Nat) (w : BitVec 176) (u : USeq) : USeq :=
  let n := Nat.min (mwEcnt w) moved
  { u with issued := some (dataOp w n), done := u.done + n, since := u.since + 1, word := w, left := 0, waiting := false }

/-- The units answer: each at the end of the word that asked, but for a translation whose walk still runs; the answer says whether a fault stands
(R180, R182). -/
def unitsAnswer (pending fault : Bool) (u : USeq) : USeq :=
  match u.req with
  | some r => if r.1 = 2 ∧ pending = true then u else { u with req := none, fault := fault }
  | none => u

/-- The sequencer of context `x` made `u`. -/
def setUseq (x : CtxId) (u : USeq) (s : State) : State := s.modVc x fun c => { c with useq := u }

/-- A word of context `x` ends: the units answer, COND is tested on what the word itself made, and the next word's microaddress follows (R179, R180,
R182). A DISPATCH takes up the instruction that is to start. -/
def microEnd (x : CtxId) (w : BitVec 176) (hold : Bool) (s : State) : State :=
  let c := s.vc x
  match microSeq (microOpc c) hold (streamsEnded c) w c.useq with
  | some u => setUseq x (if mwSeq w = 6 then { u with ins := microPos c, done := 0 } else u) s
  | none => vmsCserr c.useq.upc s

/-- A control word's last VCLK. -/
def controlEnd (x : CtxId) (w : BitVec 176) (s : State) : State :=
  let (q, s1) := s.draw
  let c := s1.vc x
  let s2 := setUseq x (unitsAnswer (walkPending s1 x) (faultFound c) c.useq) s1
  microEnd x w (condHolds s2 x w q (mwCond w)) s2

/-- A word that begins, or a data word that waits, in this VCLK (R179 to R183, R193): at a POLL point the pending requests are taken first, and a survey that
they abandon runs no word. A data word with WAIT does not issue while COND does not hold, and no data word issues to streams that have stopped. -/
def microWord (x : CtxId) (w : BitVec 176) (s : State) : State :=
  let (q, s1) := s.draw
  let u := (s1.vc x).useq
  let held := fun (t : State) => mwData w && ((mwWait w && !condHolds t x w q (mwCond w)) || (match (t.vc x).cur with | some r => r.stopped.isSome | none => false))
  let forced := !mwPoll w && !u.waiting && !held s1 && decide (64 ≤ u.since)
  let s2 := if mwPoll w || u.waiting || held s1 || forced then pollPoint x forced s1 else s1
  let c := s2.vc x
  if !c.busy then setUseq x .reset s2
  else if held s2 then setUseq x { c.useq with waiting := true, word := w, left := 0, since := c.useq.since + 1 } s2
  else if mwData w then
    microEnd x w (condHolds s2 x w q (mwCond w)) (setUseq x (dataWord (Config.microMoved q) w c.useq) s2)
  else
    let s3 := setUseq x (controlWord w (walkPending s2 x) c.useq) s2
    if mwf w 150 149 = 0 then controlEnd x w s3 else s3

/-- One VCLK of context `x`'s routine (R177 to R183); the answer says whether it fetched from patch RAM. A routine that begins is entered at the dispatch
entry of its opcode; a word redirected is taken, and sequenced from, its target (R178); a data word that waits is not fetched again. -/
def microStep (x : CtxId) (s : State) : Bool × State :=
  let c := s.vc x
  if !c.busy then (false, if c.useq.live then setUseq x .reset s else s)
  else if c.useq.live && decide (0 < c.useq.left) then
    let u := { c.useq with left := c.useq.left - 1, since := c.useq.since + 1 }
    (false, if u.left = 0 then controlEnd x u.word (setUseq x u s) else setUseq x u s)
  else if c.useq.live && c.useq.waiting then (false, microWord x c.useq.word s)
  else
    let u : USeq := if c.useq.live then c.useq else { USeq.reset with live := true, upc := BitVec.ofNat 13 (microOpc c), ins := microPos c }
    let a := redirected s u.upc.toNat
    let patch := decide (0x1000 ≤ a) && decide (a < 0x1400)
    match microFetch (setUseq x { u with upc := BitVec.ofNat 13 a } s) a with
    | (none, s1) => (patch, vmsCserr (BitVec.ofNat 13 a) s1)
    | (some w, s1) => (patch, microWord x w s1)

/-- One VCLK: the routines that run take their turn, and corrected words are written back where none has fetched from patch RAM (R185). -/
def microClk (s : State) : State :=
  let r := (List.range 8).foldl (fun (acc : Bool × State) n =>
    if vmsRuns acc.2 then let y := microStep (ctxNo n) acc.2; (acc.1 || y.1, y.2) else acc) (false, s)
  if r.1 then r.2 else writebacksGo r.2

/-- The VCLK of one XCLK: two, or one while a slow-admitted group streams, where VCLK runs (R170). -/
def microGo (s : State) : State :=
  if decide (s.power ≤ 1) && s.vclkStop.isNone then (if vclkHalved s then microClk s else microClk (microClk s)) else s

end Sys2Proof.Machine
end

