-- ==== Sys2Proof/Machine/Repeat.lean ====
section
/-! DEFINITION. Block-repeat instructions (R210 to R212).

One command is one element: an interrupt may be taken before each (R211, R212), the whole state of the
instruction lies in G4 to G7, and it stays at the pc until its last element is done (log 12). -/
namespace Sys2Proof.Machine

/-- The element size of SZ in bytes; 0b11 is reserved (R210). -/
def repSize (sz : BitVec 2) : Option Nat :=
  match sz.toNat with
  | 0 => some 1 | 1 => some 2 | 2 => some 4 | _ => none

/-- A step in bytes: signed, counted in elements (R210). -/
def repStep (step : BitVec 4) (n : Nat) : Word := wordOf (step.toInt * n)

/-- The value operand, G7 truncated to the element size (R211). -/
def repValue (s : State) (c : CoreId) (n : Nat) : Nat := (s.g c (gno 7)).toNat % 2 ^ (8 * n)

/-- An element is over: the addresses step, the count goes down, and the instruction ends with the last one (R211). -/
def repNext (c : CoreId) (ss ds : Word) (last : State → State) (s : State) : Acc Flow :=
  let s1 := ((s.setG c (gno 4) (s.g c (gno 4) + ss)).setG c (gno 5) (s.g c (gno 5) + ds)).setG c (gno 6) (s.g c (gno 6) - 1)
  if s.g c (gno 6) - 1 = 0 then .ok .next (last s1) else .ok .again s1

/-- The frame of a block repeat: SZ 0b11 is ILLEGAL, a zero count ends it, else one element is done. -/
def repBody (c : CoreId) (w : Word) (sz : BitVec 2) (last : State → State) (elem : Nat → State → Acc Flow) (s : State) : Acc Flow :=
  match repSize sz with
  | none => .exc (excIllegal w) s
  | some n => if s.g c (gno 6) = 0 then .ok .next (last s) else elem n s

/-- An element of FILLS (R211). -/
def fillsElem (c : CoreId) (dstep : BitVec 4) (n : Nat) (s : State) : Acc Flow :=
  (storeAt c (s.g c (gno 5)) (leBytes n (repValue s c n)) s).bind fun _ s1 => repNext c 0 (repStep dstep n) id s1

/-- FILLS (R211). -/
def execFills (c : CoreId) (sz : BitVec 2) (dstep : BitVec 4) (s : State) : Out :=
  .next (run c (.fills c sz dstep) .none (repBody c (encS sz.toNat 0 0 dstep.toNat 0) sz id (fillsElem c dstep)) s)

/-- The pages of both operands of an element, translated before either is accessed (R235, R236). -/
def twoOperands (c : CoreId) (n : Nat) (k : AccKind) (s : State) : Acc (List Piece × List Piece) :=
  let a := (s.g c (gno 4)).toNat
  let b := (s.g c (gno 5)).toNat
  (transPieces c a n .load (a % n != 0) s).both (transPieces c b n k (b % n != 0))

/-- An element of MOVS (R211). -/
def movsElem (c : CoreId) (sstep dstep : BitVec 4) (n : Nat) (s : State) : Acc Flow :=
  (twoOperands c n .store s).bind fun ps s1 => (loadPieces c ps.1 s1).bind fun b s2 =>
    (storePieces c ps.2 b s2).bind fun _ s3 => repNext c (repStep sstep n) (repStep dstep n) id s3

/-- MOVS (R211). -/
def execMovs (c : CoreId) (sz : BitVec 2) (sstep dstep : BitVec 4) (s : State) : Out :=
  .next (run c (.movs c sz sstep dstep) .none
    (repBody c (encS sz.toNat 1 sstep.toNat dstep.toNat 0) sz id (movsElem c sstep dstep)) s)

/-- The condition of SCANS (R210). -/
def scanCond (cond : Nat) (e v : Nat) : Bool :=
  match cond with
  | 0 => e == v
  | 1 => e != v
  | 2 => decide (e < v)
  | _ => decide (v ≤ e)

/-- An element of SCANS (R211). -/
def scansElem (c : CoreId) (sstep : BitVec 4) (cond : BitVec 2) (n : Nat) (s : State) : Acc Flow :=
  (loadAt c (s.g c (gno 4)) n s).bind fun b s1 =>
    if scanCond cond.toNat (leNat b) (repValue s1 c n) then .ok .next s1 else repNext c (repStep sstep n) 0 id s1

/-- SCANS (R211). -/
def execScans (c : CoreId) (sz : BitVec 2) (sstep : BitVec 4) (cond : BitVec 2) (s : State) : Out :=
  .next (run c (.scans c sz sstep cond) .none
    (repBody c (encS sz.toNat 2 sstep.toNat 0 cond.toNat) sz id (scansElem c sstep cond)) s)

/-- Every element was equal: G7 gets 0 (R211). -/
def cmpsEqual (c : CoreId) (s : State) : State := s.setG c (gno 7) 0

/-- An element of CMPS (R211). -/
def cmpsElem (c : CoreId) (sstep dstep : BitVec 4) (n : Nat) (s : State) : Acc Flow :=
  (twoOperands c n .load s).bind fun ps s1 => (loadPieces c (ps.1 ++ ps.2) s1).bind fun xy s2 =>
    let x := xy.take n
    let y := xy.drop n
    if leNat x != leNat y then .ok .next (s2.setG c (gno 7) (leWord x - leWord y))
    else repNext c (repStep sstep n) (repStep dstep n) (cmpsEqual c) s2

/-- CMPS (R211). -/
def execCmps (c : CoreId) (sz : BitVec 2) (sstep dstep : BitVec 4) (s : State) : Out :=
  .next (run c (.cmps c sz sstep dstep) .none
    (repBody c (encS sz.toNat 3 sstep.toNat dstep.toNat 0) sz (cmpsEqual c) (cmpsElem c sstep dstep)) s)

end Sys2Proof.Machine
end

