-- ==== Sys2Proof/Machine/Svu.lean ====
section
/-! DEFINITION. The short-vector unit (R216 to R221).

A register is the list of its lanes, lane 0 in the low bits. -/
namespace Sys2Proof.Machine

/-- The lanes of width `w` of a register (R195). -/
def qLanes (w : Nat) (x : Nat) : List Nat := (List.range (128 / w)).map fun i => nfld x (w * i + w - 1) (w * i)

/-- The register that lanes of width `w` spell. -/
def qJoin (w : Nat) : List Nat → Nat
  | [] => 0
  | x :: t => x % 2 ^ w + 2 ^ w * qJoin w t

/-- A Q register as a number. -/
def qNat (s : State) (c : CoreId) (q : QReg) : Nat := (s.q c q).toNat

/-- The types that the unit holds (R216). -/
def svuTy (code : Nat) : Option Ty :=
  match tyOf code with
  | some .q63 => none
  | some .bit => none
  | t => t

/-- The unit is powered: the count of idle cycles starts again; asleep, it begins to wake and the instruction waits (R220). -/
def svuAwake (c : CoreId) (s : State) : Acc Unit :=
  let w := s.sr c 0x030
  if wbit w 31 then .ok () (s.setSr c 0x030 (putFld w 13 0 0))
  else .wait (s.modCore c fun k => { k with svuWaking := true })

/-- The frame of an operation (R198, R216, R404): a TYPE outside the row's and a reserved RM are ILLEGAL. -/
def svuBody (c : CoreId) (fn : Nat) (d a b : QReg) (ty : BitVec 4) (rm : BitVec 3) (types : Ty → Bool)
    (f : Ty → Rm → Nat → Nat → Nat → Nat × FFlags) (s : State) : Acc Flow :=
  let w := encQ d.val a.val b.val ty.toNat rm.toNat fn
  if isSI c then .exc (excIllegal w) s
  else match svuTy ty.toNat, fpRm s c rm with
    | some t, some r =>
      if types t then
        (svuAwake c s).bind fun _ s1 =>
          let x := f t r (qNat s1 c a) (qNat s1 c b) (qNat s1 c d)
          .ok .next ((fpRaise c x.2 s1).setQ c d (BitVec.ofNat 128 x.1))
      else .exc (excIllegal w) s
    | _, _ => .exc (excIllegal w) s

/-- Every type. -/
def anyTy (_ : Ty) : Bool := true

/-- Integer and Q types. -/
def fixTy (t : Ty) : Bool := isInt t || isQ t

/-- The types that have a wider one (R217). -/
def widTy (t : Ty) : Bool := (wideTy t).isSome

/-- The types of QDOT (R217). -/
def dotTy (t : Ty) : Bool := t == .s8 || t == .u8 || t == .s16 || t == .u16 || t == .f16

/-- Results of lanes as a register with its flags. -/
def qRes (w : Nat) (l : List Res) : Nat × FFlags := (qJoin w (l.map (·.1)), orFlags l)

/-- An operation lane by lane: the lanes of Qa, Qb and the old Qd. -/
def lane3 (f : Ty → Rm → Nat → Nat → Nat → Res) (t : Ty) (r : Rm) (a b d : Nat) : Nat × FFlags :=
  let w := tyBits t
  qRes w (((qLanes w a).zip ((qLanes w b).zip (qLanes w d))).map fun p => f t r p.1 p.2.1 p.2.2)

/-- A compare: each lane all ones or all zeros (R217). -/
def laneCmp (code : Nat) (t : Ty) (a b : Nat) : Res :=
  let r := numCmp t code a b
  (if r.1 then 2 ^ tyBits t - 1 else 0, r.2)

/-- Two lists interleaved. -/
def interleave : List Nat → List Nat → List Nat
  | a :: s, b :: t => a :: b :: interleave s t
  | _, _ => []

/-- The elements at even places (`odd` false) or at odd ones. -/
def everyOther (odd : Bool) (l : List Nat) : List Nat :=
  (l.zip (List.range l.length)).filterMap fun p => if (p.2 % 2 == 1) == odd then some p.1 else none

/-- QZIPL and QZIPH (R217). -/
def qZip (high : Bool) (t : Ty) (a b : Nat) : Nat × FFlags :=
  let w := tyBits t
  let half := fun x => if high then (qLanes w x).drop (64 / w) else (qLanes w x).take (64 / w)
  (qJoin w (interleave (half a) (half b)), 0)

/-- QUZPE and QUZPO (R217): the lanes of Qa, then those of Qb. -/
def qUnzip (odd : Bool) (t : Ty) (a b : Nat) : Nat × FFlags :=
  let w := tyBits t
  (qJoin w (everyOther odd (qLanes w a) ++ everyOther odd (qLanes w b)), 0)

/-- QDUP (R217). -/
def qDup (t : Ty) (a b : Nat) : Nat × FFlags :=
  let w := tyBits t
  let i := b % 16
  let x := if i < 128 / w then nfld a (w * i + w - 1) (w * i) else Config.qdupOutside a i (tyCode t)
  (qJoin w (List.replicate (128 / w) x), 0)

/-- The types of a width in bits, among those that the unit holds. -/
def tysOfBits (w : Nat) : List Ty :=
  [.u8, .s8, .u16, .s16, .f16, .q15, .u32, .s32, .f32, .q31, .u64, .s64, .f64].filter fun t => tyBits t == w

/-- The type that QCVT or QCVTN reads its source lanes as: a free choice among the types of the width (R217). -/
def qcvtSrc (t : Ty) (w : Nat) : Ty :=
  let l := tysOfBits w
  l.getD (Config.qcvtSource (tyCode t) w % l.length) t

/-- QCVT (R217). -/
def qCvt (t : Ty) (r : Rm) (a : Nat) : Nat × FFlags :=
  let w := tyBits t
  qRes w ((qLanes w a).map fun x => cvt (qcvtSrc t w) t r x)

/-- A type of at most 32 bits: QCVTN narrows lanes of twice the width. -/
def narrowTy (t : Ty) : Bool := decide (tyBits t ≤ 32)

/-- QCVTN (R217): the converted lanes of Qa in the lower half; what fills the other half the manual leaves open. -/
def qCvtn (t : Ty) (r : Rm) (a b d : Nat) : Nat × FFlags :=
  let w := tyBits t
  let low := (qLanes (2 * w) a).map fun x => cvt (qcvtSrc t (2 * w)) t r x
  (qJoin w (low.map (·.1) ++ (List.range (64 / w)).map fun i => Config.qcvtnUpper a b d (tyCode t) i), orFlags low)

/-- QMULWL, QMULWH and, with `acc`, QMACWL, QMACWH (R219). -/
def qMulW (high acc : Bool) (t : Ty) (r : Rm) (a b d : Nat) : Nat × FFlags :=
  match wideTy t with
  | none => (0, 0)
  | some t2 =>
    let w := tyBits t
    let half := fun x => if high then (qLanes w x).drop (64 / w) else (qLanes w x).take (64 / w)
    qRes (2 * w) (((half a).zip ((half b).zip (qLanes (2 * w) d))).map fun p =>
      if acc then numFma t t2 r false false false p.1 p.2.1 p.2.2 else mulWide t t t2 r p.1 p.2.1)

/-- QDOT; QDOTSU with Qa signed and Qb unsigned (R219). -/
def qDot (su : Bool) (t : Ty) (r : Rm) (a b d : Nat) : Nat × FFlags :=
  let w := tyBits t
  if t = .f16 then
    qRes 32 ((List.range 4).map fun m =>
      let ps := (List.range 2).map fun k => (nfld a (16 * (2 * m + k) + 15) (16 * (2 * m + k)), nfld b (16 * (2 * m + k) + 15) (16 * (2 * m + k)))
      let c := nfld d (32 * m + 31) (32 * m)
      exactSum .f32 r (some (decFloat .f32 c) :: prodFvs .f16 .f16 ps) (anySnan .f16 .f16 ps || decFloat .f32 c == .nan true))
  else
    let ra := fun x => if su then sgn w x else rawInt t x
    let rb := fun x => if su then ((x : Nat) : Int) else rawInt t x
    (qJoin (4 * w) ((List.range (128 / (4 * w))).map fun m =>
      let sum := (List.range 4).foldl (fun (acc : Int) k =>
        acc + ra (nfld a (w * (4 * m + k) + w - 1) (w * (4 * m + k))) * rb (nfld b (w * (4 * m + k) + w - 1) (w * (4 * m + k)))) 0
      wrapTo (4 * w) (sum + (nfld d (4 * w * m + 4 * w - 1) (4 * w * m) : Nat))), 0)

/-- QADD (R217). -/
def execQadd (c : CoreId) (d a b : QReg) (ty : BitVec 4) (rm : BitVec 3) (s : State) : Out :=
  .next (run c (.qadd c d a b ty rm) .none (svuBody c 0x0 d a b ty rm anyTy (lane3 fun t r x y _ => numAdd t r false false x y)) s)

/-- QSUB (R217). -/
def execQsub (c : CoreId) (d a b : QReg) (ty : BitVec 4) (rm : BitVec 3) (s : State) : Out :=
  .next (run c (.qsub c d a b ty rm) .none (svuBody c 0x1 d a b ty rm anyTy (lane3 fun t r x y _ => numAdd t r false true x y)) s)

/-- QMUL (R217). -/
def execQmul (c : CoreId) (d a b : QReg) (ty : BitVec 4) (rm : BitVec 3) (s : State) : Out :=
  .next (run c (.qmul c d a b ty rm) .none (svuBody c 0x2 d a b ty rm anyTy (lane3 fun t r x y _ => numMul t r false x y)) s)

/-- QMIN (R217). -/
def execQmin (c : CoreId) (d a b : QReg) (ty : BitVec 4) (rm : BitVec 3) (s : State) : Out :=
  .next (run c (.qmin c d a b ty rm) .none (svuBody c 0x3 d a b ty rm anyTy (lane3 fun t _ x y _ => numMinMax t false false x y)) s)

/-- QMAX (R217). -/
def execQmax (c : CoreId) (d a b : QReg) (ty : BitVec 4) (rm : BitVec 3) (s : State) : Out :=
  .next (run c (.qmax c d a b ty rm) .none (svuBody c 0x4 d a b ty rm anyTy (lane3 fun t _ x y _ => numMinMax t true false x y)) s)

/-- QABS (R217). -/
def execQabs (c : CoreId) (d a b : QReg) (ty : BitVec 4) (rm : BitVec 3) (s : State) : Out :=
  .next (run c (.qabs c d a b ty rm) .none (svuBody c 0x5 d a b ty rm anyTy (lane3 fun t r x _ _ => numAbs t r false x)) s)

/-- QNEG (R217). -/
def execQneg (c : CoreId) (d a b : QReg) (ty : BitVec 4) (rm : BitVec 3) (s : State) : Out :=
  .next (run c (.qneg c d a b ty rm) .none (svuBody c 0x6 d a b ty rm anyTy (lane3 fun t r x _ _ => numNeg t r false x)) s)

/-- QABSD (R217). -/
def execQabsd (c : CoreId) (d a b : QReg) (ty : BitVec 4) (rm : BitVec 3) (s : State) : Out :=
  .next (run c (.qabsd c d a b ty rm) .none (svuBody c 0x7 d a b ty rm anyTy (lane3 fun t r x y _ => numAbsD t r x y)) s)

/-- QFMA (R217). -/
def execQfma (c : CoreId) (d a b : QReg) (ty : BitVec 4) (rm : BitVec 3) (s : State) : Out :=
  .next (run c (.qfma c d a b ty rm) .none (svuBody c 0x8 d a b ty rm isFloat (lane3 fun t r x y z => numFma t t r false false false x y z)) s)

/-- QFMS (R217). -/
def execQfms (c : CoreId) (d a b : QReg) (ty : BitVec 4) (rm : BitVec 3) (s : State) : Out :=
  .next (run c (.qfms c d a b ty rm) .none (svuBody c 0x9 d a b ty rm isFloat (lane3 fun t r x y z => numFma t t r false true false x y z)) s)

/-- QMACS (R217). -/
def execQmacs (c : CoreId) (d a b : QReg) (ty : BitVec 4) (rm : BitVec 3) (s : State) : Out :=
  .next (run c (.qmacs c d a b ty rm) .none (svuBody c 0xa d a b ty rm fixTy (lane3 fun t r x y z => numFma t t r true false false x y z)) s)

/-- QMSUBS (R217). -/
def execQmsubs (c : CoreId) (d a b : QReg) (ty : BitVec 4) (rm : BitVec 3) (s : State) : Out :=
  .next (run c (.qmsubs c d a b ty rm) .none (svuBody c 0xb d a b ty rm fixTy (lane3 fun t r x y z => numFma t t r true true false x y z)) s)

/-- QADDS (R217). -/
def execQadds (c : CoreId) (d a b : QReg) (ty : BitVec 4) (rm : BitVec 3) (s : State) : Out :=
  .next (run c (.qadds c d a b ty rm) .none (svuBody c 0xc d a b ty rm fixTy (lane3 fun t r x y _ => numAdd t r true false x y)) s)

/-- QSUBS (R217). -/
def execQsubs (c : CoreId) (d a b : QReg) (ty : BitVec 4) (rm : BitVec 3) (s : State) : Out :=
  .next (run c (.qsubs c d a b ty rm) .none (svuBody c 0xd d a b ty rm fixTy (lane3 fun t r x y _ => numAdd t r true true x y)) s)

/-- QMULS (R217). -/
def execQmuls (c : CoreId) (d a b : QReg) (ty : BitVec 4) (rm : BitVec 3) (s : State) : Out :=
  .next (run c (.qmuls c d a b ty rm) .none (svuBody c 0xe d a b ty rm fixTy (lane3 fun t r x y _ => numMul t r true x y)) s)

/-- QRSHR (R76, R217). -/
def execQrshr (c : CoreId) (d a b : QReg) (ty : BitVec 4) (rm : BitVec 3) (s : State) : Out :=
  .next (run c (.qrshr c d a b ty rm) .none (svuBody c 0xf d a b ty rm fixTy (lane3 fun t _ x y _ => rshrRes t x y)) s)

/-- QAND (R76, R217). -/
def execQand (c : CoreId) (d a b : QReg) (ty : BitVec 4) (rm : BitVec 3) (s : State) : Out :=
  .next (run c (.qand c d a b ty rm) .none (svuBody c 0x10 d a b ty rm isInt (lane3 fun _ _ x y _ => (x &&& y, 0))) s)

/-- QOR (R76, R217). -/
def execQor (c : CoreId) (d a b : QReg) (ty : BitVec 4) (rm : BitVec 3) (s : State) : Out :=
  .next (run c (.qor c d a b ty rm) .none (svuBody c 0x11 d a b ty rm isInt (lane3 fun _ _ x y _ => (x ||| y, 0))) s)

/-- QXOR (R76, R217). -/
def execQxor (c : CoreId) (d a b : QReg) (ty : BitVec 4) (rm : BitVec 3) (s : State) : Out :=
  .next (run c (.qxor c d a b ty rm) .none (svuBody c 0x12 d a b ty rm isInt (lane3 fun _ _ x y _ => (x ^^^ y, 0))) s)

/-- QANDN (R76, R217). -/
def execQandn (c : CoreId) (d a b : QReg) (ty : BitVec 4) (rm : BitVec 3) (s : State) : Out :=
  .next (run c (.qandn c d a b ty rm) .none (svuBody c 0x13 d a b ty rm isInt (lane3 fun t _ x y _ => (x &&& notN (tyBits t) y, 0))) s)

/-- QSHL (R76, R217). -/
def execQshl (c : CoreId) (d a b : QReg) (ty : BitVec 4) (rm : BitVec 3) (s : State) : Out :=
  .next (run c (.qshl c d a b ty rm) .none (svuBody c 0x14 d a b ty rm isInt (lane3 fun t _ x y _ => (shlN (tyBits t) x y, 0))) s)

/-- QSHR (R76, R217). -/
def execQshr (c : CoreId) (d a b : QReg) (ty : BitVec 4) (rm : BitVec 3) (s : State) : Out :=
  .next (run c (.qshr c d a b ty rm) .none (svuBody c 0x15 d a b ty rm isInt (lane3 fun t _ x y _ => (shrN (tyBits t) x y, 0))) s)

/-- QSRA (R76, R217). -/
def execQsra (c : CoreId) (d a b : QReg) (ty : BitVec 4) (rm : BitVec 3) (s : State) : Out :=
  .next (run c (.qsra c d a b ty rm) .none (svuBody c 0x16 d a b ty rm isInt (lane3 fun t _ x y _ => (sraN t x y, 0))) s)

/-- QROL (R76, R217). -/
def execQrol (c : CoreId) (d a b : QReg) (ty : BitVec 4) (rm : BitVec 3) (s : State) : Out :=
  .next (run c (.qrol c d a b ty rm) .none (svuBody c 0x17 d a b ty rm isInt (lane3 fun t _ x y _ => (rolN (tyBits t) x y, 0))) s)

/-- QCMPEQ (R217). -/
def execQcmpeq (c : CoreId) (d a b : QReg) (ty : BitVec 4) (rm : BitVec 3) (s : State) : Out :=
  .next (run c (.qcmpeq c d a b ty rm) .none (svuBody c 0x18 d a b ty rm anyTy (lane3 fun t _ x y _ => laneCmp 0 t x y)) s)

/-- QCMPNE (R217). -/
def execQcmpne (c : CoreId) (d a b : QReg) (ty : BitVec 4) (rm : BitVec 3) (s : State) : Out :=
  .next (run c (.qcmpne c d a b ty rm) .none (svuBody c 0x19 d a b ty rm anyTy (lane3 fun t _ x y _ => laneCmp 1 t x y)) s)

/-- QCMPLT (R217). -/
def execQcmplt (c : CoreId) (d a b : QReg) (ty : BitVec 4) (rm : BitVec 3) (s : State) : Out :=
  .next (run c (.qcmplt c d a b ty rm) .none (svuBody c 0x1a d a b ty rm anyTy (lane3 fun t _ x y _ => laneCmp 2 t x y)) s)

/-- QCMPLE (R217). -/
def execQcmple (c : CoreId) (d a b : QReg) (ty : BitVec 4) (rm : BitVec 3) (s : State) : Out :=
  .next (run c (.qcmple c d a b ty rm) .none (svuBody c 0x1b d a b ty rm anyTy (lane3 fun t _ x y _ => laneCmp 3 t x y)) s)

/-- QCMPGT (R217). -/
def execQcmpgt (c : CoreId) (d a b : QReg) (ty : BitVec 4) (rm : BitVec 3) (s : State) : Out :=
  .next (run c (.qcmpgt c d a b ty rm) .none (svuBody c 0x1c d a b ty rm anyTy (lane3 fun t _ x y _ => laneCmp 4 t x y)) s)

/-- QCMPGE (R217). -/
def execQcmpge (c : CoreId) (d a b : QReg) (ty : BitVec 4) (rm : BitVec 3) (s : State) : Out :=
  .next (run c (.qcmpge c d a b ty rm) .none (svuBody c 0x1d d a b ty rm anyTy (lane3 fun t _ x y _ => laneCmp 5 t x y)) s)

/-- QSEL (R217). -/
def execQsel (c : CoreId) (d a b : QReg) (ty : BitVec 4) (rm : BitVec 3) (s : State) : Out :=
  .next (run c (.qsel c d a b ty rm) .none (svuBody c 0x1e d a b ty rm anyTy (lane3 fun t _ x y z => (if z.testBit (tyBits t - 1) then x else y, 0))) s)

/-- QZIPL (R217). -/
def execQzipl (c : CoreId) (d a b : QReg) (ty : BitVec 4) (rm : BitVec 3) (s : State) : Out :=
  .next (run c (.qzipl c d a b ty rm) .none (svuBody c 0x20 d a b ty rm anyTy (fun t _ x y _ => qZip false t x y)) s)

/-- QZIPH (R217). -/
def execQziph (c : CoreId) (d a b : QReg) (ty : BitVec 4) (rm : BitVec 3) (s : State) : Out :=
  .next (run c (.qziph c d a b ty rm) .none (svuBody c 0x21 d a b ty rm anyTy (fun t _ x y _ => qZip true t x y)) s)

/-- QUZPE (R217). -/
def execQuzpe (c : CoreId) (d a b : QReg) (ty : BitVec 4) (rm : BitVec 3) (s : State) : Out :=
  .next (run c (.quzpe c d a b ty rm) .none (svuBody c 0x22 d a b ty rm anyTy (fun t _ x y _ => qUnzip false t x y)) s)

/-- QUZPO (R217). -/
def execQuzpo (c : CoreId) (d a b : QReg) (ty : BitVec 4) (rm : BitVec 3) (s : State) : Out :=
  .next (run c (.quzpo c d a b ty rm) .none (svuBody c 0x23 d a b ty rm anyTy (fun t _ x y _ => qUnzip true t x y)) s)

/-- QDUP (R217). -/
def execQdup (c : CoreId) (d a b : QReg) (ty : BitVec 4) (rm : BitVec 3) (s : State) : Out :=
  .next (run c (.qdup c d a b ty rm) .none (svuBody c 0x24 d a b ty rm anyTy (fun t _ x y _ => qDup t x y)) s)

/-- QCVT (R133, R217). -/
def execQcvt (c : CoreId) (d a b : QReg) (ty : BitVec 4) (rm : BitVec 3) (s : State) : Out :=
  .next (run c (.qcvt c d a b ty rm) .none (svuBody c 0x28 d a b ty rm anyTy (fun t r x _ _ => qCvt t r x)) s)

/-- QCVTN (R133, R217). -/
def execQcvtn (c : CoreId) (d a b : QReg) (ty : BitVec 4) (rm : BitVec 3) (s : State) : Out :=
  .next (run c (.qcvtn c d a b ty rm) .none (svuBody c 0x29 d a b ty rm narrowTy qCvtn) s)

/-- QMULWL (R219). -/
def execQmulwl (c : CoreId) (d a b : QReg) (ty : BitVec 4) (rm : BitVec 3) (s : State) : Out :=
  .next (run c (.qmulwl c d a b ty rm) .none (svuBody c 0x30 d a b ty rm widTy (qMulW false false)) s)

/-- QMULWH (R219). -/
def execQmulwh (c : CoreId) (d a b : QReg) (ty : BitVec 4) (rm : BitVec 3) (s : State) : Out :=
  .next (run c (.qmulwh c d a b ty rm) .none (svuBody c 0x31 d a b ty rm widTy (qMulW true false)) s)

/-- QMACWL (R219). -/
def execQmacwl (c : CoreId) (d a b : QReg) (ty : BitVec 4) (rm : BitVec 3) (s : State) : Out :=
  .next (run c (.qmacwl c d a b ty rm) .none (svuBody c 0x32 d a b ty rm widTy (qMulW false true)) s)

/-- QMACWH (R219). -/
def execQmacwh (c : CoreId) (d a b : QReg) (ty : BitVec 4) (rm : BitVec 3) (s : State) : Out :=
  .next (run c (.qmacwh c d a b ty rm) .none (svuBody c 0x33 d a b ty rm widTy (qMulW true true)) s)

/-- QDOT (R219). -/
def execQdot (c : CoreId) (d a b : QReg) (ty : BitVec 4) (rm : BitVec 3) (s : State) : Out :=
  .next (run c (.qdot c d a b ty rm) .none (svuBody c 0x34 d a b ty rm dotTy (qDot false)) s)

/-- QDOTSU (R219). -/
def execQdotsu (c : CoreId) (d a b : QReg) (ty : BitVec 4) (rm : BitVec 3) (s : State) : Out :=
  .next (run c (.qdotsu c d a b ty rm) .none (svuBody c 0x35 d a b ty rm dotTy (qDot true)) s)

/-- The elements of size `e` bytes of a memory sequence that go to register `r` of `k`, in lane order (R218). -/
def qDeal (k e r : Nat) (b : List Byte) : List Byte :=
  (List.range (16 / e)).flatMap fun lane => (b.drop ((lane * k + r) * e)).take e

/-- The memory sequence of `k` registers (R218): element j comes from lane j div k of register j mod k. -/
def qGather (k e : Nat) (regs : List (List Byte)) : List Byte :=
  (List.range (16 / e * k)).flatMap fun j => ((regs.getD (j % k) []).drop (j / k * e)).take e

/-- The element size of a QM instruction: 16 bytes alone, else ESZ (R218). -/
def qmSize (k : Nat) (esz : Nat) : Nat := if k = 1 then 16 else 2 ^ esz

/-- A QM load (R218, R221). -/
def qmLoad (c : CoreId) (k : Nat) (d : QReg) (a : GReg) (esz : Nat) (off : BitVec 12) (s : State) : Acc Flow :=
  let w := encQM d.val a.val (k - 1) esz 0 off.toNat
  if isSI c || decide (15 < d.val + k - 1) then .exc (excIllegal w) s
  else (svuAwake c s).bind fun _ s1 =>
    let va := (qmAddr s1 c a off).toNat
    (transPieces c va (16 * k) .load (va % qmSize k esz != 0) s1).bind fun ps s2 =>
      (loadPieces c ps s2).bind fun b s3 =>
        .ok .next ((List.range k).foldl (fun t r =>
          t.setQ c ⟨(d.val + r) % 16, Nat.mod_lt _ (by decide)⟩ (BitVec.ofNat 128 (leNat (qDeal k (qmSize k esz) r b)))) s3)

/-- A QM store (R218, R221): every byte is probed before any is stored. -/
def qmStore (c : CoreId) (k : Nat) (d : QReg) (a : GReg) (esz : Nat) (off : BitVec 12) (s : State) : Acc Flow :=
  let w := encQM d.val a.val (k - 1) esz 1 off.toNat
  if isSI c || decide (15 < d.val + k - 1) then .exc (excIllegal w) s
  else (svuAwake c s).bind fun _ s1 =>
    let va := (qmAddr s1 c a off).toNat
    let regs := (List.range k).map fun r => leBytes 16 (qNat s1 c ⟨(d.val + r) % 16, Nat.mod_lt _ (by decide)⟩)
    (transPieces c va (16 * k) .store (va % qmSize k esz != 0) s1).bind fun ps s2 =>
      (storePieces c ps (qGather k (qmSize k esz) regs) s2).bind fun _ s3 => .ok .next s3

/-- LDQ (R218). -/
def execLdq (c : CoreId) (d : QReg) (a : GReg) (off : BitVec 12) (s : State) : Out := .next (run c (.ldq c d a off) .none (qmLoad c 1 d a 0 off) s)

/-- STQ (R218). -/
def execStq (c : CoreId) (d : QReg) (a : GReg) (off : BitVec 12) (s : State) : Out := .next (run c (.stq c d a off) .none (qmStore c 1 d a 0 off) s)

/-- LDS2 (R218). -/
def execLds2 (c : CoreId) (d : QReg) (a : GReg) (esz : BitVec 2) (off : BitVec 12) (s : State) : Out :=
  .next (run c (.lds2 c d a esz off) .none (qmLoad c 2 d a esz.toNat off) s)

/-- STS2 (R218). -/
def execSts2 (c : CoreId) (d : QReg) (a : GReg) (esz : BitVec 2) (off : BitVec 12) (s : State) : Out :=
  .next (run c (.sts2 c d a esz off) .none (qmStore c 2 d a esz.toNat off) s)

/-- LDS3 (R218). -/
def execLds3 (c : CoreId) (d : QReg) (a : GReg) (esz : BitVec 2) (off : BitVec 12) (s : State) : Out :=
  .next (run c (.lds3 c d a esz off) .none (qmLoad c 3 d a esz.toNat off) s)

/-- STS3 (R218). -/
def execSts3 (c : CoreId) (d : QReg) (a : GReg) (esz : BitVec 2) (off : BitVec 12) (s : State) : Out :=
  .next (run c (.sts3 c d a esz off) .none (qmStore c 3 d a esz.toNat off) s)

/-- LDS4 (R218). -/
def execLds4 (c : CoreId) (d : QReg) (a : GReg) (esz : BitVec 2) (off : BitVec 12) (s : State) : Out :=
  .next (run c (.lds4 c d a esz off) .none (qmLoad c 4 d a esz.toNat off) s)

/-- STS4 (R218). -/
def execSts4 (c : CoreId) (d : QReg) (a : GReg) (esz : BitVec 2) (off : BitVec 12) (s : State) : Out :=
  .next (run c (.sts4 c d a esz off) .none (qmStore c 4 d a esz.toNat off) s)

end Sys2Proof.Machine
end

