-- ==== Sys2Proof/Machine/Timeouts.lean ====
section
/-! DEFINITION. The response timers of the targets (R310): what a granted access that has waited too long becomes, by the master that waits. -/
namespace Sys2Proof.Machine

/-- A transaction of the matrix whose time expires (R310): its master is answered with TARGET, and what is left of it has no taker. -/
def xactTimeout (i : Nat) (s : State) : State :=
  match s.xacts[i]? with
  | some x => { tmoLog x s with xacts := s.xacts.set i { x with auto := true, gone := true } }
  | none => s

/-- The oldest granted transaction of a master and an ID that a timer runs for: T6 has none (R310). -/
def timed (s : State) (m id : Nat) : Option Nat :=
  s.xacts.findIdx? fun x => x.m == m && x.id == id && x.granted && !x.answered && !x.gone && targetOf s x.pa != 6

/-- A core's timer: of the access that its instruction waits for, else of the oldest store of its buffer (R237, R309). -/
def coreTimeout (m : Nat) (c : CoreId) (s : State) : State :=
  let k := s.core c
  match k.await.filter fun x => x.m == m && !x.gone && targetOf s x.pa != 6 with
  | some x => tmoGone x (s.modCore c fun k => { k with await := some { x with gone := true } })
  | none =>
    match k.sbuf with
    | [] => s
    | b :: rest =>
      if b.m = m && b.out && targetOf s b.pa != 6 then
        let x := newXact s m c.val c.val 1 b.pa b.bytes.length 0 (Level.ofCode b.lvl) false [] [(b.pa, b.bytes)]
        storeError c b.pa b.bytes.length b.lvl rTARGET (tmoGone x (s.modCore c fun k => { k with sbuf := rest }))
      else s

/-- The walk whose read waits longest (R262, R263). -/
def walkExpires (s : State) : State :=
  match s.walks.findIdx? fun w => w.res.isNone && !w.queued with
  | some i => walkTimeout i s
  | none => s

/-- The engines of a master try again what waits. -/
def engineGo (m : Nat) (s : State) : State :=
  match m with
  | 5 => c0Retry (deliverEnded (serveHeldIn (serveOwn s)))
  | 6 | 7 => mvbRetry (txRetry (dmaRetry s))
  | 8 => bootAdvance (stRetry s)
  | 10 => sceFlush s
  | _ => s

/-- The oldest access of an engine that a timer runs for expires: its engine is answered with TARGET (R310, R371, R385, R389, R396). -/
def engineTimeout (m : Nat) (s : State) : State :=
  match s.held.findIdx? fun h => h.m == m && !h.tmo && targetOf s h.pa != 6 with
  | some i => engineGo m { s with held := s.held.modify i fun h => { h with tmo := true } }
  | none => s

/-- The timer of a granted access of master `m` expires (R310); with XBM_TMO.CYCLES = 0 the timers are off. -/
def masterTimeout (m id : Nat) (s : State) : State :=
  if s.rf XBM_TMO 19 0 = 0 then s
  else match timed s m id with
    | some i => xactTimeout i s
    | none =>
      if m = 0 ∨ m = 1 ∨ m = 4 then (if id < 5 then coreTimeout m (coreNo id) s else s)
      else if m = 3 then walkExpires s
      else engineTimeout m s

/-- XBM_TIMEOUT (R310). -/
def execXbmTimeout (m : Master) (id : BitVec 6) (s : State) : Out := .next (clocked (masterTimeout m.val id.toNat) s)

end Sys2Proof.Machine
end

