-- ==== Sys2Proof/Machine/VseInstr.lean ====
section
/-! DEFINITION. The vector commands (R73 to R86, R133, R136 to R142, R147).

A vector command runs as the next instruction of its context's streaming group, to its last element (R99). -/
namespace Sys2Proof.Machine

/-- VNOP: nothing (R77). -/
def execVnop (x : CtxId) (s : State) : Host.Outcome State Fault Refusal := .next (vectorRun x 0x00 fnVnop s)

/-- VADD: A + B (R77). -/
def execVadd (x : CtxId) (s : State) : Host.Outcome State Fault Refusal := .next (vectorRun x 0x01 fnVadd s)

/-- VSUB: A − B (R77). -/
def execVsub (x : CtxId) (s : State) : Host.Outcome State Fault Refusal := .next (vectorRun x 0x02 fnVsub s)

/-- VMUL: A × B (R77). -/
def execVmul (x : CtxId) (s : State) : Host.Outcome State Fault Refusal := .next (vectorRun x 0x03 fnVmul s)

/-- VFMA: A × B + C (R77). -/
def execVfma (x : CtxId) (s : State) : Host.Outcome State Fault Refusal := .next (vectorRun x 0x04 fnVfma s)

/-- VFMS: A × B − C (R77). -/
def execVfms (x : CtxId) (s : State) : Host.Outcome State Fault Refusal := .next (vectorRun x 0x05 fnVfms s)

/-- VFNMA: −(A × B) + C (R77). -/
def execVfnma (x : CtxId) (s : State) : Host.Outcome State Fault Refusal := .next (vectorRun x 0x06 fnVfnma s)

/-- VFNMS: −(A × B) − C (R77). -/
def execVfnms (x : CtxId) (s : State) : Host.Outcome State Fault Refusal := .next (vectorRun x 0x07 fnVfnms s)

/-- VMIN: the smaller (R77). -/
def execVmin (x : CtxId) (s : State) : Host.Outcome State Fault Refusal := .next (vectorRun x 0x08 fnVmin s)

/-- VMAX: the larger (R77). -/
def execVmax (x : CtxId) (s : State) : Host.Outcome State Fault Refusal := .next (vectorRun x 0x09 fnVmax s)

/-- VABS: |A| (R77). -/
def execVabs (x : CtxId) (s : State) : Host.Outcome State Fault Refusal := .next (vectorRun x 0x0A fnVabs s)

/-- VNEG: −A (R77). -/
def execVneg (x : CtxId) (s : State) : Host.Outcome State Fault Refusal := .next (vectorRun x 0x0B fnVneg s)

/-- VABSD: |A − B| (R77). -/
def execVabsd (x : CtxId) (s : State) : Host.Outcome State Fault Refusal := .next (vectorRun x 0x0C fnVabsd s)

/-- VCPY: A (R77). -/
def execVcpy (x : CtxId) (s : State) : Host.Outcome State Fault Refusal := .next (vectorRun x 0x0D fnVcpy s)

/-- VCPSGN: |A| with the sign of B (R77). -/
def execVcpsgn (x : CtxId) (s : State) : Host.Outcome State Fault Refusal := .next (vectorRun x 0x0E fnVcpsgn s)

/-- VCLAMP: min(max(A, B), C) (R77). -/
def execVclamp (x : CtxId) (s : State) : Host.Outcome State Fault Refusal := .next (vectorRun x 0x0F fnVclamp s)

/-- VAND: A AND B (R77). -/
def execVand (x : CtxId) (s : State) : Host.Outcome State Fault Refusal := .next (vectorRun x 0x10 fnVand s)

/-- VOR: A OR B (R77). -/
def execVor (x : CtxId) (s : State) : Host.Outcome State Fault Refusal := .next (vectorRun x 0x11 fnVor s)

/-- VXOR: A XOR B (R77). -/
def execVxor (x : CtxId) (s : State) : Host.Outcome State Fault Refusal := .next (vectorRun x 0x12 fnVxor s)

/-- VANDN: A AND NOT B (R77). -/
def execVandn (x : CtxId) (s : State) : Host.Outcome State Fault Refusal := .next (vectorRun x 0x13 fnVandn s)

/-- VNOT: NOT A (R77). -/
def execVnot (x : CtxId) (s : State) : Host.Outcome State Fault Refusal := .next (vectorRun x 0x14 fnVnot s)

/-- VSHL: A shifted left by c (R77). -/
def execVshl (x : CtxId) (s : State) : Host.Outcome State Fault Refusal := .next (vectorRun x 0x15 fnVshl s)

/-- VSHR: A shifted right by c, zeros entering (R77). -/
def execVshr (x : CtxId) (s : State) : Host.Outcome State Fault Refusal := .next (vectorRun x 0x16 fnVshr s)

/-- VSRA: A shifted right by c, the sign entering (R77). -/
def execVsra (x : CtxId) (s : State) : Host.Outcome State Fault Refusal := .next (vectorRun x 0x17 fnVsra s)

/-- VROL: A rotated left by c (R77). -/
def execVrol (x : CtxId) (s : State) : Host.Outcome State Fault Refusal := .next (vectorRun x 0x18 fnVrol s)

/-- VROR: A rotated right by c (R77). -/
def execVror (x : CtxId) (s : State) : Host.Outcome State Fault Refusal := .next (vectorRun x 0x19 fnVror s)

/-- VCLZ: leading zero bits of A (R77). -/
def execVclz (x : CtxId) (s : State) : Host.Outcome State Fault Refusal := .next (vectorRun x 0x1A fnVclz s)

/-- VPOPC: one bits of A (R77). -/
def execVpopc (x : CtxId) (s : State) : Host.Outcome State Fault Refusal := .next (vectorRun x 0x1B fnVpopc s)

/-- VAVG: ⌊(A + B + 1) / 2⌋ (R77). -/
def execVavg (x : CtxId) (s : State) : Host.Outcome State Fault Refusal := .next (vectorRun x 0x1C fnVavg s)

/-- VMULH: the upper half of A × B (R77). -/
def execVmulh (x : CtxId) (s : State) : Host.Outcome State Fault Refusal := .next (vectorRun x 0x1D fnVmulh s)

/-- VBSWAP: the bytes of A in reverse order (R77). -/
def execVbswap (x : CtxId) (s : State) : Host.Outcome State Fault Refusal := .next (vectorRun x 0x1E fnVbswap s)

/-- VBREV: the bits of A in reverse order (R77). -/
def execVbrev (x : CtxId) (s : State) : Host.Outcome State Fault Refusal := .next (vectorRun x 0x1F fnVbrev s)

/-- VCMPEQ (R77). -/
def execVcmpeq (x : CtxId) (s : State) : Host.Outcome State Fault Refusal := .next (vectorRun x 0x20 fnVcmpeq s)

/-- VCMPNE (R77). -/
def execVcmpne (x : CtxId) (s : State) : Host.Outcome State Fault Refusal := .next (vectorRun x 0x21 fnVcmpne s)

/-- VCMPLT (R77). -/
def execVcmplt (x : CtxId) (s : State) : Host.Outcome State Fault Refusal := .next (vectorRun x 0x22 fnVcmplt s)

/-- VCMPLE (R77). -/
def execVcmple (x : CtxId) (s : State) : Host.Outcome State Fault Refusal := .next (vectorRun x 0x23 fnVcmple s)

/-- VCMPGT (R77). -/
def execVcmpgt (x : CtxId) (s : State) : Host.Outcome State Fault Refusal := .next (vectorRun x 0x24 fnVcmpgt s)

/-- VCMPGE (R77). -/
def execVcmpge (x : CtxId) (s : State) : Host.Outcome State Fault Refusal := .next (vectorRun x 0x25 fnVcmpge s)

/-- VCMPUN (R77). -/
def execVcmpun (x : CtxId) (s : State) : Host.Outcome State Fault Refusal := .next (vectorRun x 0x26 fnVcmpun s)

/-- VCMPOR (R77). -/
def execVcmpor (x : CtxId) (s : State) : Host.Outcome State Fault Refusal := .next (vectorRun x 0x27 fnVcmpor s)

/-- VSEL: M ? A : B (R77). -/
def execVsel (x : CtxId) (s : State) : Host.Outcome State Fault Refusal := .next (vectorRun x 0x28 fnVsel s)

/-- VCOMP: the selected elements packed (R77). -/
def execVcomp (x : CtxId) (s : State) : Host.Outcome State Fault Refusal := .next (vectorRun x 0x29 fnVcomp s)

/-- VEXPD: elements placed where M = 1 (R77). -/
def execVexpd (x : CtxId) (s : State) : Host.Outcome State Fault Refusal := .next (vectorRun x 0x2A fnVexpd s)

/-- VMCNT: the number of ones (R77). -/
def execVmcnt (x : CtxId) (s : State) : Host.Outcome State Fault Refusal := .next (vectorRun x 0x2B fnVmcnt s)

/-- VMFIRST: the index of the first 1 (R77). -/
def execVmfirst (x : CtxId) (s : State) : Host.Outcome State Fault Refusal := .next (vectorRun x 0x2C fnVmfirst s)

/-- VIOTA: D = i (R77). -/
def execViota (x : CtxId) (s : State) : Host.Outcome State Fault Refusal := .next (vectorRun x 0x2D fnViota s)

/-- VCLASS: the class bit of A (R77). -/
def execVclass (x : CtxId) (s : State) : Host.Outcome State Fault Refusal := .next (vectorRun x 0x2E fnVclass s)

/-- VZCROSS: 1 where the sign changes (R77). -/
def execVzcross (x : CtxId) (s : State) : Host.Outcome State Fault Refusal := .next (vectorRun x 0x2F fnVzcross s)

/-- VCVT: A in the type of D (R77). -/
def execVcvt (x : CtxId) (s : State) : Host.Outcome State Fault Refusal := .next (vectorRun x 0x30 fnVcvt s)

/-- VCVTX: A × 2^s in the type of D (R77). -/
def execVcvtx (x : CtxId) (s : State) : Host.Outcome State Fault Refusal := .next (vectorRun x 0x31 fnVcvtx s)

/-- VRINT: A rounded to an integral value (R77). -/
def execVrint (x : CtxId) (s : State) : Host.Outcome State Fault Refusal := .next (vectorRun x 0x32 fnVrint s)

/-- VSCALE: A × 2^B (R77). -/
def execVscale (x : CtxId) (s : State) : Host.Outcome State Fault Refusal := .next (vectorRun x 0x33 fnVscale s)

/-- VLOGB: the unbiased exponent of A (R77). -/
def execVlogb (x : CtxId) (s : State) : Host.Outcome State Fault Refusal := .next (vectorRun x 0x34 fnVlogb s)

/-- VMSBF: ones before the first 1 (R77). -/
def execVmsbf (x : CtxId) (s : State) : Host.Outcome State Fault Refusal := .next (vectorRun x 0x36 fnVmsbf s)

/-- VMSIF: ones up to and including the first 1 (R77). -/
def execVmsif (x : CtxId) (s : State) : Host.Outcome State Fault Refusal := .next (vectorRun x 0x37 fnVmsif s)

/-- VMULW: A × B at twice the width (R77). -/
def execVmulw (x : CtxId) (s : State) : Host.Outcome State Fault Refusal := .next (vectorRun x 0x38 fnVmulw s)

/-- VMACW: C + A × B at twice the width (R77). -/
def execVmacw (x : CtxId) (s : State) : Host.Outcome State Fault Refusal := .next (vectorRun x 0x39 fnVmacw s)

/-- VMULWSU: signed A × unsigned B at twice the width (R77). -/
def execVmulwsu (x : CtxId) (s : State) : Host.Outcome State Fault Refusal := .next (vectorRun x 0x3A fnVmulwsu s)

/-- VSQRW: A × A at twice the width (R77). -/
def execVsqrw (x : CtxId) (s : State) : Host.Outcome State Fault Refusal := .next (vectorRun x 0x3B fnVsqrw s)

/-- VDOTW: sums of A × B (R77). -/
def execVdotw (x : CtxId) (s : State) : Host.Outcome State Fault Refusal := .next (vectorRun x 0x3C fnVdotw s)

/-- VDOTWA: C + sums of A × B (R77). -/
def execVdotwa (x : CtxId) (s : State) : Host.Outcome State Fault Refusal := .next (vectorRun x 0x3D fnVdotwa s)

/-- VDOTWSU: sums of signed A × unsigned B (R77). -/
def execVdotwsu (x : CtxId) (s : State) : Host.Outcome State Fault Refusal := .next (vectorRun x 0x3E fnVdotwsu s)

/-- VSUMW: sums of A (R77). -/
def execVsumw (x : CtxId) (s : State) : Host.Outcome State Fault Refusal := .next (vectorRun x 0x3F fnVsumw s)

/-- VEXDOT: EA += Σ A × B (R77). -/
def execVexdot (x : CtxId) (s : State) : Host.Outcome State Fault Refusal := .next (vectorRun x 0x40 fnVexdot s)

/-- VEXDOTN: EA −= Σ A × B (R77). -/
def execVexdotn (x : CtxId) (s : State) : Host.Outcome State Fault Refusal := .next (vectorRun x 0x41 fnVexdotn s)

/-- VEXSUM: EA += Σ A (R77). -/
def execVexsum (x : CtxId) (s : State) : Host.Outcome State Fault Refusal := .next (vectorRun x 0x42 fnVexsum s)

/-- VEXSSQ: EA += Σ A × A (R77). -/
def execVexssq (x : CtxId) (s : State) : Host.Outcome State Fault Refusal := .next (vectorRun x 0x43 fnVexssq s)

/-- VEXCDOT: complex products into two accumulators (R77). -/
def execVexcdot (x : CtxId) (s : State) : Host.Outcome State Fault Refusal := .next (vectorRun x 0x44 fnVexcdot s)

/-- VEACLR: EA = 0 (R77). -/
def execVeaclr (x : CtxId) (s : State) : Host.Outcome State Fault Refusal := .next (vectorRun x 0x45 fnVeaclr s)

/-- VEARD: D[0] = EA rounded once (R77). -/
def execVeard (x : CtxId) (s : State) : Host.Outcome State Fault Refusal := .next (vectorRun x 0x46 fnVeard s)

/-- VEAWR: EA = the exact value of A[0] (R77). -/
def execVeawr (x : CtxId) (s : State) : Host.Outcome State Fault Refusal := .next (vectorRun x 0x47 fnVeawr s)

/-- VEAADD: EA += EA(IMM[2:0]) (R77). -/
def execVeaadd (x : CtxId) (s : State) : Host.Outcome State Fault Refusal := .next (vectorRun x 0x48 fnVeaadd s)

/-- VEXSUMA: EA += Σ |A| (R77). -/
def execVexsuma (x : CtxId) (s : State) : Host.Outcome State Fault Refusal := .next (vectorRun x 0x49 fnVexsuma s)

/-- VEXDIFF2: EA += Σ (A − B)² (R77). -/
def execVexdiff2 (x : CtxId) (s : State) : Host.Outcome State Fault Refusal := .next (vectorRun x 0x4A fnVexdiff2 s)

/-- VSCANADD: running sums (R77). -/
def execVscanadd (x : CtxId) (s : State) : Host.Outcome State Fault Refusal := .next (vectorRun x 0x50 fnVscanadd s)

/-- VSCANMIN: running minima (R77). -/
def execVscanmin (x : CtxId) (s : State) : Host.Outcome State Fault Refusal := .next (vectorRun x 0x51 fnVscanmin s)

/-- VSCANMAX: running maxima (R77). -/
def execVscanmax (x : CtxId) (s : State) : Host.Outcome State Fault Refusal := .next (vectorRun x 0x52 fnVscanmax s)

/-- VSCANXOR: running XOR (R77). -/
def execVscanxor (x : CtxId) (s : State) : Host.Outcome State Fault Refusal := .next (vectorRun x 0x53 fnVscanxor s)

/-- VREDMIN: the minimum (R77). -/
def execVredmin (x : CtxId) (s : State) : Host.Outcome State Fault Refusal := .next (vectorRun x 0x54 fnVredmin s)

/-- VREDMAX: the maximum (R77). -/
def execVredmax (x : CtxId) (s : State) : Host.Outcome State Fault Refusal := .next (vectorRun x 0x55 fnVredmax s)

/-- VREDOR: the OR of all A (R77). -/
def execVredor (x : CtxId) (s : State) : Host.Outcome State Fault Refusal := .next (vectorRun x 0x56 fnVredor s)

/-- VREDAND: the AND of all A (R77). -/
def execVredand (x : CtxId) (s : State) : Host.Outcome State Fault Refusal := .next (vectorRun x 0x57 fnVredand s)

/-- VARGMIN: the index of the first minimum (R77). -/
def execVargmin (x : CtxId) (s : State) : Host.Outcome State Fault Refusal := .next (vectorRun x 0x58 fnVargmin s)

/-- VARGMAX: the index of the first maximum (R77). -/
def execVargmax (x : CtxId) (s : State) : Host.Outcome State Fault Refusal := .next (vectorRun x 0x59 fnVargmax s)

/-- VREDXOR: the XOR of all A (R77). -/
def execVredxor (x : CtxId) (s : State) : Host.Outcome State Fault Refusal := .next (vectorRun x 0x5A fnVredxor s)

/-- VREDSUM: the sum of all A, wrapping (R77). -/
def execVredsum (x : CtxId) (s : State) : Host.Outcome State Fault Refusal := .next (vectorRun x 0x5B fnVredsum s)

/-- VFIR (R77). -/
def execVfir (x : CtxId) (s : State) : Host.Outcome State Fault Refusal := .next (vectorRun x 0x60 fnVfir s)

/-- VFIRD (R77). -/
def execVfird (x : CtxId) (s : State) : Host.Outcome State Fault Refusal := .next (vectorRun x 0x61 fnVfird s)

/-- VCMUL: A × B, complex (R77). -/
def execVcmul (x : CtxId) (s : State) : Host.Outcome State Fault Refusal := .next (vectorRun x 0x62 fnVcmul s)

/-- VCMULC: A × conj(B) (R77). -/
def execVcmulc (x : CtxId) (s : State) : Host.Outcome State Fault Refusal := .next (vectorRun x 0x63 fnVcmulc s)

/-- VCMAC: C + A × B, complex (R77). -/
def execVcmac (x : CtxId) (s : State) : Host.Outcome State Fault Refusal := .next (vectorRun x 0x64 fnVcmac s)

/-- VCABS2: Re(A)² + Im(A)² (R77). -/
def execVcabs2 (x : CtxId) (s : State) : Host.Outcome State Fault Refusal := .next (vectorRun x 0x65 fnVcabs2 s)

/-- VFFT4 (R77). -/
def execVfft4 (x : CtxId) (s : State) : Host.Outcome State Fault Refusal := .next (vectorRun x 0x66 fnVfft4 s)

/-- VIFFT4 (R77). -/
def execVifft4 (x : CtxId) (s : State) : Host.Outcome State Fault Refusal := .next (vectorRun x 0x67 fnVifft4 s)

/-- VFFT2 (R77). -/
def execVfft2 (x : CtxId) (s : State) : Host.Outcome State Fault Refusal := .next (vectorRun x 0x68 fnVfft2 s)

/-- VCONJ: conj(A) (R77). -/
def execVconj (x : CtxId) (s : State) : Host.Outcome State Fault Refusal := .next (vectorRun x 0x69 fnVconj s)

/-- VLERP: A + (B − A) × C (R77). -/
def execVlerp (x : CtxId) (s : State) : Host.Outcome State Fault Refusal := .next (vectorRun x 0x6A fnVlerp s)

/-- VDIFF: A[i] − A[i − 1] (R77). -/
def execVdiff (x : CtxId) (s : State) : Host.Outcome State Fault Refusal := .next (vectorRun x 0x6B fnVdiff s)

/-- VCMAG: |A| of a complex A (R77). -/
def execVcmag (x : CtxId) (s : State) : Host.Outcome State Fault Refusal := .next (vectorRun x 0x6C fnVcmag s)

/-- VDIV: A / B (R77). -/
def execVdiv (x : CtxId) (s : State) : Host.Outcome State Fault Refusal := .next (vectorRun x 0x70 fnVdiv s)

/-- VSQRT: √A (R77). -/
def execVsqrt (x : CtxId) (s : State) : Host.Outcome State Fault Refusal := .next (vectorRun x 0x71 fnVsqrt s)

/-- VRSQRT: 1 / √A (R77). -/
def execVrsqrt (x : CtxId) (s : State) : Host.Outcome State Fault Refusal := .next (vectorRun x 0x72 fnVrsqrt s)

/-- VREC: 1 / A (R77). -/
def execVrec (x : CtxId) (s : State) : Host.Outcome State Fault Refusal := .next (vectorRun x 0x73 fnVrec s)

/-- VMOD: the remainder (R77). -/
def execVmod (x : CtxId) (s : State) : Host.Outcome State Fault Refusal := .next (vectorRun x 0x74 fnVmod s)

/-- VADDS: A + B, saturating (R77). -/
def execVadds (x : CtxId) (s : State) : Host.Outcome State Fault Refusal := .next (vectorRun x 0x78 fnVadds s)

/-- VSUBS: A − B, saturating (R77). -/
def execVsubs (x : CtxId) (s : State) : Host.Outcome State Fault Refusal := .next (vectorRun x 0x79 fnVsubs s)

/-- VMULS: A × B, saturating (R77). -/
def execVmuls (x : CtxId) (s : State) : Host.Outcome State Fault Refusal := .next (vectorRun x 0x7A fnVmuls s)

/-- VNEGS: −A, saturating (R77). -/
def execVnegs (x : CtxId) (s : State) : Host.Outcome State Fault Refusal := .next (vectorRun x 0x7B fnVnegs s)

/-- VABSS: |A|, saturating (R77). -/
def execVabss (x : CtxId) (s : State) : Host.Outcome State Fault Refusal := .next (vectorRun x 0x7C fnVabss s)

/-- VSHLS: A shifted left by c, saturating (R77). -/
def execVshls (x : CtxId) (s : State) : Host.Outcome State Fault Refusal := .next (vectorRun x 0x7D fnVshls s)

/-- VRSHR: the rounding shift right (R77). -/
def execVrshr (x : CtxId) (s : State) : Host.Outcome State Fault Refusal := .next (vectorRun x 0x7E fnVrshr s)

/-- VMACS: C + A × B, saturating (R77). -/
def execVmacs (x : CtxId) (s : State) : Host.Outcome State Fault Refusal := .next (vectorRun x 0x7F fnVmacs s)

end Sys2Proof.Machine
end

