-- ==== Sys2Proof/Machine/Dispatch.lean ====
section
/-! DEFINITION. What each command does: one arm per row of the operation table, in its order. -/
namespace Sys2Proof.Machine

/-- The effect of a command on everything but the queue. -/
def exec (i : Instr) (s : State) : Host.Outcome State Fault Refusal :=
  match i with
  | .prstNRelease nvm => Sys2Proof.Machine.execPrstNRelease nvm s
  | .prstNAssert => Sys2Proof.Machine.execPrstNAssert s
  | .srstN => Sys2Proof.Machine.execSrstN s
  | .bootRetry => Sys2Proof.Machine.execBootRetry s
  | .cfgEnd => Sys2Proof.Machine.execCfgEnd s
  | .cfgWrite => Sys2Proof.Machine.execCfgWrite s
  | .cfgWait => Sys2Proof.Machine.execCfgWait s
  | .cfgWaitTimeout => Sys2Proof.Machine.execCfgWaitTimeout s
  | .cfgDelay => Sys2Proof.Machine.execCfgDelay s
  | .cfgDelayExpiry => Sys2Proof.Machine.execCfgDelayExpiry s
  | .cfgSkip => Sys2Proof.Machine.execCfgSkip s
  | .cfgop => Sys2Proof.Machine.execCfgop s
  | .miuSelftestDone erg si dmc => Sys2Proof.Machine.execMiuSelftestDone erg si dmc s
  | .pllLock p => Sys2Proof.Machine.execPllLock p s
  | .regWrite m core pa v => Sys2Proof.Machine.execRegWrite m core pa v s
  | .xbmRead m core pa len id => Sys2Proof.Machine.execXbmRead m core pa len id s
  | .xbmWrite m core pa data id coll => Sys2Proof.Machine.execXbmWrite m core pa data id coll s
  | .xbmAtomic m core pa fn v id coll => Sys2Proof.Machine.execXbmAtomic m core pa fn v id coll s
  | .xbmResponse m id => Sys2Proof.Machine.execXbmResponse m id s
  | .xbmTimeout m id => Sys2Proof.Machine.execXbmTimeout m id s
  | .xbmAgeExpiry m id => Sys2Proof.Machine.execXbmAgeExpiry m id s
  | .detResponseRelease m id => Sys2Proof.Machine.execDetResponseRelease m id s
  | .ceWriteback bank => Sys2Proof.Machine.execCeWriteback bank s
  | .scrubRow => Sys2Proof.Machine.execScrubRow s
  | .scrubLapEnd => Sys2Proof.Machine.execScrubLapEnd s
  | .lapslow => Sys2Proof.Machine.execLapslow s
  | .ergBgctlOos m mask => Sys2Proof.Machine.execErgBgctlOos m mask s
  | .bankGroupLeaveService g => Sys2Proof.Machine.execBankGroupLeaveService g s
  | .ergInitFill m mask => Sys2Proof.Machine.execErgInitFill m mask s
  | .zeroFillStart g => Sys2Proof.Machine.execZeroFillStart g s
  | .zeroFillDone g => Sys2Proof.Machine.execZeroFillDone g s
  | .bankGroupReady g => Sys2Proof.Machine.execBankGroupReady g s
  | .ergHashWrite m v => Sys2Proof.Machine.execErgHashWrite m v s
  | .ergXqosWrite m v => Sys2Proof.Machine.execErgXqosWrite m v s
  | .miuInjArm m => Sys2Proof.Machine.execMiuInjArm m s
  | .dmcEnable m v => Sys2Proof.Machine.execDmcEnable m v s
  | .dmcTrainingDone fail => Sys2Proof.Machine.execDmcTrainingDone fail s
  | .dmcCapWrite m v => Sys2Proof.Machine.execDmcCapWrite m v s
  | .dmcPatrolRead ch => Sys2Proof.Machine.execDmcPatrolRead ch s
  | .tableWalkDone w => Sys2Proof.Machine.execTableWalkDone w s
  | .tlbi c ga gb ty => Sys2Proof.Machine.execTlbi c ga gb ty s
  | .tlbiWalksDone c => Sys2Proof.Machine.execTlbiWalksDone c s
  | .vinv c ga gb ty => Sys2Proof.Machine.execVinv c ga gb ty s
  | .vinvRelease c => Sys2Proof.Machine.execVinvRelease c s
  | .icuEvent n => Sys2Proof.Machine.execIcuEvent n s
  | .iclaimn c d => Sys2Proof.Machine.execIclaimn c d s
  | .iclaimf c d => Sys2Proof.Machine.execIclaimf c d s
  | .icomplete c a => Sys2Proof.Machine.execIcomplete c a s
  | .icuSwi m v => Sys2Proof.Machine.execIcuSwi m v s
  | .intN c => Sys2Proof.Machine.execIntN c s
  | .intF c => Sys2Proof.Machine.execIntF c s
  | .storeErr c => Sys2Proof.Machine.execStoreErr c s
  | .fptrap c => Sys2Proof.Machine.execFptrap c s
  | .holdWindowEnd c => Sys2Proof.Machine.execHoldWindowEnd c s
  | .gateProbeTimeout c => Sys2Proof.Machine.execGateProbeTimeout c s
  | .loopCountExpiry c => Sys2Proof.Machine.execLoopCountExpiry c s
  | .svuPowerDown c => Sys2Proof.Machine.execSvuPowerDown c s
  | .svuWakeDone c => Sys2Proof.Machine.execSvuWakeDone c s
  | .fcsrWrite c a => Sys2Proof.Machine.execFcsrWrite c a s
  | .vbaseWrite c sup a => Sys2Proof.Machine.execVbaseWrite c sup a s
  | .lctlWrite c a => Sys2Proof.Machine.execLctlWrite c a s
  | .ctxModeWrite c a => Sys2Proof.Machine.execCtxModeWrite c a s
  | .add c d a b => Sys2Proof.Machine.execAdd c d a b s
  | .sub c d a b => Sys2Proof.Machine.execSub c d a b s
  | .and c d a b => Sys2Proof.Machine.execAnd c d a b s
  | .or c d a b => Sys2Proof.Machine.execOr c d a b s
  | .xor c d a b => Sys2Proof.Machine.execXor c d a b s
  | .andn c d a b => Sys2Proof.Machine.execAndn c d a b s
  | .slt c d a b => Sys2Proof.Machine.execSlt c d a b s
  | .sltu c d a b => Sys2Proof.Machine.execSltu c d a b s
  | .shl c d a b => Sys2Proof.Machine.execShl c d a b s
  | .shr c d a b => Sys2Proof.Machine.execShr c d a b s
  | .sra c d a b => Sys2Proof.Machine.execSra c d a b s
  | .ror c d a b => Sys2Proof.Machine.execRor c d a b s
  | .clz c d a => Sys2Proof.Machine.execClz c d a s
  | .popc c d a => Sys2Proof.Machine.execPopc c d a s
  | .sexb c d a => Sys2Proof.Machine.execSexb c d a s
  | .sexh c d a => Sys2Proof.Machine.execSexh c d a s
  | .min c d a b => Sys2Proof.Machine.execMin c d a b s
  | .max c d a b => Sys2Proof.Machine.execMax c d a b s
  | .minu c d a b => Sys2Proof.Machine.execMinu c d a b s
  | .maxu c d a b => Sys2Proof.Machine.execMaxu c d a b s
  | .addi c d a imm => Sys2Proof.Machine.execAddi c d a imm s
  | .andi c d a imm => Sys2Proof.Machine.execAndi c d a imm s
  | .ori c d a imm => Sys2Proof.Machine.execOri c d a imm s
  | .xori c d a imm => Sys2Proof.Machine.execXori c d a imm s
  | .slti c d a imm => Sys2Proof.Machine.execSlti c d a imm s
  | .sltiu c d a imm => Sys2Proof.Machine.execSltiu c d a imm s
  | .lui c d imm => Sys2Proof.Machine.execLui c d imm s
  | .shi c d a op cnt => Sys2Proof.Machine.execShi c d a op cnt s
  | .mul c d a b => Sys2Proof.Machine.execMul c d a b s
  | .mulh c d a b => Sys2Proof.Machine.execMulh c d a b s
  | .mulhu c d a b => Sys2Proof.Machine.execMulhu c d a b s
  | .div c d a b => Sys2Proof.Machine.execDiv c d a b s
  | .divu c d a b => Sys2Proof.Machine.execDivu c d a b s
  | .rem c d a b => Sys2Proof.Machine.execRem c d a b s
  | .remu c d a b => Sys2Proof.Machine.execRemu c d a b s
  | .ldb c d a imm => Sys2Proof.Machine.execLdb c d a imm s
  | .ldbu c d a imm => Sys2Proof.Machine.execLdbu c d a imm s
  | .ldh c d a imm => Sys2Proof.Machine.execLdh c d a imm s
  | .ldhu c d a imm => Sys2Proof.Machine.execLdhu c d a imm s
  | .ldw c d a imm => Sys2Proof.Machine.execLdw c d a imm s
  | .stb c d a imm => Sys2Proof.Machine.execStb c d a imm s
  | .sth c d a imm => Sys2Proof.Machine.execSth c d a imm s
  | .stw c d a imm => Sys2Proof.Machine.execStw c d a imm s
  | .flds c d a imm => Sys2Proof.Machine.execFlds c d a imm s
  | .fldd c d a imm => Sys2Proof.Machine.execFldd c d a imm s
  | .fsts c d a imm => Sys2Proof.Machine.execFsts c d a imm s
  | .fstd c d a imm => Sys2Proof.Machine.execFstd c d a imm s
  | .atomSwap c d a b => Sys2Proof.Machine.execAtomSwap c d a b s
  | .atomAdd c d a b => Sys2Proof.Machine.execAtomAdd c d a b s
  | .atomAnd c d a b => Sys2Proof.Machine.execAtomAnd c d a b s
  | .atomOr c d a b => Sys2Proof.Machine.execAtomOr c d a b s
  | .br c off => Sys2Proof.Machine.execBr c off s
  | .call c off => Sys2Proof.Machine.execCall c off s
  | .beq c a b off => Sys2Proof.Machine.execBeq c a b off s
  | .bne c a b off => Sys2Proof.Machine.execBne c a b off s
  | .blt c a b off => Sys2Proof.Machine.execBlt c a b off s
  | .bge c a b off => Sys2Proof.Machine.execBge c a b off s
  | .bltu c a b off => Sys2Proof.Machine.execBltu c a b off s
  | .bgeu c a b off => Sys2Proof.Machine.execBgeu c a b off s
  | .jmpr c d a imm => Sys2Proof.Machine.execJmpr c d a imm s
  | .callm c a mask => Sys2Proof.Machine.execCallm c a mask s
  | .retm c => Sys2Proof.Machine.execRetm c s
  | .loop c gc n1 => Sys2Proof.Machine.execLoop c gc n1 s
  | .fills c sz dstep => Sys2Proof.Machine.execFills c sz dstep s
  | .movs c sz sstep dstep => Sys2Proof.Machine.execMovs c sz sstep dstep s
  | .scans c sz sstep cond => Sys2Proof.Machine.execScans c sz sstep cond s
  | .cmps c sz sstep dstep => Sys2Proof.Machine.execCmps c sz sstep dstep s
  | .fadd c d a b rm p => Sys2Proof.Machine.execFadd c d a b rm p s
  | .fsub c d a b rm p => Sys2Proof.Machine.execFsub c d a b rm p s
  | .fmul c d a b rm p => Sys2Proof.Machine.execFmul c d a b rm p s
  | .fdiv c d a b rm p => Sys2Proof.Machine.execFdiv c d a b rm p s
  | .fsqrt c d a rm p => Sys2Proof.Machine.execFsqrt c d a rm p s
  | .fmin c d a b rm p => Sys2Proof.Machine.execFmin c d a b rm p s
  | .fmax c d a b rm p => Sys2Proof.Machine.execFmax c d a b rm p s
  | .fcvt c d a rm p => Sys2Proof.Machine.execFcvt c d a rm p s
  | .fcvts c d a rm p => Sys2Proof.Machine.execFcvts c d a rm p s
  | .fcvtu c d a rm p => Sys2Proof.Machine.execFcvtu c d a rm p s
  | .fcvtfs c d a rm p => Sys2Proof.Machine.execFcvtfs c d a rm p s
  | .fcvtfu c d a rm p => Sys2Proof.Machine.execFcvtfu c d a rm p s
  | .fcmpeq c d a b rm p => Sys2Proof.Machine.execFcmpeq c d a b rm p s
  | .fcmplt c d a b rm p => Sys2Proof.Machine.execFcmplt c d a b rm p s
  | .fcmple c d a b rm p => Sys2Proof.Machine.execFcmple c d a b rm p s
  | .fclass c d a rm p => Sys2Proof.Machine.execFclass c d a rm p s
  | .fmvgf c d a rm p => Sys2Proof.Machine.execFmvgf c d a rm p s
  | .fmvfg c d a rm p => Sys2Proof.Machine.execFmvfg c d a rm p s
  | .fma c d a b e rm p => Sys2Proof.Machine.execFma c d a b e rm p s
  | .fms c d a b e rm p => Sys2Proof.Machine.execFms c d a b e rm p s
  | .fnma c d a b e rm p => Sys2Proof.Machine.execFnma c d a b e rm p s
  | .fnms c d a b e rm p => Sys2Proof.Machine.execFnms c d a b e rm p s
  | .srr c d sr => Sys2Proof.Machine.execSrr c d sr s
  | .srw c sr a => Sys2Proof.Machine.execSrw c sr a s
  | .fsync c => Sys2Proof.Machine.execFsync c s
  | .vsync c => Sys2Proof.Machine.execVsync c s
  | .gate c n => Sys2Proof.Machine.execGate c n s
  | .mret c => Sys2Proof.Machine.execMret c s
  | .sret c => Sys2Proof.Machine.execSret c s
  | .wait c => Sys2Proof.Machine.execWait c s
  | .brk c => Sys2Proof.Machine.execBrk c s
  | .holdi c k => Sys2Proof.Machine.execHoldi c k s
  | .qadd c d a b ty rm => Sys2Proof.Machine.execQadd c d a b ty rm s
  | .qsub c d a b ty rm => Sys2Proof.Machine.execQsub c d a b ty rm s
  | .qmul c d a b ty rm => Sys2Proof.Machine.execQmul c d a b ty rm s
  | .qmin c d a b ty rm => Sys2Proof.Machine.execQmin c d a b ty rm s
  | .qmax c d a b ty rm => Sys2Proof.Machine.execQmax c d a b ty rm s
  | .qabs c d a b ty rm => Sys2Proof.Machine.execQabs c d a b ty rm s
  | .qneg c d a b ty rm => Sys2Proof.Machine.execQneg c d a b ty rm s
  | .qabsd c d a b ty rm => Sys2Proof.Machine.execQabsd c d a b ty rm s
  | .qfma c d a b ty rm => Sys2Proof.Machine.execQfma c d a b ty rm s
  | .qfms c d a b ty rm => Sys2Proof.Machine.execQfms c d a b ty rm s
  | .qmacs c d a b ty rm => Sys2Proof.Machine.execQmacs c d a b ty rm s
  | .qmsubs c d a b ty rm => Sys2Proof.Machine.execQmsubs c d a b ty rm s
  | .qadds c d a b ty rm => Sys2Proof.Machine.execQadds c d a b ty rm s
  | .qsubs c d a b ty rm => Sys2Proof.Machine.execQsubs c d a b ty rm s
  | .qmuls c d a b ty rm => Sys2Proof.Machine.execQmuls c d a b ty rm s
  | .qrshr c d a b ty rm => Sys2Proof.Machine.execQrshr c d a b ty rm s
  | .qand c d a b ty rm => Sys2Proof.Machine.execQand c d a b ty rm s
  | .qor c d a b ty rm => Sys2Proof.Machine.execQor c d a b ty rm s
  | .qxor c d a b ty rm => Sys2Proof.Machine.execQxor c d a b ty rm s
  | .qandn c d a b ty rm => Sys2Proof.Machine.execQandn c d a b ty rm s
  | .qshl c d a b ty rm => Sys2Proof.Machine.execQshl c d a b ty rm s
  | .qshr c d a b ty rm => Sys2Proof.Machine.execQshr c d a b ty rm s
  | .qsra c d a b ty rm => Sys2Proof.Machine.execQsra c d a b ty rm s
  | .qrol c d a b ty rm => Sys2Proof.Machine.execQrol c d a b ty rm s
  | .qcmpeq c d a b ty rm => Sys2Proof.Machine.execQcmpeq c d a b ty rm s
  | .qcmpne c d a b ty rm => Sys2Proof.Machine.execQcmpne c d a b ty rm s
  | .qcmplt c d a b ty rm => Sys2Proof.Machine.execQcmplt c d a b ty rm s
  | .qcmple c d a b ty rm => Sys2Proof.Machine.execQcmple c d a b ty rm s
  | .qcmpgt c d a b ty rm => Sys2Proof.Machine.execQcmpgt c d a b ty rm s
  | .qcmpge c d a b ty rm => Sys2Proof.Machine.execQcmpge c d a b ty rm s
  | .qsel c d a b ty rm => Sys2Proof.Machine.execQsel c d a b ty rm s
  | .qzipl c d a b ty rm => Sys2Proof.Machine.execQzipl c d a b ty rm s
  | .qziph c d a b ty rm => Sys2Proof.Machine.execQziph c d a b ty rm s
  | .quzpe c d a b ty rm => Sys2Proof.Machine.execQuzpe c d a b ty rm s
  | .quzpo c d a b ty rm => Sys2Proof.Machine.execQuzpo c d a b ty rm s
  | .qdup c d a b ty rm => Sys2Proof.Machine.execQdup c d a b ty rm s
  | .qcvt c d a b ty rm => Sys2Proof.Machine.execQcvt c d a b ty rm s
  | .qcvtn c d a b ty rm => Sys2Proof.Machine.execQcvtn c d a b ty rm s
  | .qmulwl c d a b ty rm => Sys2Proof.Machine.execQmulwl c d a b ty rm s
  | .qmulwh c d a b ty rm => Sys2Proof.Machine.execQmulwh c d a b ty rm s
  | .qmacwl c d a b ty rm => Sys2Proof.Machine.execQmacwl c d a b ty rm s
  | .qmacwh c d a b ty rm => Sys2Proof.Machine.execQmacwh c d a b ty rm s
  | .qdot c d a b ty rm => Sys2Proof.Machine.execQdot c d a b ty rm s
  | .qdotsu c d a b ty rm => Sys2Proof.Machine.execQdotsu c d a b ty rm s
  | .ldq c d a off => Sys2Proof.Machine.execLdq c d a off s
  | .stq c d a off => Sys2Proof.Machine.execStq c d a off s
  | .lds2 c d a esz off => Sys2Proof.Machine.execLds2 c d a esz off s
  | .lds3 c d a esz off => Sys2Proof.Machine.execLds3 c d a esz off s
  | .lds4 c d a esz off => Sys2Proof.Machine.execLds4 c d a esz off s
  | .sts2 c d a esz off => Sys2Proof.Machine.execSts2 c d a esz off s
  | .sts3 c d a esz off => Sys2Proof.Machine.execSts3 c d a esz off s
  | .sts4 c d a esz off => Sys2Proof.Machine.execSts4 c d a esz off s
  | .vsd c gs gt sd w => Sys2Proof.Machine.execVsd c gs gt sd w s
  | .vldd c gs sd n1 => Sys2Proof.Machine.execVldd c gs sd n1 s
  | .descWriteRelease c => Sys2Proof.Machine.execDescWriteRelease c s
  | .vissue c gd gs gt => Sys2Proof.Machine.execVissue c gd gs gt s
  | .vissueQueueRoom c => Sys2Proof.Machine.execVissueQueueRoom c s
  | .vctxAlloc c gd => Sys2Proof.Machine.execVctxAlloc c gd s
  | .vctxFree c gd gs => Sys2Proof.Machine.execVctxFree c gd gs s
  | .vbind c gd gs => Sys2Proof.Machine.execVbind c gd gs s
  | .vfence c gs => Sys2Proof.Machine.execVfence c gs s
  | .vfenceRelease c => Sys2Proof.Machine.execVfenceRelease c s
  | .veaown c gd gs => Sys2Proof.Machine.execVeaown c gd gs s
  | .vcsave c gd gs gt => Sys2Proof.Machine.execVcsave c gd gs gt s
  | .vcrst c gd gs => Sys2Proof.Machine.execVcrst c gd gs s
  | .vsusp c gd gs => Sys2Proof.Machine.execVsusp c gd gs s
  | .vresume c gd gs gt => Sys2Proof.Machine.execVresume c gd gs gt s
  | .suspendEffect x => Sys2Proof.Machine.execSuspendEffect x s
  | .chainFullReport x => Sys2Proof.Machine.execChainFullReport x s
  | .groupSurvey x => Sys2Proof.Machine.execGroupSurvey x s
  | .surveyResume x => Sys2Proof.Machine.execSurveyResume x s
  | .elgInflightWaitEnd x => Sys2Proof.Machine.execElgInflightWaitEnd x s
  | .surveyTableClaim x => Sys2Proof.Machine.execSurveyTableClaim x s
  | .caravanSlotClaim x => Sys2Proof.Machine.execCaravanSlotClaim x s
  | .groupComplete x => Sys2Proof.Machine.execGroupComplete x s
  | .vcCrtailWrite m x v => Sys2Proof.Machine.execVcCrtailWrite m x v s
  | .vcCrbaseLoWrite m x v => Sys2Proof.Machine.execVcCrbaseLoWrite m x v s
  | .groupMchk x => Sys2Proof.Machine.execGroupMchk x s
  | .forcedPoll x => Sys2Proof.Machine.execForcedPoll x s
  | .vmsCserr uaddr => Sys2Proof.Machine.execVmsCserr uaddr s
  | .patchRamWriteback a => Sys2Proof.Machine.execPatchRamWriteback a s
  | .vmsLockSet m => Sys2Proof.Machine.execVmsLockSet m s
  | .vnop x => Sys2Proof.Machine.execVnop x s
  | .vadd x => Sys2Proof.Machine.execVadd x s
  | .vsub x => Sys2Proof.Machine.execVsub x s
  | .vmul x => Sys2Proof.Machine.execVmul x s
  | .vfma x => Sys2Proof.Machine.execVfma x s
  | .vfms x => Sys2Proof.Machine.execVfms x s
  | .vfnma x => Sys2Proof.Machine.execVfnma x s
  | .vfnms x => Sys2Proof.Machine.execVfnms x s
  | .vmin x => Sys2Proof.Machine.execVmin x s
  | .vmax x => Sys2Proof.Machine.execVmax x s
  | .vabs x => Sys2Proof.Machine.execVabs x s
  | .vneg x => Sys2Proof.Machine.execVneg x s
  | .vabsd x => Sys2Proof.Machine.execVabsd x s
  | .vcpy x => Sys2Proof.Machine.execVcpy x s
  | .vcpsgn x => Sys2Proof.Machine.execVcpsgn x s
  | .vclamp x => Sys2Proof.Machine.execVclamp x s
  | .vand x => Sys2Proof.Machine.execVand x s
  | .vor x => Sys2Proof.Machine.execVor x s
  | .vxor x => Sys2Proof.Machine.execVxor x s
  | .vandn x => Sys2Proof.Machine.execVandn x s
  | .vnot x => Sys2Proof.Machine.execVnot x s
  | .vshl x => Sys2Proof.Machine.execVshl x s
  | .vshr x => Sys2Proof.Machine.execVshr x s
  | .vsra x => Sys2Proof.Machine.execVsra x s
  | .vrol x => Sys2Proof.Machine.execVrol x s
  | .vror x => Sys2Proof.Machine.execVror x s
  | .vclz x => Sys2Proof.Machine.execVclz x s
  | .vpopc x => Sys2Proof.Machine.execVpopc x s
  | .vavg x => Sys2Proof.Machine.execVavg x s
  | .vmulh x => Sys2Proof.Machine.execVmulh x s
  | .vbswap x => Sys2Proof.Machine.execVbswap x s
  | .vbrev x => Sys2Proof.Machine.execVbrev x s
  | .vcmpeq x => Sys2Proof.Machine.execVcmpeq x s
  | .vcmpne x => Sys2Proof.Machine.execVcmpne x s
  | .vcmplt x => Sys2Proof.Machine.execVcmplt x s
  | .vcmple x => Sys2Proof.Machine.execVcmple x s
  | .vcmpgt x => Sys2Proof.Machine.execVcmpgt x s
  | .vcmpge x => Sys2Proof.Machine.execVcmpge x s
  | .vcmpun x => Sys2Proof.Machine.execVcmpun x s
  | .vcmpor x => Sys2Proof.Machine.execVcmpor x s
  | .vsel x => Sys2Proof.Machine.execVsel x s
  | .vcomp x => Sys2Proof.Machine.execVcomp x s
  | .vexpd x => Sys2Proof.Machine.execVexpd x s
  | .vmcnt x => Sys2Proof.Machine.execVmcnt x s
  | .vmfirst x => Sys2Proof.Machine.execVmfirst x s
  | .viota x => Sys2Proof.Machine.execViota x s
  | .vclass x => Sys2Proof.Machine.execVclass x s
  | .vzcross x => Sys2Proof.Machine.execVzcross x s
  | .vmsbf x => Sys2Proof.Machine.execVmsbf x s
  | .vmsif x => Sys2Proof.Machine.execVmsif x s
  | .vcvt x => Sys2Proof.Machine.execVcvt x s
  | .vcvtx x => Sys2Proof.Machine.execVcvtx x s
  | .vrint x => Sys2Proof.Machine.execVrint x s
  | .vscale x => Sys2Proof.Machine.execVscale x s
  | .vlogb x => Sys2Proof.Machine.execVlogb x s
  | .vmulw x => Sys2Proof.Machine.execVmulw x s
  | .vmacw x => Sys2Proof.Machine.execVmacw x s
  | .vmulwsu x => Sys2Proof.Machine.execVmulwsu x s
  | .vsqrw x => Sys2Proof.Machine.execVsqrw x s
  | .vdotw x => Sys2Proof.Machine.execVdotw x s
  | .vdotwa x => Sys2Proof.Machine.execVdotwa x s
  | .vdotwsu x => Sys2Proof.Machine.execVdotwsu x s
  | .vsumw x => Sys2Proof.Machine.execVsumw x s
  | .vexdot x => Sys2Proof.Machine.execVexdot x s
  | .vexdotn x => Sys2Proof.Machine.execVexdotn x s
  | .vexsum x => Sys2Proof.Machine.execVexsum x s
  | .vexssq x => Sys2Proof.Machine.execVexssq x s
  | .vexcdot x => Sys2Proof.Machine.execVexcdot x s
  | .veaclr x => Sys2Proof.Machine.execVeaclr x s
  | .veard x => Sys2Proof.Machine.execVeard x s
  | .veawr x => Sys2Proof.Machine.execVeawr x s
  | .veaadd x => Sys2Proof.Machine.execVeaadd x s
  | .vexsuma x => Sys2Proof.Machine.execVexsuma x s
  | .vexdiff2 x => Sys2Proof.Machine.execVexdiff2 x s
  | .vscanadd x => Sys2Proof.Machine.execVscanadd x s
  | .vscanmin x => Sys2Proof.Machine.execVscanmin x s
  | .vscanmax x => Sys2Proof.Machine.execVscanmax x s
  | .vscanxor x => Sys2Proof.Machine.execVscanxor x s
  | .vredmin x => Sys2Proof.Machine.execVredmin x s
  | .vredmax x => Sys2Proof.Machine.execVredmax x s
  | .vredor x => Sys2Proof.Machine.execVredor x s
  | .vredand x => Sys2Proof.Machine.execVredand x s
  | .vargmin x => Sys2Proof.Machine.execVargmin x s
  | .vargmax x => Sys2Proof.Machine.execVargmax x s
  | .vredxor x => Sys2Proof.Machine.execVredxor x s
  | .vredsum x => Sys2Proof.Machine.execVredsum x s
  | .vfir x => Sys2Proof.Machine.execVfir x s
  | .vfird x => Sys2Proof.Machine.execVfird x s
  | .vcmul x => Sys2Proof.Machine.execVcmul x s
  | .vcmulc x => Sys2Proof.Machine.execVcmulc x s
  | .vcmac x => Sys2Proof.Machine.execVcmac x s
  | .vcabs2 x => Sys2Proof.Machine.execVcabs2 x s
  | .vfft4 x => Sys2Proof.Machine.execVfft4 x s
  | .vifft4 x => Sys2Proof.Machine.execVifft4 x s
  | .vfft2 x => Sys2Proof.Machine.execVfft2 x s
  | .vconj x => Sys2Proof.Machine.execVconj x s
  | .vlerp x => Sys2Proof.Machine.execVlerp x s
  | .vdiff x => Sys2Proof.Machine.execVdiff x s
  | .vcmag x => Sys2Proof.Machine.execVcmag x s
  | .vdiv x => Sys2Proof.Machine.execVdiv x s
  | .vsqrt x => Sys2Proof.Machine.execVsqrt x s
  | .vrsqrt x => Sys2Proof.Machine.execVrsqrt x s
  | .vrec x => Sys2Proof.Machine.execVrec x s
  | .vmod x => Sys2Proof.Machine.execVmod x s
  | .vadds x => Sys2Proof.Machine.execVadds x s
  | .vsubs x => Sys2Proof.Machine.execVsubs x s
  | .vmuls x => Sys2Proof.Machine.execVmuls x s
  | .vnegs x => Sys2Proof.Machine.execVnegs x s
  | .vabss x => Sys2Proof.Machine.execVabss x s
  | .vshls x => Sys2Proof.Machine.execVshls x s
  | .vrshr x => Sys2Proof.Machine.execVrshr x s
  | .vmacs x => Sys2Proof.Machine.execVmacs x s
  | .evrEvent p joins => Sys2Proof.Machine.execEvrEvent p joins s
  | .evrCselWrite m cons v => Sys2Proof.Machine.execEvrCselWrite m cons v s
  | .evrSwp m v => Sys2Proof.Machine.execEvrSwp m v s
  | .evoutPulseEnd n => Sys2Proof.Machine.execEvoutPulseEnd n s
  | .mothclkCalWindow period => Sys2Proof.Machine.execMothclkCalWindow period s
  | .tbRateWrite m v => Sys2Proof.Machine.execTbRateWrite m v s
  | .tbAdjWrite m v => Sys2Proof.Machine.execTbAdjWrite m v s
  | .tbStep m v => Sys2Proof.Machine.execTbStep m v s
  | .wakeCompareFire n => Sys2Proof.Machine.execWakeCompareFire n s
  | .timerWrap n => Sys2Proof.Machine.execTimerWrap n s
  | .timerMatch n => Sys2Proof.Machine.execTimerMatch n s
  | .tmuGcmdStart m => Sys2Proof.Machine.execTmuGcmdStart m s
  | .tmuGcmdStop m => Sys2Proof.Machine.execTmuGcmdStop m s
  | .tmuGcmdResetStart m => Sys2Proof.Machine.execTmuGcmdResetStart m s
  | .mcFire k => Sys2Proof.Machine.execMcFire k s
  | .scFire k => Sys2Proof.Machine.execScFire k s
  | .captureEdge n rising => Sys2Proof.Machine.execCaptureEdge n rising s
  | .capNsHiRead m n => Sys2Proof.Machine.execCapNsHiRead m n s
  | .idlPortEnable m p v => Sys2Proof.Machine.execIdlPortEnable m p v s
  | .portStateAdvance p => Sys2Proof.Machine.execPortStateAdvance p s
  | .portStateTimeout p => Sys2Proof.Machine.execPortStateTimeout p s
  | .blockLockLoss p => Sys2Proof.Machine.execBlockLockLoss p s
  | .helloSilence p => Sys2Proof.Machine.execHelloSilence p s
  | .retrain m p => Sys2Proof.Machine.execRetrain m p s
  | .helloSend p => Sys2Proof.Machine.execHelloSend p s
  | .hello p h => Sys2Proof.Machine.execHello p h s
  | .linkAck p seq => Sys2Proof.Machine.execLinkAck p seq s
  | .linkRetry p seq => Sys2Proof.Machine.execLinkRetry p seq s
  | .packetForward p pkt => Sys2Proof.Machine.execPacketForward p pkt s
  | .read p pkt => Sys2Proof.Machine.execRead p pkt s
  | .write p pkt => Sys2Proof.Machine.execWrite p pkt s
  | .atomic p pkt => Sys2Proof.Machine.execAtomic p pkt s
  | .c0write p pkt => Sys2Proof.Machine.execC0write p pkt s
  | .rdresp p pkt => Sys2Proof.Machine.execRdresp p pkt s
  | .wrack p pkt => Sys2Proof.Machine.execWrack p pkt s
  | .nack p pkt => Sys2Proof.Machine.execNack p pkt s
  | .mgmt p pkt => Sys2Proof.Machine.execMgmt p pkt s
  | .mgmtdir p pkt => Sys2Proof.Machine.execMgmtdir p pkt s
  | .reservedPacket p pkt => Sys2Proof.Machine.execReservedPacket p pkt s
  | .remoteRequestTimeout tag => Sys2Proof.Machine.execRemoteRequestTimeout tag s
  | .idlMtxgo m => Sys2Proof.Machine.execIdlMtxgo m s
  | .idlNodeidWrite m v => Sys2Proof.Machine.execIdlNodeidWrite m v s
  | .c0Launch k => Sys2Proof.Machine.execC0Launch k s
  | .timeExchange t1 t2 t3 t4 => Sys2Proof.Machine.execTimeExchange t1 t2 t3 t4 s
  | .timeExchangeReply p => Sys2Proof.Machine.execTimeExchangeReply p s
  | .sceEnable m => Sys2Proof.Machine.execSceEnable m s
  | .sceBoundary => Sys2Proof.Machine.execSceBoundary s
  | .sceSwapReq m => Sys2Proof.Machine.execSceSwapReq m s
  | .sceCheckDone => Sys2Proof.Machine.execSceCheckDone s
  | .nop => Sys2Proof.Machine.execNop s
  | .sceGate => Sys2Proof.Machine.execSceGate s
  | .txtrig => Sys2Proof.Machine.execTxtrig s
  | .c0slot => Sys2Proof.Machine.execC0slot s
  | .sceEvent => Sys2Proof.Machine.execSceEvent s
  | .sceWrite => Sys2Proof.Machine.execSceWrite s
  | .sceWrerr pa resp => Sys2Proof.Machine.execSceWrerr pa resp s
  | .mvbmf => Sys2Proof.Machine.execMvbmf s
  | .cantx => Sys2Proof.Machine.execCantx s
  | .sgate => Sys2Proof.Machine.execSgate s
  | .sceBadact => Sys2Proof.Machine.execSceBadact s
  | .ethFrameReceive n frame crcOk => Sys2Proof.Machine.execEthFrameReceive n frame crcOk s
  | .ethFrameTransmit n q => Sys2Proof.Machine.execEthFrameTransmit n q s
  | .asSync offset rate => Sys2Proof.Machine.execAsSync offset rate s
  | .asSyncTimeout => Sys2Proof.Machine.execAsSyncTimeout s
  | .ttdp n => Sys2Proof.Machine.execTtdp n s
  | .mvbMasterFrame fcode addr => Sys2Proof.Machine.execMvbMasterFrame fcode addr s
  | .mvbSlaveFrame data disagree => Sys2Proof.Machine.execMvbSlaveFrame data disagree s
  | .mvbReplyTimeout => Sys2Proof.Machine.execMvbReplyTimeout s
  | .canFrameReceive c frame => Sys2Proof.Machine.execCanFrameReceive c frame s
  | .uartIdleTimeout u => Sys2Proof.Machine.execUartIdleTimeout u s
  | .uartTransmit u => Sys2Proof.Machine.execUartTransmit u s
  | .tncBypHold m v => Sys2Proof.Machine.execTncBypHold m v s
  | .bypwdKick m => Sys2Proof.Machine.execBypwdKick m s
  | .bypwdPeriodWrite m v => Sys2Proof.Machine.execBypwdPeriodWrite m v s
  | .bypWatchdogExpiry => Sys2Proof.Machine.execBypWatchdogExpiry s
  | .lockstepMismatch => Sys2Proof.Machine.execLockstepMismatch s
  | .siLsctlTest m => Sys2Proof.Machine.execSiLsctlTest m s
  | .siSscForce m v => Sys2Proof.Machine.execSiSscForce m v s
  | .siSscRelease m v => Sys2Proof.Machine.execSiSscRelease m v s
  | .siWdctlEn m v => Sys2Proof.Machine.execSiWdctlEn m v s
  | .siWdkick m v => Sys2Proof.Machine.execSiWdkick m v s
  | .wdwarn => Sys2Proof.Machine.execWdwarn s
  | .wdExpiry => Sys2Proof.Machine.execWdExpiry s
  | .clkmonWindow w => Sys2Proof.Machine.execClkmonWindow w s
  | .siA2sdbWrite m v => Sys2Proof.Machine.execSiA2sdbWrite m v s
  | .siS2adbWrite m v => Sys2Proof.Machine.execSiS2adbWrite m v s
  | .sicEvent n => Sys2Proof.Machine.execSicEvent n s
  | .pcuFuncWrite m n v => Sys2Proof.Machine.execPcuFuncWrite m n v s
  | .dozeEntry => Sys2Proof.Machine.execDozeEntry s
  | .dozeExit => Sys2Proof.Machine.execDozeExit s
  | .pmuSleepCocoon m core => Sys2Proof.Machine.execPmuSleepCocoon m core s
  | .pmuSleepDormant m core => Sys2Proof.Machine.execPmuSleepDormant m core s
  | .pmuSleepInvalid m core t => Sys2Proof.Machine.execPmuSleepInvalid m core t s
  | .sleepWaitTimeout => Sys2Proof.Machine.execSleepWaitTimeout s
  | .sleepEntry => Sys2Proof.Machine.execSleepEntry s
  | .wakeEvent src => Sys2Proof.Machine.execWakeEvent src s
  | .dormantWake k => Sys2Proof.Machine.execDormantWake k s
  | .elgRefill e => Sys2Proof.Machine.execElgRefill e s
  | .elgDormantSample e => Sys2Proof.Machine.execElgDormantSample e s
  | .elgPlimWindow e => Sys2Proof.Machine.execElgPlimWindow e s
  | .elgSnap m => Sys2Proof.Machine.execElgSnap m s
  | .elgCreditWrite m v => Sys2Proof.Machine.execElgCreditWrite m v s
  | .pwrfailNFall => Sys2Proof.Machine.execPwrfailNFall s
  | .pwrfailT0 => Sys2Proof.Machine.execPwrfailT0 s
  | .pfSafeSignal => Sys2Proof.Machine.execPfSafeSignal s
  | .pfBypassRelease => Sys2Proof.Machine.execPfBypassRelease s
  | .pfShutdown => Sys2Proof.Machine.execPfShutdown s
  | .pfRestart => Sys2Proof.Machine.execPfRestart s
  | .bcuCommit m => Sys2Proof.Machine.execBcuCommit m s
  | .bcuErase m => Sys2Proof.Machine.execBcuErase m s
  | .bcuProgram m => Sys2Proof.Machine.execBcuProgram m s
  | .bcuOpInvalid m => Sys2Proof.Machine.execBcuOpInvalid m s
  | .bcuStdone => Sys2Proof.Machine.execBcuStdone s
  | .bcuReady => Sys2Proof.Machine.execBcuReady s
  | .nvmOpDone => Sys2Proof.Machine.execNvmOpDone s
  | .nvmtmo => Sys2Proof.Machine.execNvmtmo s
  | .bcuRel m v => Sys2Proof.Machine.execBcuRel m v s
  | .ksuRevoke m v => Sys2Proof.Machine.execKsuRevoke m v s
  | .uartReceive u ch bad => Sys2Proof.Machine.execUartReceive u ch bad s
  | .uartTransmitDone u => Sys2Proof.Machine.execUartTransmitDone u s
  | .canFrameTransmit c b => Sys2Proof.Machine.execCanFrameTransmit c b s
  | .ethFrameTransmitDone n q => Sys2Proof.Machine.execEthFrameTransmitDone n q s
  | .ethLinkChange n up => Sys2Proof.Machine.execEthLinkChange n up s
  | .asPdelayRequest n => Sys2Proof.Machine.execAsPdelayRequest n s
  | .frerResetTimeout r => Sys2Proof.Machine.execFrerResetTimeout r s
  | .linkCrcError p => Sys2Proof.Machine.execLinkCrcError p s
  | .captureDeadTimeEnd n => Sys2Proof.Machine.execCaptureDeadTimeEnd n s
  | .pwrfailNRise => Sys2Proof.Machine.execPwrfailNRise s

end Sys2Proof.Machine
end

