-- ==== Sys2Proof/Machine/Tick.lean ====
section
/-! DEFINITION. What time alone does: one cycle of the clock that steps TB, taken when no command waits (R220, R231, R248, R325, R339, R415). -/
namespace Sys2Proof.Machine

/-- A hold window shorter by the two KCLK of an XCLK (R231), and the short-vector unit's idle count longer by them (R220). -/
def coreTick (c : CoreId) (s : State) : State :=
  let s1 := s.modCore c fun k => { k with hold := k.hold - 2 }
  let w := s1.sr c 0x030
  if s1.power = 0 && (s1.core c).released then s1.setSr c 0x030 (putFld w 13 0 (capAt 10000 (fld w 13 0 + 2))) else s1

/-- The watchdog's count of microseconds since the last good kick, or since EN was set (R414); an XCLK lasts 5/3 ns. -/
def wdTick (s : State) : State :=
  if wdRuns s && decide (s.si.wdT0 < s.xclk) && (s.xclk - s.si.wdT0) % 600 == 0 then s.setRf SI_WDCNT 15 0 (capAt 0xFFFF (s.rf SI_WDCNT 15 0 + 1)) else s

/-- The remote writes and the records of every context that wait, sent as far as they can be (R107, R108). -/
def vseWaitersGo (s : State) : State := (List.range 8).foldl (fun t n => recsGo (ctxNo n) (flushed (ctxNo n) t)) s

/-- What waits in the Core domain and may go on in the XCLK that began with `s0`: transactions, stores, answers, held requests, packets and transfers,
vector work, writes of the schedule engine, a store command, and a start. -/
def waitersGo (s0 s : State) : State :=
  let s1 := (List.range 5).foldl (fun t c => staying s0 (drain (coreNo c)) t) (xbmTick s0 (heldStale s))
  heldClean ([serveOwn, serveHeldIn, deliverEnded, vseWaitersGo, dmaRetry, txRetry, mvbRetry, c0Retry, sceFlush, stRetry, bootAdvance].foldl
    (fun t f => staying s0 f t) s1)

/-- ERG_VCONF and ERG_XWAIT count on while VCLK runs: by how much depends on times that the model leaves out (R60, log 61). -/
def bankCounts (s : State) : State :=
  if s.vclkStop.isNone then
    let add := fun (a q : Nat) (t : State) => t.setReg a (t.reg a + BitVec.ofNat 32 (Config.bankWaits q))
    add ERG_XWAIT (s.fresh + 1) (add ERG_VCONF s.fresh { s with fresh := s.fresh + 2 })
  else s

/-- TMn_STAT, which the timers' events set. -/
def timerSticky (a : Nat) : Bool := (List.range 48).any fun n => a == tmReg TM_STAT n

/-- The registers of the ICU's and the SIC's sources, and those of lost events. -/
def sourceReg (a : Nat) : Bool :=
  (decide (ICU_SRC 0 ≤ a) && decide (a < ICU_SRC 641)) || (decide (ICU_LOST 0 ≤ a) && decide (a < ICU_LOST 21)) ||
    (decide (SIC_SRC 0 ≤ a) && decide (a < SIC_SRC 64))

/-- The events that sources have had since all of them were IDLE: ICU sources first, then the SIC's. -/
def sourceEvents (s : State) : List Nat × List Nat :=
  (listedSrc (ICU_SRC 0) 640 s |>.filter fun n => s.rb (ICU_SRC n) 7, listedSrc (SIC_SRC 0) 63 s |>.filter fun n => s.rb (SIC_SRC n) 7)

/-- An XCLK in which the clock's events `hw` and the accesses `go` fall together: a W1C of `go` does not clear a bit that an event of `hw` sets (R10), and
a claim or COMPLETE of `go` counts before the events that `hw` brings to the sources (R323). -/
def eventsStay (hw go : State → State) (s : State) : State :=
  let old := s.regs.filter fun e => timerSticky e.1
  let src := s.regs.filter fun e => sourceReg e.1
  let s1 := hw { s with regs := s.regs.filter fun e => !timerSticky e.1 && !sourceReg e.1 }
  let set := s1.regs.filter fun e => timerSticky e.1
  let ev := sourceEvents s1
  let s2 : State := { s1 with regs := src.foldl (fun l e => smPut regReset l e.1 e.2) (smDrop sourceReg s1.regs) }
  let s3 := orRegs set (go (orRegs old s2))
  ev.2.foldl (fun t n => sicEvent n t) (ev.1.foldl (fun t n => icuAccept n t) s3)

/-- The events of one XCLK: a release of the latch, TB, the timers, the watchdog, the cores' counts, the store's counters, the microsequencer and the
links. -/
def clockEvents (s : State) : State :=
  let tick := fun (t : State) => timersXclk (timersTb (tbNs s) (tbCycle t))
  let s0 := if s.si.relPend then latchClear s else s
  let s1 := withLinks tick { s0 with claimed := [], stepFrom := none }
  let s2 := wdTick { s1 with xclk := s1.xclk + 1 }
  let s3 := (List.range 5).foldl (fun t c => coreTick (coreNo c) t) s2
  linkTick (microGo (bankCounts s3))

/-- One XCLK in RUN or DOZE. -/
def xclkTick (s : State) : State := eventsStay clockEvents (waitersGo s) s

/-- One cycle of the clock that steps TB: XCLK in RUN and DOZE, REFCLK in COCOON, MOTHCLK where the Core domain is off; none while PRST_N is low
(R325). -/
def tick (s : State) : State :=
  if s.power ≤ 1 then xclkTick s else if s.power = 5 then s else tbCycle s

end Sys2Proof.Machine
end

