-- ==== Sys2Proof/Safety.lean ====
section
/-! DEFINITION. What a sound state is: the sparse maps are in their canonical forms. -/
namespace Sys2Proof.Machine

/-- The state is canonical: registers, memory with its codes, and the NVM. -/
def Canonical (s : State) : Prop :=
  smWf regReset s.regs = true ∧ Memory.wf s ∧ smWf zeroDefault s.dramErr = true ∧ smWf nvmDefault s.nvm = true

/-- A step goes on: it neither faults nor refuses. -/
def goesOn (s : State) : Prop := ∃ t, step s = .next t

end Sys2Proof.Machine
end

