-- ==== Sys2Proof/WellFormed.lean ====
section
/-! DEFINITION. Which commands are well formed: what the types of their operands leave open. -/
namespace Sys2Proof

/-- A packet's payload is as long as its LEN says, and at most 256 bytes (R352, R353). -/
def Packet.wf (p : Packet) : Bool := decide (p.payload.length = p.w1.toNat % 512) && decide (p.payload.length ≤ 256)

/-- An address of the map and a burst inside one aligned block of 256 bytes (R12, R300). -/
def burstWf (pa len : Nat) : Bool := decide (pa < 2 ^ 48) && decide (0 < len) && decide (pa % 256 + len ≤ 256)

/-- A register address: a word in control space or in the SI register frame (R12, R15). -/
def regWf (pa : Nat) : Bool :=
  pa % 4 == 0 && ((decide (0x20000000 ≤ pa) && decide (pa < 0x30000000)) || (decide (0x38000000 ≤ pa) && decide (pa < 0x38010000)))

/-- The operands of a command are in range. A command with no case here has operands whose types admit nothing else. -/
def Instr.wf (i : Instr) : Bool :=
  match i with
  | .prstNRelease nvm => nvm.all fun e => decide (e.1 < 2 ^ 32)
  | .regWrite _ _ pa _ => regWf pa
  | .xbmRead _ _ pa len _ => burstWf pa len
  | .xbmWrite _ _ pa data _ _ => burstWf pa data.length
  | .xbmAtomic _ _ pa _ _ _ _ => burstWf pa 4 && pa % 4 == 0
  | .icuEvent n => decide (1 ≤ n) && decide (n ≤ 640)
  | .sicEvent n => decide (1 ≤ n) && decide (n ≤ 63)
  | .pcuFuncWrite _ n _ => decide (n < 412)
  | .elgRefill e => e.length == 8
  | .read _ k | .write _ k | .atomic _ k | .c0write _ k | .rdresp _ k | .wrack _ k | .nack _ k | .mgmt _ k | .mgmtdir _ k
  | .packetForward _ k => k.wf
  | _ => true

end Sys2Proof
end

