-- ==== Sys2Proof/Certificates/Slice0/Obligations.lean ====
section
/-! DEFINITION. The statements about the model, for the provers: each as a proposition, over tables of commands and the few predicates that
say when a command goes ahead. -/
namespace Sys2Proof.Stated
open Sys2Proof.Machine

/-- Core `c` issues instruction `i` in state `s`: it runs, waits for no other instruction, nothing that `i` must wait for is outstanding, and
the word at its pc is fetched. `s1` is the state in which the instruction's own effect begins: the stores that the bus takes have drained. -/
def Issues (c : CoreId) (i : Instr) (k : SyncKind) (s s1 : State) : Prop := prelude_ c i k s = .go s1

/-- An instruction of core `c` is over in state `s`, and control goes on as `f` says. -/
def Done (c : CoreId) (f : Flow) (s : State) : State := retire c f (unstall c s)

/-- The exception `e` of instruction `i` is taken in state `s`. -/
def Taken (c : CoreId) (i : Instr) (e : Exc) (s : State) : State := takeExc c i e s

/-- The integer instructions of two register operands, and the value each gives Gd from Ga and Gb. -/
def intRows : List ((CoreId → GReg → GReg → GReg → Instr) × (Word → Word → Word)) := [
  (.add, fun x y => x + y), (.sub, fun x y => x - y), (.and, fun x y => x &&& y), (.or, fun x y => x ||| y),
  (.xor, fun x y => x ^^^ y), (.andn, fun x y => x &&& ~~~y),
  (.slt, fun x y => if x.slt y then 1 else 0), (.sltu, fun x y => if x.ult y then 1 else 0),
  (.shl, fun x y => x <<< (y.toNat % 32)), (.shr, fun x y => x >>> (y.toNat % 32)), (.sra, fun x y => x.sshiftRight (y.toNat % 32)),
  (.ror, fun x y => x.rotateRight (y.toNat % 32)),
  (.min, fun x y => if x.slt y then x else y), (.max, fun x y => if x.slt y then y else x),
  (.minu, fun x y => if x.ult y then x else y), (.maxu, fun x y => if x.ult y then y else x),
  (.mul, fun x y => x * y), (.mulh, fun x y => BitVec.ofInt 32 (x.toInt * y.toInt / 2 ^ 32)),
  (.mulhu, fun x y => BitVec.ofNat 32 (x.toNat * y.toNat / 2 ^ 32)),
  (.div, fun x y => if y = 0 then 0xFFFFFFFF else BitVec.ofInt 32 (Int.tdiv x.toInt y.toInt)),
  (.divu, fun x y => if y = 0 then 0xFFFFFFFF else BitVec.ofNat 32 (x.toNat / y.toNat)),
  (.rem, fun x y => if y = 0 then x else BitVec.ofInt 32 (Int.tmod x.toInt y.toInt)),
  (.remu, fun x y => if y = 0 then x else BitVec.ofNat 32 (x.toNat % y.toNat))]

/-- The integer instructions of one register operand, and the value each gives Gd from Ga. -/
def intUnRows : List ((CoreId → GReg → GReg → Instr) × (Word → Word)) := [
  (.clz, fun x => BitVec.ofNat 32 (32 - bitLen x.toNat)), (.popc, fun x => BitVec.ofNat 32 (popCount 32 x.toNat)),
  (.sexb, fun x => (x.setWidth 8).signExtend 32), (.sexh, fun x => (x.setWidth 16).signExtend 32)]

/-- The integer instructions with an immediate, and the value each gives Gd from Ga and IMM. -/
def intImmRows : List ((CoreId → GReg → GReg → BitVec 16 → Instr) × (Word → BitVec 16 → Word)) := [
  (.addi, fun x m => x + m.signExtend 32), (.andi, fun x m => x &&& m.zeroExtend 32), (.ori, fun x m => x ||| m.zeroExtend 32),
  (.xori, fun x m => x ^^^ m.zeroExtend 32), (.slti, fun x m => if x.slt (m.signExtend 32) then 1 else 0),
  (.sltiu, fun x m => if x.ult (m.signExtend 32) then 1 else 0)]

/-- The loads of a general register: how many bytes each reads, and the word it makes of them. -/
def loadRows : List ((CoreId → GReg → GReg → BitVec 16 → Instr) × Nat × (Nat → Word)) := [
  (.ldb, 1, fun x => (BitVec.ofNat 8 x).signExtend 32), (.ldbu, 1, fun x => BitVec.ofNat 32 x),
  (.ldh, 2, fun x => (BitVec.ofNat 16 x).signExtend 32), (.ldhu, 2, fun x => BitVec.ofNat 32 x), (.ldw, 4, fun x => BitVec.ofNat 32 x)]

/-- The stores of a general register and how many bytes each writes. -/
def storeRows : List ((CoreId → GReg → GReg → BitVec 16 → Instr) × Nat) := [(.stb, 1), (.sth, 2), (.stw, 4)]

/-- The loads of a floating-point register and how many bytes each reads. -/
def fpLoadRows : List ((CoreId → FReg → GReg → BitVec 16 → Instr) × Nat) := [(.flds, 4), (.fldd, 8)]

/-- The stores of a floating-point register and how many bytes each writes. -/
def fpStoreRows : List ((CoreId → FReg → GReg → BitVec 16 → Instr) × Nat) := [(.fsts, 4), (.fstd, 8)]

/-- The atomics with their FN codes. -/
def atomRows : List ((CoreId → GReg → GReg → GReg → Instr) × Nat) := [(.atomSwap, 0), (.atomAdd, 1), (.atomAnd, 2), (.atomOr, 3)]

/-- The conditional branches with their conditions. -/
def branchRows : List ((CoreId → GReg → GReg → BitVec 16 → Instr) × (Word → Word → Bool)) := [
  (.beq, fun x y => x == y), (.bne, fun x y => x != y), (.blt, fun x y => x.slt y), (.bge, fun x y => !x.slt y),
  (.bltu, fun x y => x.ult y), (.bgeu, fun x y => !x.ult y)]

/-- Every instruction that reads and writes general registers alone, with its destination. -/
inductive RegOnly : Instr → CoreId → GReg → Prop where
  | three (r : (CoreId → GReg → GReg → GReg → Instr) × (Word → Word → Word)) (h : r ∈ intRows) (c : CoreId) (d a b : GReg) : RegOnly (r.1 c d a b) c d
  | two (r : (CoreId → GReg → GReg → Instr) × (Word → Word)) (h : r ∈ intUnRows) (c : CoreId) (d a : GReg) : RegOnly (r.1 c d a) c d
  | imm (r : (CoreId → GReg → GReg → BitVec 16 → Instr) × (Word → BitVec 16 → Word)) (h : r ∈ intImmRows) (c : CoreId) (d a : GReg) (m : BitVec 16) :
      RegOnly (r.1 c d a m) c d
  | lui (c : CoreId) (d : GReg) (m : BitVec 16) : RegOnly (.lui c d m) c d
  | shi (c : CoreId) (d a : GReg) (op : BitVec 2) (cnt : BitVec 5) : RegOnly (.shi c d a op cnt) c d

/-- The little-endian word at the Safety Island's pc. -/
def siWord (s : State) : Word := leWord ((List.range 4).map fun k => s.byte ((s.pc siCore).toNat + k))

/-- The Safety Island's pair fetches and issues from SI SRAM: it is released and running, nothing of an instruction is in progress, stored or owed,
nothing is to be taken at the boundary, M4 may issue its accesses (it is enabled and below its limits, and none of its own stands before them), SI
SRAM is not failed, and its aligned pc holds an instruction's word in SI SRAM with
good codes. -/
structure SiIssues (s : State) : Prop where
  runs : running s siCore = true
  fresh : (s.core siCore).stall = none ∧ (s.core siCore).fetched = false ∧ (s.core siCore).nacc = 0 ∧ (s.core siCore).await = none ∧
    (s.core siCore).lbuf = [] ∧ (s.core siCore).lold = []
  calm : (s.core siCore).stPend = false ∧ (s.core siCore).fpTrap = none ∧ intReady s siCore 0 = false ∧ intReady s siCore 1 = false
  settled : (s.core siCore).loopDone = false
  empty : (s.core siCore).sbuf = []
  unanswered : (s.core siCore).rsp = []
  none_out : s.outst = []
  port : ∀ wr pa n, mayIssue s s.xacts 4 wr pa n = true
  good : s.rb MIU_STEST 24 = false
  aligned : (s.pc siCore).toNat % 4 = 0
  placed : 0x30000000 ≤ (s.pc siCore).toNat ∧ (s.pc siCore).toNat + 4 ≤ 0x30200000
  codes : ∀ k, k < 4 → s.wrong ((s.pc siCore).toNat + k) = 0
  word : undefWord (siWord s) = false

/-- The addresses and the count of a block repeat after one element. -/
def stepped (c : CoreId) (ss ds : Word) (s : State) : State :=
  ((s.setG c (gno 4) (s.g c (gno 4) + ss)).setG c (gno 5) (s.g c (gno 5) + ds)).setG c (gno 6) (s.g c (gno 6) - 1)

/-- A block repeat stands at the boundary before its next element: nothing of the last one is left, and it is not fetched again. -/
def Stays (c : CoreId) (i : Instr) (s : State) : State := s.modCore c fun k => { k.idle with stall := some i, fetched := true }

/-- A block repeat after an element counted in `s`: over when its count is used up, else before its next element, in state `t`. -/
def Repeated (c : CoreId) (i : Instr) (s t : State) : State := if s.g c (gno 6) - 1 = 0 then Done c .next t else Stays c i t

/-- The floating-point instructions of two operands into Fd. -/
def fpRows2 : List ((CoreId → FReg → FReg → FReg → BitVec 3 → Bool → Instr) × Nat × (Ty → Rm → Nat → Nat → Res)) := [
  (.fadd, 0, fun t r x y => numAdd t r false false x y), (.fsub, 1, fun t r x y => numAdd t r false true x y),
  (.fmul, 2, fun t r x y => numMul t r false x y), (.fdiv, 3, fun t r x y => fltDiv t r x y),
  (.fmin, 5, fun t _ x y => numMinMax t false false x y), (.fmax, 6, fun t _ x y => numMinMax t true false x y)]

/-- The floating-point instructions of one operand into Fd. -/
def fpRows1 : List ((CoreId → FReg → FReg → BitVec 3 → Bool → Instr) × Nat × (Ty → Rm → Nat → Res)) := [
  (.fsqrt, 4, fun t r x => numSqrt t r x), (.fcvt, 7, fun t r x => cvt t (if t = .f64 then .f32 else .f64) r x)]

/-- The floating-point instructions of one operand into Gd. -/
def fpRowsG : List ((CoreId → GReg → FReg → BitVec 3 → Bool → Instr) × Nat × (Ty → Rm → Nat → Res)) := [
  (.fcvts, 8, fun t r x => cvt t .s32 r x), (.fcvtu, 9, fun t r x => cvt t .u32 r x),
  (.fclass, 15, fun t _ x => (fltClass t x, 0)), (.fmvfg, 17, fun _ _ x => (x % 2 ^ 32, 0))]

/-- The conversions of a general register into Fd, with the type they read it as. -/
def fpRowsI : List ((CoreId → FReg → GReg → BitVec 3 → Bool → Instr) × Nat × Ty) := [(.fcvtfs, 10, .s32), (.fcvtfu, 11, .u32)]

/-- The floating-point compares with their conditions. -/
def fpRowsC : List ((CoreId → GReg → FReg → FReg → BitVec 3 → Bool → Instr) × Nat × Nat) := [(.fcmpeq, 12, 0), (.fcmplt, 13, 2), (.fcmple, 14, 3)]

/-- The fused rows: the operation code, whether the product is negated, whether the addend is. -/
def fpRowsF : List ((CoreId → FReg → FReg → FReg → FReg → BitVec 3 → Bool → Instr) × Nat × Bool × Bool) := [
  (.fma, 0, false, false), (.fms, 1, false, true), (.fnma, 2, true, false), (.fnms, 3, true, true)]

/-- A core at a boundary that an exception, an interrupt or a trap can enter at M without waiting: it is alive, no instruction is in progress, no
loop end is owed, and its stores have drained and been answered. -/
def Quiet (c : CoreId) (s : State) : Prop :=
  alive s c = true ∧ (s.core c).stall = none ∧ (s.core c).nacc = 0 ∧ (s.core c).await = none ∧
    (s.core c).sbuf = [] ∧ drained s c = true ∧ (s.core c).loopDone = false

/-- The short-vector operations: the code FN, the types of the row, and what Qd gets from Qa, Qb and the old Qd, with its flags. -/
def svuRows : List ((CoreId → QReg → QReg → QReg → BitVec 4 → BitVec 3 → Instr) × Nat × (Ty → Bool) × (Ty → Rm → Nat → Nat → Nat → Nat × FFlags)) :=
  [(.qadd, 0x0, anyTy, (lane3 fun t r x y _ => numAdd t r false false x y)),
   (.qsub, 0x1, anyTy, (lane3 fun t r x y _ => numAdd t r false true x y)),
   (.qmul, 0x2, anyTy, (lane3 fun t r x y _ => numMul t r false x y)),
   (.qmin, 0x3, anyTy, (lane3 fun t _ x y _ => numMinMax t false false x y)),
   (.qmax, 0x4, anyTy, (lane3 fun t _ x y _ => numMinMax t true false x y)),
   (.qabs, 0x5, anyTy, (lane3 fun t r x _ _ => numAbs t r false x)),
   (.qneg, 0x6, anyTy, (lane3 fun t r x _ _ => numNeg t r false x)),
   (.qabsd, 0x7, anyTy, (lane3 fun t r x y _ => numAbsD t r x y)),
   (.qfma, 0x8, isFloat, (lane3 fun t r x y z => numFma t t r false false false x y z)),
   (.qfms, 0x9, isFloat, (lane3 fun t r x y z => numFma t t r false true false x y z)),
   (.qmacs, 0xa, fixTy, (lane3 fun t r x y z => numFma t t r true false false x y z)),
   (.qmsubs, 0xb, fixTy, (lane3 fun t r x y z => numFma t t r true true false x y z)),
   (.qadds, 0xc, fixTy, (lane3 fun t r x y _ => numAdd t r true false x y)),
   (.qsubs, 0xd, fixTy, (lane3 fun t r x y _ => numAdd t r true true x y)),
   (.qmuls, 0xe, fixTy, (lane3 fun t r x y _ => numMul t r true x y))] ++
  [(.qrshr, 0xf, fixTy, (lane3 fun t _ x y _ => rshrRes t x y)),
   (.qand, 0x10, isInt, (lane3 fun _ _ x y _ => (x &&& y, 0))),
   (.qor, 0x11, isInt, (lane3 fun _ _ x y _ => (x ||| y, 0))),
   (.qxor, 0x12, isInt, (lane3 fun _ _ x y _ => (x ^^^ y, 0))),
   (.qandn, 0x13, isInt, (lane3 fun t _ x y _ => (x &&& notN (tyBits t) y, 0))),
   (.qshl, 0x14, isInt, (lane3 fun t _ x y _ => (shlN (tyBits t) x y, 0))),
   (.qshr, 0x15, isInt, (lane3 fun t _ x y _ => (shrN (tyBits t) x y, 0))),
   (.qsra, 0x16, isInt, (lane3 fun t _ x y _ => (sraN t x y, 0))),
   (.qrol, 0x17, isInt, (lane3 fun t _ x y _ => (rolN (tyBits t) x y, 0))),
   (.qcmpeq, 0x18, anyTy, (lane3 fun t _ x y _ => laneCmp 0 t x y)),
   (.qcmpne, 0x19, anyTy, (lane3 fun t _ x y _ => laneCmp 1 t x y)),
   (.qcmplt, 0x1a, anyTy, (lane3 fun t _ x y _ => laneCmp 2 t x y)),
   (.qcmple, 0x1b, anyTy, (lane3 fun t _ x y _ => laneCmp 3 t x y)),
   (.qcmpgt, 0x1c, anyTy, (lane3 fun t _ x y _ => laneCmp 4 t x y)),
   (.qcmpge, 0x1d, anyTy, (lane3 fun t _ x y _ => laneCmp 5 t x y))] ++
  [(.qsel, 0x1e, anyTy, (lane3 fun t _ x y z => (if z.testBit (tyBits t - 1) then x else y, 0))),
   (.qzipl, 0x20, anyTy, (fun t _ x y _ => qZip false t x y)),
   (.qziph, 0x21, anyTy, (fun t _ x y _ => qZip true t x y)),
   (.quzpe, 0x22, anyTy, (fun t _ x y _ => qUnzip false t x y)),
   (.quzpo, 0x23, anyTy, (fun t _ x y _ => qUnzip true t x y)),
   (.qdup, 0x24, anyTy, (fun t _ x y _ => qDup t x y)),
   (.qcvt, 0x28, anyTy, (fun t r x _ _ => qCvt t r x)),
   (.qcvtn, 0x29, narrowTy, qCvtn),
   (.qmulwl, 0x30, widTy, (qMulW false false)),
   (.qmulwh, 0x31, widTy, (qMulW true false)),
   (.qmacwl, 0x32, widTy, (qMulW false true)),
   (.qmacwh, 0x33, widTy, (qMulW true true)),
   (.qdot, 0x34, dotTy, (qDot false)),
   (.qdotsu, 0x35, dotTy, (qDot true))]

/-- The short-vector loads and stores of several registers: how many, and the element size field. -/
def svuLoadRows : List ((CoreId → QReg → GReg → BitVec 2 → BitVec 12 → Instr) × Nat) :=
  [(fun c d a _ off => .ldq c d a off, 1), (.lds2, 2), (.lds3, 3), (.lds4, 4)]

/-- The short-vector stores. -/
def svuStoreRows : List ((CoreId → QReg → GReg → BitVec 2 → BitVec 12 → Instr) × Nat) :=
  [(fun c d a _ off => .stq c d a off, 1), (.sts2, 2), (.sts3, 3), (.sts4, 4)]

/-- Short-vector register `n` modulo 16. -/
def qno (n : Nat) : QReg := ⟨n % 16, Nat.mod_lt _ (by decide)⟩

/-- The size in bytes that a short-vector access is aligned to: 16 for one register, else the element size. -/
def qmElem (k : Nat) (esz : BitVec 2) : Nat := if k = 1 then 16 else 2 ^ esz.toNat

/-- Application core `c` is bound to context `x` and has the vector class. -/
def BoundTo (s : State) (c : CoreId) (x : CtxId) : Prop := c ≠ siCore ∧ boundCtx s c = some x

/-- An application core at S or M level, which may run the context instructions. -/
def MayManage (s : State) (c : CoreId) : Prop := c ≠ siCore ∧ s.lvl c ≠ .u

/-- The vector-class instructions of a core with their words, by whether they need S level. -/
def vecWords (c : CoreId) (a b d : GReg) (sd n1 : BitVec 6) (w : BitVec 3) (ty : BitVec 4) : List (Instr × Word × Bool) := [
  (.vsd c a b sd w, encVsd a.val b.val sd.toNat w.toNat, false), (.vldd c a sd n1, encVldd a.val sd.toNat n1.toNat, false),
  (.vissue c d a b, encVec d.val a.val b.val 3, false), (.vfence c a, encVec 0 a.val 0 7, false),
  (.vctxAlloc c d, encVec d.val 0 0 4, true), (.vctxFree c d a, encVec d.val a.val 0 5, true), (.vbind c d a, encVec d.val a.val 0 6, true),
  (.veaown c d a, encVec d.val a.val 0 8, true), (.vcsave c d a b, encVec d.val a.val b.val 9, true), (.vcrst c d a, encVec d.val a.val 0 10, true),
  (.vsusp c d a, encVec d.val a.val 0 11, true), (.vresume c d a b, encVec d.val a.val b.val 12, true),
  (.vinv c a b ty, encInv b.val a.val ty.toNat 11, true)]

/-- The state in which core `c` has named the groups of context `x` that it waits for: those for which `p` holds, by place. -/
def groupsNamed (c : CoreId) (x : CtxId) (p : Nat → Grp → Bool) (s : State) : State :=
  (markGroups c x p s).modCore c fun k => { k with marked := true }

/-- The instruction stays where it is. -/
def Waits (c : CoreId) (i : Instr) (s : State) : State := s.modCore c fun k => { k with stall := some i }

/-- The vector commands with their opcodes and what each computes from its sources: the elements of D, the accumulators, the flags. -/
inductive VecRow : (CtxId → Instr) → Nat → (VEnv → VIn → VOut) → Prop where
  | vnop : VecRow .vnop 0x00 fnVnop
  | vadd : VecRow .vadd 0x01 fnVadd
  | vsub : VecRow .vsub 0x02 fnVsub
  | vmul : VecRow .vmul 0x03 fnVmul
  | vfma : VecRow .vfma 0x04 fnVfma
  | vfms : VecRow .vfms 0x05 fnVfms
  | vfnma : VecRow .vfnma 0x06 fnVfnma
  | vfnms : VecRow .vfnms 0x07 fnVfnms
  | vmin : VecRow .vmin 0x08 fnVmin
  | vmax : VecRow .vmax 0x09 fnVmax
  | vabs : VecRow .vabs 0x0A fnVabs
  | vneg : VecRow .vneg 0x0B fnVneg
  | vabsd : VecRow .vabsd 0x0C fnVabsd
  | vcpy : VecRow .vcpy 0x0D fnVcpy
  | vcpsgn : VecRow .vcpsgn 0x0E fnVcpsgn
  | vclamp : VecRow .vclamp 0x0F fnVclamp
  | vand : VecRow .vand 0x10 fnVand
  | vor : VecRow .vor 0x11 fnVor
  | vxor : VecRow .vxor 0x12 fnVxor
  | vandn : VecRow .vandn 0x13 fnVandn
  | vnot : VecRow .vnot 0x14 fnVnot
  | vshl : VecRow .vshl 0x15 fnVshl
  | vshr : VecRow .vshr 0x16 fnVshr
  | vsra : VecRow .vsra 0x17 fnVsra
  | vrol : VecRow .vrol 0x18 fnVrol
  | vror : VecRow .vror 0x19 fnVror
  | vclz : VecRow .vclz 0x1A fnVclz
  | vpopc : VecRow .vpopc 0x1B fnVpopc
  | vavg : VecRow .vavg 0x1C fnVavg
  | vmulh : VecRow .vmulh 0x1D fnVmulh
  | vbswap : VecRow .vbswap 0x1E fnVbswap
  | vbrev : VecRow .vbrev 0x1F fnVbrev
  | vcmpeq : VecRow .vcmpeq 0x20 fnVcmpeq
  | vcmpne : VecRow .vcmpne 0x21 fnVcmpne
  | vcmplt : VecRow .vcmplt 0x22 fnVcmplt
  | vcmple : VecRow .vcmple 0x23 fnVcmple
  | vcmpgt : VecRow .vcmpgt 0x24 fnVcmpgt
  | vcmpge : VecRow .vcmpge 0x25 fnVcmpge
  | vcmpun : VecRow .vcmpun 0x26 fnVcmpun
  | vcmpor : VecRow .vcmpor 0x27 fnVcmpor
  | vsel : VecRow .vsel 0x28 fnVsel
  | vcomp : VecRow .vcomp 0x29 fnVcomp
  | vexpd : VecRow .vexpd 0x2A fnVexpd
  | vmcnt : VecRow .vmcnt 0x2B fnVmcnt
  | vmfirst : VecRow .vmfirst 0x2C fnVmfirst
  | viota : VecRow .viota 0x2D fnViota
  | vclass : VecRow .vclass 0x2E fnVclass
  | vzcross : VecRow .vzcross 0x2F fnVzcross
  | vcvt : VecRow .vcvt 0x30 fnVcvt
  | vcvtx : VecRow .vcvtx 0x31 fnVcvtx
  | vrint : VecRow .vrint 0x32 fnVrint
  | vscale : VecRow .vscale 0x33 fnVscale
  | vlogb : VecRow .vlogb 0x34 fnVlogb
  | vmsbf : VecRow .vmsbf 0x36 fnVmsbf
  | vmsif : VecRow .vmsif 0x37 fnVmsif
  | vmulw : VecRow .vmulw 0x38 fnVmulw
  | vmacw : VecRow .vmacw 0x39 fnVmacw
  | vmulwsu : VecRow .vmulwsu 0x3A fnVmulwsu
  | vsqrw : VecRow .vsqrw 0x3B fnVsqrw
  | vdotw : VecRow .vdotw 0x3C fnVdotw
  | vdotwa : VecRow .vdotwa 0x3D fnVdotwa
  | vdotwsu : VecRow .vdotwsu 0x3E fnVdotwsu
  | vsumw : VecRow .vsumw 0x3F fnVsumw
  | vexdot : VecRow .vexdot 0x40 fnVexdot
  | vexdotn : VecRow .vexdotn 0x41 fnVexdotn
  | vexsum : VecRow .vexsum 0x42 fnVexsum
  | vexssq : VecRow .vexssq 0x43 fnVexssq
  | vexcdot : VecRow .vexcdot 0x44 fnVexcdot
  | veaclr : VecRow .veaclr 0x45 fnVeaclr
  | veard : VecRow .veard 0x46 fnVeard
  | veawr : VecRow .veawr 0x47 fnVeawr
  | veaadd : VecRow .veaadd 0x48 fnVeaadd
  | vexsuma : VecRow .vexsuma 0x49 fnVexsuma
  | vexdiff2 : VecRow .vexdiff2 0x4A fnVexdiff2
  | vscanadd : VecRow .vscanadd 0x50 fnVscanadd
  | vscanmin : VecRow .vscanmin 0x51 fnVscanmin
  | vscanmax : VecRow .vscanmax 0x52 fnVscanmax
  | vscanxor : VecRow .vscanxor 0x53 fnVscanxor
  | vredmin : VecRow .vredmin 0x54 fnVredmin
  | vredmax : VecRow .vredmax 0x55 fnVredmax
  | vredor : VecRow .vredor 0x56 fnVredor
  | vredand : VecRow .vredand 0x57 fnVredand
  | vargmin : VecRow .vargmin 0x58 fnVargmin
  | vargmax : VecRow .vargmax 0x59 fnVargmax
  | vredxor : VecRow .vredxor 0x5A fnVredxor
  | vredsum : VecRow .vredsum 0x5B fnVredsum
  | vfir : VecRow .vfir 0x60 fnVfir
  | vfird : VecRow .vfird 0x61 fnVfird
  | vcmul : VecRow .vcmul 0x62 fnVcmul
  | vcmulc : VecRow .vcmulc 0x63 fnVcmulc
  | vcmac : VecRow .vcmac 0x64 fnVcmac
  | vcabs2 : VecRow .vcabs2 0x65 fnVcabs2
  | vfft4 : VecRow .vfft4 0x66 fnVfft4
  | vifft4 : VecRow .vifft4 0x67 fnVifft4
  | vfft2 : VecRow .vfft2 0x68 fnVfft2
  | vconj : VecRow .vconj 0x69 fnVconj
  | vlerp : VecRow .vlerp 0x6A fnVlerp
  | vdiff : VecRow .vdiff 0x6B fnVdiff
  | vcmag : VecRow .vcmag 0x6C fnVcmag
  | vdiv : VecRow .vdiv 0x70 fnVdiv
  | vsqrt : VecRow .vsqrt 0x71 fnVsqrt
  | vrsqrt : VecRow .vrsqrt 0x72 fnVrsqrt
  | vrec : VecRow .vrec 0x73 fnVrec
  | vmod : VecRow .vmod 0x74 fnVmod
  | vadds : VecRow .vadds 0x78 fnVadds
  | vsubs : VecRow .vsubs 0x79 fnVsubs
  | vmuls : VecRow .vmuls 0x7A fnVmuls
  | vnegs : VecRow .vnegs 0x7B fnVnegs
  | vabss : VecRow .vabss 0x7C fnVabss
  | vshls : VecRow .vshls 0x7D fnVshls
  | vrshr : VecRow .vrshr 0x7E fnVrshr
  | vmacs : VecRow .vmacs 0x7F fnVmacs

/-- The state in which the next command of context `x` looks at its sources: the remote writes that waited for a request are sent. -/
def Ready (x : CtxId) (s : State) : State := flushed x s

/-- The sources of the group's next instruction as they stand once the accumulators that it needs have been corrected, and the state in which the
requests that they need are out. -/
def srcsOf (x : CtxId) (run : Run) (i : SInstr) (s : State) : Srcs × State :=
  let s1 := accsCorrected (accsNeeded i.cmd) (Ready x s)
  peekSrcs x run run.pos i s1.fresh s1

/-- The state in which an instruction whose sources have answered goes on: the numbers of its free choices are used up. -/
def Answered (q : Nat) (s : State) : State := { s with fresh := q + 0x10000000 }

/-- A core's registers in two states are the same: all that it holds but whether it waits in WAIT. -/
def SameCore (c : CoreId) (s t : State) : Prop := t.core c = { s.core c with waiting := (t.core c).waiting }

/-- The port of master `m` issues a write of the register at `a` now (it is enabled and below its limit, and no older access of its own to the
register stands before it), and the master reaches the register. -/
def Sends (s : State) (m : Master) (a : Nat) : Prop := mayIssue s s.xacts m.val true a 4 = true ∧ reaches s m.val a true = true

/-- The port of master `m` issues a read of the register at `a` now (it is enabled and below its limit, and no older access of its own to the register
stands before it), and the master reaches the register. -/
def Asks (s : State) (m : Master) (a : Nat) : Prop := mayIssue s s.xacts m.val false a 4 = true ∧ reaches s m.val a false = true

/-- The schedule engine's commands that perform an entry: the actions each performs, and what it then does with the entry. -/
inductive SceRow : Instr → (Nat → Prop) → (SceEntry → Nat → State → State) → Prop where
  | nop : SceRow .nop (· = 0) fun _ _ t => t
  | gate : SceRow .sceGate (· = 1) fun e _ t => t.modMac (fld e.w1 25 24) fun k =>
      { k with gates := BitVec.ofNat 8 (fld e.w1 7 0), closing := if e.p2 = 0 then 0 else BitVec.ofNat 8 (fld e.p3 7 0),
               closeAt := if e.p2 = 0 then none else some (t.tb.toNat + e.p2.toNat * 65536) }
  | txtrig : SceRow .txtrig (· = 2) fun e _ t => macRelease (fld e.w1 25 24) (fld e.w1 2 0) t
  | c0slot : SceRow .c0slot (· = 3) fun e time t => c0Start e time t
  | event : SceRow .sceEvent (· = 4) fun e _ t => pulse (104 + fld e.w1 3 0) t
  | write : SceRow .sceWrite (· = 5) fun e _ t => sceWriteOut (t.sce.wr ++ [(e.p2.toNat, e.p3)]) t
  | mvbmf : SceRow .mvbmf (· = 6) fun e _ t => mvbMaster (fld e.w1 15 0) t
  | cantx : SceRow .cantx (· = 7) fun e _ t => canRequest (fld e.w1 25 24) (fld e.w1 4 0) t
  | sgate : SceRow .sgate (· = 8) fun e _ t => t.setReg TNC_SGATE
      ((t.reg TNC_SGATE &&& ~~~(BitVec.ofNat 32 (fld e.w1 15 0))) ||| (e.p2 &&& BitVec.ofNat 32 (fld e.w1 15 0)))
  | badact : SceRow .sceBadact (9 ≤ ·) fun _ _ t => t.countWrap SCE_BADACT

/-- The next configuration record of a start under way is `r`, in RUN or DOZE. -/
def AtRecord (s : State) (r : CfgRec) : Prop := s.pwr ≤ 1 ∧ s.boot.phase = .records ∧ ∃ rest, s.boot.recs = r :: rest

/-- The state in which a GO of the store unit is taken: its control register holds the given OP and AUTO as it was, and the slot that a commit has left to be
erased is erased. -/
def storeCtl (s : State) (op : Nat) : State :=
  storeReady ((s.setReg BCU_ST_CTL (s.reg BCU_ST_CTL &&& 0xC0000000 ||| BitVec.ofNat 32 op)).setRb BCU_ST_CTL 31 false)

/-- Slot `n`, of those that `p` takes in, holds the valid record that is later than every other, the first of any two neither of which is later (R462). -/
def BestOf (s : State) (p : Nat → Prop) (n : Nat) : Prop :=
  (n < 128 ∧ p n ∧ slotValid s n = true) ∧ ∀ m, m < 128 → p m → m ≠ n → slotValid s m = true →
    serialLater (slotSeq s n) (slotSeq s m) = true ∨
      (serialLater (slotSeq s n) (slotSeq s m) = false ∧ serialLater (slotSeq s m) (slotSeq s n) = false ∧ n < m)

end Sys2Proof.Stated

open Sys2Proof Sys2Proof.Machine Sys2Proof.Stated

/-- A step with `c` at the front of the queue is `exec c` with the rest of the queue (the queue is the model's own, log 1). -/
def Obligations.StepRunsFrontCommand : Prop :=
  ∀ (c : Instr) (rest : List Instr) (s : State),
    step { s with pending := c :: rest } = exec c { s with pending := rest }

/-- R325, R327: a cycle of TB adds the nominal step and a slew of at most a sixteenth of it, toward zero of the pending offset and never past it. An idle step is a cycle (DESIGN CHOICE, log 4). -/
def Obligations.TimeBaseNeverGoesBack : Prop :=
  ∀ s : State, ∃ e : Int, ∃ x : Nat, (tbCycle s).tb.toNat * 2 ^ 32 + (tbCycle s).tbSub = (s.tb.toNat * 2 ^ 32 + s.tbSub + x) % 2 ^ 112 ∧
    (x : Int) = (tbNominal s : Int) + e ∧ 16 * e ≤ (tbNominal s : Int) ∧ -(tbNominal s : Int) ≤ 16 * e ∧
    (tbCycle s).adjPend = s.adjPend - e ∧ (0 ≤ s.adjPend → 0 ≤ e ∧ e ≤ s.adjPend) ∧ (s.adjPend ≤ 0 → e ≤ 0 ∧ s.adjPend ≤ e) ∧
    (∀ a, (tbCycle s).reg a = s.reg a) ∧ (∀ a, (tbCycle s).byte a = s.byte a) ∧
    (s.pending = [] → (s.pwr = 5 → step s = .next s) ∧ (2 ≤ s.pwr → s.pwr ≠ 5 → step s = .next (tbCycle s)) ∧ (s.pwr ≤ 1 → step s = .next (xclkTick s)))

/-- R199, R200: each integer instruction that its core issues gives Gd the value of its row, and the next instruction follows. -/
def Obligations.IntegerInstructionsComplete : Prop :=
  (∀ r ∈ intRows, ∀ (c : CoreId) (d a b : GReg) (s s1 : State), Issues c (r.1 c d a b) .none s s1 →
      exec (r.1 c d a b) s = .next (Done c .next (s1.setG c d (r.2 (s1.g c a) (s1.g c b))))) ∧
    (∀ r ∈ intUnRows, ∀ (c : CoreId) (d a : GReg) (s s1 : State), Issues c (r.1 c d a) .none s s1 →
      exec (r.1 c d a) s = .next (Done c .next (s1.setG c d (r.2 (s1.g c a))))) ∧
    (∀ r ∈ intImmRows, ∀ (c : CoreId) (d a : GReg) (m : BitVec 16) (s s1 : State), Issues c (r.1 c d a m) .none s s1 →
      exec (r.1 c d a m) s = .next (Done c .next (s1.setG c d (r.2 (s1.g c a) m)))) ∧
    (∀ (c : CoreId) (d : GReg) (m : BitVec 16) (s s1 : State), Issues c (.lui c d m) .none s s1 →
      exec (.lui c d m) s = .next (Done c .next (s1.setG c d (m.zeroExtend 32 <<< 16)))) ∧
    (∀ (c : CoreId) (d a : GReg) (op : BitVec 2) (cnt : BitVec 5) (s s1 : State), Issues c (.shi c d a op cnt) .none s s1 →
      exec (.shi c d a op cnt) s = .next (Done c .next (s1.setG c d
        (if op = 0 then s1.g c a <<< cnt.toNat else if op = 1 then s1.g c a >>> cnt.toNat
          else if op = 2 then (s1.g c a).sshiftRight cnt.toNat else (s1.g c a).rotateRight cnt.toNat))))

/-- R194: G0 reads as zero and a write to it has no effect; any other register written reads back and no other register changes. -/
def Obligations.GeneralRegisterWrites : Prop :=
  ∀ (s : State) (c : CoreId) (r : GReg) (v : Word),
    (s.setG c r v).g c 0 = 0 ∧ s.setG c 0 v = s ∧ (r ≠ 0 → (s.setG c r v).g c r = v) ∧
    (∀ q, q ≠ r → (s.setG c r v).g c q = s.g c q) ∧ (∀ i q, i ≠ c → (s.setG c r v).g i q = s.g i q) ∧
    (∀ i n, (s.setG c r v).sr i n = s.sr i n) ∧ (∀ i n, (s.setG c r v).f i n = s.f i n) ∧
    (∀ i, (s.setG c r v).pc i = s.pc i ∧ (s.setG c r v).lvl i = s.lvl i)

/-- The frame of the register-only integer instructions: Gd, the pc, and at LEND the loop counter. -/
def Obligations.RegisterInstructionsFrame : Prop :=
  ∀ (i : Instr) (c : CoreId) (d : GReg) (s s1 t : State), RegOnly i c d → Issues c i .none s s1 → exec i s = .next t →
    t = { s1 with cores := t.cores } ∧ (∀ a, t.byte a = s1.byte a) ∧ (∀ a, t.reg a = s1.reg a) ∧
    (∀ j, j ≠ c → t.core j = s1.core j) ∧ (∀ q, t.f c q = s1.f c q) ∧ (∀ n, t.sr c n = s1.sr c n) ∧ t.lvl c = s1.lvl c ∧
    (t.core c).sbuf = (s1.core c).sbuf ∧ (t.core c).stPend = (s1.core c).stPend ∧ (t.core c).fpTrap = (s1.core c).fpTrap ∧
    (t.core c).hold = (s1.core c).hold ∧
    (∀ q, q ≠ d → (atLend s1 c = true → q ≠ gno (s1.srf c 0x022 4 0)) → t.g c q = s1.g c q)

/-- R201, R195: a load gives its register the bytes at Ga + IMM, or takes the exception of its access, or waits. -/
def Obligations.LoadsComplete : Prop :=
  (∀ r ∈ loadRows, ∀ (c : CoreId) (d a : GReg) (m : BitVec 16) (s s1 : State), Issues c (r.1 c d a m) .none s s1 →
      (∀ b s2, loadAt c (s1.g c a + m.signExtend 32) r.2.1 s1 = .ok b s2 →
        exec (r.1 c d a m) s = .next (Done c .next (s2.setG c d (r.2.2 (leNat b))))) ∧
      (∀ e s2, loadAt c (s1.g c a + m.signExtend 32) r.2.1 s1 = .exc e s2 → exec (r.1 c d a m) s = .next (Taken c (r.1 c d a m) e s2)) ∧
      (∀ s2, loadAt c (s1.g c a + m.signExtend 32) r.2.1 s1 = .wait s2 →
        exec (r.1 c d a m) s = .next (s2.modCore c fun k => { k with stall := some (r.1 c d a m) }))) ∧
    (∀ r ∈ fpLoadRows, ∀ (c : CoreId) (d : FReg) (a : GReg) (m : BitVec 16) (s s1 : State), Issues c (r.1 c d a m) .none s s1 →
      (∀ b s2, loadAt c (s1.g c a + m.signExtend 32) r.2 s1 = .ok b s2 →
        exec (r.1 c d a m) s = .next (Done c .next (s2.setF c d (BitVec.ofNat 64 (leNat b))))) ∧
      (∀ e s2, loadAt c (s1.g c a + m.signExtend 32) r.2 s1 = .exc e s2 → exec (r.1 c d a m) s = .next (Taken c (r.1 c d a m) e s2)) ∧
      (∀ s2, loadAt c (s1.g c a + m.signExtend 32) r.2 s1 = .wait s2 →
        exec (r.1 c d a m) s = .next (s2.modCore c fun k => { k with stall := some (r.1 c d a m) })))

/-- R201, R195: a store hands the low bytes of its register to Ga + IMM, or takes the exception of its access. -/
def Obligations.StoresComplete : Prop :=
  (∀ r ∈ storeRows, ∀ (c : CoreId) (d a : GReg) (m : BitVec 16) (s s1 : State), Issues c (r.1 c d a m) .none s s1 →
      (∀ s2, storeAt c (s1.g c a + m.signExtend 32) (leBytes r.2 (s1.g c d).toNat) s1 = .ok () s2 → exec (r.1 c d a m) s = .next (Done c .next s2)) ∧
      (∀ e s2, storeAt c (s1.g c a + m.signExtend 32) (leBytes r.2 (s1.g c d).toNat) s1 = .exc e s2 →
        exec (r.1 c d a m) s = .next (Taken c (r.1 c d a m) e s2))) ∧
    (∀ r ∈ fpStoreRows, ∀ (c : CoreId) (d : FReg) (a : GReg) (m : BitVec 16) (s s1 : State), Issues c (r.1 c d a m) .none s s1 →
      (∀ s2, storeAt c (s1.g c a + m.signExtend 32) (leBytes r.2 (s1.f c d).toNat) s1 = .ok () s2 → exec (r.1 c d a m) s = .next (Done c .next s2)) ∧
      (∀ e s2, storeAt c (s1.g c a + m.signExtend 32) (leBytes r.2 (s1.f c d).toNat) s1 = .exc e s2 →
        exec (r.1 c d a m) s = .next (Taken c (r.1 c d a m) e s2)))

/-- Where the SI pair runs with nothing owed and its aligned pc lies in good SI SRAM, every instruction issues, and fetching changes nothing else. -/
def Obligations.SafetyIslandIssues : Prop :=
  ∀ (i : Instr) (s : State), SiIssues s → Issues siCore i .none s (fetchDone siCore (siWord s) s) ∧
    (∀ a, (fetchDone siCore (siWord s) s).reg a = s.reg a) ∧ (∀ a, (fetchDone siCore (siWord s) s).byte a = s.byte a) ∧
    (∀ c, c ≠ siCore → (fetchDone siCore (siWord s) s).core c = s.core c) ∧ ∀ q, (fetchDone siCore (siWord s) s).g siCore q = s.g siCore q

/-- R4, R201, R406: LDW of the SI pair at an aligned address of good SI SRAM gives Gd the little-endian word there. -/
def Obligations.SafetyIslandLoadsSiSram : Prop :=
  ∀ (d a : GReg) (m : BitVec 16) (s : State), SiIssues s →
    (effAddr s siCore a m).toNat % 4 = 0 → 0x30000000 ≤ (effAddr s siCore a m).toNat → (effAddr s siCore a m).toNat + 4 ≤ 0x30200000 →
    (∀ k, k < 4 → s.wrong ((effAddr s siCore a m).toNat + k) = 0) →
    exec (.ldw siCore d a m) s = .next (Done siCore .next ((fetchDone siCore (siWord s) s).setG siCore d
      (BitVec.ofNat 32 ((s.byte (effAddr s siCore a m).toNat).toNat + 256 * (s.byte ((effAddr s siCore a m).toNat + 1)).toNat +
        65536 * (s.byte ((effAddr s siCore a m).toNat + 2)).toNat + 16777216 * (s.byte ((effAddr s siCore a m).toNat + 3)).toNat)))) ∧
    ∀ t, exec (.ldw siCore d a m) s = .next t → (∀ x, t.byte x = s.byte x) ∧ ∀ x, t.reg x = s.reg x

/-- R201, R282, R404, R406: a store of the SI pair writes the n bytes of Gd at Ga + IMM in SI SRAM and nothing else in memory. -/
def Obligations.SafetyIslandStoresSiSram : Prop :=
  ∀ r ∈ storeRows, ∀ (d a : GReg) (m : BitVec 16) (s : State), SiIssues s →
    (effAddr s siCore a m).toNat % r.2 = 0 → 0x30000000 ≤ (effAddr s siCore a m).toNat → (effAddr s siCore a m).toNat + r.2 ≤ 0x30200000 →
    ∃ t, exec (r.1 siCore d a m) s = .next t ∧
      (∀ k, k < r.2 → t.byte ((effAddr s siCore a m).toNat + k) = BitVec.ofNat 8 ((s.g siCore d).toNat / 256 ^ k) ∧
        t.wrong ((effAddr s siCore a m).toNat + k) = 0) ∧
      (∀ x, x < (effAddr s siCore a m).toNat ∨ (effAddr s siCore a m).toNat + r.2 ≤ x → t.byte x = s.byte x ∧ t.wrong x = s.wrong x) ∧
      (∀ x, t.reg x = s.reg x) ∧ (∀ j, j ≠ siCore → t.core j = s.core j) ∧ (∀ q, atLend s siCore = false → t.g siCore q = s.g siCore q)

/-- R203, R279: an ATOM gives Gd the old word; its discarded write is reported as STORE_ERR; misaligned it takes ALIGN. -/
def Obligations.AtomicsComplete : Prop :=
  ∀ r ∈ atomRows, ∀ (c : CoreId) (d a b : GReg) (s s1 : State), Issues c (r.1 c d a b) .none s s1 →
    ((s1.g c a).toNat % 4 ≠ 0 → exec (r.1 c d a b) s = .next (Taken c (r.1 c d a b) ⟨0x03, 0, some (s1.g c a), none⟩ s1)) ∧
    (∀ p ps s2 s3 bytes, (s1.g c a).toNat % 4 = 0 → transPieces c (s1.g c a).toNat 4 .atom false s1 = .ok (p :: ps) s2 →
      (atomPiece c r.2 (s2.g c b) p s2 = .ok (rOKAY, bytes) s3 → exec (r.1 c d a b) s = .next (Done c .next (s3.setG c d (leWord bytes)))) ∧
      (atomPiece c r.2 (s2.g c b) p s2 = .ok (rCOLLIDE, bytes) s3 →
        exec (r.1 c d a b) s = .next (Done c .next ((storeError c p.pa 4 (s3.lvl c).code rCOLLIDE s3).setG c d (leWord bytes)))))

/-- R203, R279, R280: an atomic on a good Erg word answers the old word and writes FN's combination, or nothing when its write collides. -/
def Obligations.ErgAtomicWord : Prop :=
  ∀ (pa fn : Nat) (v : Word) (s : State), pa % 4 = 0 → isErg pa = true → ergInService s pa 4 = true → ergIsReady s pa 4 = true →
    (∀ k, k < 8 → s.wrong (pa / 8 * 8 + k) = 0) → s.rb MIU_INJ 0 = false → fn < 4 →
    (∃ t, localAtomic pa fn v false s = (.done rOKAY ((List.range 4).map fun k => s.byte (pa + k)), t) ∧
      leWord ((List.range 4).map fun k => t.byte (pa + k)) =
        (let old := leWord ((List.range 4).map fun k => s.byte (pa + k))
         if fn = 0 then v else if fn = 1 then old + v else if fn = 2 then old &&& v else old ||| v) ∧
      (∀ x, x < pa ∨ pa + 4 ≤ x → t.byte x = s.byte x)) ∧
    (∃ t, localAtomic pa fn v true s = (.done rCOLLIDE ((List.range 4).map fun k => s.byte (pa + k)), t) ∧ ∀ x, t.byte x = s.byte x)

/-- R197, R198, R214: where the branches, calls and jumps go, and their refusal at LEND. -/
def Obligations.BranchesComplete : Prop :=
  (∀ r ∈ branchRows, ∀ (c : CoreId) (a b : GReg) (off : BitVec 16) (s s1 : State), Issues c (r.1 c a b off) .none s s1 →
      exec (r.1 c a b off) s = .next (Done c (if r.2 (s1.g c a) (s1.g c b) then .jump (s1.pc c + (off.signExtend 32 <<< 2)) else .next) s1)) ∧
    (∀ (c : CoreId) (off : BitVec 26) (s s1 : State), Issues c (.br c off) .none s s1 →
      exec (.br c off) s = .next (if atLend s1 c then Taken c (.br c off) (excIllegal (encB 0x20 off.toNat)) s1
        else Done c (.jump (s1.pc c + (off.signExtend 32 <<< 2))) s1)) ∧
    (∀ (c : CoreId) (off : BitVec 26) (s s1 : State), Issues c (.call c off) .none s s1 →
      exec (.call c off) s = .next (if atLend s1 c then Taken c (.call c off) (excIllegal (encB 0x21 off.toNat)) s1
        else Done c (.jump (s1.pc c + (off.signExtend 32 <<< 2))) (s1.setG c (gno 31) (s1.pc c + 4)))) ∧
    (∀ (c : CoreId) (d a : GReg) (m : BitVec 16) (s s1 : State), Issues c (.jmpr c d a m) .none s s1 →
      exec (.jmpr c d a m) s = .next (if atLend s1 c then Taken c (.jmpr c d a m) (excIllegal (encI 0x28 d.val a.val m.toNat)) s1
        else Done c (.jump ((s1.g c a + m.signExtend 32) &&& 0xFFFFFFFC)) (s1.setG c d (s1.pc c + 4))))

/-- R213 to R215: LOOP, and the end of a loop whose counter has reached zero. -/
def Obligations.LoopInstructionsComplete : Prop :=
  (∀ (c : CoreId) (gc : GReg) (n1 : BitVec 6) (s s1 : State), Issues c (.loop c gc n1) .none s s1 →
      exec (.loop c gc n1) s = .next (
        if (loopOn s1 c && inBody s1 c (s1.pc c)) = true then Taken c (.loop c gc n1) (excIllegal (encLoop gc.val n1.toNat)) s1
        else if s1.g c gc = 0 then Done c (.jump (s1.pc c + BitVec.ofNat 32 (4 * (n1.toNat + 1)) + 4)) s1
        else Done c .placed (loopCapture c (loopForget c ((((s1.setSr c 0x020 (s1.pc c + 4)).setSr c 0x021
          (s1.pc c + BitVec.ofNat 32 (4 * (n1.toNat + 1)))).setSr c 0x022 (BitVec.ofNat 32 (2 ^ 31 + gc.val))).setPc c (s1.pc c + 4)))))) ∧
    (∀ (c : CoreId) (s : State), (s.core c).loopDone = true →
      exec (.loopCountExpiry c) s = .next ((s.setSr c 0x022 (putBit (s.sr c 0x022) 31 false)).modCore c fun k =>
        { k with loopDone := false, lbuf := [], lcap := none }))

/-- R213, R214: the pc after an instruction, and the loop counter at LEND. -/
def Obligations.HardwareLoopRules : Prop :=
  ∀ (c : CoreId) (s : State) (t : Word),
    (atLend s c = false → (Done c .next s).pc c = s.pc c + 4 ∧ (∀ q, (Done c .next s).g c q = s.g c q) ∧ ∀ n, (Done c .next s).sr c n = s.sr c n) ∧
    (atLend s c = true → s.g c (gno (s.srf c 0x022 4 0)) - 1 ≠ 0 → (Done c .next s).pc c = s.sr c 0x020 ∧
      (Done c .next s).g c (gno (s.srf c 0x022 4 0)) = (if (gno (s.srf c 0x022 4 0)).val = 0 then 0 else s.g c (gno (s.srf c 0x022 4 0)) - 1) ∧
      (∀ q, q ≠ gno (s.srf c 0x022 4 0) → (Done c .next s).g c q = s.g c q) ∧ ∀ n, (Done c .next s).sr c n = s.sr c n) ∧
    (atLend s c = true → s.g c (gno (s.srf c 0x022 4 0)) - 1 = 0 → (Done c .next s).pc c = s.sr c 0x021 + 4 ∧
      (Done c .next s).g c (gno (s.srf c 0x022 4 0)) = 0 ∧
      ∃ u, exec (.loopCountExpiry c) (Done c .next s) = .next u ∧ u.pc c = s.sr c 0x021 + 4 ∧ loopOn u c = false) ∧
    (loopOn s c = true → inBody s c (s.pc c) = true → inBody s c t = false → (Done c (.jump t) s).pc c = t ∧ loopOn (Done c (.jump t) s) c = false) ∧
    (atLend s c = false → (loopOn s c && inBody s c (s.pc c) && !inBody s c t) = false →
      (Done c (.jump t) s).pc c = t ∧ ∀ n, (Done c (.jump t) s).sr c n = s.sr c n)

/-- R206 to R209, R214: CALLM and RETM. -/
def Obligations.SavingCallsComplete : Prop :=
  (∀ (c : CoreId) (a : GReg) (mask : BitVec 16) (s s1 : State), Issues c (.callm c a mask) .none s s1 →
      (atLend s1 c = true → exec (.callm c a mask) s = .next (Taken c (.callm c a mask) (excIllegal (encCallm a.val mask.toNat)) s1)) ∧
      (atLend s1 c = false → (s1.g c (gno 30)).toNat % 8 ≠ 0 →
        exec (.callm c a mask) s = .next (Taken c (.callm c a mask) ⟨0x03, 0, some (s1.g c (gno 30)), none⟩ s1)) ∧
      (∀ ps s2 s3, atLend s1 c = false → (s1.g c (gno 30)).toNat % 8 = 0 →
        transPieces c (s1.g c (gno 30) - BitVec.ofNat 32 (frameSize mask.toNat)).toNat (frameSize mask.toNat) .store false s1 = .ok ps s2 →
        storeFrame c ps
          (BitVec.ofNat 32 mask.toNat :: s2.g c (gno 31) :: (maskRegs mask.toNat).map fun r => s2.g c r) s2 = .ok () s3 →
        exec (.callm c a mask) s = .next (Done c (.jump (s1.g c a &&& 0xFFFFFFFC))
          ((s3.setG c (gno 30) (s1.g c (gno 30) - BitVec.ofNat 32 (frameSize mask.toNat))).setG c (gno 31) (s3.pc c + 4))))) ∧
    (∀ (c : CoreId) (s s1 : State), Issues c (.retm c) .none s s1 →
      (atLend s1 c = true → exec (.retm c) s = .next (Taken c (.retm c) (excIllegal 0xA8000000) s1)) ∧
      (atLend s1 c = false → (s1.g c (gno 30)).toNat % 8 ≠ 0 →
        exec (.retm c) s = .next (Taken c (.retm c) ⟨0x03, 0, some (s1.g c (gno 30)), none⟩ s1)) ∧
      (∀ b s2 ps s3 ws s4, atLend s1 c = false → (s1.g c (gno 30)).toNat % 8 = 0 → loadAt c (s1.g c (gno 30)) 4 s1 = .ok b s2 →
        leNat b ≤ 0xFFFF → transPieces c (s1.g c (gno 30)).toNat (frameSize (leNat b)) .load false s2 = .ok ps s3 →
        loadWords c (s1.g c (gno 30) + 4) (1 + popCount 16 (leNat b)) s3 = .ok ws s4 →
        exec (.retm c) s = .next (Done c (.jump (s1.g c (gno 31) &&& 0xFFFFFFFC))
          (((setGs c ((maskRegs (leNat b)).zip (ws.drop 1)) s4).setG c (gno 31) (ws.headD 0)).setG c (gno 30)
            (s1.g c (gno 30) + BitVec.ofNat 32 (frameSize (leNat b)))))))

/-- R210 to R212: one element of a block repeat (one command is one element: the model's choice, log 12). -/
def Obligations.BlockRepeatsComplete : Prop :=
  (∀ (c : CoreId) (sz : BitVec 2) (st dt : BitVec 4) (k : BitVec 2) (s s1 : State),
      (sz = 3 → Issues c (.fills c sz dt) .none s s1 → exec (.fills c sz dt) s = .next (Taken c (.fills c sz dt) (excIllegal (encS 3 0 0 dt.toNat 0)) s1)) ∧
      (sz = 3 → Issues c (.movs c sz st dt) .none s s1 →
        exec (.movs c sz st dt) s = .next (Taken c (.movs c sz st dt) (excIllegal (encS 3 1 st.toNat dt.toNat 0)) s1)) ∧
      (sz = 3 → Issues c (.scans c sz st k) .none s s1 →
        exec (.scans c sz st k) s = .next (Taken c (.scans c sz st k) (excIllegal (encS 3 2 st.toNat 0 k.toNat)) s1)) ∧
      (sz = 3 → Issues c (.cmps c sz st dt) .none s s1 →
        exec (.cmps c sz st dt) s = .next (Taken c (.cmps c sz st dt) (excIllegal (encS 3 3 st.toNat dt.toNat 0)) s1)) ∧
      (sz ≠ 3 → s1.g c (gno 6) = 0 → Issues c (.fills c sz dt) .none s s1 → exec (.fills c sz dt) s = .next (Done c .next s1)) ∧
      (sz ≠ 3 → s1.g c (gno 6) = 0 → Issues c (.movs c sz st dt) .none s s1 → exec (.movs c sz st dt) s = .next (Done c .next s1)) ∧
      (sz ≠ 3 → s1.g c (gno 6) = 0 → Issues c (.scans c sz st k) .none s s1 → exec (.scans c sz st k) s = .next (Done c .next s1)) ∧
      (sz ≠ 3 → s1.g c (gno 6) = 0 → Issues c (.cmps c sz st dt) .none s s1 →
        exec (.cmps c sz st dt) s = .next (Done c .next (s1.setG c (gno 7) 0)))) ∧
    (∀ (c : CoreId) (sz : BitVec 2) (st dt : BitVec 4) (k : BitVec 2) (s s1 : State), sz ≠ 3 → s1.g c (gno 6) ≠ 0 →
      (∀ s2, Issues c (.fills c sz dt) .none s s1 →
        storeAt c (s1.g c (gno 5)) (leBytes (2 ^ sz.toNat) ((s1.g c (gno 7)).toNat % 2 ^ (8 * 2 ^ sz.toNat))) s1 = .ok () s2 →
        exec (.fills c sz dt) s = .next (Repeated c (.fills c sz dt) s2 (stepped c 0 (BitVec.ofInt 32 (dt.toInt * (2 ^ sz.toNat : Nat))) s2))) ∧
      (∀ ps qs b s2 s3 s4, Issues c (.movs c sz st dt) .none s s1 → twoOperands c (2 ^ sz.toNat) .store s1 = .ok (ps, qs) s2 →
        loadPieces c ps s2 = .ok b s3 → storePieces c qs b s3 = .ok () s4 →
        exec (.movs c sz st dt) s = .next (Repeated c (.movs c sz st dt) s4
          (stepped c (BitVec.ofInt 32 (st.toInt * (2 ^ sz.toNat : Nat))) (BitVec.ofInt 32 (dt.toInt * (2 ^ sz.toNat : Nat))) s4))) ∧
      (∀ b s2, Issues c (.scans c sz st k) .none s s1 → loadAt c (s1.g c (gno 4)) (2 ^ sz.toNat) s1 = .ok b s2 →
        exec (.scans c sz st k) s = .next (
          let v := (s2.g c (gno 7)).toNat % 2 ^ (8 * 2 ^ sz.toNat)
          if (k = 0 ∧ leNat b = v) ∨ (k = 1 ∧ leNat b ≠ v) ∨ (k = 2 ∧ leNat b < v) ∨ (k = 3 ∧ v ≤ leNat b) then Done c .next s2
          else Repeated c (.scans c sz st k) s2 (stepped c (BitVec.ofInt 32 (st.toInt * (2 ^ sz.toNat : Nat))) 0 s2))) ∧
      (∀ ps qs xy x y s2 s3, Issues c (.cmps c sz st dt) .none s s1 → twoOperands c (2 ^ sz.toNat) .load s1 = .ok (ps, qs) s2 →
        loadPieces c (ps ++ qs) s2 = .ok xy s3 → x = xy.take (2 ^ sz.toNat) → y = xy.drop (2 ^ sz.toNat) →
        (leNat x ≠ leNat y → exec (.cmps c sz st dt) s = .next (Done c .next (s3.setG c (gno 7) (leWord x - leWord y)))) ∧
        (leNat x = leNat y → s3.g c (gno 6) - 1 ≠ 0 → exec (.cmps c sz st dt) s = .next (Stays c (.cmps c sz st dt)
          (stepped c (BitVec.ofInt 32 (st.toInt * (2 ^ sz.toNat : Nat))) (BitVec.ofInt 32 (dt.toInt * (2 ^ sz.toNat : Nat))) s3))) ∧
        (leNat x = leNat y → s3.g c (gno 6) - 1 = 0 → exec (.cmps c sz st dt) s = .next (Done c .next
          ((stepped c (BitVec.ofInt 32 (st.toInt * (2 ^ sz.toNat : Nat))) (BitVec.ofInt 32 (dt.toInt * (2 ^ sz.toNat : Nat))) s3).setG c (gno 7) 0)))))

/-- R204, R195, R127, R198: the floating-point rows. -/
def Obligations.FloatingPointComplete : Prop :=
  (∀ q ∈ fpRows2, ∀ (c : CoreId) (d a b : FReg) (rm : BitVec 3) (p : Bool) (s s1 : State), Issues c (q.1 c d a b rm p) .none s s1 →
      (∀ r, fpRm s1 c rm = some r → exec (q.1 c d a b rm p) s =
        .next (Done c .next (fpPut c d (q.2.2 (fpTy p) r (fpArg s1 c (fpTy p) a) (fpArg s1 c (fpTy p) b)) s1))) ∧
      (fpRm s1 c rm = none → exec (q.1 c d a b rm p) s = .next (Taken c (q.1 c d a b rm p) (excIllegal (encF d.val a.val b.val rm.toNat q.2.1 p)) s1))) ∧
    (∀ q ∈ fpRows1, ∀ (c : CoreId) (d a : FReg) (rm : BitVec 3) (p : Bool) (s s1 : State), Issues c (q.1 c d a rm p) .none s s1 →
      (∀ r, fpRm s1 c rm = some r → exec (q.1 c d a rm p) s = .next (Done c .next (fpPut c d (q.2.2 (fpTy p) r (fpArg s1 c (fpTy p) a)) s1))) ∧
      (fpRm s1 c rm = none → exec (q.1 c d a rm p) s = .next (Taken c (q.1 c d a rm p) (excIllegal (encF d.val a.val 0 rm.toNat q.2.1 p)) s1))) ∧
    (∀ q ∈ fpRowsG, ∀ (c : CoreId) (d : GReg) (a : FReg) (rm : BitVec 3) (p : Bool) (s s1 : State), Issues c (q.1 c d a rm p) .none s s1 →
      (∀ r, fpRm s1 c rm = some r → exec (q.1 c d a rm p) s = .next (Done c .next (fpPutG c d (q.2.2 (fpTy p) r (fpArg s1 c (fpTy p) a)) s1))) ∧
      (fpRm s1 c rm = none → exec (q.1 c d a rm p) s = .next (Taken c (q.1 c d a rm p) (excIllegal (encF d.val a.val 0 rm.toNat q.2.1 p)) s1))) ∧
    (∀ q ∈ fpRowsI, ∀ (c : CoreId) (d : FReg) (a : GReg) (rm : BitVec 3) (p : Bool) (s s1 : State), Issues c (q.1 c d a rm p) .none s s1 →
      (∀ r, fpRm s1 c rm = some r → exec (q.1 c d a rm p) s = .next (Done c .next (fpPut c d (cvt q.2.2 (fpTy p) r (s1.g c a).toNat) s1))) ∧
      (fpRm s1 c rm = none → exec (q.1 c d a rm p) s = .next (Taken c (q.1 c d a rm p) (excIllegal (encF d.val a.val 0 rm.toNat q.2.1 p)) s1))) ∧
    (∀ q ∈ fpRowsC, ∀ (c : CoreId) (d : GReg) (a b : FReg) (rm : BitVec 3) (p : Bool) (s s1 : State), Issues c (q.1 c d a b rm p) .none s s1 →
      (∀ r, fpRm s1 c rm = some r → exec (q.1 c d a b rm p) s = .next (Done c .next (fpPutG c d
        (b2n (numCmp (fpTy p) q.2.2 (fpArg s1 c (fpTy p) a) (fpArg s1 c (fpTy p) b)).1,
          (numCmp (fpTy p) q.2.2 (fpArg s1 c (fpTy p) a) (fpArg s1 c (fpTy p) b)).2) s1))) ∧
      (fpRm s1 c rm = none → exec (q.1 c d a b rm p) s = .next (Taken c (q.1 c d a b rm p) (excIllegal (encF d.val a.val b.val rm.toNat q.2.1 p)) s1))) ∧
    (∀ q ∈ fpRowsF, ∀ (c : CoreId) (d a b e : FReg) (rm : BitVec 3) (p : Bool) (s s1 : State), Issues c (q.1 c d a b e rm p) .none s s1 →
      (∀ r, fpRm s1 c rm = some r → exec (q.1 c d a b e rm p) s = .next (Done c .next (fpPut c d (numFma (fpTy p) (fpTy p) r false q.2.2.1 q.2.2.2
        (fpArg s1 c (fpTy p) a) (fpArg s1 c (fpTy p) b) (fpArg s1 c (fpTy p) e)) s1))) ∧
      (fpRm s1 c rm = none →
        exec (q.1 c d a b e rm p) s = .next (Taken c (q.1 c d a b e rm p) (excIllegal (encFma d.val a.val b.val e.val rm.toNat q.2.1 p)) s1))) ∧
    (∀ (c : CoreId) (d : FReg) (a : GReg) (rm : BitVec 3) (p : Bool) (s s1 : State) (r : Rm), Issues c (.fmvgf c d a rm p) .none s s1 → fpRm s1 c rm = some r →
      exec (.fmvgf c d a rm p) s = .next (Done c .next (s1.setF c d ((s1.g c a).zeroExtend 64)))) ∧
    (∀ (c : CoreId) (d : FReg) (a : GReg) (rm : BitVec 3) (p : Bool) (s s1 : State), Issues c (.fmvgf c d a rm p) .none s s1 → fpRm s1 c rm = none →
      exec (.fmvgf c d a rm p) s = .next (Taken c (.fmvgf c d a rm p) (excIllegal (encF d.val a.val 0 rm.toNat 0x10 p)) s1))

/-- R132, R148, R195: what a floating-point result does to the registers, FCSR and the pending trap. -/
def Obligations.FloatingPointFlags : Prop :=
  ∀ (c : CoreId) (d : FReg) (r : Res) (s : State),
    (fpPut c d r s).f c d = BitVec.ofNat 64 r.1 ∧ (∀ q, q ≠ d → (fpPut c d r s).f c q = s.f c q) ∧ (∀ q, (fpPut c d r s).g c q = s.g c q) ∧
    (∀ i, wbit ((fpPut c d r s).sr c 0x010) i = (wbit (s.sr c 0x010) i || (decide (i < 6) && r.2.getLsbD i))) ∧
    (∀ n, n ≠ 0x010 → (fpPut c d r s).sr c n = s.sr c n) ∧
    (((r.2.toNat % 32) &&& fld (s.sr c 0x010) 12 8) = 0 → ((fpPut c d r s).core c).fpTrap = (s.core c).fpTrap) ∧
    (((r.2.toNat % 32) &&& fld (s.sr c 0x010) 12 8) ≠ 0 → (s.core c).fpTrap = none →
      ((fpPut c d r s).core c).fpTrap = some (s.pc c, (r.2.toNat % 32) &&& fld (s.sr c 0x010) 12 8)) ∧
    (∀ a fl, ((r.2.toNat % 32) &&& fld (s.sr c 0x010) 12 8) ≠ 0 → (s.core c).fpTrap = some (a, fl) →
      ∃ g, ((fpPut c d r s).core c).fpTrap = some (a, fl ||| g)) ∧
    (∀ a, (fpPut c d r s).byte a = s.byte a) ∧ (∀ a, (fpPut c d r s).reg a = s.reg a) ∧ ∀ i, i ≠ c → (fpPut c d r s).core i = s.core i

/-- R205, R316, R318: SRR and the claims. -/
def Obligations.SystemRegisterReadsComplete : Prop :=
  (∀ (c : CoreId) (d : GReg) (n : BitVec 12) (s s1 : State), Issues c (.srr c d n) .none s s1 →
      (srSpec n.toNat = none → exec (.srr c d n) s = .next (Taken c (.srr c d n) (excIllegal (encSys d.val 0 n.toNat 0)) s1)) ∧
      (∀ r, srSpec n.toNat = some r → siNoSr c n.toNat false = false → n ≠ 0x140 → n ≠ 0x141 → n ≠ 0x142 →
        (r.rlev.code ≤ (s1.lvl c).code → exec (.srr c d n) s = .next (Done c .next (s1.setG c d
          (if n.toNat = 0x101 then putFld (putBit (s1.sr c n.toNat) 4 ((s1.core c).hold != 0)) 1 0 (s1.lvl c).code
            else if n.toNat = 0x102 then putFld (s1.sr c n.toNat) 25 16 (s1.core c).hold else s1.sr c n.toNat)))) ∧
        ((s1.lvl c).code < r.rlev.code → exec (.srr c d n) s = .next (Taken c (.srr c d n) (excPriv (encSys d.val 0 n.toNat 0)) s1)))) ∧
    (∀ (c : CoreId) (d : GReg) (s s1 : State), s1.lvl c ≠ .u →
      (Issues c (.iclaimn c d) .none s s1 → exec (.iclaimn c d) s = .next (Done c .next ((claim c 0 s1).2.setG c d (BitVec.ofNat 32 (claim c 0 s1).1)))) ∧
      (Issues c (.iclaimf c d) .none s s1 → exec (.iclaimf c d) s = .next (Done c .next ((claim c 1 s1).2.setG c d (BitVec.ofNat 32 (claim c 1 s1).1)))))

/-- R205, R226, R317, R318: SRW, whichever row names the register. -/
def Obligations.SystemRegisterWritesComplete : Prop :=
  (∀ (c : CoreId) (n : BitVec 12) (a : GReg) (s s1 : State), Issues c (.srw c n a) .none s s1 →
      ∀ r, srSpec n.toNat = some r → siNoSr c n.toNat true = false → n ≠ 0x115 → n ≠ 0x125 → n ≠ 0x140 → n ≠ 0x141 → n ≠ 0x142 →
        (r.wlev.code ≤ (s1.lvl c).code → exec (.srw c n a) s = .next (Done c .next ((if 0x020 ≤ n.toNat ∧ n.toNat ≤ 0x022 then loopForget c else if srSerial n.toNat then refetch c else id) (s1.setSr c n.toNat
          (let m := BitVec.ofNat 32 (if s1.lvl c = .m then r.rwM else r.rwS)
           ((s1.sr c n.toNat &&& ~~~m) ||| (s1.g c a &&& m)) &&& ~~~(s1.g c a &&& BitVec.ofNat 32 r.w1c)))))) ∧
        ((s1.lvl c).code < r.wlev.code → exec (.srw c n a) s = .next (Taken c (.srw c n a) (excPriv (encSys 0 a.val n.toNat 1)) s1))) ∧
    (∀ (c : CoreId) (a : GReg) (s s1 : State), Issues c (.fcsrWrite c a) .none s s1 →
      exec (.fcsrWrite c a) s = .next (Done c .next (s1.setSr c 0x010 ((s1.sr c 0x010 &&& ~~~0x061F1F3F) ||| (s1.g c a &&& 0x061F1F3F))))) ∧
    (∀ (c : CoreId) (a : GReg) (s s1 : State), Issues c (.lctlWrite c a) .none s s1 →
      exec (.lctlWrite c a) s = .next (Done c .next (loopForget c (s1.setSr c 0x022 ((s1.sr c 0x022 &&& ~~~0x8000001F) ||| (s1.g c a &&& 0x8000001F)))))) ∧
    (∀ (c : CoreId) (a : GReg) (s s1 : State), Issues c (.ctxModeWrite c a) .none s s1 →
      exec (.ctxModeWrite c a) s = .next (if s1.lvl c = .u then Taken c (.ctxModeWrite c a) (excPriv (encSys 0 a.val 0x100 1)) s1
        else Done c .next (refetch c (s1.setSr c 0x100 ((s1.sr c 0x100 &&& ~~~0x80000000) ||| (s1.g c a &&& 0x80000000)))))) ∧
    (∀ (c : CoreId) (a : GReg) (s s1 : State), Issues c (.icomplete c a) .none s s1 → s1.lvl c ≠ .u →
      exec (.icomplete c a) s = .next (Done c .next (complete c (fld (s1.g c a) 9 0) s1))) ∧
    (∀ (c : CoreId) (sup : Bool) (a : GReg) (s s1 s2 s3 : State) (en ef : VecEntry), Issues c (.vbaseWrite c sup a) .none s s1 →
      (sup = true → isSI c = false ∧ s1.lvl c ≠ .u) → (sup = false → s1.lvl c = .m) →
      captureEntry c (if sup then .s else .m) 0x20 (s1.setSr c (if sup then 0x125 else 0x115) (s1.g c a)) = .ok en s2 →
      captureEntry c (if sup then .s else .m) 0x21 s2 = .ok ef s3 →
      exec (.vbaseWrite c sup a) s = .next (Done c .next ((refetch c s3).modCore c fun k =>
        if sup then { k with vecSN := en, vecSF := ef } else { k with vecMN := en, vecMF := ef })))

/-- R317: the end of a service, and a COMPLETE that ends none. The level that LVL samples (R314) is a free value. -/
def Obligations.CompletionEndsService : Prop :=
  ∀ (c : CoreId) (a : GReg) (n : Nat) (s s1 : State), c ≠ siCore → Issues c (.icomplete c a) .none s s1 → s1.lvl c ≠ .u → n = fld (s1.g c a) 9 0 →
    ∃ t, exec (.icomplete c a) s = .next (Done c .next t) ∧ (∀ x, t.byte x = s1.byte x) ∧
      (1 ≤ n ∧ n ≤ 640 ∧ s1.rb (ICU_SRC n) 6 = true ∧ s1.rf (ICU_SRC n) 5 4 = c.val →
        t.rb (ICU_SRC n) 6 = false ∧ (s1.rb (ICU_SRC n) 29 = false → t.rb (ICU_SRC n) 7 = false) ∧
        (s1.rb (ICU_SRC n) 29 = true → ∃ j, t.rb (ICU_SRC n) 7 = Config.levelInput n j) ∧
        (∀ k, k ≠ 6 → k ≠ 7 → t.rb (ICU_SRC n) k = s1.rb (ICU_SRC n) k) ∧ ∀ x, x ≠ ICU_SRC n → t.reg x = s1.reg x) ∧
      (¬(1 ≤ n ∧ n ≤ 640 ∧ s1.rb (ICU_SRC n) 6 = true ∧ s1.rf (ICU_SRC n) 5 4 = c.val) →
        t.rb (ICU_CSTAT c.val) 0 = true ∧ (∀ k, k ≠ 0 → t.rb (ICU_CSTAT c.val) k = s1.rb (ICU_CSTAT c.val) k) ∧
        ∀ x, x ≠ ICU_CSTAT c.val → t.reg x = s1.reg x)

/-- R149, R229, R231, R234, R320: the waits, returns and BRK. -/
def Obligations.SynchronisingInstructionsComplete : Prop :=
  ∀ (c : CoreId) (s s1 : State),
    (Issues c (.fsync c) .full s s1 → exec (.fsync c) s = .next (Done c .next s1)) ∧
    (Issues c (.vsync c) .full s s1 → exec (.vsync c) s = .next (Done c .next s1)) ∧
    (Issues c (.mret c) .none s s1 → exec (.mret c) s = .next (if atLend s1 c then Taken c (.mret c) (excIllegal 0xE0000005) s1
      else if s1.lvl c = .m then unstall c (returnFrom c .m (refetch c s1)) else Taken c (.mret c) (excPriv 0xE0000005) s1)) ∧
    (Issues c (.sret c) .none s s1 → exec (.sret c) s = .next (if c = siCore ∨ atLend s1 c = true then Taken c (.sret c) (excIllegal 0xE0000006) s1
      else if s1.lvl c = .u then Taken c (.sret c) (excPriv 0xE0000006) s1 else unstall c (returnFrom c .s (refetch c s1)))) ∧
    (Issues c (.wait c) .none s s1 → exec (.wait c) s = .next (Done c .next (s1.modCore c fun k => { k with hold := 0, waiting := !waitEnds s1 c }))) ∧
    (Issues c (.brk c) .none s s1 → exec (.brk c) s = .next (Taken c (.brk c) ⟨0x16, 0, some 0xE0000008, none⟩ s1))

/-- R232. -/
def Obligations.HoldInstruction : Prop :=
  (∀ (c : CoreId) (k : BitVec 10) (s s1 : State), Issues c (.holdi c k) .none s s1 →
      (s1.lvl c ≠ .u → ∀ w, w = Nat.min k.toNat (s1.srf c 0x102 9 0) →
        exec (.holdi c k) s = .next (Done c .next ((refetch c s1).modCore c fun x => { x with hold := if x.hold = 0 then w else Nat.min x.hold w })) ∧
        ∀ t, exec (.holdi c k) s = .next t → (t.core c).hold ≤ w ∧ ((s1.core c).hold ≠ 0 → (t.core c).hold ≤ (s1.core c).hold) ∧
          ((s1.core c).hold = 0 → (t.core c).hold = w)) ∧
      (s1.lvl c = .u → exec (.holdi c k) s = .next (Taken c (.holdi c k) ⟨0x02, 0, some (encSys 0 0 k.toNat 9), none⟩ s1))) ∧
    (∀ (c : CoreId) (a : GReg) (s s1 : State), Issues c (.srw c 0x102 a) .none s s1 →
      (s1.lvl c = .s → ∃ t, exec (.srw c 0x102 a) s = .next t ∧ t.srf c 0x102 9 0 = s1.srf c 0x102 9 0) ∧
      (s1.lvl c = .u → exec (.srw c 0x102 a) s = .next (Taken c (.srw c 0x102 a) ⟨0x02, 0, some (encSys 0 a.val 0x102 1), none⟩ s1)))

/-- R214, R239 to R242, R254, R269 to R271: GATE (which port reads its entry is the model's choice, log 65), the timeout of its probe walk, TLBI, its end, and the end of a walk in flight. -/
def Obligations.GateAndTlbiComplete : Prop :=
  ((∀ (c : CoreId) (n : BitVec 12) (s s1 : State), Issues c (.gate c n) .none s s1 →
      (atLend s1 c = true → exec (.gate c n) s = .next (Taken c (.gate c n) (excIllegal (encSys 0 0 n.toNat 4)) s1)) ∧
      (atLend s1 c = false → Nat.min 1024 (s1.srf c 0x105 10 0) ≤ n.toNat → exec (.gate c n) s = .next (Taken c (.gate c n) ⟨0x11, 0, none, none⟩ s1)) ∧
      (∀ r b s2, atLend s1 c = false → n.toNat < Nat.min 1024 (s1.srf c 0x105 10 0) →
        readPhys c ((s1.sr c 0x104).toNat * 0x10000 + 32 * n.toNat) 32 s1 = (.done r b, s2) →
        (sramFails c ((s1.sr c 0x104).toNat * 0x10000 + 32 * n.toNat) r = true → exec (.gate c n) s = .next (Taken c (.gate c n)
          (Exc.plain cMCHK (BitVec.ofNat 32 ((s1.sr c 0x104).toNat * 0x10000 + 32 * n.toNat))) s2)) ∧
        (r ≠ rOKAY → sramFails c ((s1.sr c 0x104).toNat * 0x10000 + 32 * n.toNat) r = false → exec (.gate c n) s = .next (Taken c (.gate c n)
          ⟨0x17, 0, some (BitVec.ofNat 32 ((s1.sr c 0x104).toNat * 0x10000 + 32 * n.toNat)), none⟩ s2)) ∧
        (r = rOKAY → gateBad c (gateOf b) (s2.lvl c) = true → exec (.gate c n) s = .next (Taken c (.gate c n) ⟨0x12, 0, none, none⟩ s2)) ∧
        (∀ s3, r = rOKAY → gateBad c (gateOf b) (s2.lvl c) = false →
          probeArgs c n.toNat false ((List.range 4).zip (gateOf b).args) s2 = .ok () s3 →
          ((gateOf b).lvl ≠ 3 → exec (.gate c n) s = .next (unstall c (gateEnter c n.toNat (gateOf b) s3))) ∧
          ((gateOf b).lvl = 3 → drained (drain c s3) c = true → ((drain c s3).core c).stPend = false →
            exec (.gate c n) s = .next (unstall c (gateEnter c n.toNat (gateOf b) (drain c s3))))))) ∧
    (∀ (c : CoreId) (n : BitVec 12) (s s1 s2 : State) (b : List Byte), (s.core c).stall = some (.gate c n) →
      (s.walks.any fun w => w.ag == c.val && w.wanted && w.res.isNone) = true → Issues c (.gate c n) .none s s1 → atLend s1 c = false →
      n.toNat < Nat.min 1024 (s1.srf c 0x105 10 0) →
      readPhys c ((s1.sr c 0x104).toNat * 0x10000 + 32 * n.toNat) 32 s1 = (.done rOKAY b, s2) → gateBad c (gateOf b) (s2.lvl c) = false →
      ∀ s3, probeArgs c n.toNat false ((List.range 4).zip (gateOf b).args) s2 = .wait s3 →
        ∃ i va k s4, i < 4 ∧ va < 2 ^ 32 ∧ translate c.val (coreSpace s4 c).1 (coreSpace s4 c).2 va k (s4.lvl c == .u) false s4 = (.wait, s3) ∧
          (((gateOf b).args[i]?.map fun g => g.kind) = some 1 ∧ k = .probeR ∨ ((gateOf b).args[i]?.map fun g => g.kind) = some 2 ∧ k = .probeW) ∧
          exec (.gateProbeTimeout c) s = .next (Taken c (.gate c n) ⟨0x10, n.toNat % 1024 + i * 2 ^ 11 + 2 ^ 13, some (BitVec.ofNat 32 va), none⟩ s3))) ∧
    ((∀ (c : CoreId) (ga gb : GReg) (ty : BitVec 4) (s s1 : State), Issues c (.tlbi c ga gb ty) .none s s1 →
      ((c = siCore ∨ 4 < ty.toNat) → exec (.tlbi c ga gb ty) s = .next (Taken c (.tlbi c ga gb ty) (excIllegal (encInv gb.val ga.val ty.toNat 10)) s1)) ∧
      (c ≠ siCore → ty.toNat ≤ 4 → (s1.lvl c = .u ∨ (s1.lvl c = .s ∧ (ty = 0 ∨ ty = 1 ∨ ty = 4))) →
        exec (.tlbi c ga gb ty) s = .next (Taken c (.tlbi c ga gb ty) (excPriv (encInv gb.val ga.val ty.toNat 10)) s1)) ∧
      (∀ s2, c ≠ siCore → ty.toNat ≤ 4 → (s1.lvl c = .m ∨ (s1.lvl c = .s ∧ (ty = 2 ∨ ty = 3))) → drained s1 c = true → (s1.core c).marked = false →
        s2 = (invalidate (some c.val) ty.toNat (fld (s1.g c ga) 7 0) (if s1.lvl c = .m then fld (s1.g c ga) 11 8 else s1.srf c 0x130 11 8)
          (s1.g c gb).toNat s1).modCore c (fun k => { k with marked := true }) →
        exec (.tlbi c ga gb ty) s = .next (if walksPending s2 c.val then s2.modCore c (fun k => { k with stall := some (.tlbi c ga gb ty) })
          else Done c .next (refetch c s2)))) ∧
    (∀ (c : CoreId) (ga gb : GReg) (ty : BitVec 4) (s s1 : State), (s.core c).stall = some (.tlbi c ga gb ty) → Issues c (.tlbi c ga gb ty) .none s s1 →
      c ≠ siCore → ty.toNat ≤ 4 → (s1.lvl c = .m ∨ (s1.lvl c = .s ∧ (ty = 2 ∨ ty = 3))) → drained s1 c = true → (s1.core c).marked = true →
      walksPending s1 c.val = false → exec (.tlbiWalksDone c) s = .next (Done c .next (refetch c s1))) ∧
    (∀ (i : Nat) (w : WalkRec) (r : XRes) (l : List LinkRsp) (s s1 : State), s.pwr ≤ 1 → s.walks[i]? = some w → w.res = none → w.queued = false → r ≠ .wait →
      walkRun w s = (r, l, s1) →
      exec (.tableWalkDone i) s = .next { s1 with walks := s1.walks.eraseIdx i ++ (if w.wanted then [{ w with res := some r }] else []) }))

/-- R227, R231: what an entry writes, and all that it writes. -/
def Obligations.ExceptionEntry : Prop :=
  ∀ (c : CoreId) (t : Level) (code info : Nat) (v rpc handler : Word) (hold : Nat) (s u : State), t ≠ .u → code < 64 → code ≠ 0x21 → info < 65536 →
    u = commitEntry c t code info (some v) rpc handler hold s →
    u.sr c (srRpc t) = rpc ∧ u.sr c (srRsn t) = BitVec.ofNat 32 (info * 65536 + code) ∧ u.sr c (srFval t) = v ∧
    (t = .m → fld (u.sr c 0x101) 13 12 = (s.lvl c).code ∧ wbit (u.sr c 0x101) 17 = false ∧ fld (u.sr c 0x101) 8 8 = fld (s.sr c 0x101) 8 8) ∧
    (t = .s → fld (u.sr c 0x101) 8 8 = (s.lvl c).code % 2 ∧ wbit (u.sr c 0x101) 16 = false ∧ fld (u.sr c 0x101) 13 12 = fld (s.sr c 0x101) 13 12) ∧
    u.lvl c = t ∧ u.pc c = handler ∧ (u.core c).hold = (s.core c).hold ∧
    ((s.core c).entWin = none → ∀ w, ((fetchDone c w u).core c).hold = (if (s.core c).hold = 0 then hold else Nat.min (s.core c).hold hold)) ∧
    (u.core c).stall = none ∧ (u.core c).waiting = false ∧
    (∀ q, u.g c q = s.g c q) ∧ (∀ q, u.f c q = s.f c q) ∧
    (∀ n, n ≠ srRpc t → n ≠ srRsn t → n ≠ srFval t → n ≠ 0x101 → u.sr c n = s.sr c n) ∧
    (∀ a, u.reg a = s.reg a) ∧ (∀ a, u.byte a = s.byte a) ∧ ∀ i, i ≠ c → u.core i = s.core i

/-- R229: the return from M, and from S. -/
def Obligations.ExceptionReturn : Prop :=
  ∀ (c : CoreId) (t : Level) (s u : State), c ≠ siCore → t ≠ .u → wbit (s.sr c 0x143) (fbBit t) = false → (t = .m → s.srf c 0x101 13 12 ≠ 2) →
    u = returnFrom c t s →
    u.pc c = s.sr c (srRpc t) ∧ u.lvl c = Level.ofCode (if t = .m then s.srf c 0x101 13 12 else s.srf c 0x101 8 8) ∧
    u.g c (gno 30) = (if prevSwitched s c t then s.sr c (srGsp t) else s.g c (gno 30)) ∧
    (t = .m → fld (u.sr c 0x101) 13 12 = 0 ∧ wbit (u.sr c 0x101) 17 = false ∧ fld (u.sr c 0x101) 8 8 = fld (s.sr c 0x101) 8 8) ∧
    (t = .s → fld (u.sr c 0x101) 8 8 = 0 ∧ wbit (u.sr c 0x101) 16 = false ∧ fld (u.sr c 0x101) 13 12 = fld (s.sr c 0x101) 13 12) ∧
    (∀ q, q ≠ gno 30 → u.g c q = s.g c q) ∧ (∀ q, u.f c q = s.f c q) ∧ (∀ n, n ≠ 0x101 → u.sr c n = s.sr c n) ∧
    (∀ a, u.reg a = s.reg a) ∧ (∀ a, u.byte a = s.byte a) ∧ ∀ i, i ≠ c → u.core i = s.core i

/-- R148, R220, R225, R227, R231, R236, R237: the entries and ends that happen at an instruction boundary. The source that an entry remembers, the FVAL of a cause that has none, the INFO of one that lists none, and that a duration ends when its command says so, are the model's choices (logs 16, 17, 18, 8). -/
def Obligations.InterruptsAndTrapsEnter : Prop :=
  (∀ (c : CoreId) (s : State), Quiet c s → (s.core c).stPend = false → (s.core c).fpTrap = none → intReady s c 0 = true → intReady s c 1 = false →
      (wbit (s.sr c 0x103) 30 = false ∨ s.lvl c = .m) → (s.core c).vecMN.ok = true → (s.core c).vecMN.handler ≠ 0 →
      exec (.intN c) s = .next ((commitEntry c .m 0x20 0 none (s.pc c) (s.core c).vecMN.handler (s.core c).vecMN.hold s).modCore c
        fun k => { k with entN := intLine s c 0 })) ∧
    (∀ (c : CoreId) (s : State), Quiet c s → (s.core c).stPend = false → (s.core c).fpTrap = none → intReady s c 1 = true →
      (wbit (s.sr c 0x103) 31 = false ∨ s.lvl c = .m) → (s.core c).vecMF.ok = true → (s.core c).vecMF.handler ≠ 0 →
      exec (.intF c) s = .next ((commitEntry c .m 0x21 0 none (s.pc c) (s.core c).vecMF.handler (s.core c).vecMF.hold s).modCore c
        fun k => { k with entF := intLine s c 1 })) ∧
    (∀ (c : CoreId) (s s1 : State) (v : VecEntry), Quiet c s → (s.core c).stPend = true →
      vecEntry c .m 0x0D s = (some v, s1) → v.ok = true → v.handler ≠ 0 →
      exec (.storeErr c) s = .next (commitEntry c .m 0x0D 0 (some (s1.sr c 0x107)) (s.pc c) v.handler v.hold (s1.modCore c fun k => { k with stPend := false }))) ∧
    (∀ (c : CoreId) (s s1 s2 : State) (a : Word) (fl : Nat) (v : VecEntry), Quiet c s → (s.core c).stPend = false →
      (s.core c).fpTrap = some (a, fl) → causeLevel s c 0x13 false = .m →
      s1 = ((s.setSr c 0x011 a).setSrf c 0x010 20 16 fl).modCore c (fun k => { k with fpTrap := none }) →
      vecEntry c .m 0x13 s1 = (some v, s2) → v.ok = true → v.handler ≠ 0 →
      exec (.fptrap c) s = .next (commitEntry c .m 0x13 0 (some a) (s.pc c) v.handler v.hold s2)) ∧
    (∀ (c : CoreId) (s : State), s.pwr ≤ 1 → exec (.holdWindowEnd c) s = .next (s.modCore c fun k => { k with hold := 0 })) ∧
    (∀ (c : CoreId) (s : State), s.pwr ≤ 1 → wbit (s.sr c 0x030) 31 = true → wbit (s.sr c 0x030) 30 = false → wbit (s.sr c 0x100) 31 = false →
      s.srf c 0x030 13 0 = 10000 → exec (.svuPowerDown c) s = .next (s.setSr c 0x030 (putBit (s.sr c 0x030) 31 false))) ∧
    (∀ (c : CoreId) (s : State), s.pwr ≤ 1 → (s.core c).svuWaking = true →
      exec (.svuWakeDone c) s = .next ((s.setSr c 0x030 (putFld (putBit (s.sr c 0x030) 31 true) 13 0 0)).modCore c fun k => { k with svuWaking := false }))

/-- R216 to R220, R404: the short-vector operations. -/
def Obligations.ShortVectorOperationsComplete : Prop :=
  ∀ q ∈ svuRows, ∀ (c : CoreId) (d a b : QReg) (ty : BitVec 4) (rm : BitVec 3) (s s1 : State), Issues c (q.1 c d a b ty rm) .none s s1 →
    ((c = siCore ∨ svuTy ty.toNat = none ∨ fpRm s1 c rm = none ∨ ∃ t, svuTy ty.toNat = some t ∧ q.2.2.1 t = false) →
      exec (q.1 c d a b ty rm) s = .next (Taken c (q.1 c d a b ty rm) (excIllegal (encQ d.val a.val b.val ty.toNat rm.toNat q.2.1)) s1)) ∧
    (∀ t r, c ≠ siCore → svuTy ty.toNat = some t → fpRm s1 c rm = some r → q.2.2.1 t = true →
      (wbit (s1.sr c 0x030) 31 = true → exec (q.1 c d a b ty rm) s = .next (
        let s2 := s1.setSr c 0x030 (putFld (s1.sr c 0x030) 13 0 0)
        let x := q.2.2.2 t r (qNat s2 c a) (qNat s2 c b) (qNat s2 c d)
        Done c .next ((fpRaise c x.2 s2).setQ c d (BitVec.ofNat 128 x.1)))) ∧
      (wbit (s1.sr c 0x030) 31 = false →
        exec (q.1 c d a b ty rm) s = .next ((s1.modCore c fun k => { k with svuWaking := true }).modCore c fun k => { k with stall := some (q.1 c d a b ty rm) })))

/-- R218, R220, R404: the short-vector loads and stores. -/
def Obligations.ShortVectorAccessesComplete : Prop :=
  (∀ q ∈ svuLoadRows, ∀ (c : CoreId) (d : QReg) (a : GReg) (esz : BitVec 2) (off : BitVec 12) (s s1 : State),
      Issues c (q.1 c d a esz off) .none s s1 →
      (∀ s2 ps s3 b s4, c ≠ siCore → d.val + q.2 - 1 ≤ 15 → wbit (s1.sr c 0x030) 31 = true → s2 = s1.setSr c 0x030 (putFld (s1.sr c 0x030) 13 0 0) →
        transPieces c (s2.g c a + (off.signExtend 32 <<< 4)).toNat (16 * q.2) .load
          ((s2.g c a + (off.signExtend 32 <<< 4)).toNat % qmElem q.2 esz != 0) s2 = .ok ps s3 → loadPieces c ps s3 = .ok b s4 →
        exec (q.1 c d a esz off) s = .next (Done c .next ((List.range q.2).foldl (fun t r =>
          t.setQ c (qno (d.val + r)) (BitVec.ofNat 128 (leNat (qDeal q.2 (qmElem q.2 esz) r b)))) s4)))) ∧
    (∀ q ∈ svuStoreRows, ∀ (c : CoreId) (d : QReg) (a : GReg) (esz : BitVec 2) (off : BitVec 12) (s s1 : State),
      Issues c (q.1 c d a esz off) .none s s1 →
      (∀ s2 ps s3 s4, c ≠ siCore → d.val + q.2 - 1 ≤ 15 → wbit (s1.sr c 0x030) 31 = true → s2 = s1.setSr c 0x030 (putFld (s1.sr c 0x030) 13 0 0) →
        transPieces c (s2.g c a + (off.signExtend 32 <<< 4)).toNat (16 * q.2) .store
          ((s2.g c a + (off.signExtend 32 <<< 4)).toNat % qmElem q.2 esz != 0) s2 = .ok ps s3 →
        storePieces c ps (qGather q.2 (qmElem q.2 esz) ((List.range q.2).map fun r => leBytes 16 (qNat s2 c (qno (d.val + r))))) s3 = .ok () s4 →
        exec (q.1 c d a esz off) s = .next (Done c .next s4))) ∧
    (∀ (c : CoreId) (d : QReg) (a : GReg) (esz : BitVec 2) (off : BitVec 12) (s s1 : State),
      (∀ q ∈ svuLoadRows, (c = siCore ∨ 15 < d.val + q.2 - 1) → Issues c (q.1 c d a esz off) .none s s1 → exec (q.1 c d a esz off) s =
        .next (Taken c (q.1 c d a esz off) (excIllegal (encQM d.val a.val (q.2 - 1) (if q.2 = 1 then 0 else esz.toNat) 0 off.toNat)) s1)) ∧
      (∀ q ∈ svuStoreRows, (c = siCore ∨ 15 < d.val + q.2 - 1) → Issues c (q.1 c d a esz off) .none s s1 → exec (q.1 c d a esz off) s =
        .next (Taken c (q.1 c d a esz off) (excIllegal (encQM d.val a.val (q.2 - 1) (if q.2 = 1 then 0 else esz.toNat) 1 off.toNat)) s1)))

/-- R64, R65, R67, R112, R269, R404: what refuses the vector-class instructions. -/
def Obligations.VectorClassRefusals : Prop :=
  (∀ (a b d : GReg) (sd n1 : BitVec 6) (w : BitVec 3) (ty : BitVec 4) (s s1 : State), ∀ q ∈ vecWords siCore a b d sd n1 w ty,
      Issues siCore q.1 .none s s1 → exec q.1 s = .next (Taken siCore q.1 (excIllegal q.2.1) s1)) ∧
    (∀ (c : CoreId) (a b d : GReg) (sd n1 : BitVec 6) (w : BitVec 3) (ty : BitVec 4) (s s1 : State), c ≠ siCore → s1.lvl c = .u → ty.toNat ≤ 4 →
      ∀ q ∈ vecWords c a b d sd n1 w ty, q.2.2 = true → Issues c q.1 .none s s1 → exec q.1 s = .next (Taken c q.1 (excPriv q.2.1) s1)) ∧
    (∀ (c : CoreId) (a b d : GReg) (sd n1 : BitVec 6) (w : BitVec 3) (s s1 : State), c ≠ siCore → boundCtx s1 c = none →
      (Issues c (.vsd c a b sd w) .none s s1 → exec (.vsd c a b sd w) s = .next (Taken c (.vsd c a b sd w)
        (if w = 7 ∧ 16 ≤ sd.toNat then excIllegal (encVsd a.val b.val sd.toNat w.toNat) else .plain 0x15 (encVsd a.val b.val sd.toNat w.toNat)) s1)) ∧
      (Issues c (.vldd c a sd n1) .none s s1 → exec (.vldd c a sd n1) s = .next (Taken c (.vldd c a sd n1)
        (if 64 < sd.toNat + (n1.toNat + 1) then excIllegal (encVldd a.val sd.toNat n1.toNat) else .plain 0x15 (encVldd a.val sd.toNat n1.toNat)) s1)) ∧
      (Issues c (.vissue c d a b) .none s s1 → exec (.vissue c d a b) s = .next (Taken c (.vissue c d a b) (.plain 0x15 (encVec d.val a.val b.val 3)) s1)) ∧
      (Issues c (.vfence c a) .none s s1 → exec (.vfence c a) s = .next (Taken c (.vfence c a) (.plain 0x15 (encVec 0 a.val 0 7)) s1)) ∧
      (s1.lvl c ≠ .u → Issues c (.veaown c d a) .none s s1 →
        exec (.veaown c d a) s = .next (Taken c (.veaown c d a) (.plain 0x15 (encVec d.val a.val 0 8)) s1)))

/-- R35, R36, R58, R64 to R67, R71, R89, R90: VSD, VLDD, VISSUE and the ends of their waits. -/
def Obligations.DescriptorsAndVissueComplete : Prop :=
  ((∀ (c : CoreId) (a b : GReg) (sd : BitVec 6) (w : BitVec 3) (x : CtxId) (s s1 s2 : State), Issues c (.vsd c a b sd w) .none s s1 → BoundTo s1 c x →
      ¬(w = 7 ∧ 16 ≤ sd.toNat) →
      (((s1.vc x).opened.any fun q => namesAny s1 x (w.toNat == 7) sd.toNat 1 q.w) = true →
        exec (.vsd c a b sd w) s = .next (Taken c (.vsd c a b sd w) (.plain 0x14 (encVsd a.val b.val sd.toNat w.toNat)) s1)) ∧
      (((s1.vc x).opened.any fun q => namesAny s1 x (w.toNat == 7) sd.toNat 1 q.w) = false →
        s2 = (if (s1.core c).marked then s1 else groupsNamed c x (fun _ g => g.cmds.any fun q => namesAny s1 x (w.toNat == 7) sd.toNat 1 q.w) s1) →
        exec (.vsd c a b sd w) s = .next (if groupsPending s2 c then Waits c (.vsd c a b sd w) s2
          else Done c .next (vsdWrite x sd.toNat w.toNat (s2.g c a) (s2.g c b) s2)))) ∧
    (∀ (c : CoreId) (a : GReg) (sd n1 : BitVec 6) (x : CtxId) (s s1 s2 : State), Issues c (.vldd c a sd n1) .none s s1 → BoundTo s1 c x →
      sd.toNat + (n1.toNat + 1) ≤ 64 → ((s1.vc x).opened.any fun q => namesAny s1 x false sd.toNat (n1.toNat + 1) q.w) = false →
      s2 = (if (s1.core c).marked then s1 else groupsNamed c x (fun _ g => g.cmds.any fun q => namesAny s1 x false sd.toNat (n1.toNat + 1) q.w) s1) →
      (groupsPending s2 c = true → exec (.vldd c a sd n1) s = .next (Waits c (.vldd c a sd n1) s2)) ∧
      (groupsPending s2 c = false → (s2.g c a).toNat % 32 ≠ 0 → exec (.vldd c a sd n1) s = .next (Taken c (.vldd c a sd n1) (.plain 0x03 (s2.g c a)) s2)) ∧
      (∀ l s3, groupsPending s2 c = false → (s2.g c a).toNat % 32 = 0 → loadRange c (s2.g c a).toNat (32 * (n1.toNat + 1)) s2 = .ok l s3 →
        exec (.vldd c a sd n1) s = .next (Done c .next (loadDescs x sd.toNat (n1.toNat + 1) l s3)))) ∧
    (∀ (c : CoreId) (a b : GReg) (sd : BitVec 6) (w : BitVec 3) (x : CtxId) (s s1 : State), (s.core c).stall = some (.vsd c a b sd w) →
      Issues c (.vsd c a b sd w) .none s s1 → BoundTo s1 c x → ¬(w = 7 ∧ 16 ≤ sd.toNat) → (s1.core c).marked = true → groupsPending s1 c = false →
      ((s1.vc x).opened.any fun q => namesAny s1 x (w.toNat == 7) sd.toNat 1 q.w) = false →
      exec (.descWriteRelease c) s = .next (Done c .next (vsdWrite x sd.toNat w.toNat (s1.g c a) (s1.g c b) s1))) ∧
    (∀ (c : CoreId) (a : GReg) (sd n1 : BitVec 6) (x : CtxId) (s s1 : State), Issues c (.vldd c a sd n1) .none s s1 → BoundTo s1 c x →
      sd.toNat + (n1.toNat + 1) ≤ 64 →
      (((s1.vc x).opened.any fun q => namesAny s1 x false sd.toNat (n1.toNat + 1) q.w) = true →
        exec (.vldd c a sd n1) s = .next (Taken c (.vldd c a sd n1) (.plain 0x14 (encVldd a.val sd.toNat n1.toNat)) s1)) ∧
      (∀ l s2, (s.core c).stall = some (.vldd c a sd n1) → (s1.core c).marked = true → groupsPending s1 c = false →
        ((s1.vc x).opened.any fun q => namesAny s1 x false sd.toNat (n1.toNat + 1) q.w) = false → (s1.g c a).toNat % 32 = 0 →
        loadRange c (s1.g c a).toNat (32 * (n1.toNat + 1)) s1 = .ok l s2 →
        exec (.descWriteRelease c) s = .next (Done c .next (loadDescs x sd.toNat (n1.toNat + 1) l s2))))) ∧
    ((∀ (c : CoreId) (d a b : GReg) (x : CtxId) (s s1 : State), Issues c (.vissue c d a b) .none s s1 → BoundTo s1 c x →
      exec (.vissue c d a b) s = .next (
        if drained s1 c = false then Waits c (.vissue c d a b) s1
        else if (s1.core c).stPend = true then Taken c (.vissue c d a b) ⟨0x0D, 0, none, none⟩ s1
        else if vissueBad (s1.vc x) (s1.g c b ++ s1.g c a) = true then Taken c (.vissue c d a b) (.plain 0x14 (encVec d.val a.val b.val 3)) s1
        else if 64 ≤ (s1.vc x).queue.length then Waits c (.vissue c d a b) s1
        else Done c .next ((queueCmd x ⟨s1.g c b ++ s1.g c a, s1.rf (VC_STAT x) 15 0⟩ (s1.setRf (VC_STAT x) 15 0 (s1.rf (VC_STAT x) 15 0 + 1))).setG c d
          (BitVec.ofNat 32 (x.val * 2 ^ 16 + s1.rf (VC_STAT x) 15 0))))) ∧
    (∀ (c : CoreId) (d a b : GReg) (x : CtxId) (s s1 : State), (s.core c).stall = some (.vissue c d a b) → Issues c (.vissue c d a b) .none s s1 →
      BoundTo s1 c x → drained s1 c = true → (s1.core c).stPend = false → vissueBad (s1.vc x) (s1.g c b ++ s1.g c a) = false → (s1.vc x).queue.length < 64 →
      exec (.vissueQueueRoom c) s = .next (Done c .next ((queueCmd x ⟨s1.g c b ++ s1.g c a, s1.rf (VC_STAT x) 15 0⟩
        (s1.setRf (VC_STAT x) 15 0 (s1.rf (VC_STAT x) 15 0 + 1))).setG c d (BitVec.ofNat 32 (x.val * 2 ^ 16 + s1.rf (VC_STAT x) 15 0))))))

/-- R35, R66, R89, R93: what queueing a command does to the queue and its groups. -/
def Obligations.QueuedCommandStandsLast : Prop :=
  ∀ (x : CtxId) (q : QCmd) (s : State),
    ((queueCmd x q s).vc x).queue = (s.vc x).queue ++ [q] ∧
    (nfld q.w.toNat 45 44 < 2 →
      ((queueCmd x q s).vc x).opened = (s.vc x).opened ++ [q] ∧ ((queueCmd x q s).vc x).closed = (s.vc x).closed) ∧
    (2 ≤ nfld q.w.toNat 45 44 → ((queueCmd x q s).vc x).opened = [] ∧
      ∃ g, ((queueCmd x q s).vc x).closed = (s.vc x).closed ++ [g] ∧ g.cmds = (s.vc x).opened ++ [q] ∧
      ∀ c : CoreId, c ≠ siCore → (c.val ∈ g.fences ↔ waitsForDesc s x ((s.vc x).opened ++ [q]) c = true)) ∧
    (∀ y, y ≠ x → (queueCmd x q s).vc y = s.vc y) ∧ ∀ a, (queueCmd x q s).byte a = s.byte a

/-- R69: decoding a command word and spelling its fields are inverse to each other. -/
def Obligations.CommandWordRoundTrip : Prop :=
  (∀ w : Dword, vcmdWord (vcmdOf w) = w) ∧
    ∀ c : VCmd, c.opc < 128 → c.rm < 8 → c.sub < 16 → c.ea < 8 → c.grp < 4 → c.lnr < 16 → c.sm < 64 → c.sd < 64 → c.sc < 64 → c.sb < 64 → c.sa < 64 →
      c.imm < 1024 → vcmdOf (vcmdWord c) = c

/-- R112 to R116: the context instructions. What VCTX_FREE leaves of records that wait, what a free context starts with, and which queued commands keep an accumulator are the model's choices (logs 31, 32, 61). -/
def Obligations.ContextInstructionsComplete : Prop :=
  ∀ (c : CoreId) (d a : GReg) (s s1 : State), MayManage s1 c →
    (Issues c (.vctxAlloc c d) .none s s1 →
      (freeCtx s1 = none → exec (.vctxAlloc c d) s = .next (Done c .next (s1.setG c d 0x80000001))) ∧
      (∀ x, freeCtx s1 = some x → exec (.vctxAlloc c d) s = .next (Done c .next (((ctxFresh x s1).setReg (VC_XLAT x)
        (BitVec.ofNat 32 ((coreSpace s1 c).2 * 256 + (coreSpace s1 c).1))).setG c d (BitVec.ofNat 32 x.val))))) ∧
    (Issues c (.vctxFree c d a) .none s s1 → ∀ x, x = ctxNo (fld (s1.g c a) 2 0) →
      (ctxAlloc s1 x = false → exec (.vctxFree c d a) s = .next (Done c .next (s1.setG c d 0x80000005))) ∧
      (ctxAlloc s1 x = true → (s1.vc x).busy = true → exec (.vctxFree c d a) s = .next (Done c .next (s1.setG c d 0x80000004))) ∧
      (ctxAlloc s1 x = true → (s1.vc x).busy = false → exec (.vctxFree c d a) s = .next (Done c .next ((((((clearAccs (ownedAccs s1 x)
        (s1.setVc x { VCtx.reset with recs := (s1.vc x).recs, lap := (s1.vc x).lap })).setReg (VC_EAOWN x) 0).setReg (VC_BINDS x) 0).setReg
          (VSE_FPS x) 0).setRb (VC_STAT x) 31 false).setG c d 0)))) ∧
    (Issues c (.vbind c d a) .none s s1 → ∀ x, x = ctxNo (fld (s1.g c a) 2 0) →
      (wbit (s1.g c a) 31 = true → exec (.vbind c d a) s = .next (Done c .next ((unbind c s1).setG c d 0))) ∧
      (wbit (s1.g c a) 31 = false → ctxAlloc s1 x = false → exec (.vbind c d a) s = .next (Done c .next (s1.setG c d 0x80000005))) ∧
      (wbit (s1.g c a) 31 = false → ctxAlloc s1 x = true →
        exec (.vbind c d a) s = .next (Done c .next (((unbind c s1).setRb (VC_BINDS x) c.val true).setG c d 0)))) ∧
    (Issues c (.veaown c d a) .none s s1 → ∀ x, boundCtx s1 c = some x →
      exec (.veaown c d a) s = .next (Done c .next ((eaownWrite x (s1.g c a) s1).setG c d ((eaownWrite x (s1.g c a) s1).reg (VC_EAOWN x)))))

/-- R112: a core is bound to at most one context, and a binding moves no other core. -/
def Obligations.BindingsStayExclusive : Prop :=
  ∀ (c : CoreId) (x : CtxId) (s : State),
    ((unbind c s).setRb (VC_BINDS x) c.val true).rb (VC_BINDS x) c.val = true ∧
    (∀ y : CtxId, y ≠ x → ((unbind c s).setRb (VC_BINDS x) c.val true).rb (VC_BINDS y) c.val = false) ∧
    (∀ (y : CtxId) (i : CoreId), i ≠ c → ((unbind c s).setRb (VC_BINDS x) c.val true).rb (VC_BINDS y) i.val = s.rb (VC_BINDS y) i.val) ∧
    boundCtx ((unbind c s).setRb (VC_BINDS x) c.val true) c = some x ∧ boundCtx (unbind c s) c = none

/-- R104, R117 to R119, R163, R164, R172, R270, R272: images, suspension, fences, VINV. -/
def Obligations.ImagesSuspensionAndFencesComplete : Prop :=
  (∀ (c : CoreId) (d a b : GReg) (s s1 : State), MayManage s1 c →
      (Issues c (.vcsave c d a b) .none s s1 → ∀ x ps s2, x = ctxNo (fld (s1.g c b) 2 0) → (s1.g c a).toNat % 32 = 0 → ctxAlloc s1 x = true →
        s1.rb (VC_STAT x) 26 = true → (s1.vc x).busy = false → (s1.vc x).held = (s1.vc x).queue.length →
        rangePieces c .store ((imageBytes s1 x).length / 4096 + 2) (s1.g c a).toNat (imageBytes s1 x).length s1 = .ok ps s2 →
        ∀ s3, storePieces c (smallPieces ps) (imageBytes s1 x) s2 = .ok () s3 →
        exec (.vcsave c d a b) s = .next (Done c .next (s3.setG c d 0))) ∧
      (Issues c (.vcrst c d a) .none s s1 → ∀ b s2 x l s3, (s1.g c a).toNat % 32 = 0 → loadRange c (s1.g c a).toNat 3584 s1 = .ok b s2 →
        wordAt b 0 = 0x43565141 → fld (wordAt b 1) 7 0 = 1 → freeCtx s2 = some x →
        (((List.range 8).filter fun m => wbit (wordAt b 1) (8 + m)).any fun m => (eaOwner s2 m).isSome) = false →
        loadRange c ((s1.g c a).toNat + 3584) (544 * ((List.range 8).filter fun m => wbit (wordAt b 1) (8 + m)).length) s2 = .ok l s3 →
        exec (.vcrst c d a) s = .next (Done c .next ((imageRestore x b l s3).setG c d (BitVec.ofNat 32 x.val)))) ∧
      (Issues c (.vsusp c d a) .none s s1 → exec (.vsusp c d a) s = .next (Done c .next (
        if ctxAlloc s1 (ctxNo (fld (s1.g c a) 2 0)) then
          (s1.modVc (ctxNo (fld (s1.g c a) 2 0)) fun v => { v with suspPend := true }).setG c d 0 else s1.setG c d 0x80000005))) ∧
      (Issues c (.vresume c d a b) .none s s1 → exec (.vresume c d a b) s = .next (Done c .next (
        if ctxAlloc s1 (ctxNo (fld (s1.g c a) 2 0)) then (resumeCtx (ctxNo (fld (s1.g c a) 2 0)) (wbit (s1.g c b) 0) s1).setG c d 0
        else s1.setG c d 0x80000005)))) ∧
    (∀ (c : CoreId) (a : GReg) (x : CtxId) (s s1 s2 : State), Issues c (.vfence c a) .none s s1 → BoundTo s1 c x →
      s2 = (if (s1.core c).marked then s1 else groupsNamed c x (fun k _ => a.val == 0 ||
        (match groupPlace (s1.vc x) (fld (s1.g c a) 15 0) with | some p => decide (k ≤ p) | none => false)) s1) →
      exec (.vfence c a) s = .next (if groupsPending s2 c then Waits c (.vfence c a) s2 else Done c .next s2)) ∧
    (∀ (c : CoreId) (a : GReg) (x : CtxId) (s s1 : State), (s.core c).stall = some (.vfence c a) → Issues c (.vfence c a) .none s s1 → BoundTo s1 c x →
      (s1.core c).marked = true → groupsPending s1 c = false → exec (.vfenceRelease c) s = .next (Done c .next s1)) ∧
    (∀ (c : CoreId) (a b : GReg) (ty : BitVec 4) (s s1 s2 : State) (t : State) (f : Run → Run), Issues c (.vinv c a b ty) .none s s1 → c ≠ siCore → ty.toNat ≤ 4 →
      (s1.lvl c = .m ∨ (s1.lvl c = .s ∧ (ty = 2 ∨ ty = 3))) → drained s1 c = true → (s1.core c).marked = false →
      f = markFound c (foundMatch ty.toNat (fld (s1.g c a) 7 0) (if s1.lvl c = .m then fld (s1.g c a) 11 8 else s1.srf c 0x130 11 8) (s1.g c b).toNat) →
      t = (invalidate none ty.toNat (fld (s1.g c a) 7 0) (if s1.lvl c = .m then fld (s1.g c a) 11 8 else s1.srf c 0x130 11 8) (s1.g c b).toNat s1).modCore c
        (fun k => { k with marked := true }) →
      s2 = { t with vctx := t.vctx.map fun v => { v with cur := v.cur.map f, sv := v.sv.map f } } →
      exec (.vinv c a b ty) s = .next (if vinvPending s2 c then Waits c (.vinv c a b ty) s2 else Done c .next s2)) ∧
    (∀ (c : CoreId) (a b : GReg) (ty : BitVec 4) (s s1 : State), (s.core c).stall = some (.vinv c a b ty) → Issues c (.vinv c a b ty) .none s s1 →
      c ≠ siCore → ty.toNat ≤ 4 → (s1.lvl c = .m ∨ (s1.lvl c = .s ∧ (ty = 2 ∨ ty = 3))) → drained s1 c = true → (s1.core c).marked = true →
      vinvPending s1 c = false → exec (.vinvRelease c) s = .next (Done c .next s1))

/-- R33, R77, R78, R99: a vector command that runs. That its row is the head group's next instruction, run whole, is the model's choice (logs 13, 27), and so are its readings of vector arithmetic, of remote streams and of what a stopped group leaves (logs 33, 34, 35, 61). -/
def Obligations.VectorCommandsComplete : Prop :=
  ∀ (row : CtxId → Instr) (opc : Nat) (f : VEnv → VIn → VOut), VecRow row opc f → ∀ (x : CtxId) (s : State) (run : Run) (i : SInstr),
    nextInstr (Ready x s) x = some (run, i) → mayRun (Ready x s) opc run i = true →
    ∀ q src s2, q = (accsCorrected (accsNeeded i.cmd) (Ready x s)).fresh → src = (srcsOf x run i s).1 → s2 = Answered q (srcsOf x run i s).2 →
    (src.wait = true → exec (row x) s = .next (srcsOf x run i s).2) ∧
    (∀ m, src.wait = false → accBad s2 (accsNeeded i.cmd) = some m → exec (row x) s = .next (accFails x run run.pos m s2)) ∧
    (∀ g, src.wait = false → accBad s2 (accsNeeded i.cmd) = none → firstFail i src.vin.m src.fails = some g →
      exec (row x) s = .next (runFails x run run.pos i src.vin.m g q s2)) ∧
    (src.wait = false → accBad s2 (accsNeeded i.cmd) = none → firstFail i src.vin.m src.fails = none →
      exec (row x) s = .next (runDone x run run.pos i src.vin.m (f (envOf run i) src.vin) (touchSrcs x i src (fun _ _ => true) s2)))

/-- R30, R33, R320: a vector command leaves every core as it was, but for the end of a WAIT. -/
def Obligations.VectorCommandsLeaveCores : Prop :=
  ∀ (row : CtxId → Instr) (opc : Nat) (f : VEnv → VIn → VOut), VecRow row opc f → ∀ (x : CtxId) (s : State), ∃ t, exec (row x) s = .next t ∧ ∀ c, SameCore c s t

/-- R85, R96, R131, R166: what a command without a destination in memory leaves. -/
def Obligations.CompletedCommandResults : Prop :=
  ∀ (x : CtxId) (run : Run) (i : SInstr) (mask : List Bool) (out : VOut) (s t : State), (∀ d, i.d = some d → d.trans = true) → (∀ a ∈ out.accs, a.1 < 8) → (out.accs.map Prod.fst).Nodup →
    t = runDone x run run.pos i mask out s →
    (∀ a, t.byte a = s.byte a) ∧ (∀ a, t.reg a = s.reg a) ∧ (∀ c, t.core c = s.core c) ∧
    (∃ r, (t.vc x).cur = some r ∧ r.pos = run.pos + 1 ∧ r.vals = run.vals ++ [out.d.map fun p => p.2.1] ∧ r.ins = run.ins ∧
      r.flags = run.flags ||| flagsOf ((out.d.map fun p => p.2.2) ++ out.intake.map fun p => p.2) ∧ r.wcnt = run.wcnt ++ [0]) ∧
    (∀ a ∈ out.accs, t.ea a.1 = a.2) ∧ (∀ m, m < 8 → (∀ a ∈ out.accs, a.1 ≠ m) → t.ea m = s.ea m) ∧ ∀ y, y ≠ x → t.vc y = s.vc y

/-- R144, in the model: the intakes of an accumulator commute. -/
def Obligations.ExactAccumulationIgnoresOrder : Prop :=
  ∀ (a : EauAcc) (l1 l2 : List (Bool × Fv)), l1.Perm l2 →
    l1.foldl (fun b t => eaTake t.1 t.2 b) a = l2.foldl (fun b t => eaTake t.1 t.2 b) a ∧
    (l1 ++ l2).foldl (fun b t => eaTake t.1 t.2 b) a = (l2 ++ l1).foldl (fun b t => eaTake t.1 t.2 b) a

/-- R45, R91, R94, R152, R155, R436: the steps of a survey. -/
def Obligations.SurveyStepsComplete : Prop :=
  ∀ (x : CtxId) (s : State), s.pwr ≤ 1 →
    (∀ g, maySurvey s x = true → (s.vc x).sv = none → surveyGroup s x = some g → exec (.groupSurvey x) s = .next (surveyRun x (surveyBegin s x g) s)) ∧
    (∀ r, mayGoOn s x = true → (s.vc x).sv = some r → r.phase = .survey → exec (.groupSurvey x) s = .next (surveyRun x r s)) ∧
    (∀ r, mayGoOn s x = true → (s.vc x).sv = some r → r.phase = .prev → (s.vc x).cur = none → exec (.surveyResume x) s = .next (surveyFull x r s)) ∧
    (∀ r, mayGoOn s x = true → (s.vc x).sv = some r → r.phase = .inflight → exec (.elgInflightWaitEnd x) s = .next (surveyVerdict x r s)) ∧
    (∀ r, (s.vc x).cur = some r → r.phase = .table → firstInPhase s .table r.stamp = true → tableInUse s + r.pages ≤ 1024 →
      exec (.surveyTableClaim x) s = .next { s.modVc x fun c => { c with cur := some { r with phase := .slots, stamp := s.stamps } } with stamps := s.stamps + 1 }) ∧
    (∀ r, (s.vc x).cur = some r → r.phase = .slots → firstInPhase s .slots r.stamp = true → slotsInUse s + r.slots ≤ 8 →
      exec (.caravanSlotClaim x) s = .next ((if runsUnaligned r then s.setRb (VC_SHINT x) 1 true else s).modVc x
        fun c => { c with cur := some { r with phase := .stream } }))

/-- R93, R102, R169, R172, R183 to R186: the ends of groups and the microsequencer's events. What a suspension leaves of a retained group, the fields of records and of MCHK's condition, and that the rows VMS_CSERR and PATCH_RAM_WRITEBACK come from outside are the model's choices (logs 29, 31, 36, 60). -/
def Obligations.GroupEndsComplete : Prop :=
  ∀ (x : CtxId) (s : State), s.pwr ≤ 1 →
    (∀ r, (s.vc x).unsent = [] → (s.vc x).cur = some r → vmsRuns s = true → groupFinished s x r = true →
      exec (.groupComplete x) s = .next (admittedEnd x r (match r.trap with
        | none => { condAt 0 0 0 0 0 0 with count := r.vcomp }
        | some (k, st, e) => { condAt 10 0 k st 0 e with count := r.vcomp }) s)) ∧
    (∀ r c, (s.vc x).unsent = [] → (s.vc x).cur = some r → r.stopped = some c → c.status = vsMCHK → writesOut s x = false →
      exec (.groupMchk x) s = .next (admittedEnd x r (stopReport r c) s)) ∧
    (∀ g rest k n, (s.vc x).closed = g :: rest → g.tooMany = some (k, n) → (s.vc x).cur = none → mayHead s x = true →
      exec (.chainFullReport x) s = .next (groupEnd x { condAt 6 0 k 7 0 0 with count := n } true 0 0 s)) ∧
    ((s.vc x).suspPend = true → (s.vc x).cur = none → (s.vc x).sv = none →
      exec (.suspendEffect x) s = .next (recGive x (suspendRecord s x) (((s.modVc x
        fun v => { v with suspPend := false, held := v.queue.length, closed := v.closed.map fun g => { g with fences := [] } }).setRb
          (VC_STAT x) 26 true).setRb (VC_STAT x) 28 true))) ∧
    ((s.vc x).busy = true → exec (.forcedPoll x) s = .next (
      let s1 := (s.modVc x fun c => { c with useq := { c.useq with since := 64 } }).countUp VMS_POLLSTAT 31 16 1
      let s2 := (s1.setRf VMS_POLLSTAT 6 0 (Nat.max 64 (s1.rf VMS_POLLSTAT 6 0))).modVc x fun c => { c with useq := { c.useq with since := 0 } }
      if (s.vc x).suspPend = true ∨ s.rf PMU_STAT 26 24 ≠ 0 then surveyAbandon x s2 else s2)) ∧
    (∀ (u : BitVec 13), exec (.vmsCserr u) s = .next (icuEvent 191 ((List.range 8).foldl (fun t y => cserrCtx (ctxNo y) t)
      (s.setReg VMS_ERR (putFld (putBit (putBit (s.reg VMS_ERR) 31 true) 30 true) 12 0 u.toNat))))) ∧
    (∀ a : BitVec 10, ∃ t, exec (.patchRamWriteback a) s = .next t ∧ t.microWb.contains a.toNat = false ∧ (∀ b, t.byte b = s.byte b) ∧
      (∀ c, t.core c = s.core c) ∧ (∀ w, Config.microFix (patchRam s a.toNat) = some w → patchRam t a.toNat = w) ∧ t.rf VMS_CECNT 15 0 =
        match Config.microFix (patchRam s a.toNat) with
        | some w => if w = patchRam s a.toNat ∨ s.microWb.contains a.toNat = true then s.rf VMS_CECNT 15 0 else Nat.min 65535 (s.rf VMS_CECNT 15 0 + 1)
        | none => s.rf VMS_CECNT 15 0)

/-- R106, R110, R131, R159 to R162: how a group's end is reported. -/
def Obligations.GroupEndReports : Prop :=
  ∀ (x : CtxId) (c : Cond) (retain : Bool) (flags energy : Nat) (s t : State), ringLog s x = 0 → (s.vc x).recs = [] → c.status < 16 → c.probe < 8 → c.stream < 8 → c.isrc < 8 →
    t = groupEnd x c retain flags energy s →
    t.reg (VC_DONE x) = BitVec.ofNat 32 (c.status * 65536 + headIssue s x % 65536) ∧
    (c.status = 0 → t.rb (VC_STAT x) 28 = s.rb (VC_STAT x) 28 ∧ t.reg (VSE_FPS x) = s.reg (VSE_FPS x) ||| BitVec.ofNat 32 (flags % 64)) ∧
    (c.status ≠ 0 → t.rb (VC_STAT x) 28 = true ∧ t.rb (VC_FINFO x) 31 = true ∧ t.rf (VC_FINFO x) 23 16 = c.status) ∧
    ∀ a, t.byte a = s.byte a

/-- R47, R60, R283, R286, R288 to R290, R293 to R298: the memories' writes and events. The permutation of a region whose hashing bit changes, when a group leaves service, what EN holds after CFGERR, and that no row flips a stored bit are the model's choices (logs 23, 55, 36, 2). -/
def Obligations.MemoryEventsComplete : Prop :=
  ∀ (m : Master) (s : State) (v : Word) (k : BitVec 8), (s.pwr ≤ 1 →
    (Sends s m ERG_HASH → exec (.ergHashWrite m v) s = .next (((List.range 24).foldl
      (fun t n => if wbit v n != s.rb ERG_HASH n then rehash n t else t) s).setReg ERG_HASH (BitVec.ofNat 32 (fld v 23 0)))) ∧
    (Sends s m ERG_XQOS → exec (.ergXqosWrite m v) s = .next (s.setReg ERG_XQOS (BitVec.ofNat 32 (fld v 1 0)))) ∧
    (Sends s m ERG_BGCTL → exec (.ergBgctlOos m k) s = .next (s.setReg ERG_BGCTL (s.reg ERG_BGCTL ||| k.zeroExtend 32))) ∧
    (Sends s m ERG_INIT → exec (.ergInitFill m k) s = .next ((onesOf 8 k.toNat).foldl
      (fun t g => if groupReady t g && !groupOos t g then (t.setRb ERG_INIT g true).setRb ERG_BGSTAT g false else t) s)) ∧
    (Sends s m MIU_INJ → exec (.miuInjArm m) s = .next (if m.val = 1 then s.setRb MIU_INJ 0 true else s)) ∧
    (Sends s m DMC_CTL → exec (.dmcEnable m v) s = .next (dmcCtlWrite v s) ∧
      (wbit v 0 = true → s.rb DMC_CTL 0 = false → dmcDens s 0 ≠ 0 → dmcDens s 1 = dmcDens s 0 → (dmcCtlWrite v s).dmcTraining = true) ∧
      (wbit v 0 = true → s.rb DMC_CTL 0 = false → (dmcDens s 0 = 0 ∨ dmcDens s 1 ≠ dmcDens s 0) →
        (dmcCtlWrite v s).rb DMC_STAT 9 = true ∧ (dmcCtlWrite v s).dmcTraining = s.dmcTraining)) ∧
    (Sends s m DMC_CAP → exec (.dmcCapWrite m v) s = .next (s.setReg DMC_CAP (BitVec.ofNat 32 (Nat.min (fld v 9 0)
      (if s.rb DMC_CTL 0 = false ∨ s.rb DMC_STAT 8 = true ∨ s.rb DMC_STAT 9 = true ∨ s.rf DMC_STAT 17 16 ≠ 0 then 0 else 7 * 2 ^ dmcDens s 0))))) ∧
    (∀ f : BitVec 2, s.dmcTraining = true → s.rb PMU_PLL 1 = true → ∀ s1 : State, s1 = { s with dmcTraining := false } →
      exec (.dmcTrainingDone f) s = .next (if f = 0 then s1.setRb DMC_STAT 31 true else (s1.setRf DMC_STAT 17 16 f.toNat).setReg DMC_CAP 0)) ∧
    (∀ c : Fin 2, s.rb DMC_STAT 31 = true → s.rb DMC_CTL 12 = true → exec (.dmcPatrolRead c) s = .next (patrolRead c.val s)) ∧
    (∀ (b : Fin 128) w, smGet zeroDefault s.ceWb b.val = w + 1 →
      exec (.ceWriteback b) s = .next (wordWriteBack w { s with ceWb := smPut zeroDefault s.ceWb b.val 0 })) ∧
    (scrubOn s = true → s.rf MIU_SCRUB_POS 15 0 < 49151 →
      exec .scrubRow s = .next ((scrubRowWords s).setRf MIU_SCRUB_POS 15 0 (s.rf MIU_SCRUB_POS 15 0 + 1))) ∧
    (scrubOn s = true → s.rf MIU_SCRUB_POS 15 0 = 49151 → ∀ s1, s1 = lapSlow (scrubRowWords s) →
      exec .scrubLapEnd s = .next { (s1.setReg MIU_SCRUB_LAP (BitVec.ofNat 32 (2 ^ 31 + lapMs s1))).setRf MIU_SCRUB_POS 15 0 0 with
        scrubT0 := tbNs s, lapLate := false }) ∧
    (s.rf MIU_SCRUB_LIMIT 15 0 ≠ 0 → s.lapLate = false → s.rf MIU_SCRUB_LIMIT 15 0 * 1000000 < lapNs s →
      exec .lapslow s = .next (pulse 160 (icuEvent 130 (({ s with lapLate := true } : State).setRb MIU_STAT 29 true)))) ∧
    (∀ g : Fin 8, s.rb ERG_BGCTL g.val = true → groupOos s g.val = false → vseUsesErg s = false → exec (.bankGroupLeaveService g) s =
      .next { groupLeave g.val s with fillRun := s.fillRun &&& ~~~(1#8 <<< g.val), ergSlots := s.ergSlots &&& ~~~(1#8 <<< g.val) }) ∧
    (∀ g : Fin 8, s.rb ERG_INIT g.val = true → groupOos s g.val = false → s.fillRun.getLsbD g.val = false → vseUsesErg s = false →
      exec (.zeroFillStart g) s = .next { s with fillRun := s.fillRun ||| (1#8 <<< g.val) }) ∧
    (∀ g : Fin 8, s.fillRun.getLsbD g.val = true → ∀ s1, s1 = ((groupZero g.val s).setRb ERG_BGSTAT g.val true).setRb ERG_INIT g.val false →
      exec (.zeroFillDone g) s = .next (bootAdvance { s1 with fillRun := s1.fillRun &&& ~~~(1#8 <<< g.val) })) ∧
    (∀ (erg : BitVec 128) (si : Bool) (d : BitVec 2), s.rb MIU_STEST 31 = false →
      exec (.miuSelftestDone erg si d) s = .next (bootAdvance (selftestDone erg si d s)) ∧
      (selftestDone erg si d s).rb MIU_STEST 31 = true ∧ (selftestDone erg si d s).rb MIU_STEST 24 = si ∧
      (selftestDone erg si d s).rf MIU_STEST 17 16 = d.toNat)) ∧
    (∀ g : Fin 8, s.pwr = 2 → s.ergSlots.getLsbD g.val = true → (∀ j, j < g.val → s.ergSlots.getLsbD j = false) → groupOos s g.val = false →
      ∀ s1 s2 : State, s1 = { s with ergSlots := s.ergSlots &&& ~~~(1#8 <<< g.val) } →
      s2 = (if s.rb ERG_RET g.val = false then { s1 with fillRun := s1.fillRun ||| (1#8 <<< g.val) }
        else if s.rb ERG_INIT g.val = true then s1 else s1.setRb ERG_BGSTAT g.val true) →
      exec (.bankGroupReady g) s = .next (if g.val = 7 ∧ s2.rf PMU_STAT 26 24 = 0 then cocoonRun s2 else s2))

/-- R106, R108, R190, R313 to R319, R326 to R347, R418: interrupts, events and time. What falls in one cycle, that the command names the joined channels and the end of a duration, the records held while a ring is full, and where a capture stamp falls are the model's choices (logs 1, 8, 31, 40, 41). -/
def Obligations.InterruptAndTimeEventsComplete : Prop :=
  ∀ (m : Master) (s : State) (v : Word),
    (∀ n, icuAssigned n = true → 1 ≤ n → n ≤ 640 → s.pwr ≤ 1 → exec (.icuEvent n) s = .next (icuAccept n (mirrorEvent n s))) ∧
    (∀ n, icuAssigned n = false → exec (.icuEvent n) s = .next s) ∧
    (∀ n, 1 ≤ n → n ≤ 63 → s.pwr ≤ 2 → exec (.sicEvent n) s = .next (if s.rb (SIC_SRC n) 6 = true then s else s.setRb (SIC_SRC n) 7 true)) ∧
    (Sends s m ICU_SWI → exec (.icuSwi m v) s = .next ((onesOf 4 v.toNat).foldl (fun t k => icuEvent (k + 1) t) s)) ∧
    (∀ x : CtxId, Sends s m (VC_CRTAIL x) → ∀ s1, s1 = s.setReg (VC_CRTAIL x) (BitVec.ofNat 32 (fld v 11 0)) →
      exec (.vcCrtailWrite m x v) s = .next (if (s1.vc x).recs = [] then s1 else recFlush x (s1.vc x).recs s1)) ∧
    (∀ x : CtxId, Sends s m (VC_CRBASE_LO x) → ∀ s1, s1 = (((s.setReg (VC_CRBASE_LO x) (v &&& 0xFFFFFFE0)).setReg (VC_CRHEAD x) 0).setReg
        (VC_CRTAIL x) 0).modVc x (fun c => { c with lap := true }) →
      exec (.vcCrbaseLoWrite m x v) s = .next (if (s1.vc x).recs = [] then s1 else recFlush x (s1.vc x).recs s1)) ∧
    (Sends s m VMS_LOCK → exec (.vmsLockSet m) s = .next (if m.val = 8 ∧ s.rb VMS_LOCK 0 = false then
      ((s.setRb VMS_LOCK 0 true).setRb VMS_PSTAT 31 true).setRb VMS_PSTAT 30 true else s)) ∧
    (∀ c : BitVec 8, Sends s m (EVR_CSEL c.toNat) → exec (.evrCselWrite m c v) s = .next (cselWrite c.toNat v s)) ∧
    (Sends s m EVR_SWP → exec (.evrSwp m v) s = .next ((onesOf 8 v.toNat).foldl (fun t k => pulse (176 + k) t) s)) ∧
    (∀ (p : BitVec 8) (j : List Nat), 80 ≤ p.toNat → p.toNat < 96 → fnPlaced s p.toNat = true → s.pwr ≤ 3 →
      exec (.evrEvent p j) s = .next ((channelsOf s p.toNat).foldl (fun t n => channelEdge (j.contains n) n t) s)) ∧
    (∀ (p : BitVec 8) (j : List Nat), (p.toNat < 80 ∨ 96 ≤ p.toNat) → p.toNat ∈ s.edges → exec (.evrEvent p j) s =
      .next ((channelsOf s p.toNat).foldl (fun t n => channelEdge (j.contains n) n t) { s with edges := s.edges.erase p.toNat })) ∧
    (∀ n : Fin 16, s.evoutBusy.getLsbD n.val = true → s.pwr ≠ 2 → exec (.evoutPulseEnd n) s =
      .next { s with evoutBusy := s.evoutBusy &&& ~~~(1#16 <<< n.val), evoutLvl := s.evoutLvl &&& ~~~(1#16 <<< n.val) }) ∧
    (s.pwr ≤ 2 → exec (.mothclkCalWindow v) s = .next ((s.setReg TB_MCAL v).setRb TB_STAT 2 true)) ∧
    (Sends s m TB_RATE → exec (.tbRateWrite m v) s = .next (if tbDisc s = 0 then s.setReg TB_RATE v else s)) ∧
    (Sends s m TB_ADJ → exec (.tbAdjWrite m v) s = .next (if tbDisc s = 0 then tbOffset v.toInt s else s)) ∧
    (Sends s m TB_STEP_HI → exec (.tbStep m v) s = .next (tbStepBy true (v.toNat * 2 ^ 32 + (s.reg TB_STEP_LO).toNat) s)) ∧
    (∀ n : Fin 2, s.rb (TB_WK_CTL n.val) 31 = true → s.reg64 (TB_WK_CMP_LO n.val) (TB_WK_CMP_HI n.val) ≤ tbNs s →
      exec (.wakeCompareFire n) s = .next (icuEvent (518 + n.val) (pulse (56 + n.val) (s.setRb (TB_WK_CTL n.val) 31 false)))) ∧
    (∀ n : Fin 48, s.pwr ≤ 1 → s.rb (tmReg TM_CTL n.val) 31 = true → s.rf (tmReg TM_CTL n.val) 30 28 ≤ 4 → s.reg (tmReg TM_CNT n.val) = s.reg (tmReg TM_RELOAD n.val) →
      exec (.timerWrap n) s = .next (timerTick n.val s)) ∧
    (∀ n : Fin 48, s.pwr ≤ 1 → s.rb (tmReg TM_CTL n.val) 31 = true → s.rf (tmReg TM_CTL n.val) 30 28 ≤ 4 → timerNext s n.val = s.reg (tmReg TM_MATCH n.val) →
      exec (.timerMatch n) s = .next (timerTick n.val s)) ∧
    (Sends s m TMU_GCMD → exec (.tmuGcmdStart m) s = .next ((gmask s).foldl (fun t ch => chanStart ch t) s) ∧
      exec (.tmuGcmdStop m) s = .next ((gmask s).foldl (fun t ch => chanStop ch t) s) ∧
      exec (.tmuGcmdResetStart m) s = .next ((gmask s).foldl (fun t ch => chanStart ch (chanReset ch t)) s)) ∧
    (∀ k : Fin 4, s.pwr ≤ 1 → (s.rb (MC_CTL k.val) 31 = true → cmpValue s k.val ≤ s.tb.toNat → exec (.mcFire k) s = .next (cmpFire k.val s)) ∧
      (s.rb (SC_CTL k.val) 31 = true → cmpValue s (4 + k.val) ≤ s.tb.toNat → exec (.scFire k) s = .next (cmpFire (4 + k.val) s))) ∧
    (∀ (n : Fin 16) (r : Bool), s.pwr ≤ 1 → s.rb (CAP_CTL n.val) 31 = true → s.rb (CAP_CTL n.val) (if r then 4 else 5) = true →
      (s.rf (CAP_CTL n.val) 2 0 = 2 ∨ s.rf (CAP_CTL n.val) 2 0 = 3 ∨ s.rf (CAP_CTL n.val) 2 0 = 0 ∧ fnPlaced s (0x40 + n.val) = true) →
      exec (.captureEdge n r) s = .next (if s.capDead.getLsbD n.val = true then (pulse (64 + n.val) s).setRb (CAP_STAT n.val) 30 true
        else capStamp n.val r (pulse (64 + n.val) s))) ∧
    (∀ n : Fin 16, exec (.captureDeadTimeEnd n) s = .next { s with capDead := s.capDead &&& ~~~(1#16 <<< n.val) }) ∧
    (∀ n : Fin 16, Asks s m (CAP_NS_HI n.val) → exec (.capNsHiRead m n) s = .next (s.setRb (CAP_STAT n.val) 31 false))

/-- R7, R16, R24, R25, R300 to R312: transactions at the bus matrix. That a request which finds no competitor is granted at once, what a refused burst, a disabled master and a timeout leave, and the worst of several responses are the model's choices (logs 8, 15, 26, 63). -/
def Obligations.BusTransactionsComplete : Prop :=
  ∀ (m : Master) (k : AppCore) (id : BitVec 6) (s : State),
    (∀ pa v, regWf pa = true →
      (Sends s m pa → exec (.regWrite m k pa v) s = .next (ctlWrite m.val k.val (masterLvl s m k) pa v s)) ∧
      (mayIssue s s.xacts m.val true pa 4 = true → reaches s m.val pa true = false →
        exec (.regWrite m k pa v) s = .next (xbmLog m.val plainId (targetOf s pa) true false rDECODE pa s)) ∧
      (mayIssue s s.xacts m.val true pa 4 = false → exec (.regWrite m k pa v) s = .next { s with xacts := s.xacts ++
        [{ newXact s m.val k.val plainId 1 pa 4 0 (masterLvl s m k) false [] [(pa, leBytes 4 v.toNat)] with auto := true }] })) ∧
    (s.pwr ≤ 1 → ∀ pa len data (fn : BitVec 2) v coll one, ∀ c ∈ [(Instr.xbmRead m k pa len id,
          newXact s m.val k.val id.toNat 0 pa len 0 (masterLvl s m k) (marked s m k) [] [(pa, [])]),
        (.xbmWrite m k pa data id coll, newXact s m.val k.val id.toNat 1 pa data.length 0 (masterLvl s m k) (marked s m k) coll (runsOf pa data)),
        (.xbmAtomic m k pa fn v id one, newXact s m.val k.val id.toNat 2 pa 4 fn.toNat (masterLvl s m k) (marked s m k)
          (if one = true then [pa / 8 * 8] else []) [(pa, leBytes 4 v.toNat)])],
      (mayGrant s s.xacts c.2 = true → contended s c.2 = false → ∀ y t, grantXact c.2 s = (y, t) →
        exec c.1 s = .next (xactsClean { t with xacts := t.xacts ++ [y] })) ∧
      (mayGrant s s.xacts c.2 = false ∨ contended s c.2 = true → exec c.1 s = .next { s with xacts := s.xacts ++ [c.2] })) ∧
    (∀ pa len x, x = newXact s m.val k.val id.toNat 0 pa len 0 (masterLvl s m k) (marked s m k) [] [(pa, [])] →
      s.pwr ≤ 1 → mayGrant s s.xacts x = true → contended s x = false → s.outst = [] → ∀ s0 : State,
      s0 = { s with arb := smPut zeroDefault s.arb (arbKey (targetOf s pa) false (if x.det = true then 4 else x.qos)) ((if x.det = true then k.val else m.val) + 1) } →
      (burstOk pa len = true → ∀ b s1, targetRead m.val k.val (.xact m.val id.toNat) pa len s0 = (.done rOKAY b, s1) → exec (.xbmRead m k pa len id) s =
        .next (xactsClean { s1 with xacts := s1.xacts ++ [{ x with granted := true, answered := true, todo := [], data := b.map some }] })) ∧
      (burstOk pa len = false → ∀ s1, s1 = xbmLog m.val id.toNat (targetOf s pa) false false rTARGET pa s0 → exec (.xbmRead m k pa len id) s =
        .next (xactsClean { s1 with xacts := s1.xacts ++ [{ x with granted := true, answered := true, todo := [], resp := rTARGET }] }))) ∧
    (∀ i x, s.pwr ≤ 1 → xactOf s m.val id.toNat (fun _ => true) = some i → s.xacts[i]? = some x → x.answered = true →
      (x.det = false → exec (.xbmResponse m id) s = .next { s with xacts := s.xacts.eraseIdx i }) ∧
      (x.det = true → exec (.detResponseRelease m id) s = .next { s with xacts := s.xacts.eraseIdx i })) ∧
    (∀ i x, s.pwr ≤ 1 → s.rf XBM_TMO 19 0 ≠ 0 → timed s m.val id.toNat = some i → s.xacts[i]? = some x → exec (.xbmTimeout m id) s =
      .next { xbmLog m.val id.toNat (targetOf s x.pa) (x.kind != 0) true rTARGET x.pa s with xacts := s.xacts.set i { x with auto := true, gone := true } }) ∧
    (∀ i x, s.pwr ≤ 1 → s.rf XBM_AGE 11 0 ≠ 0 → xactOf s m.val id.toNat (fun y => !y.granted && !y.aged) = some i →
      s.xacts[i]? = some x → exec (.xbmAgeExpiry m id) s = .next { s with xacts := s.xacts.set i { x with aged := true } })

/-- R351, R354 to R357, R365, R372, R373, R376, R378: a port's events. The count of retries, what an acknowledgement frees, the servo's rates and roundings, and the time between the stamps of an answer are the model's choices (logs 8, 41, 42, 64). -/
def Obligations.LinkPortEventsComplete : Prop :=
  ∀ (m : Master) (p : Fin 6) (v : Word) (s : State), s.pwr ≤ 1 →
    (Sends s m (IDL_P_CTL p.val) → exec (.idlPortEnable m p v) s = .next (deliverEnded (portCtlWrite p.val v s)) ∧
      (s.rb (IDL_P_CTL p.val) 31 = true → exec (.retrain m p) s = .next (deliverEnded (portDown p.val
        (s.setReg (IDL_P_CTL p.val) (putBit (s.reg (IDL_P_CTL p.val)) 30 true &&& 0x8F00FFFF)))))) ∧
    (s.rb (IDL_P_CTL p.val) 31 = true → s.rb PMU_PLL 0 = true →
      (1 ≤ portState s p.val → portState s p.val ≤ 4 → exec (.portStateAdvance p) s = .next (s.setRf (IDL_P_STAT p.val) 31 29 (portState s p.val + 1))) ∧
      (portState s p.val = 5 → s.helloIn.getLsbD p.val = true →
        exec (.portStateAdvance p) s = .next (pulse 121 (icuEvent (192 + 8 * p.val) (s.setRf (IDL_P_STAT p.val) 31 29 6))))) ∧
    (1 ≤ portState s p.val → portState s p.val ≤ 5 → exec (.portStateTimeout p) s =
      .next { s.setRf (IDL_P_STAT p.val) 31 29 (if s.rb (IDL_P_CTL p.val) 31 = true then 1 else 0) with helloIn := s.helloIn &&& ~~~(1#6 <<< p.val) }) ∧
    (portUp s p.val = true → exec (.blockLockLoss p) s = .next (deliverEnded (portFall p.val s)) ∧
      exec (.helloSilence p) s = .next (deliverEnded (portFall p.val s))) ∧
    ((portState s p.val = 5 ∨ portState s p.val = 6) →
      exec (.helloSend p) s = .next { s with helloSent := s.helloSent.set p.val (some (ownHello p.val s)) } ∧
      ∀ h : Hello, ∃ t, exec (.hello p h) s = .next t ∧ t.helloIn = s.helloIn ||| (1#6 <<< p.val) ∧ t.rb (IDL_P_STAT p.val) 28 = h.valid ∧
        t.rf (IDL_P_STAT p.val) 26 24 = h.port.toNat ∧ t.rf (IDL_P_STAT p.val) 13 0 = h.id.toNat ∧
        t.reg64 (IDL_P_NBRUID_LO p.val) (IDL_P_NBRUID_HI p.val) = h.uid.toNat) ∧
    (∀ q : BitVec 8, portUp s p.val = true → exec (.linkAck p q) s =
      .next { s with linkTx := ackDrop p.val q s.linkTx, retries := s.retries.setIfInBounds p.val (0, 0) }) ∧
    (∀ q : BitVec 8, portUp s p.val = true → (∃ e ∈ s.linkTx, e.port = p.val ∧ e.sent = true ∧ e.seq = q) →
      ∀ r n, r = s.retries[p.val] → n = (if r.1 = q then r.2 + 1 else 1) → exec (.linkRetry p q) s =
        .next (if 8 < n then deliverEnded (portFall p.val s)
          else { portCount IDL_P_RETRY p.val s with retries := s.retries.setIfInBounds p.val (q, n) })) ∧
    (portUp s p.val = true → exec (.linkCrcError p) s = .next (linkCrcError p.val s) ∧
      (linkCrcError p.val s).rf (IDL_P_CRCERR p.val) 15 0 = Nat.min 0xFFFF (s.rf (IDL_P_CRCERR p.val) 15 0 + 1)) ∧
    (∀ t1 t2 t3 t4 : BitVec 80, ftSlave s = true → portUp s (ftUport s) = true → steppedSince s t1 = false →
      exec (.timeExchange t1 t2 t3 t4) s = .next (ftExchange t1 t2 t3 t4 s)) ∧
    (portUp s p.val = true → ∀ q u, s.draw = (q, u) →
      exec (.timeExchangeReply p) s = .next { u with exchSent := u.exchSent.set p.val (some (s.tb, s.tb + (Config.replyTime q).setWidth 80)) }) ∧
    (∀ (k : Fin 32) e, s.c0.find? (fun e => e.k == k.val) = some e → e.start + 256 ≤ tbNs s →
      exec (.c0Launch k) s = .next (c0Send k.val e.data { s with c0 := s.c0.erase e }))

/-- R352, R353, R357 to R361, R363, R368 to R371: packets and requests. The tags and their order, the order of requests that wait, and the port of a management record are the model's choices (logs 25, 42, 43, 56, 64). -/
def Obligations.LinkPacketsComplete : Prop :=
  ∀ (m : Master) (p : Fin 6) (k : Packet) (s : State), s.pwr ≤ 1 →
    (portUp s p.val = true → packetOk k = true → ∀ s0 : State, s0 = { s with retryReq := s.retryReq &&& ~~~(1#6 <<< p.val) } →
      (nodeValid s = true → pktDst k = nodeId s →
        (pktTy k = 0 → exec (.read p k) s = .next (serveInList (s.inHeld ++ [(p.val, k)]) s0)) ∧
        (k.payload.length = pktLen k →
          (pktTy k = 1 → exec (.write p k) s = .next (serveInList (s.inHeld ++ [(p.val, k)]) s0)) ∧
          (pktTy k = 2 → exec (.atomic p k) s = .next (serveInList (s.inHeld ++ [(p.val, k)]) s0)) ∧
          (pktTy k = 3 → exec (.c0write p k) s = .next (serveInList (s.inHeld ++ [(p.val, k)]) s0))) ∧
        (pktTy k = 0xC → exec (.mgmt p k) s = .next (mgmtDeliver p.val k (tbNs s) s0)) ∧
        (pktTy k = 8 → exec (.rdresp p k) s = .next (if awaited s 8 (pktTag k) = true then
          (if pktCode k ≤ 3 then deliverEnded (endRequest (pktTag k) (pktCode k) (pktCode k) k.payload s0) else s0) else lateAnswer (pktTag k) s0)) ∧
        (pktTy k = 9 → exec (.wrack p k) s = .next (if awaited s 9 (pktTag k) = true then
          (if pktCode k ≤ 3 then deliverEnded (endRequest (pktTag k) (pktCode k) (pktCode k) k.payload s0) else s0) else lateAnswer (pktTag k) s0)) ∧
        (pktTy k = 0xA → exec (.nack p k) s = .next (if awaited s 0xA (pktTag k) = true then
          (if 4 ≤ pktCode k ∧ pktCode k ≤ 6 then deliverEnded (endRequest (pktTag k) rLINK (pktCode k) [] s0) else s0) else lateAnswer (pktTag k) s0))) ∧
      (pktTy k = 0xD → ∀ n, n = hopNibble k.w2 (fld k.w1 13 11) → exec (.mgmtdir p k) s =
        .next (if n = 15 then mgmtDeliver p.val k (tbNs s) s0
          else if pktTtl k = 0 ∨ portUp s n = false then portCount IDL_P_DROP p.val s0
          else outputPut n (hopOn p.val (fld k.w1 13 11) k) s0)) ∧
      (knownType (pktTy k) = false → exec (.reservedPacket p k) s = .next (portCount IDL_P_DROP p.val s0)) ∧
      (knownType (pktTy k) = true → pktTy k ≠ 0xD → ¬ (nodeValid s = true ∧ pktDst k = nodeId s) → exec (.packetForward p k) s =
        .next (if pktTtl k = 0 then (if pktTy k ≤ 2 then sendNack k 5 (portCount IDL_P_DROP p.val s0) else portCount IDL_P_DROP p.val s0)
          else match (generalizing := false) routePort s (pktDst k) with
            | none => if pktTy k ≤ 2 then sendNack k 4 (portCount IDL_P_DROP p.val s0) else portCount IDL_P_DROP p.val s0
            | some q => outputPut q (ttlLess k) s0))) ∧
    (∀ tag, (tag ∈ s.lateTags → (lateAnswer tag s).reg IDL_LATE = s.reg IDL_LATE) ∧
      (tag ∉ s.lateTags → (lateAnswer tag s).rf IDL_LATE 15 0 = Nat.min 0xFFFF (s.rf IDL_LATE 15 0 + 1))) ∧
    (∀ tag : BitVec 10, exec (.remoteRequestTimeout tag) s = .next (deliverEnded (endRequest tag.toNat rLINK 8 [] s))) ∧
    (Sends s m IDL_MTXGO → exec (.idlMtxgo m) s = .next (if s.rb IDL_MTXGO 31 = true then s else mtxGo s)) ∧
    (∀ v, Sends s m IDL_NODEID → exec (.idlNodeidWrite m v) s = .next (plainWrite m.val IDL_NODEID v s))

/-- R365, R381, R383 to R386, R391, R396, R398: the schedule engine. -/
def Obligations.ScheduleEngineComplete : Prop :=
  ∀ (m : Master) (s : State),
    (Sends s m SCE_CTL → exec (.sceEnable m) s = .next (if s.rb SCE_CTL 0 = true then s.setReg SCE_CTL 1
      else { s.setReg SCE_CTL 1 with sce := { s.sce with first := sceFirst s, begun := false, ended := false } })) ∧
    (Sends s m SCE_SWAP → exec (.sceSwapReq m) s = .next (if s.rb SCE_SWAP 0 = true then swapRefused 1 s
      else { (s.setRb SCE_SWAP 0 true).setRb SCE_STAT 30 true with sce := { s.sce with stale := false } })) ∧
    (s.pwr ≤ 1 → s.rb SCE_CTL 0 = true → sceNext s * 65536 ≤ s.tb.toNat →
      ∃ t, exec .sceBoundary s = .next t ∧ t.rf SCE_INDEX 14 0 = 0 ∧ t.sce.begun = true ∧ t.sce.ended = false ∧ t.sce.bnd = sceNext s ∧
        t.reg SCE_SKIPCNT = s.reg SCE_SKIPCNT + BitVec.ofNat 32 (if s.sce.begun = true ∧ s.sce.ended = false then
          sceLast s (sceActive s) (s.rf SCE_INDEX 14 0) + 1 - s.rf SCE_INDEX 14 0 else 0) ∧
        (s.rb SCE_SWAP 0 = true → s.rb SCE_STAT 30 = false → t.rb SCE_SWAP 0 = false ∧
          (sceActive t = 1 - sceActive s ↔ (s.sce.stale = false ∧ BitVec.ofNat 32 s.sce.crc = s.reg SCE_SHCRC)))) ∧
    (s.pwr ≤ 1 → s.rb SCE_STAT 30 = true → ∀ s1 : State, s1 = { s.setRb SCE_STAT 30 false with sce := { s.sce with crc := sceCrc s } } →
      exec .sceCheckDone s = .next (if s.rb SCE_CTL 0 = true then s1 else swapDecide s1)) ∧
    (∀ row act f, SceRow row act f → sceDue s = true → act (fld (sceCur s).w1 31 28) →
      exec row s = .next (f (sceCur s) (sceTime s) (sceNextEntry s))) ∧
    (∀ (pa : Word) (r : BitVec 3), s.pwr ≤ 1 → (pa.toNat, r.toNat) ∈ s.sce.errs →
      ∀ s1 : State, s1 = { s with sce := { s.sce with errs := s.sce.errs.erase (pa.toNat, r.toNat) } } →
      exec (.sceWrerr pa r) s = .next (icuEvent 403 ((if s.rb SCE_STAT 4 = true then s1
        else (s1.setReg SCE_WLOG pa).setReg SCE_WLOG_INFO (BitVec.ofNat 32 r.toNat)).setRb SCE_STAT 4 true)))

/-- R389 to R402: the train networks' commands. What stands in for the registers that the manual does not give (a second MAC of replication, the device's own frames, a latent error, the mastership, bus-off and its recovery, software's starts) is the model's choice (log 44), and so is the order of a MAC's accesses (log 45). -/
def Obligations.TrainNetworksComplete : Prop :=
  ∀ (m : Master) (n : Fin 4) (v : Word) (s : State), s.pwr ≤ 1 →
    (∀ (f : List Byte) (ok : Bool), s.rb (MAC_CTL n.val) 31 = true → macClocked s n.val = true → macPinned s n.val = true → ∀ s0 s1,
      s0 = (if ok = true ∧ frAsEvent f = true then pulse (128 + n.val) s else s) →
      s1 = (if ok = true ∧ frAsEvent f = true ∧ s.rb TNC_AS_CTL 31 = true then icuEvent (323 + 8 * n.val) s0 else s0) →
      (filterOf s1 n.val f = none → exec (.ethFrameReceive n f ok) s = .next (dmaStart dmaStep (.rx n.val (s1.rf (MAC_CTL n.val) 2 0) f ok s.tb none none) s1)) ∧
      (∀ k, filterOf s1 n.val f = some k → exec (.ethFrameReceive n f ok) s = .next (match filterPass k f s1 with
        | (none, s2) => s2
        | (some q, s2) => if (frerPass k f (frerCheck k f s2)).1 then dmaStart dmaStep (.rx n.val q f ok s.tb none none) (frerPass k f (frerCheck k f s2)).2
            else (frerPass k f (frerCheck k f s2)).2))) ∧
    (∀ q : Fin 8, s.rb (MAC_CTL n.val) 31 = true → macClocked s n.val = true → (s.macSt n.val).tx = none → (s.macSt n.val).fetch = none → txTry s n.val q.val = true →
      (∀ h, q.val < h → h < 8 → txWants s n.val h = false) →
      (∀ f, macOwn s n.val q.val = some f → exec (.ethFrameTransmit n q) s =
        .next (macSend n.val q.val [] (0, 0) f (s.modMac n.val fun k => { k with own := k.own.erase (q.val, f) }))) ∧
      (macOwn s n.val q.val = none → exec (.ethFrameTransmit n q) s = .next (txGo n.val ⟨q.val, [], false, 0, []⟩ s) ∧
        ∀ l s1 st i b s2, txDescs n.val q.val (txReady s n.val q.val) [] s = (some true, l, s1) → txBytes l 0 [] s1 = (some st, i, b, s2) →
          txMay (s2.modMac n.val fun k => { k with fetch := none }) n.val q.val (txLen l) = true →
          ∃ x, ((txGo n.val ⟨q.val, [], false, 0, []⟩ s).macSt n.val).tx = some x ∧ x.q = q.val ∧ x.descs = l ∧ (x.status, x.bad) = st ∧
            ((∀ d ∈ l.head?, wbit d.w2 28 = false) → x.frame = b))) ∧
    (∀ (q : Fin 8) x h s1 s2 s3, (s.macSt n.val).tx = some x → x.q = q.val → h = s.rf (MAC_TX_HEAD n.val q.val) 11 0 → s1 = s.modMac n.val (fun k => { k with tx := none }) →
      s2 = (if frAsEvent x.frame = true ∧ s1.rb TNC_AS_CTL 31 = true then icuEvent (323 + 8 * n.val) s1 else s1) →
      s3 = s2.setRf (MAC_TX_HEAD n.val q.val) 11 0 ((h + x.descs.length) % Nat.max 1 (ringSize (s.reg (MAC_TX_SIZE n.val q.val)))) →
      (x.descs = [] → exec (.ethFrameTransmitDone n q) s = .next s1) ∧
      (x.descs ≠ [] → exec (.ethFrameTransmitDone n q) s = .next (dmaStart dmaStep (.back n.val x h 0) s3) ∧
        ∀ u, (∀ d ∈ s3.dmaHeld, d.port ≠ 6) → txBack n.val x h [] x.descs.length u = (none, txOver n.val x u) ∧
          (txBack n.val x h x.descs 0 s3 = (none, u) → exec (.ethFrameTransmitDone n q) s = .next u))) ∧
    (∀ (up : Bool) s1, (s.macSt n.val).up ≠ up → s1 = icuEvent (324 + 8 * n.val) (s.modMac n.val fun k => { k with up := up }) →
      exec (.ethLinkChange n up) s = .next (if up = false ∧ asSlaveOn s1 = true ∧ s1.rf TNC_AS_CTL 29 28 = n.val then asUnlock s1 else s1)) ∧
    (∀ (d : BitVec 64) (r : Word), s.rb (MAC_CTL (s.rf TNC_AS_CTL 29 28)) 31 = true →
      exec (.asSync d r) s = .next (if asSlaveOn (pulse 146 s) = true then asServo d.toInt r (pulse 146 s) else pulse 146 s)) ∧
    (asSlaveOn s = true → exec .asSyncTimeout s = .next (asUnlock s)) ∧
    (∀ k : Fin 2, s.rf TNC_TTDP (16 * k.val + 15) (16 * k.val) ≠ 0 → exec (.ttdp k) s = .next (pulse 147 (icuEvent 355 s))) ∧
    (s.rb TNC_AS_CTL 31 = true → s.rb TNC_AS_CTL n.val = true → s.rb (MAC_CTL n.val) 31 = true → ∀ q u, s.draw = (q, u) → exec (.asPdelayRequest n) s =
      .next (icuEvent (323 + 8 * n.val) (u.modMac n.val fun k => { k with own := k.own ++ [((Config.asFrame q).2.toNat, (Config.asFrame q).1)] }))) ∧
    (∀ r : BitVec 8, s.rb (TNC_REC0 r.toNat) 31 = true → exec (.frerResetTimeout r) s = .next { s with frer := smErase s.frer r.toNat }) ∧
    (∀ (fc : BitVec 4) (a : MvbAddr) q u, mvbOn s = true → mvbPinned s = true → (mvbDisagree a.disagree (mvbLine s)).draw = (q, u) →
      exec (.mvbMasterFrame fc a) s = .next (mvbFrame (fc.toNat * 4096 + a.addr.toNat) (if u.rb MVB_CTL 30 = true ∧ Config.mvbMastership q = true then icuEvent 363 u else u))) ∧
    (∀ (data : List Byte) (dis : Bool), mvbOn s = true → mvbPinned s = true → ∀ s0, s0 = mvbDisagree dis (mvbLine s) →
      (s.mvbWait = none → exec (.mvbSlaveFrame data dis) s = .next s0) ∧
      (∀ w s1, s.mvbWait = some w → s1 = { s0 with mvbWait := none, mvbRead := none } →
        exec (.mvbSlaveFrame data dis) s = .next (if mvbPortFits s1 w = true ∧ s1.rb (MVB_PORT (w % 4096) 0) 30 = false ∧ data.length = mvbBytes (w / 4096)
          then dmaStart mvbStep (.mvb (w % 4096) data) s1 else s1))) ∧
    (∀ w, s.mvbWait = some w → exec .mvbReplyTimeout s = .next (pulse 137 (icuEvent 361 { s with mvbWait := none, mvbRead := none }))) ∧
    (s.rb (CAN_CTL n.val) 31 = true → (s.canSt n.val).tec < 256 →
      (fnPlaced s (0x81 + 3 * n.val) = true → exec (.canFrameReceive n none) s = .next (icuEvent (370 + 4 * n.val) s) ∧
        ∀ f : List Byte, exec (.canFrameReceive n (some f)) s = .next (if Config.canAccepts n.val f = true then dmaStart dmaStep (.can n.val (tbNs s) f) s else s)) ∧
      (∀ b : CanTx, (s.canSt n.val).req.getLsbD b.buf.val = true → exec (.canFrameTransmit n b) s = .next (if b.ok = true
        then icuEvent (369 + 4 * n.val) (s.modCan n.val fun k =>
          { k with req := k.req &&& ~~~(1#32 <<< b.buf.val), held := k.held &&& ~~~(1#32 <<< b.buf.val), tec := k.tec - 1 })
        else icuEvent (370 + 4 * n.val) (s.modCan n.val fun k =>
          { k with req := k.req ||| (1#32 <<< b.buf.val), held := k.held ||| (1#32 <<< b.buf.val), tec := k.tec + 8 })))) ∧
    (s.rb (CAN_CTL n.val) 31 = true → 256 ≤ (s.canSt n.val).tec → ∀ q u, s.draw = (q, u) → Config.canRecovered q = false →
      (∀ f, exec (.canFrameReceive n f) s = .next u) ∧ ∀ b, exec (.canFrameTransmit n b) s = .next u) ∧
    (∀ (ch : BitVec 9) (bad : Bool), s.rb (UART_CTL n.val) 31 = true → fnPlaced s (0x91 + 4 * n.val) = true → ((s.uartSt n.val).de = false ∨ s.rb (UART_CTL n.val) 30 = true) →
      exec (.uartReceive n ch bad) s = .next (if bad = true
        then icuEvent (386 + 4 * n.val) ((s.modUart n.val fun k => { k with idle := true }).countWrap (UART_ERRCNT n.val))
        else dmaStart dmaStep (.uart n.val ch) (s.modUart n.val fun k => { k with idle := true }))) ∧
    (s.rb (UART_CTL n.val) 31 = true → (masterOn s 7 = true →
        ((s.uartSt n.val).go = true → exec (.uartTransmit n) s = .next (s.modUart n.val fun k => { k with de := true, go := false })) ∧
        ((s.uartSt n.val).go = false → ∀ q u, s.draw = (q, u) →
          exec (.uartTransmit n) s = .next (if Config.uartStarted q = true then u.modUart n.val fun k => { k with de := true, go := false } else u))) ∧
      (s.rf (UART_CTL n.val) 7 0 ≠ 0 → (s.uartSt n.val).idle = true → exec (.uartIdleTimeout n) s =
        .next (pulse (142 + n.val) (icuEvent (384 + 4 * n.val) (s.modUart n.val fun k => { k with idle := false }))))) ∧
    ((s.uartSt n.val).de = true → exec (.uartTransmitDone n) s =
      .next (icuEvent (385 + 4 * n.val) (s.modUart n.val fun k => { k with de := false }))) ∧
    (Sends s m TNC_BYP → exec (.tncBypHold m v) s = .next (bypWrite v s)) ∧
    (Sends s m TNC_BYPWD → exec (.bypwdPeriodWrite m v) s = .next { plainWrite m.val TNC_BYPWD (putBit v 31 false) s with bypT0 := tbNs s } ∧
      exec (.bypwdKick m) s = .next { plainWrite m.val TNC_BYPWD (putBit (putBit (s.reg TNC_BYPWD) 31 true) 31 false) s with bypT0 := tbNs s }) ∧
    (bypExpired s = true → exec .bypWatchdogExpiry s = .next (icuEvent 404 (s.setReg TNC_BYP (putFld (putBit (s.reg TNC_BYP) 31 false) 2 0 2))))

/-- R405, R408 to R417, R474: the Safety Island's commands. -/
def Obligations.SafetyIslandEventsComplete : Prop :=
  ∀ (m : Master) (v : Word) (s : State), s.pwr ≤ 1 →
    exec .lockstepMismatch s = .next (safeTrigger 2 (s.setRb SI_STAT 31 true)) ∧
    (∀ row pa w f, ((row = Instr.siLsctlTest m ∧ pa = SI_LSCTL ∧ w = 1 ∧ f = fun t : State => t.setRb SI_STAT 30 true) ∨
        (row = .siSscForce m v ∧ pa = SI_SSC ∧ w = v ∧ f = sscWrite v) ∨ (row = .siSscRelease m v ∧ pa = SI_SSC ∧ w = v ∧ f = sscWrite v) ∨
        (row = .siWdctlEn m v ∧ pa = SI_WDCTL ∧ w = v ∧ f = wdctlWrite v) ∨ (row = .siWdkick m v ∧ pa = SI_WDKICK ∧ w = v ∧ f = wdKick v) ∨
        (row = .siS2adbWrite m v ∧ pa = SI_S2ADB ∧ w = v ∧ f = s2aDoorbell v)) → Sends s m pa →
      exec row s = .next (if m.val = 4 ∨ m.val = 8 ∧ siReleased s = false then f s else siRefuse m.val pa s)) ∧
    (Sends s m SI_A2SDB → exec (.siA2sdbWrite m v) s = .next (sicEvent 1 (s.setReg SI_A2SDB (BitVec.ofNat 32 (fld v 15 0))))) ∧
    (s.rb SI_WDCTL 31 = true → s.rf SI_WDCNT 15 0 + s.rf SI_WDWIN 31 16 = s.rf SI_WDCTL 15 0 → exec .wdwarn s = .next (sicEvent 2 s)) ∧
    (s.rb SI_WDCTL 31 = true → s.rf SI_WDCNT 15 0 = s.rf SI_WDCTL 15 0 → exec .wdExpiry s = .next (safeTrigger 3 s)) ∧
    (∀ (w : ClockWindow) (s1 : State), s1 = oscMeasured w { s.setReg SI_CMSTAT (s.reg SI_CMSTAT ||| (clockFaults w s).zeroExtend 32) with cmNow := clockFaults w s } →
      exec (.clkmonWindow w) s = .next (if clockFaults w s = 0 then s1 else safeTrigger 4 (sicEvent 3 s1))) ∧
    (∀ n, n < 412 → Sends s m (PCU_PIN n) → exec (.pcuFuncWrite m n v) s = .next (pinWrite (plainWrite m.val (PCU_PIN n)) n v s))

/-- R420: the consumers of the Safety Island. -/
def Obligations.EventRouterReachesSafety : Prop :=
  ∀ (p : BitVec 8) (joins : List Nat) (s : State), s.pwr ≤ 1 →
    ((p.toNat < 80 ∨ 96 ≤ p.toNat) ∧ p.toNat ∈ s.edges ∨ 80 ≤ p.toNat ∧ p.toNat < 96 ∧ fnPlaced s p.toNat = true) →
    ∃ t, exec (.evrEvent p joins) s = .next t ∧
      (∀ n c, n ∈ channelsOf s p.toNat → n ∉ joins → channelConsumer s n = some c → 56 ≤ c → c < 64 →
        t.rb (EVR_OVR (c / 32)) (c % 32) = s.rb (EVR_OVR (c / 32)) (c % 32) ∧ (t.rb (SIC_SRC (c - 8)) 7 = true ∨ t.rb (SIC_SRC (c - 8)) 6 = true) ∧
        (c < 60 → s.rb SI_TRIGEN (c - 48) = true → t.rb SI_SSC (c - 48) = true ∧ t.rb SI_SSC 23 = true)) ∧
      (∀ n, n ∈ channelsOf s p.toNat → n ∈ joins → t.rb (EVR_MERGE (n / 32)) (n % 32) = true) ∧
      ((∀ n c, n ∈ channelsOf s p.toNat → n ∉ joins → channelConsumer s n = some c → 56 ≤ c → c < 60 → s.rb SI_TRIGEN (c - 48) = false) →
        t.reg SI_SSC = s.reg SI_SSC)

/-- R424 to R442: power states, the energy ledger and the power-failure sequence. What keeps the device awake, which condition is checked when, that a wake event and a GO of one count of XCLK may fall in one XCLK, what PFSTEP reads, and that a sample stands for what was drawn since the last are the model's choices (logs 8, 50, 52, 53). -/
def Obligations.PowerEventsComplete : Prop :=
  ∀ (m : Master) (k : AppCore) (s : State),
    (s.pwr = 0 → coresWait s = true → vseQuiet s = true → exec .dozeEntry s = .next (pmuState 1 { s with pwr := 1 })) ∧
    (s.pwr = 1 → (coresWait s = false ∨ vseQuiet s = false) → exec .dozeExit s = .next (pmuState 0 { s with pwr := 0 })) ∧
    (Sends s m PMU_SLEEP → s.rb PMU_SLEEP 16 = false → (m.val ≤ 1 → s.lvl (appCore k) = .m) →
      (∀ row tgt s1, (row = Instr.pmuSleepCocoon m k ∧ tgt = 1 ∨ row = .pmuSleepDormant m k ∧ tgt = 2) → s1 = plainWrite m.val PMU_SLEEP tgt s →
        (s1.rb PMU_SLEEP 8 = false → exec row s = .next (sleepRefused 1 s1)) ∧
        (s1.rb PMU_SLEEP 8 = true → s.pmu.wakeAt ≠ some s.xclk →
          exec row s = .next { s1.setRb PMU_SLEEP 16 true with wakeReq := 0, pmu := { s1.pmu with goAt := some s1.xclk } }) ∧
        (s1.rb PMU_SLEEP 8 = true → s.pmu.wakeAt = some s.xclk → ∀ q u, s1.draw = (q, u) → exec row s = .next (if Config.sameCycle q = true then sleepRefused 2 u
          else { u.setRb PMU_SLEEP 16 true with wakeReq := 0, pmu := { u.pmu with goAt := some u.xclk } }))) ∧
      (∀ t : BitVec 2, (t = 0 ∨ t = 3) → exec (.pmuSleepInvalid m k t) s = .next (sleepRefused 0 (plainWrite m.val PMU_SLEEP (t.zeroExtend 32) s)))) ∧
    (s.rb PMU_SLEEP 16 = true → s.pwr ≤ 1 → coresWait s = false → exec .sleepWaitTimeout s = .next (sleepRefused 2 s)) ∧
    (s.rb PMU_SLEEP 16 = true → s.pwr ≤ 1 → coresWait s = true → s.wakeReq = 0 → inFlight s = false →
      exec .sleepEntry s = .next (if sleepCond s = 0 then sleepEnter s else sleepRefused (sleepCond s) s)) ∧
    (∀ src : Option (Fin 8), wakeCame src s = true →
      (s.rb PMU_SLEEP 16 = true → s.pwr ≤ 1 →
        (s.pmu.goAt ≠ some s.xclk → exec (.wakeEvent src) s = .next { s.setRb PMU_SLEEP 16 false with wakeReq := 0 }) ∧
        (s.pmu.goAt = some s.xclk → ∀ q u, s.draw = (q, u) →
          exec (.wakeEvent src) s = .next (if Config.sameCycle q = true then sleepRefused 2 u else { u.setRb PMU_SLEEP 16 false with wakeReq := 0 }))) ∧
      (s.pwr = 2 → pfStep s = 0 → s.ergSlots = 0 → exec (.wakeEvent src) s = .next (cocoonWake src s))) ∧
    (∀ j : Fin 8, s.pwr = 3 → s.wakeReq.getLsbD j.val = true → pfStep s = 0 → exec (.dormantWake j) s = .next (dormantStart (2 ^ j.val) s)) ∧
    (∀ e : List Nat, s.pwr ≤ 2 → s.elg.due = true → ∀ s1, s1 = (List.range 8).foldl (fun t d => elgSample d (e.getD d 0) t) (elgCreditRefill s) →
      exec (.elgRefill e) s = .next { s1 with elg := { s1.elg with due := false, win := s.elg.win + elgDrawn s e } }) ∧
    (∀ e, s.pwr = 3 ∨ s.pwr = 4 → exec (.elgDormantSample e) s = .next (elgSample 4 e s)) ∧
    (∀ (e : List Nat) u s1, s.pwr ≤ 2 → s.elg.plimDue = true → u = elgRefill e s → s1 = { u with elg := { u.elg with plimDue := false, win := 0 } } →
      exec (.elgPlimWindow e) s = .next (if s1.rf ELG_PLIM 23 0 = 0 then s1
        else if s1.rf ELG_PLIM 23 0 * 1000 < u.elg.win then (if s1.rb ELG_STAT 31 = true then s1 else pulse 162 (icuEvent 611 (s1.setRb ELG_STAT 31 true)))
        else s1.setRb ELG_STAT 31 false)) ∧
    (Sends s m ELG_SNAP → exec (.elgSnap m) s = .next (elgSnapshot s)) ∧
    (∀ v, Sends s m ELG_CREDIT_LO → exec (.elgCreditWrite m v) s = .next (setCredit (s.elgStage.toNat * 2 ^ 32 + v.toNat : Nat) s)) ∧
    (s.pwrfailN = true → exec .pwrfailNFall s = .next { s with pwrfailN := false, pfFilter := decide (pfStep s = 0 ∧ s.pwr ≤ 3) }) ∧
    exec .pwrfailNRise s = .next { s with pwrfailN := true, pfFilter := false } ∧
    (s.pfFilter = true → s.pwrfailN = false → pfStep s = 0 → ∃ t, exec .pwrfailT0 s = .next t ∧ t.pfT0 = tbNs s ∧ t.pfFilter = false ∧
      pfStep t = if s.pwr ≤ 1 then 2 else 1) ∧
    (pfStep3Due s = true → exec .pfSafeSignal s = .next (safeTrigger 5 (stAbandon (setPfStep 3 s)))) ∧
    (pfStep s = 3 → exec .pfBypassRelease s = .next (bypRelease 4 (setPfStep 4 s))) ∧
    ((pfStep s = 4 ∨ 1 ≤ pfStep s ∧ pfStep s ≤ 3 ∧ s.pwr = 3) → ∃ t, exec .pfShutdown s = .next t ∧ t.pwr = 4 ∧ pfStep t = 5 ∧ t.rb PMU_STAT 31 = true ∧ t.reg PMU_PLL = 0 ∧ t.nvmOp = .idle) ∧
    (s.pwr = 4 → s.pwrfailN = true → exec .pfRestart s = .next (dormantStart 0 s))

/-- R9, R30, R413, R429, R452 to R457, R470: resets, starts and configuration records. What a reset keeps, where a start begins and what it reports, the NVM that a release of PRST_N finds, and memory's contents then are the model's choices (logs 2, 48, 49, 50). -/
def Obligations.ResetsAndStartsComplete : Prop :=
  ∀ (s : State),
    (∀ nvm, ∃ t, exec (.prstNRelease nvm) s = .next t ∧ t.pwr = 0 ∧ t.otp = s.otp ∧ t.boot.phase = .locks ∧ (∀ c, t.core c = Core.reset) ∧
      (∀ a, a ≠ BCU_BSTAT → a ≠ PMU_PLL → a ≠ XBM_MEN → t.reg a = regReset a) ∧ ∀ a, t.byte a = memDefault a) ∧
    (∃ t, exec .prstNAssert s = .next t ∧ t.pwr = 5 ∧ t.otp = s.otp ∧ (∀ c, t.core c = Core.reset) ∧ ∀ a, t.reg a = regReset a) ∧
    (s.pwr ≤ 2 → ∃ t, exec .srstN s = .next t ∧ t.pwr = 0 ∧ t.otp = s.otp ∧ t.tb = s.tb ∧ (∀ c, t.core c = Core.reset) ∧
      t.rf BCU_BSTAT 31 28 = 2 ∧ (pfStep s = 0 → t.boot.phase = .locks)) ∧
    (s.boot.phase = .retry → s.pwr ≤ 1 → s.boot.t0 + 1000000000 ≤ tbNs s → exec .bootRetry s = .next (startStep2 ((softReset s).setRf BCU_BSTAT 27 26 (s.rf BCU_BSTAT 27 26 + 1)))) ∧
    (∀ p : Fin 5, pllWanted p.val s = true → exec (.pllLock p) s = .next (bootAdvance (s.setRb PMU_PLL p.val true))) ∧
    (s.pwr ≤ 1 → s.boot.phase = .delay → exec .cfgDelayExpiry s = .next (recordDone 0 s)) ∧
    (∀ r, AtRecord s r →
      (r.op = 0 → exec .cfgEnd s = .next (recordsEnd (s.setRf BCU_CFGPOS 12 0 s.boot.idx))) ∧
      (Sends s ⟨8, by decide⟩ r.addr → regWf r.addr = true →
        (r.op = 1 → r.mask = 0xFFFFFFFF → exec .cfgWrite s = .next (recordDone 0 (ctlWrite 8 0 .m r.addr r.value s)))) ∧
      (Asks s ⟨8, by decide⟩ r.addr → regWf r.addr = true → ∀ w u, ctlRead 8 0 r.addr s = (w, u) →
        (r.op = 2 → exec .cfgWait s = .next (if w &&& r.mask = r.value then recordDone 0 u else u) ∧
          exec .cfgWaitTimeout s = .next (if w &&& r.mask = r.value then recordDone 0 u
            else if r.flag = true then bootFail 5 u else recordDone 0 (u.setRb BCU_BSTAT 13 true))) ∧
        (r.op = 4 → exec .cfgSkip s = .next (recordDone (if (w &&& r.mask = r.value) ↔ r.flag = true then 0 else r.n) u))) ∧
      (r.op = 1 → r.mask = 0xFFFFFFFF → ∀ b u, bcuWrite r.addr (leBytes 4 r.value.toNat) s = (.done 0 b, u) → exec .cfgWrite s = .next (recordDone 0 u)) ∧
      (r.op = 1 → r.mask ≠ 0xFFFFFFFF → ∀ b u b' t, bcuRead r.addr s = (.done 0 b, u) →
        bcuWrite r.addr (leBytes 4 ((leWord b &&& ~~~r.mask) ||| (r.value &&& r.mask)).toNat) u = (.done 0 b', t) → exec .cfgWrite s = .next (recordDone 0 t)) ∧
      (r.op = 1 → r.mask = 0xFFFFFFFF → ∀ c b u, c ≠ 0 → bcuWrite r.addr (leBytes 4 r.value.toNat) s = (.done c b, u) →
        exec .cfgWrite s = .next (bootFail 6 u)) ∧
      (∀ b u, bcuRead r.addr s = (.done 0 b, u) →
        (r.op = 2 → exec .cfgWait s = .next (if leWord b &&& r.mask = r.value then recordDone 0 u else u) ∧
          exec .cfgWaitTimeout s = .next (if leWord b &&& r.mask = r.value then recordDone 0 u
            else if r.flag = true then bootFail 5 u else recordDone 0 (u.setRb BCU_BSTAT 13 true))) ∧
        (r.op = 4 → exec .cfgSkip s = .next (recordDone (if (leWord b &&& r.mask = r.value) ↔ r.flag = true then 0 else r.n) u))) ∧
      (∀ c b u, c ≠ 0 → bcuRead r.addr s = (.done c b, u) →
        (r.op = 2 → exec .cfgWait s = .next (bootFail 6 u) ∧ exec .cfgWaitTimeout s = .next (bootFail 6 u)) ∧ (r.op = 4 → exec .cfgSkip s = .next (bootFail 6 u))) ∧
      (r.op = 3 → exec .cfgDelay s = .next { s with boot := { s.boot with phase := .delay } }) ∧
      (5 ≤ r.op → exec .cfgop s = .next (bootFail 4 s)))

/-- R408, R443, R455, R460, R464, R465, R468: the store unit, BCU_REL and KSU_REVOKE. What the NVM holds of an operation cut short, whether a record reads back, and that a GO ends the erase that a commit has left are the model's choices (log 48). -/
def Obligations.StoreAndReleaseComplete : Prop :=
  ∀ (m : Master) (v : Word) (s : State),
    (Sends s m BCU_ST_CTL →
      (stBusy s = true → exec (.bcuCommit m) s = .next (stError 1 (storeCtl s 0)) ∧ exec (.bcuErase m) s = .next (stError 1 (storeCtl s 1)) ∧
        exec (.bcuProgram m) s = .next (stError 1 (storeCtl s 2)) ∧ exec (.bcuOpInvalid m) s = .next (stError 1 (storeCtl s 3))) ∧
      (stBusy s = false → exec (.bcuCommit m) s = .next (commitStart (storeCtl s 0)) ∧ exec (.bcuErase m) s = .next (eraseStart (storeCtl s 1)) ∧
        exec (.bcuProgram m) s = .next (programStart (storeCtl s 2)) ∧ exec (.bcuOpInvalid m) s = .next (stError 2 (storeCtl s 3)))) ∧
    (s.pwr ≤ 1 →
      (∀ n q d j u, s.nvmOp = .commit n q d → s.draw = (j, u) →
        (Config.verifyFails j = false → ∀ t, t = storeReport (stBit 29 true (stIdle
            (nvmPut (slotOffs u n) (recordBytes u q d) (nvmErase (slotOffs u n) (slotOffs u n + slotSize u) u)))) →
          exec .bcuStdone s = .next (icuEvent 620 { t with nvmOp := .prepare (storeNext t).1 })) ∧
        (Config.verifyFails j = true → exec .bcuStdone s = .next (stError 5 (stIdle (nvmCut u))))) ∧
      (∀ lo hi, s.nvmOp = .erase lo hi → exec .nvmOpDone s = .next (stBit 29 true (stIdle (nvmErase lo hi s)))) ∧
      (∀ lo d, s.nvmOp = .program lo d → exec .nvmOpDone s = .next (stBit 29 true (stIdle (nvmPut lo d s)))) ∧
      (s.nvmOp ≠ .idle → exec .nvmtmo s = .next (stError 4 (stIdle (nvmCut s)))) ∧
      (∀ n a, s.nvmOp = .prepare n → a = slotOffs s n →
        exec .bcuReady s = .next (icuEvent 622 { stBit 27 true (nvmErase a (a + slotSize s) s) with nvmOp := .idle }))) ∧
    (Sends s m BCU_REL → exec (.bcuRel m v) s =
      .next ((onesOf 4 v.toNat).foldl (fun t c => releaseCore (coreNo c) (t.nvmNat (t.boot.img + 0x18) 4) t |>.setRb BCU_REL c true) s)) ∧
    (Sends s m KSU_REVOKE → exec (.ksuRevoke m v) s = .next (if m.val = 4 ∨ m.val = 8 ∧ siReleased s = false
      then { s with otp := { s.otp with keyRev := s.otp.keyRev ||| BitVec.ofNat 4 v.toNat } } else siRefuse m.val KSU_REVOKE s))

/-- R462, R464: the selected record and the next write. Where no valid record is so before every other, R462 selects none, and R464 says nothing. -/
def Obligations.StoreSelection : Prop :=
  ∀ s : State,
    (∀ a b, serialLater a b = true ↔ 1 ≤ ((a : Int) - b) % 2 ^ 32 ∧ ((a : Int) - b) % 2 ^ 32 ≤ 2 ^ 31 - 1) ∧
    ((∀ n, n < 128 → slotValid s n = false) → storeSelected s = none ∧ storeNext s = (0, 1)) ∧
    ∀ n, BestOf s (fun _ => True) n → storeSelected s = some n ∧
      (storeNext s).1 / 64 = (if n < 64 then 1 else 0) ∧ (storeNext s).2 = (slotSeq s n + 1) % 2 ^ 32 ∧
      ((∀ m, m < 128 → m / 64 ≠ n / 64 → slotValid s m = false) → (storeNext s).1 % 64 = 0) ∧
      (∀ m, BestOf s (fun k => k / 64 ≠ n / 64) m → (storeNext s).1 % 64 = (m % 64 + 1) % 64)

/-- R9, R25: the state after reset, and the invariant of StepKeepsCanonical at it. The byte an unlisted address reads as is a DESIGN CHOICE (log entry 2). -/
def Obligations.ResetStateIsCanonical : Prop :=
  Canonical State.reset ∧ State.reset.pending = [] ∧ (∀ a, State.reset.reg a = regReset a) ∧ (∀ m : Master, State.reset.rb XBM_MEN m.val = true ↔ (m.val = 8 ∨ m.val = 9)) ∧
    State.reset.tb = 0 ∧ (∀ c, (State.reset.core c).released = false) ∧
    (∀ x, (State.reset.vc x).queue = [] ∧ (State.reset.vc x).cur = none ∧ (State.reset.vc x).sv = none) ∧ State.reset.mem = []

/-- The sparse maps keep their canonical forms over every command and every idle cycle. -/
def Obligations.StepKeepsCanonical : Prop :=
  ∀ (s t : State), Canonical s → step s = .next t → Canonical t

/-- R189, R443, R451: the OTP only ever advances. -/
def Obligations.FusesOnlyBurn : Prop :=
  ∀ (s t : State), step s = .next t → s.otp.imgCtr ≤ t.otp.imgCtr ∧ s.otp.patchCtr ≤ t.otp.patchCtr ∧ s.otp.keyRev &&& t.otp.keyRev = s.otp.keyRev ∧
    { t.otp with imgCtr := s.otp.imgCtr, patchCtr := s.otp.patchCtr, keyRev := s.otp.keyRev } = s.otp
end

