-- ==== Sys2Proof/Laws/Sparse.lean ====
section
/-! SUPPORT. Sparse data: a read after a write, and the canonical form that every write keeps. -/
namespace Sys2Proof.Machine

variable {α : Type} (d : Nat → α)

theorem smGet_smErase_ne (m : List (Nat × α)) {j k : Nat} (h : j ≠ k) : smGet d (smErase m k) j = smGet d m j := by
  induction m with
  | nil => rfl
  | cons e t ih =>
    obtain ⟨i, w⟩ := e
    unfold smErase at ih ⊢
    by_cases hi : i = k
    · subst hi
      rw [List.filter_cons_of_neg (by simp), ih]
      rw [smGet, if_neg (fun hh => h hh.symm)]
    · rw [List.filter_cons_of_pos (by simpa using hi)]
      simp only [smGet, ih]

theorem smGet_smErase_self (m : List (Nat × α)) (k : Nat) : smGet d (smErase m k) k = d k := by
  induction m with
  | nil => rfl
  | cons e t ih =>
    obtain ⟨i, w⟩ := e
    unfold smErase at ih ⊢
    by_cases hi : i = k
    · rw [List.filter_cons_of_neg (by simp [hi]), ih]
    · rw [List.filter_cons_of_pos (by simpa using hi), smGet, if_neg hi, ih]

theorem smGet_smInsert_ne (m : List (Nat × α)) (v : α) {j k : Nat} (h : j ≠ k) : smGet d (smInsert k v m) j = smGet d m j := by
  induction m with
  | nil => simp [smInsert, smGet, Ne.symm h]
  | cons e t ih =>
    obtain ⟨i, w⟩ := e
    unfold smInsert
    split
    · rw [smGet, if_neg (fun hh => h hh.symm)]
    · simp only [smGet, ih]

theorem smGet_smInsert_self (m : List (Nat × α)) (k : Nat) (v : α) (h : ∀ e ∈ m, e.1 ≠ k) : smGet d (smInsert k v m) k = v := by
  induction m with
  | nil => rw [smInsert, smGet, if_pos rfl]
  | cons e t ih =>
    obtain ⟨i, w⟩ := e
    unfold smInsert
    split
    · rw [smGet, if_pos rfl]
    · rw [smGet, if_neg (h _ (List.mem_cons_self ..)), ih fun e he => h e (List.mem_cons_of_mem _ he)]

theorem smErase_no_key (m : List (Nat × α)) (k : Nat) : ∀ e ∈ smErase m k, e.1 ≠ k := by
  intro e he
  simpa using (List.mem_filter.mp he).2

theorem smGet_smDrop (p : Nat → Bool) (m : List (Nat × α)) (k : Nat) : smGet d (smDrop p m) k = if p k then d k else smGet d m k := by
  unfold smDrop
  induction m with
  | nil => simp [smGet]
  | cons e t ih =>
    obtain ⟨i, w⟩ := e
    by_cases hp : p i
    · rw [List.filter_cons_of_neg (by simp [hp]), ih]
      by_cases hik : i = k
      · subst hik; simp [hp]
      · simp [smGet, hik]
    · rw [List.filter_cons_of_pos (by simp [hp])]
      by_cases hik : i = k
      · subst hik; simp [smGet, hp]
      · simp only [smGet, ih, hik, if_false]

variable [DecidableEq α]

@[simp] theorem smGet_smPut_self (m : List (Nat × α)) (k : Nat) (v : α) : smGet d (smPut d m k v) k = v := by
  unfold smPut
  split
  · rename_i h
    rw [smGet_smErase_self, h]
  · exact smGet_smInsert_self d _ k v (smErase_no_key m k)

theorem smGet_smPut_ne (m : List (Nat × α)) (v : α) {j k : Nat} (h : j ≠ k) : smGet d (smPut d m k v) j = smGet d m j := by
  unfold smPut
  split
  · exact smGet_smErase_ne d m h
  · rw [smGet_smInsert_ne d _ v h, smGet_smErase_ne d m h]

theorem smGet_smPut (m : List (Nat × α)) (k j : Nat) (v : α) : smGet d (smPut d m k v) j = if j = k then v else smGet d m j := by
  split
  · rename_i h; rw [h, smGet_smPut_self]
  · rename_i h; exact smGet_smPut_ne d m v h

/-- A list in canonical form above `b` is so above any lower bound. -/
theorem smWfFrom_weaken (m : List (Nat × α)) {b c : Nat} (h : b ≤ c) (w : smWfFrom d (some c) m = true) : smWfFrom d (some b) m = true := by
  cases m with
  | nil => rfl
  | cons e t =>
    obtain ⟨i, v⟩ := e
    simp only [smWfFrom, Bool.and_eq_true, decide_eq_true_eq] at w ⊢
    exact ⟨⟨by omega, w.1.2⟩, w.2⟩

theorem smWfFrom_filter (p : Nat × α → Bool) (m : List (Nat × α)) : ∀ b, smWfFrom d b m = true → smWfFrom d b (m.filter p) = true := by
  induction m with
  | nil => intro b h; exact h
  | cons e t ih =>
    obtain ⟨i, v⟩ := e
    intro b h
    have h' : smWfFrom d (some i) t = true ∧ (∀ u, smWfFrom d (some i) u = true → smWfFrom d b ((i, v) :: u) = true) := by
      cases b <;> simp_all [smWfFrom]
    by_cases hp : p (i, v)
    · rw [List.filter_cons_of_pos hp]
      exact h'.2 _ (ih _ h'.1)
    · rw [List.filter_cons_of_neg hp]
      refine ih b ?_
      cases b with
      | none =>
        cases t with
        | nil => rfl
        | cons e' t' =>
          obtain ⟨i', v'⟩ := e'
          have := h'.1
          simp only [smWfFrom, Bool.and_eq_true, decide_eq_true_eq] at this ⊢
          exact ⟨⟨trivial, this.1.2⟩, this.2⟩
      | some x =>
        have hx : x < i := by simp [smWfFrom] at h; exact h.1.1
        exact smWfFrom_weaken d t (Nat.le_of_lt hx) h'.1

theorem smWfFrom_insert (k : Nat) (v : α) (hv : v ≠ d k) (m : List (Nat × α)) (hm : ∀ e ∈ m, e.1 ≠ k) :
    ∀ b, (match b with | none => True | some x => x < k) → smWfFrom d b m = true → smWfFrom d b (smInsert k v m) = true := by
  induction m with
  | nil =>
    intro b hb _
    cases b <;> simp_all [smInsert, smWfFrom]
  | cons e t ih =>
    obtain ⟨i, w⟩ := e
    intro b hb h
    have hik : i ≠ k := hm _ (List.mem_cons_self ..)
    unfold smInsert
    split
    · rename_i hlt
      cases b <;> simp_all [smWfFrom]
    · rename_i hge
      have hr : smWfFrom d (some i) t = true := by
        cases b <;> simp_all [smWfFrom]
      have := ih (fun e he => hm e (List.mem_cons_of_mem _ he)) (some i) (by show i < k; omega) hr
      cases b <;> simp_all [smWfFrom]

/-- A write keeps the canonical form. -/
theorem smWf_smPut (m : List (Nat × α)) (k : Nat) (v : α) (h : smWf d m = true) : smWf d (smPut d m k v) = true := by
  unfold smPut smWf
  split
  · exact smWfFrom_filter d _ m _ h
  · rename_i hv
    exact smWfFrom_insert d k v hv _ (smErase_no_key m k) none trivial (smWfFrom_filter d _ m _ h)

/-- Dropping keys keeps the canonical form. -/
theorem smWf_smDrop (p : Nat → Bool) (m : List (Nat × α)) (h : smWf d m = true) : smWf d (smDrop p m) = true :=
  smWfFrom_filter d _ m _ h

end Sys2Proof.Machine
end

