-- ==== Sys2Proof/Laws/State.lean ====
section
/-! SUPPORT. What each update of the state leaves in each field and answers to each read that it does not change. -/
namespace Sys2Proof.Machine

@[simp] theorem State.setReg_pending (s : State) (a : Nat) (v : Word) : (s.setReg a v).pending = s.pending := rfl
@[simp] theorem State.setReg_cores (s : State) (a : Nat) (v : Word) : (s.setReg a v).cores = s.cores := rfl
@[simp] theorem State.setReg_mem (s : State) (a : Nat) (v : Word) : (s.setReg a v).mem = s.mem := rfl
@[simp] theorem State.setReg_ecc (s : State) (a : Nat) (v : Word) : (s.setReg a v).ecc = s.ecc := rfl
@[simp] theorem State.setReg_dramErr (s : State) (a : Nat) (v : Word) : (s.setReg a v).dramErr = s.dramErr := rfl
@[simp] theorem State.setReg_ceWb (s : State) (a : Nat) (v : Word) : (s.setReg a v).ceWb = s.ceWb := rfl
@[simp] theorem State.setReg_fresh (s : State) (a : Nat) (v : Word) : (s.setReg a v).fresh = s.fresh := rfl
@[simp] theorem State.setReg_icuHeld (s : State) (a : Nat) (v : Word) : (s.setReg a v).icuHeld = s.icuHeld := rfl
@[simp] theorem State.setReg_edges (s : State) (a : Nat) (v : Word) : (s.setReg a v).edges = s.edges := rfl
@[simp] theorem State.setReg_tb (s : State) (a : Nat) (v : Word) : (s.setReg a v).tb = s.tb := rfl
@[simp] theorem State.setReg_tbSub (s : State) (a : Nat) (v : Word) : (s.setReg a v).tbSub = s.tbSub := rfl
@[simp] theorem State.setReg_adjPend (s : State) (a : Nat) (v : Word) : (s.setReg a v).adjPend = s.adjPend := rfl
@[simp] theorem State.setReg_xclk (s : State) (a : Nat) (v : Word) : (s.setReg a v).xclk = s.xclk := rfl
@[simp] theorem State.setReg_tmAcc (s : State) (a : Nat) (v : Word) : (s.setReg a v).tmAcc = s.tmAcc := rfl
@[simp] theorem State.setReg_evrHeld (s : State) (a : Nat) (v : Word) : (s.setReg a v).evrHeld = s.evrHeld := rfl
@[simp] theorem State.setReg_evoutBusy (s : State) (a : Nat) (v : Word) : (s.setReg a v).evoutBusy = s.evoutBusy := rfl
@[simp] theorem State.setReg_evoutLvl (s : State) (a : Nat) (v : Word) : (s.setReg a v).evoutLvl = s.evoutLvl := rfl
@[simp] theorem State.setReg_capDead (s : State) (a : Nat) (v : Word) : (s.setReg a v).capDead = s.capDead := rfl
@[simp] theorem State.setReg_fillRun (s : State) (a : Nat) (v : Word) : (s.setReg a v).fillRun = s.fillRun := rfl
@[simp] theorem State.setReg_ergSlots (s : State) (a : Nat) (v : Word) : (s.setReg a v).ergSlots = s.ergSlots := rfl
@[simp] theorem State.setReg_scrubT0 (s : State) (a : Nat) (v : Word) : (s.setReg a v).scrubT0 = s.scrubT0 := rfl
@[simp] theorem State.setReg_lapLate (s : State) (a : Nat) (v : Word) : (s.setReg a v).lapLate = s.lapLate := rfl
@[simp] theorem State.setReg_vclkStop (s : State) (a : Nat) (v : Word) : (s.setReg a v).vclkStop = s.vclkStop := rfl
@[simp] theorem State.setReg_dmcTraining (s : State) (a : Nat) (v : Word) : (s.setReg a v).dmcTraining = s.dmcTraining := rfl
@[simp] theorem State.setReg_patrol (s : State) (a : Nat) (v : Word) : (s.setReg a v).patrol = s.patrol := rfl
@[simp] theorem State.setReg_pwrfailN (s : State) (a : Nat) (v : Word) : (s.setReg a v).pwrfailN = s.pwrfailN := rfl
@[simp] theorem State.setReg_cmNow (s : State) (a : Nat) (v : Word) : (s.setReg a v).cmNow = s.cmNow := rfl
@[simp] theorem State.setReg_outst (s : State) (a : Nat) (v : Word) : (s.setReg a v).outst = s.outst := rfl
@[simp] theorem State.setReg_linkTx (s : State) (a : Nat) (v : Word) : (s.setReg a v).linkTx = s.linkTx := rfl
@[simp] theorem State.setReg_xacts (s : State) (a : Nat) (v : Word) : (s.setReg a v).xacts = s.xacts := rfl
@[simp] theorem State.setReg_walkCache (s : State) (a : Nat) (v : Word) : (s.setReg a v).walkCache = s.walkCache := rfl
@[simp] theorem State.setReg_walks (s : State) (a : Nat) (v : Word) : (s.setReg a v).walks = s.walks := rfl
@[simp] theorem State.setReg_vseTlb (s : State) (a : Nat) (v : Word) : (s.setReg a v).vseTlb = s.vseTlb := rfl
@[simp] theorem State.setReg_vctx (s : State) (a : Nat) (v : Word) : (s.setReg a v).vctx = s.vctx := rfl
@[simp] theorem State.setReg_eau (s : State) (a : Nat) (v : Word) : (s.setReg a v).eau = s.eau := rfl
@[simp] theorem State.setReg_stamps (s : State) (a : Nat) (v : Word) : (s.setReg a v).stamps = s.stamps := rfl
@[simp] theorem State.setReg_pwr (s : State) (a : Nat) (v : Word) : (s.setReg a v).pwr = s.pwr := rfl
@[simp] theorem State.setReg_pfFilter (s : State) (a : Nat) (v : Word) : (s.setReg a v).pfFilter = s.pfFilter := rfl
@[simp] theorem State.setReg_elgCredit (s : State) (a : Nat) (v : Word) : (s.setReg a v).elgCredit = s.elgCredit := rfl
@[simp] theorem State.setReg_elgStage (s : State) (a : Nat) (v : Word) : (s.setReg a v).elgStage = s.elgStage := rfl
@[simp] theorem State.setReg_pfT0 (s : State) (a : Nat) (v : Word) : (s.setReg a v).pfT0 = s.pfT0 := rfl
@[simp] theorem State.setReg_wakeReq (s : State) (a : Nat) (v : Word) : (s.setReg a v).wakeReq = s.wakeReq := rfl
@[simp] theorem State.setReg_bypT0 (s : State) (a : Nat) (v : Word) : (s.setReg a v).bypT0 = s.bypT0 := rfl
@[simp] theorem State.setReg_otp (s : State) (a : Nat) (v : Word) : (s.setReg a v).otp = s.otp := rfl
@[simp] theorem State.setReg_nvm (s : State) (a : Nat) (v : Word) : (s.setReg a v).nvm = s.nvm := rfl
@[simp] theorem State.setReg_boot (s : State) (a : Nat) (v : Word) : (s.setReg a v).boot = s.boot := rfl
@[simp] theorem State.setReg_nvmOp (s : State) (a : Nat) (v : Word) : (s.setReg a v).nvmOp = s.nvmOp := rfl
@[simp] theorem State.setReg_sceBank0 (s : State) (a : Nat) (v : Word) : (s.setReg a v).sceBank0 = s.sceBank0 := rfl
@[simp] theorem State.setReg_sceBank1 (s : State) (a : Nat) (v : Word) : (s.setReg a v).sceBank1 = s.sceBank1 := rfl
@[simp] theorem State.setReg_sce (s : State) (a : Nat) (v : Word) : (s.setReg a v).sce = s.sce := rfl
@[simp] theorem State.setReg_c0 (s : State) (a : Nat) (v : Word) : (s.setReg a v).c0 = s.c0 := rfl
@[simp] theorem State.setReg_mac (s : State) (a : Nat) (v : Word) : (s.setReg a v).mac = s.mac := rfl
@[simp] theorem State.setReg_qciDebt (s : State) (a : Nat) (v : Word) : (s.setReg a v).qciDebt = s.qciDebt := rfl
@[simp] theorem State.setReg_qciLast (s : State) (a : Nat) (v : Word) : (s.setReg a v).qciLast = s.qciLast := rfl
@[simp] theorem State.setReg_frer (s : State) (a : Nat) (v : Word) : (s.setReg a v).frer = s.frer := rfl
@[simp] theorem State.setReg_genSeq (s : State) (a : Nat) (v : Word) : (s.setReg a v).genSeq = s.genSeq := rfl
@[simp] theorem State.setReg_can (s : State) (a : Nat) (v : Word) : (s.setReg a v).can = s.can := rfl
@[simp] theorem State.setReg_uart (s : State) (a : Nat) (v : Word) : (s.setReg a v).uart = s.uart := rfl
@[simp] theorem State.setReg_mvbWait (s : State) (a : Nat) (v : Word) : (s.setReg a v).mvbWait = s.mvbWait := rfl
@[simp] theorem State.setReg_mvbRead (s : State) (a : Nat) (v : Word) : (s.setReg a v).mvbRead = s.mvbRead := rfl
@[simp] theorem State.setReg_mvbSent (s : State) (a : Nat) (v : Word) : (s.setReg a v).mvbSent = s.mvbSent := rfl
@[simp] theorem State.setReg_txSeq (s : State) (a : Nat) (v : Word) : (s.setReg a v).txSeq = s.txSeq := rfl
@[simp] theorem State.setReg_retries (s : State) (a : Nat) (v : Word) : (s.setReg a v).retries = s.retries := rfl
@[simp] theorem State.setReg_helloIn (s : State) (a : Nat) (v : Word) : (s.setReg a v).helloIn = s.helloIn := rfl
@[simp] theorem State.setReg_ended (s : State) (a : Nat) (v : Word) : (s.setReg a v).ended = s.ended := rfl
@[simp] theorem State.setReg_inHeld (s : State) (a : Nat) (v : Word) : (s.setReg a v).inHeld = s.inHeld := rfl
@[simp] theorem State.setReg_mgmtHeld (s : State) (a : Nat) (v : Word) : (s.setReg a v).mgmtHeld = s.mgmtHeld := rfl
@[simp] theorem State.setReg_helloSent (s : State) (a : Nat) (v : Word) : (s.setReg a v).helloSent = s.helloSent := rfl
@[simp] theorem State.setReg_exchSent (s : State) (a : Nat) (v : Word) : (s.setReg a v).exchSent = s.exchSent := rfl
@[simp] theorem State.setReg_ft (s : State) (a : Nat) (v : Word) : (s.setReg a v).ft = s.ft := rfl
@[simp] theorem State.setReg_as (s : State) (a : Nat) (v : Word) : (s.setReg a v).as = s.as := rfl
@[simp] theorem State.setReg_microWb (s : State) (a : Nat) (v : Word) : (s.setReg a v).microWb = s.microWb := rfl
@[simp] theorem State.setReg_claimed (s : State) (a : Nat) (v : Word) : (s.setReg a v).claimed = s.claimed := rfl
@[simp] theorem State.setReg_arb (s : State) (a : Nat) (v : Word) : (s.setReg a v).arb = s.arb := rfl
@[simp] theorem State.setReg_retryReq (s : State) (a : Nat) (v : Word) : (s.setReg a v).retryReq = s.retryReq := rfl
@[simp] theorem State.setReg_c1Share (s : State) (a : Nat) (v : Word) : (s.setReg a v).c1Share = s.c1Share := rfl
@[simp] theorem State.setReg_chkDirty (s : State) (a : Nat) (v : Word) : (s.setReg a v).chkDirty = s.chkDirty := rfl
@[simp] theorem State.setReg_linkActs (s : State) (a : Nat) (v : Word) : (s.setReg a v).linkActs = s.linkActs := rfl
@[simp] theorem State.setReg_stepFrom (s : State) (a : Nat) (v : Word) : (s.setReg a v).stepFrom = s.stepFrom := rfl
@[simp] theorem State.setReg_stepMark (s : State) (a : Nat) (v : Word) : (s.setReg a v).stepMark = s.stepMark := rfl
@[simp] theorem State.setReg_dmaHeld (s : State) (a : Nat) (v : Word) : (s.setReg a v).dmaHeld = s.dmaHeld := rfl
@[simp] theorem State.setReg_held (s : State) (a : Nat) (v : Word) : (s.setReg a v).held = s.held := rfl
@[simp] theorem State.setReg_lateTags (s : State) (a : Nat) (v : Word) : (s.setReg a v).lateTags = s.lateTags := rfl
@[simp] theorem State.setReg_xspi (s : State) (a : Nat) (v : Word) : (s.setReg a v).xspi = s.xspi := rfl
@[simp] theorem State.setReg_wtape (s : State) (a : Nat) (v : Word) : (s.setReg a v).wtape = s.wtape := rfl
@[simp] theorem State.setReg_wtapeN (s : State) (a : Nat) (v : Word) : (s.setReg a v).wtapeN = s.wtapeN := rfl
@[simp] theorem State.setReg_l2Old (s : State) (a : Nat) (v : Word) : (s.setReg a v).l2Old = s.l2Old := rfl
@[simp] theorem State.setReg_elg (s : State) (a : Nat) (v : Word) : (s.setReg a v).elg = s.elg := rfl
@[simp] theorem State.setReg_pmu (s : State) (a : Nat) (v : Word) : (s.setReg a v).pmu = s.pmu := rfl
@[simp] theorem State.setReg_si (s : State) (a : Nat) (v : Word) : (s.setReg a v).si = s.si := rfl
@[simp] theorem State.setReg_core_read (s : State) (a : Nat) (v : Word) (i : CoreId) : (s.setReg a v).core i = s.core i := rfl
@[simp] theorem State.setReg_sr_read (s : State) (a : Nat) (v : Word) (i : CoreId) (k : Nat) : (s.setReg a v).sr i k = s.sr i k := rfl
@[simp] theorem State.setReg_srf_read (s : State) (a : Nat) (v : Word) (i : CoreId) (k p q : Nat) : (s.setReg a v).srf i k p q = s.srf i k p q := rfl
@[simp] theorem State.setReg_g_read (s : State) (a : Nat) (v : Word) (i : CoreId) (t : GReg) : (s.setReg a v).g i t = s.g i t := rfl
@[simp] theorem State.setReg_f_read (s : State) (a : Nat) (v : Word) (i : CoreId) (t : FReg) : (s.setReg a v).f i t = s.f i t := rfl
@[simp] theorem State.setReg_q_read (s : State) (a : Nat) (v : Word) (i : CoreId) (t : QReg) : (s.setReg a v).q i t = s.q i t := rfl
@[simp] theorem State.setReg_pc_read (s : State) (a : Nat) (v : Word) (i : CoreId) : (s.setReg a v).pc i = s.pc i := rfl
@[simp] theorem State.setReg_lvl_read (s : State) (a : Nat) (v : Word) (i : CoreId) : (s.setReg a v).lvl i = s.lvl i := rfl
@[simp] theorem State.setReg_byte_read (s : State) (a : Nat) (v : Word) (k : Nat) : (s.setReg a v).byte k = s.byte k := rfl
@[simp] theorem State.setReg_wrong_read (s : State) (a : Nat) (v : Word) (k : Nat) : (s.setReg a v).wrong k = s.wrong k := rfl
@[simp] theorem State.setReg_vc_read (s : State) (a : Nat) (v : Word) (y : CtxId) : (s.setReg a v).vc y = s.vc y := rfl
@[simp] theorem State.setReg_power_read (s : State) (a : Nat) (v : Word)  : (s.setReg a v).power = s.power := rfl

@[simp] theorem State.setRf_pending (s : State) (a hi lo x : Nat) : (s.setRf a hi lo x).pending = s.pending := rfl
@[simp] theorem State.setRf_cores (s : State) (a hi lo x : Nat) : (s.setRf a hi lo x).cores = s.cores := rfl
@[simp] theorem State.setRf_mem (s : State) (a hi lo x : Nat) : (s.setRf a hi lo x).mem = s.mem := rfl
@[simp] theorem State.setRf_ecc (s : State) (a hi lo x : Nat) : (s.setRf a hi lo x).ecc = s.ecc := rfl
@[simp] theorem State.setRf_dramErr (s : State) (a hi lo x : Nat) : (s.setRf a hi lo x).dramErr = s.dramErr := rfl
@[simp] theorem State.setRf_ceWb (s : State) (a hi lo x : Nat) : (s.setRf a hi lo x).ceWb = s.ceWb := rfl
@[simp] theorem State.setRf_fresh (s : State) (a hi lo x : Nat) : (s.setRf a hi lo x).fresh = s.fresh := rfl
@[simp] theorem State.setRf_icuHeld (s : State) (a hi lo x : Nat) : (s.setRf a hi lo x).icuHeld = s.icuHeld := rfl
@[simp] theorem State.setRf_edges (s : State) (a hi lo x : Nat) : (s.setRf a hi lo x).edges = s.edges := rfl
@[simp] theorem State.setRf_tb (s : State) (a hi lo x : Nat) : (s.setRf a hi lo x).tb = s.tb := rfl
@[simp] theorem State.setRf_tbSub (s : State) (a hi lo x : Nat) : (s.setRf a hi lo x).tbSub = s.tbSub := rfl
@[simp] theorem State.setRf_adjPend (s : State) (a hi lo x : Nat) : (s.setRf a hi lo x).adjPend = s.adjPend := rfl
@[simp] theorem State.setRf_xclk (s : State) (a hi lo x : Nat) : (s.setRf a hi lo x).xclk = s.xclk := rfl
@[simp] theorem State.setRf_tmAcc (s : State) (a hi lo x : Nat) : (s.setRf a hi lo x).tmAcc = s.tmAcc := rfl
@[simp] theorem State.setRf_evrHeld (s : State) (a hi lo x : Nat) : (s.setRf a hi lo x).evrHeld = s.evrHeld := rfl
@[simp] theorem State.setRf_evoutBusy (s : State) (a hi lo x : Nat) : (s.setRf a hi lo x).evoutBusy = s.evoutBusy := rfl
@[simp] theorem State.setRf_evoutLvl (s : State) (a hi lo x : Nat) : (s.setRf a hi lo x).evoutLvl = s.evoutLvl := rfl
@[simp] theorem State.setRf_capDead (s : State) (a hi lo x : Nat) : (s.setRf a hi lo x).capDead = s.capDead := rfl
@[simp] theorem State.setRf_fillRun (s : State) (a hi lo x : Nat) : (s.setRf a hi lo x).fillRun = s.fillRun := rfl
@[simp] theorem State.setRf_ergSlots (s : State) (a hi lo x : Nat) : (s.setRf a hi lo x).ergSlots = s.ergSlots := rfl
@[simp] theorem State.setRf_scrubT0 (s : State) (a hi lo x : Nat) : (s.setRf a hi lo x).scrubT0 = s.scrubT0 := rfl
@[simp] theorem State.setRf_lapLate (s : State) (a hi lo x : Nat) : (s.setRf a hi lo x).lapLate = s.lapLate := rfl
@[simp] theorem State.setRf_vclkStop (s : State) (a hi lo x : Nat) : (s.setRf a hi lo x).vclkStop = s.vclkStop := rfl
@[simp] theorem State.setRf_dmcTraining (s : State) (a hi lo x : Nat) : (s.setRf a hi lo x).dmcTraining = s.dmcTraining := rfl
@[simp] theorem State.setRf_patrol (s : State) (a hi lo x : Nat) : (s.setRf a hi lo x).patrol = s.patrol := rfl
@[simp] theorem State.setRf_pwrfailN (s : State) (a hi lo x : Nat) : (s.setRf a hi lo x).pwrfailN = s.pwrfailN := rfl
@[simp] theorem State.setRf_cmNow (s : State) (a hi lo x : Nat) : (s.setRf a hi lo x).cmNow = s.cmNow := rfl
@[simp] theorem State.setRf_outst (s : State) (a hi lo x : Nat) : (s.setRf a hi lo x).outst = s.outst := rfl
@[simp] theorem State.setRf_linkTx (s : State) (a hi lo x : Nat) : (s.setRf a hi lo x).linkTx = s.linkTx := rfl
@[simp] theorem State.setRf_xacts (s : State) (a hi lo x : Nat) : (s.setRf a hi lo x).xacts = s.xacts := rfl
@[simp] theorem State.setRf_walkCache (s : State) (a hi lo x : Nat) : (s.setRf a hi lo x).walkCache = s.walkCache := rfl
@[simp] theorem State.setRf_walks (s : State) (a hi lo x : Nat) : (s.setRf a hi lo x).walks = s.walks := rfl
@[simp] theorem State.setRf_vseTlb (s : State) (a hi lo x : Nat) : (s.setRf a hi lo x).vseTlb = s.vseTlb := rfl
@[simp] theorem State.setRf_vctx (s : State) (a hi lo x : Nat) : (s.setRf a hi lo x).vctx = s.vctx := rfl
@[simp] theorem State.setRf_eau (s : State) (a hi lo x : Nat) : (s.setRf a hi lo x).eau = s.eau := rfl
@[simp] theorem State.setRf_stamps (s : State) (a hi lo x : Nat) : (s.setRf a hi lo x).stamps = s.stamps := rfl
@[simp] theorem State.setRf_pwr (s : State) (a hi lo x : Nat) : (s.setRf a hi lo x).pwr = s.pwr := rfl
@[simp] theorem State.setRf_pfFilter (s : State) (a hi lo x : Nat) : (s.setRf a hi lo x).pfFilter = s.pfFilter := rfl
@[simp] theorem State.setRf_elgCredit (s : State) (a hi lo x : Nat) : (s.setRf a hi lo x).elgCredit = s.elgCredit := rfl
@[simp] theorem State.setRf_elgStage (s : State) (a hi lo x : Nat) : (s.setRf a hi lo x).elgStage = s.elgStage := rfl
@[simp] theorem State.setRf_pfT0 (s : State) (a hi lo x : Nat) : (s.setRf a hi lo x).pfT0 = s.pfT0 := rfl
@[simp] theorem State.setRf_wakeReq (s : State) (a hi lo x : Nat) : (s.setRf a hi lo x).wakeReq = s.wakeReq := rfl
@[simp] theorem State.setRf_bypT0 (s : State) (a hi lo x : Nat) : (s.setRf a hi lo x).bypT0 = s.bypT0 := rfl
@[simp] theorem State.setRf_otp (s : State) (a hi lo x : Nat) : (s.setRf a hi lo x).otp = s.otp := rfl
@[simp] theorem State.setRf_nvm (s : State) (a hi lo x : Nat) : (s.setRf a hi lo x).nvm = s.nvm := rfl
@[simp] theorem State.setRf_boot (s : State) (a hi lo x : Nat) : (s.setRf a hi lo x).boot = s.boot := rfl
@[simp] theorem State.setRf_nvmOp (s : State) (a hi lo x : Nat) : (s.setRf a hi lo x).nvmOp = s.nvmOp := rfl
@[simp] theorem State.setRf_sceBank0 (s : State) (a hi lo x : Nat) : (s.setRf a hi lo x).sceBank0 = s.sceBank0 := rfl
@[simp] theorem State.setRf_sceBank1 (s : State) (a hi lo x : Nat) : (s.setRf a hi lo x).sceBank1 = s.sceBank1 := rfl
@[simp] theorem State.setRf_sce (s : State) (a hi lo x : Nat) : (s.setRf a hi lo x).sce = s.sce := rfl
@[simp] theorem State.setRf_c0 (s : State) (a hi lo x : Nat) : (s.setRf a hi lo x).c0 = s.c0 := rfl
@[simp] theorem State.setRf_mac (s : State) (a hi lo x : Nat) : (s.setRf a hi lo x).mac = s.mac := rfl
@[simp] theorem State.setRf_qciDebt (s : State) (a hi lo x : Nat) : (s.setRf a hi lo x).qciDebt = s.qciDebt := rfl
@[simp] theorem State.setRf_qciLast (s : State) (a hi lo x : Nat) : (s.setRf a hi lo x).qciLast = s.qciLast := rfl
@[simp] theorem State.setRf_frer (s : State) (a hi lo x : Nat) : (s.setRf a hi lo x).frer = s.frer := rfl
@[simp] theorem State.setRf_genSeq (s : State) (a hi lo x : Nat) : (s.setRf a hi lo x).genSeq = s.genSeq := rfl
@[simp] theorem State.setRf_can (s : State) (a hi lo x : Nat) : (s.setRf a hi lo x).can = s.can := rfl
@[simp] theorem State.setRf_uart (s : State) (a hi lo x : Nat) : (s.setRf a hi lo x).uart = s.uart := rfl
@[simp] theorem State.setRf_mvbWait (s : State) (a hi lo x : Nat) : (s.setRf a hi lo x).mvbWait = s.mvbWait := rfl
@[simp] theorem State.setRf_mvbRead (s : State) (a hi lo x : Nat) : (s.setRf a hi lo x).mvbRead = s.mvbRead := rfl
@[simp] theorem State.setRf_mvbSent (s : State) (a hi lo x : Nat) : (s.setRf a hi lo x).mvbSent = s.mvbSent := rfl
@[simp] theorem State.setRf_txSeq (s : State) (a hi lo x : Nat) : (s.setRf a hi lo x).txSeq = s.txSeq := rfl
@[simp] theorem State.setRf_retries (s : State) (a hi lo x : Nat) : (s.setRf a hi lo x).retries = s.retries := rfl
@[simp] theorem State.setRf_helloIn (s : State) (a hi lo x : Nat) : (s.setRf a hi lo x).helloIn = s.helloIn := rfl
@[simp] theorem State.setRf_ended (s : State) (a hi lo x : Nat) : (s.setRf a hi lo x).ended = s.ended := rfl
@[simp] theorem State.setRf_inHeld (s : State) (a hi lo x : Nat) : (s.setRf a hi lo x).inHeld = s.inHeld := rfl
@[simp] theorem State.setRf_mgmtHeld (s : State) (a hi lo x : Nat) : (s.setRf a hi lo x).mgmtHeld = s.mgmtHeld := rfl
@[simp] theorem State.setRf_helloSent (s : State) (a hi lo x : Nat) : (s.setRf a hi lo x).helloSent = s.helloSent := rfl
@[simp] theorem State.setRf_exchSent (s : State) (a hi lo x : Nat) : (s.setRf a hi lo x).exchSent = s.exchSent := rfl
@[simp] theorem State.setRf_ft (s : State) (a hi lo x : Nat) : (s.setRf a hi lo x).ft = s.ft := rfl
@[simp] theorem State.setRf_as (s : State) (a hi lo x : Nat) : (s.setRf a hi lo x).as = s.as := rfl
@[simp] theorem State.setRf_microWb (s : State) (a hi lo x : Nat) : (s.setRf a hi lo x).microWb = s.microWb := rfl
@[simp] theorem State.setRf_claimed (s : State) (a hi lo x : Nat) : (s.setRf a hi lo x).claimed = s.claimed := rfl
@[simp] theorem State.setRf_arb (s : State) (a hi lo x : Nat) : (s.setRf a hi lo x).arb = s.arb := rfl
@[simp] theorem State.setRf_retryReq (s : State) (a hi lo x : Nat) : (s.setRf a hi lo x).retryReq = s.retryReq := rfl
@[simp] theorem State.setRf_c1Share (s : State) (a hi lo x : Nat) : (s.setRf a hi lo x).c1Share = s.c1Share := rfl
@[simp] theorem State.setRf_chkDirty (s : State) (a hi lo x : Nat) : (s.setRf a hi lo x).chkDirty = s.chkDirty := rfl
@[simp] theorem State.setRf_linkActs (s : State) (a hi lo x : Nat) : (s.setRf a hi lo x).linkActs = s.linkActs := rfl
@[simp] theorem State.setRf_stepFrom (s : State) (a hi lo x : Nat) : (s.setRf a hi lo x).stepFrom = s.stepFrom := rfl
@[simp] theorem State.setRf_stepMark (s : State) (a hi lo x : Nat) : (s.setRf a hi lo x).stepMark = s.stepMark := rfl
@[simp] theorem State.setRf_dmaHeld (s : State) (a hi lo x : Nat) : (s.setRf a hi lo x).dmaHeld = s.dmaHeld := rfl
@[simp] theorem State.setRf_held (s : State) (a hi lo x : Nat) : (s.setRf a hi lo x).held = s.held := rfl
@[simp] theorem State.setRf_lateTags (s : State) (a hi lo x : Nat) : (s.setRf a hi lo x).lateTags = s.lateTags := rfl
@[simp] theorem State.setRf_xspi (s : State) (a hi lo x : Nat) : (s.setRf a hi lo x).xspi = s.xspi := rfl
@[simp] theorem State.setRf_wtape (s : State) (a hi lo x : Nat) : (s.setRf a hi lo x).wtape = s.wtape := rfl
@[simp] theorem State.setRf_wtapeN (s : State) (a hi lo x : Nat) : (s.setRf a hi lo x).wtapeN = s.wtapeN := rfl
@[simp] theorem State.setRf_l2Old (s : State) (a hi lo x : Nat) : (s.setRf a hi lo x).l2Old = s.l2Old := rfl
@[simp] theorem State.setRf_elg (s : State) (a hi lo x : Nat) : (s.setRf a hi lo x).elg = s.elg := rfl
@[simp] theorem State.setRf_pmu (s : State) (a hi lo x : Nat) : (s.setRf a hi lo x).pmu = s.pmu := rfl
@[simp] theorem State.setRf_si (s : State) (a hi lo x : Nat) : (s.setRf a hi lo x).si = s.si := rfl
@[simp] theorem State.setRf_core_read (s : State) (a hi lo x : Nat) (i : CoreId) : (s.setRf a hi lo x).core i = s.core i := rfl
@[simp] theorem State.setRf_sr_read (s : State) (a hi lo x : Nat) (i : CoreId) (k : Nat) : (s.setRf a hi lo x).sr i k = s.sr i k := rfl
@[simp] theorem State.setRf_srf_read (s : State) (a hi lo x : Nat) (i : CoreId) (k p q : Nat) : (s.setRf a hi lo x).srf i k p q = s.srf i k p q := rfl
@[simp] theorem State.setRf_g_read (s : State) (a hi lo x : Nat) (i : CoreId) (t : GReg) : (s.setRf a hi lo x).g i t = s.g i t := rfl
@[simp] theorem State.setRf_f_read (s : State) (a hi lo x : Nat) (i : CoreId) (t : FReg) : (s.setRf a hi lo x).f i t = s.f i t := rfl
@[simp] theorem State.setRf_q_read (s : State) (a hi lo x : Nat) (i : CoreId) (t : QReg) : (s.setRf a hi lo x).q i t = s.q i t := rfl
@[simp] theorem State.setRf_pc_read (s : State) (a hi lo x : Nat) (i : CoreId) : (s.setRf a hi lo x).pc i = s.pc i := rfl
@[simp] theorem State.setRf_lvl_read (s : State) (a hi lo x : Nat) (i : CoreId) : (s.setRf a hi lo x).lvl i = s.lvl i := rfl
@[simp] theorem State.setRf_byte_read (s : State) (a hi lo x : Nat) (k : Nat) : (s.setRf a hi lo x).byte k = s.byte k := rfl
@[simp] theorem State.setRf_wrong_read (s : State) (a hi lo x : Nat) (k : Nat) : (s.setRf a hi lo x).wrong k = s.wrong k := rfl
@[simp] theorem State.setRf_vc_read (s : State) (a hi lo x : Nat) (y : CtxId) : (s.setRf a hi lo x).vc y = s.vc y := rfl
@[simp] theorem State.setRf_power_read (s : State) (a hi lo x : Nat)  : (s.setRf a hi lo x).power = s.power := rfl

@[simp] theorem State.setRb_pending (s : State) (a b : Nat) (v : Bool) : (s.setRb a b v).pending = s.pending := rfl
@[simp] theorem State.setRb_cores (s : State) (a b : Nat) (v : Bool) : (s.setRb a b v).cores = s.cores := rfl
@[simp] theorem State.setRb_mem (s : State) (a b : Nat) (v : Bool) : (s.setRb a b v).mem = s.mem := rfl
@[simp] theorem State.setRb_ecc (s : State) (a b : Nat) (v : Bool) : (s.setRb a b v).ecc = s.ecc := rfl
@[simp] theorem State.setRb_dramErr (s : State) (a b : Nat) (v : Bool) : (s.setRb a b v).dramErr = s.dramErr := rfl
@[simp] theorem State.setRb_ceWb (s : State) (a b : Nat) (v : Bool) : (s.setRb a b v).ceWb = s.ceWb := rfl
@[simp] theorem State.setRb_fresh (s : State) (a b : Nat) (v : Bool) : (s.setRb a b v).fresh = s.fresh := rfl
@[simp] theorem State.setRb_icuHeld (s : State) (a b : Nat) (v : Bool) : (s.setRb a b v).icuHeld = s.icuHeld := rfl
@[simp] theorem State.setRb_edges (s : State) (a b : Nat) (v : Bool) : (s.setRb a b v).edges = s.edges := rfl
@[simp] theorem State.setRb_tb (s : State) (a b : Nat) (v : Bool) : (s.setRb a b v).tb = s.tb := rfl
@[simp] theorem State.setRb_tbSub (s : State) (a b : Nat) (v : Bool) : (s.setRb a b v).tbSub = s.tbSub := rfl
@[simp] theorem State.setRb_adjPend (s : State) (a b : Nat) (v : Bool) : (s.setRb a b v).adjPend = s.adjPend := rfl
@[simp] theorem State.setRb_xclk (s : State) (a b : Nat) (v : Bool) : (s.setRb a b v).xclk = s.xclk := rfl
@[simp] theorem State.setRb_tmAcc (s : State) (a b : Nat) (v : Bool) : (s.setRb a b v).tmAcc = s.tmAcc := rfl
@[simp] theorem State.setRb_evrHeld (s : State) (a b : Nat) (v : Bool) : (s.setRb a b v).evrHeld = s.evrHeld := rfl
@[simp] theorem State.setRb_evoutBusy (s : State) (a b : Nat) (v : Bool) : (s.setRb a b v).evoutBusy = s.evoutBusy := rfl
@[simp] theorem State.setRb_evoutLvl (s : State) (a b : Nat) (v : Bool) : (s.setRb a b v).evoutLvl = s.evoutLvl := rfl
@[simp] theorem State.setRb_capDead (s : State) (a b : Nat) (v : Bool) : (s.setRb a b v).capDead = s.capDead := rfl
@[simp] theorem State.setRb_fillRun (s : State) (a b : Nat) (v : Bool) : (s.setRb a b v).fillRun = s.fillRun := rfl
@[simp] theorem State.setRb_ergSlots (s : State) (a b : Nat) (v : Bool) : (s.setRb a b v).ergSlots = s.ergSlots := rfl
@[simp] theorem State.setRb_scrubT0 (s : State) (a b : Nat) (v : Bool) : (s.setRb a b v).scrubT0 = s.scrubT0 := rfl
@[simp] theorem State.setRb_lapLate (s : State) (a b : Nat) (v : Bool) : (s.setRb a b v).lapLate = s.lapLate := rfl
@[simp] theorem State.setRb_vclkStop (s : State) (a b : Nat) (v : Bool) : (s.setRb a b v).vclkStop = s.vclkStop := rfl
@[simp] theorem State.setRb_dmcTraining (s : State) (a b : Nat) (v : Bool) : (s.setRb a b v).dmcTraining = s.dmcTraining := rfl
@[simp] theorem State.setRb_patrol (s : State) (a b : Nat) (v : Bool) : (s.setRb a b v).patrol = s.patrol := rfl
@[simp] theorem State.setRb_pwrfailN (s : State) (a b : Nat) (v : Bool) : (s.setRb a b v).pwrfailN = s.pwrfailN := rfl
@[simp] theorem State.setRb_cmNow (s : State) (a b : Nat) (v : Bool) : (s.setRb a b v).cmNow = s.cmNow := rfl
@[simp] theorem State.setRb_outst (s : State) (a b : Nat) (v : Bool) : (s.setRb a b v).outst = s.outst := rfl
@[simp] theorem State.setRb_linkTx (s : State) (a b : Nat) (v : Bool) : (s.setRb a b v).linkTx = s.linkTx := rfl
@[simp] theorem State.setRb_xacts (s : State) (a b : Nat) (v : Bool) : (s.setRb a b v).xacts = s.xacts := rfl
@[simp] theorem State.setRb_walkCache (s : State) (a b : Nat) (v : Bool) : (s.setRb a b v).walkCache = s.walkCache := rfl
@[simp] theorem State.setRb_walks (s : State) (a b : Nat) (v : Bool) : (s.setRb a b v).walks = s.walks := rfl
@[simp] theorem State.setRb_vseTlb (s : State) (a b : Nat) (v : Bool) : (s.setRb a b v).vseTlb = s.vseTlb := rfl
@[simp] theorem State.setRb_vctx (s : State) (a b : Nat) (v : Bool) : (s.setRb a b v).vctx = s.vctx := rfl
@[simp] theorem State.setRb_eau (s : State) (a b : Nat) (v : Bool) : (s.setRb a b v).eau = s.eau := rfl
@[simp] theorem State.setRb_stamps (s : State) (a b : Nat) (v : Bool) : (s.setRb a b v).stamps = s.stamps := rfl
@[simp] theorem State.setRb_pwr (s : State) (a b : Nat) (v : Bool) : (s.setRb a b v).pwr = s.pwr := rfl
@[simp] theorem State.setRb_pfFilter (s : State) (a b : Nat) (v : Bool) : (s.setRb a b v).pfFilter = s.pfFilter := rfl
@[simp] theorem State.setRb_elgCredit (s : State) (a b : Nat) (v : Bool) : (s.setRb a b v).elgCredit = s.elgCredit := rfl
@[simp] theorem State.setRb_elgStage (s : State) (a b : Nat) (v : Bool) : (s.setRb a b v).elgStage = s.elgStage := rfl
@[simp] theorem State.setRb_pfT0 (s : State) (a b : Nat) (v : Bool) : (s.setRb a b v).pfT0 = s.pfT0 := rfl
@[simp] theorem State.setRb_wakeReq (s : State) (a b : Nat) (v : Bool) : (s.setRb a b v).wakeReq = s.wakeReq := rfl
@[simp] theorem State.setRb_bypT0 (s : State) (a b : Nat) (v : Bool) : (s.setRb a b v).bypT0 = s.bypT0 := rfl
@[simp] theorem State.setRb_otp (s : State) (a b : Nat) (v : Bool) : (s.setRb a b v).otp = s.otp := rfl
@[simp] theorem State.setRb_nvm (s : State) (a b : Nat) (v : Bool) : (s.setRb a b v).nvm = s.nvm := rfl
@[simp] theorem State.setRb_boot (s : State) (a b : Nat) (v : Bool) : (s.setRb a b v).boot = s.boot := rfl
@[simp] theorem State.setRb_nvmOp (s : State) (a b : Nat) (v : Bool) : (s.setRb a b v).nvmOp = s.nvmOp := rfl
@[simp] theorem State.setRb_sceBank0 (s : State) (a b : Nat) (v : Bool) : (s.setRb a b v).sceBank0 = s.sceBank0 := rfl
@[simp] theorem State.setRb_sceBank1 (s : State) (a b : Nat) (v : Bool) : (s.setRb a b v).sceBank1 = s.sceBank1 := rfl
@[simp] theorem State.setRb_sce (s : State) (a b : Nat) (v : Bool) : (s.setRb a b v).sce = s.sce := rfl
@[simp] theorem State.setRb_c0 (s : State) (a b : Nat) (v : Bool) : (s.setRb a b v).c0 = s.c0 := rfl
@[simp] theorem State.setRb_mac (s : State) (a b : Nat) (v : Bool) : (s.setRb a b v).mac = s.mac := rfl
@[simp] theorem State.setRb_qciDebt (s : State) (a b : Nat) (v : Bool) : (s.setRb a b v).qciDebt = s.qciDebt := rfl
@[simp] theorem State.setRb_qciLast (s : State) (a b : Nat) (v : Bool) : (s.setRb a b v).qciLast = s.qciLast := rfl
@[simp] theorem State.setRb_frer (s : State) (a b : Nat) (v : Bool) : (s.setRb a b v).frer = s.frer := rfl
@[simp] theorem State.setRb_genSeq (s : State) (a b : Nat) (v : Bool) : (s.setRb a b v).genSeq = s.genSeq := rfl
@[simp] theorem State.setRb_can (s : State) (a b : Nat) (v : Bool) : (s.setRb a b v).can = s.can := rfl
@[simp] theorem State.setRb_uart (s : State) (a b : Nat) (v : Bool) : (s.setRb a b v).uart = s.uart := rfl
@[simp] theorem State.setRb_mvbWait (s : State) (a b : Nat) (v : Bool) : (s.setRb a b v).mvbWait = s.mvbWait := rfl
@[simp] theorem State.setRb_mvbRead (s : State) (a b : Nat) (v : Bool) : (s.setRb a b v).mvbRead = s.mvbRead := rfl
@[simp] theorem State.setRb_mvbSent (s : State) (a b : Nat) (v : Bool) : (s.setRb a b v).mvbSent = s.mvbSent := rfl
@[simp] theorem State.setRb_txSeq (s : State) (a b : Nat) (v : Bool) : (s.setRb a b v).txSeq = s.txSeq := rfl
@[simp] theorem State.setRb_retries (s : State) (a b : Nat) (v : Bool) : (s.setRb a b v).retries = s.retries := rfl
@[simp] theorem State.setRb_helloIn (s : State) (a b : Nat) (v : Bool) : (s.setRb a b v).helloIn = s.helloIn := rfl
@[simp] theorem State.setRb_ended (s : State) (a b : Nat) (v : Bool) : (s.setRb a b v).ended = s.ended := rfl
@[simp] theorem State.setRb_inHeld (s : State) (a b : Nat) (v : Bool) : (s.setRb a b v).inHeld = s.inHeld := rfl
@[simp] theorem State.setRb_mgmtHeld (s : State) (a b : Nat) (v : Bool) : (s.setRb a b v).mgmtHeld = s.mgmtHeld := rfl
@[simp] theorem State.setRb_helloSent (s : State) (a b : Nat) (v : Bool) : (s.setRb a b v).helloSent = s.helloSent := rfl
@[simp] theorem State.setRb_exchSent (s : State) (a b : Nat) (v : Bool) : (s.setRb a b v).exchSent = s.exchSent := rfl
@[simp] theorem State.setRb_ft (s : State) (a b : Nat) (v : Bool) : (s.setRb a b v).ft = s.ft := rfl
@[simp] theorem State.setRb_as (s : State) (a b : Nat) (v : Bool) : (s.setRb a b v).as = s.as := rfl
@[simp] theorem State.setRb_microWb (s : State) (a b : Nat) (v : Bool) : (s.setRb a b v).microWb = s.microWb := rfl
@[simp] theorem State.setRb_claimed (s : State) (a b : Nat) (v : Bool) : (s.setRb a b v).claimed = s.claimed := rfl
@[simp] theorem State.setRb_arb (s : State) (a b : Nat) (v : Bool) : (s.setRb a b v).arb = s.arb := rfl
@[simp] theorem State.setRb_retryReq (s : State) (a b : Nat) (v : Bool) : (s.setRb a b v).retryReq = s.retryReq := rfl
@[simp] theorem State.setRb_c1Share (s : State) (a b : Nat) (v : Bool) : (s.setRb a b v).c1Share = s.c1Share := rfl
@[simp] theorem State.setRb_chkDirty (s : State) (a b : Nat) (v : Bool) : (s.setRb a b v).chkDirty = s.chkDirty := rfl
@[simp] theorem State.setRb_linkActs (s : State) (a b : Nat) (v : Bool) : (s.setRb a b v).linkActs = s.linkActs := rfl
@[simp] theorem State.setRb_stepFrom (s : State) (a b : Nat) (v : Bool) : (s.setRb a b v).stepFrom = s.stepFrom := rfl
@[simp] theorem State.setRb_stepMark (s : State) (a b : Nat) (v : Bool) : (s.setRb a b v).stepMark = s.stepMark := rfl
@[simp] theorem State.setRb_dmaHeld (s : State) (a b : Nat) (v : Bool) : (s.setRb a b v).dmaHeld = s.dmaHeld := rfl
@[simp] theorem State.setRb_held (s : State) (a b : Nat) (v : Bool) : (s.setRb a b v).held = s.held := rfl
@[simp] theorem State.setRb_lateTags (s : State) (a b : Nat) (v : Bool) : (s.setRb a b v).lateTags = s.lateTags := rfl
@[simp] theorem State.setRb_xspi (s : State) (a b : Nat) (v : Bool) : (s.setRb a b v).xspi = s.xspi := rfl
@[simp] theorem State.setRb_wtape (s : State) (a b : Nat) (v : Bool) : (s.setRb a b v).wtape = s.wtape := rfl
@[simp] theorem State.setRb_wtapeN (s : State) (a b : Nat) (v : Bool) : (s.setRb a b v).wtapeN = s.wtapeN := rfl
@[simp] theorem State.setRb_l2Old (s : State) (a b : Nat) (v : Bool) : (s.setRb a b v).l2Old = s.l2Old := rfl
@[simp] theorem State.setRb_elg (s : State) (a b : Nat) (v : Bool) : (s.setRb a b v).elg = s.elg := rfl
@[simp] theorem State.setRb_pmu (s : State) (a b : Nat) (v : Bool) : (s.setRb a b v).pmu = s.pmu := rfl
@[simp] theorem State.setRb_si (s : State) (a b : Nat) (v : Bool) : (s.setRb a b v).si = s.si := rfl
@[simp] theorem State.setRb_core_read (s : State) (a b : Nat) (v : Bool) (i : CoreId) : (s.setRb a b v).core i = s.core i := rfl
@[simp] theorem State.setRb_sr_read (s : State) (a b : Nat) (v : Bool) (i : CoreId) (k : Nat) : (s.setRb a b v).sr i k = s.sr i k := rfl
@[simp] theorem State.setRb_srf_read (s : State) (a b : Nat) (v : Bool) (i : CoreId) (k p q : Nat) : (s.setRb a b v).srf i k p q = s.srf i k p q := rfl
@[simp] theorem State.setRb_g_read (s : State) (a b : Nat) (v : Bool) (i : CoreId) (t : GReg) : (s.setRb a b v).g i t = s.g i t := rfl
@[simp] theorem State.setRb_f_read (s : State) (a b : Nat) (v : Bool) (i : CoreId) (t : FReg) : (s.setRb a b v).f i t = s.f i t := rfl
@[simp] theorem State.setRb_q_read (s : State) (a b : Nat) (v : Bool) (i : CoreId) (t : QReg) : (s.setRb a b v).q i t = s.q i t := rfl
@[simp] theorem State.setRb_pc_read (s : State) (a b : Nat) (v : Bool) (i : CoreId) : (s.setRb a b v).pc i = s.pc i := rfl
@[simp] theorem State.setRb_lvl_read (s : State) (a b : Nat) (v : Bool) (i : CoreId) : (s.setRb a b v).lvl i = s.lvl i := rfl
@[simp] theorem State.setRb_byte_read (s : State) (a b : Nat) (v : Bool) (k : Nat) : (s.setRb a b v).byte k = s.byte k := rfl
@[simp] theorem State.setRb_wrong_read (s : State) (a b : Nat) (v : Bool) (k : Nat) : (s.setRb a b v).wrong k = s.wrong k := rfl
@[simp] theorem State.setRb_vc_read (s : State) (a b : Nat) (v : Bool) (y : CtxId) : (s.setRb a b v).vc y = s.vc y := rfl
@[simp] theorem State.setRb_power_read (s : State) (a b : Nat) (v : Bool)  : (s.setRb a b v).power = s.power := rfl

@[simp] theorem State.resetRegs_pending (s : State) (z : Nat → Bool) : (s.resetRegs z).pending = s.pending := rfl
@[simp] theorem State.resetRegs_cores (s : State) (z : Nat → Bool) : (s.resetRegs z).cores = s.cores := rfl
@[simp] theorem State.resetRegs_mem (s : State) (z : Nat → Bool) : (s.resetRegs z).mem = s.mem := rfl
@[simp] theorem State.resetRegs_ecc (s : State) (z : Nat → Bool) : (s.resetRegs z).ecc = s.ecc := rfl
@[simp] theorem State.resetRegs_dramErr (s : State) (z : Nat → Bool) : (s.resetRegs z).dramErr = s.dramErr := rfl
@[simp] theorem State.resetRegs_ceWb (s : State) (z : Nat → Bool) : (s.resetRegs z).ceWb = s.ceWb := rfl
@[simp] theorem State.resetRegs_fresh (s : State) (z : Nat → Bool) : (s.resetRegs z).fresh = s.fresh := rfl
@[simp] theorem State.resetRegs_icuHeld (s : State) (z : Nat → Bool) : (s.resetRegs z).icuHeld = s.icuHeld := rfl
@[simp] theorem State.resetRegs_edges (s : State) (z : Nat → Bool) : (s.resetRegs z).edges = s.edges := rfl
@[simp] theorem State.resetRegs_tb (s : State) (z : Nat → Bool) : (s.resetRegs z).tb = s.tb := rfl
@[simp] theorem State.resetRegs_tbSub (s : State) (z : Nat → Bool) : (s.resetRegs z).tbSub = s.tbSub := rfl
@[simp] theorem State.resetRegs_adjPend (s : State) (z : Nat → Bool) : (s.resetRegs z).adjPend = s.adjPend := rfl
@[simp] theorem State.resetRegs_xclk (s : State) (z : Nat → Bool) : (s.resetRegs z).xclk = s.xclk := rfl
@[simp] theorem State.resetRegs_tmAcc (s : State) (z : Nat → Bool) : (s.resetRegs z).tmAcc = s.tmAcc := rfl
@[simp] theorem State.resetRegs_evrHeld (s : State) (z : Nat → Bool) : (s.resetRegs z).evrHeld = s.evrHeld := rfl
@[simp] theorem State.resetRegs_evoutBusy (s : State) (z : Nat → Bool) : (s.resetRegs z).evoutBusy = s.evoutBusy := rfl
@[simp] theorem State.resetRegs_evoutLvl (s : State) (z : Nat → Bool) : (s.resetRegs z).evoutLvl = s.evoutLvl := rfl
@[simp] theorem State.resetRegs_capDead (s : State) (z : Nat → Bool) : (s.resetRegs z).capDead = s.capDead := rfl
@[simp] theorem State.resetRegs_fillRun (s : State) (z : Nat → Bool) : (s.resetRegs z).fillRun = s.fillRun := rfl
@[simp] theorem State.resetRegs_ergSlots (s : State) (z : Nat → Bool) : (s.resetRegs z).ergSlots = s.ergSlots := rfl
@[simp] theorem State.resetRegs_scrubT0 (s : State) (z : Nat → Bool) : (s.resetRegs z).scrubT0 = s.scrubT0 := rfl
@[simp] theorem State.resetRegs_lapLate (s : State) (z : Nat → Bool) : (s.resetRegs z).lapLate = s.lapLate := rfl
@[simp] theorem State.resetRegs_vclkStop (s : State) (z : Nat → Bool) : (s.resetRegs z).vclkStop = s.vclkStop := rfl
@[simp] theorem State.resetRegs_dmcTraining (s : State) (z : Nat → Bool) : (s.resetRegs z).dmcTraining = s.dmcTraining := rfl
@[simp] theorem State.resetRegs_patrol (s : State) (z : Nat → Bool) : (s.resetRegs z).patrol = s.patrol := rfl
@[simp] theorem State.resetRegs_pwrfailN (s : State) (z : Nat → Bool) : (s.resetRegs z).pwrfailN = s.pwrfailN := rfl
@[simp] theorem State.resetRegs_cmNow (s : State) (z : Nat → Bool) : (s.resetRegs z).cmNow = s.cmNow := rfl
@[simp] theorem State.resetRegs_outst (s : State) (z : Nat → Bool) : (s.resetRegs z).outst = s.outst := rfl
@[simp] theorem State.resetRegs_linkTx (s : State) (z : Nat → Bool) : (s.resetRegs z).linkTx = s.linkTx := rfl
@[simp] theorem State.resetRegs_xacts (s : State) (z : Nat → Bool) : (s.resetRegs z).xacts = s.xacts := rfl
@[simp] theorem State.resetRegs_walkCache (s : State) (z : Nat → Bool) : (s.resetRegs z).walkCache = s.walkCache := rfl
@[simp] theorem State.resetRegs_walks (s : State) (z : Nat → Bool) : (s.resetRegs z).walks = s.walks := rfl
@[simp] theorem State.resetRegs_vseTlb (s : State) (z : Nat → Bool) : (s.resetRegs z).vseTlb = s.vseTlb := rfl
@[simp] theorem State.resetRegs_vctx (s : State) (z : Nat → Bool) : (s.resetRegs z).vctx = s.vctx := rfl
@[simp] theorem State.resetRegs_eau (s : State) (z : Nat → Bool) : (s.resetRegs z).eau = s.eau := rfl
@[simp] theorem State.resetRegs_stamps (s : State) (z : Nat → Bool) : (s.resetRegs z).stamps = s.stamps := rfl
@[simp] theorem State.resetRegs_pwr (s : State) (z : Nat → Bool) : (s.resetRegs z).pwr = s.pwr := rfl
@[simp] theorem State.resetRegs_pfFilter (s : State) (z : Nat → Bool) : (s.resetRegs z).pfFilter = s.pfFilter := rfl
@[simp] theorem State.resetRegs_elgCredit (s : State) (z : Nat → Bool) : (s.resetRegs z).elgCredit = s.elgCredit := rfl
@[simp] theorem State.resetRegs_elgStage (s : State) (z : Nat → Bool) : (s.resetRegs z).elgStage = s.elgStage := rfl
@[simp] theorem State.resetRegs_pfT0 (s : State) (z : Nat → Bool) : (s.resetRegs z).pfT0 = s.pfT0 := rfl
@[simp] theorem State.resetRegs_wakeReq (s : State) (z : Nat → Bool) : (s.resetRegs z).wakeReq = s.wakeReq := rfl
@[simp] theorem State.resetRegs_bypT0 (s : State) (z : Nat → Bool) : (s.resetRegs z).bypT0 = s.bypT0 := rfl
@[simp] theorem State.resetRegs_otp (s : State) (z : Nat → Bool) : (s.resetRegs z).otp = s.otp := rfl
@[simp] theorem State.resetRegs_nvm (s : State) (z : Nat → Bool) : (s.resetRegs z).nvm = s.nvm := rfl
@[simp] theorem State.resetRegs_boot (s : State) (z : Nat → Bool) : (s.resetRegs z).boot = s.boot := rfl
@[simp] theorem State.resetRegs_nvmOp (s : State) (z : Nat → Bool) : (s.resetRegs z).nvmOp = s.nvmOp := rfl
@[simp] theorem State.resetRegs_sceBank0 (s : State) (z : Nat → Bool) : (s.resetRegs z).sceBank0 = s.sceBank0 := rfl
@[simp] theorem State.resetRegs_sceBank1 (s : State) (z : Nat → Bool) : (s.resetRegs z).sceBank1 = s.sceBank1 := rfl
@[simp] theorem State.resetRegs_sce (s : State) (z : Nat → Bool) : (s.resetRegs z).sce = s.sce := rfl
@[simp] theorem State.resetRegs_c0 (s : State) (z : Nat → Bool) : (s.resetRegs z).c0 = s.c0 := rfl
@[simp] theorem State.resetRegs_mac (s : State) (z : Nat → Bool) : (s.resetRegs z).mac = s.mac := rfl
@[simp] theorem State.resetRegs_qciDebt (s : State) (z : Nat → Bool) : (s.resetRegs z).qciDebt = s.qciDebt := rfl
@[simp] theorem State.resetRegs_qciLast (s : State) (z : Nat → Bool) : (s.resetRegs z).qciLast = s.qciLast := rfl
@[simp] theorem State.resetRegs_frer (s : State) (z : Nat → Bool) : (s.resetRegs z).frer = s.frer := rfl
@[simp] theorem State.resetRegs_genSeq (s : State) (z : Nat → Bool) : (s.resetRegs z).genSeq = s.genSeq := rfl
@[simp] theorem State.resetRegs_can (s : State) (z : Nat → Bool) : (s.resetRegs z).can = s.can := rfl
@[simp] theorem State.resetRegs_uart (s : State) (z : Nat → Bool) : (s.resetRegs z).uart = s.uart := rfl
@[simp] theorem State.resetRegs_mvbWait (s : State) (z : Nat → Bool) : (s.resetRegs z).mvbWait = s.mvbWait := rfl
@[simp] theorem State.resetRegs_mvbRead (s : State) (z : Nat → Bool) : (s.resetRegs z).mvbRead = s.mvbRead := rfl
@[simp] theorem State.resetRegs_mvbSent (s : State) (z : Nat → Bool) : (s.resetRegs z).mvbSent = s.mvbSent := rfl
@[simp] theorem State.resetRegs_txSeq (s : State) (z : Nat → Bool) : (s.resetRegs z).txSeq = s.txSeq := rfl
@[simp] theorem State.resetRegs_retries (s : State) (z : Nat → Bool) : (s.resetRegs z).retries = s.retries := rfl
@[simp] theorem State.resetRegs_helloIn (s : State) (z : Nat → Bool) : (s.resetRegs z).helloIn = s.helloIn := rfl
@[simp] theorem State.resetRegs_ended (s : State) (z : Nat → Bool) : (s.resetRegs z).ended = s.ended := rfl
@[simp] theorem State.resetRegs_inHeld (s : State) (z : Nat → Bool) : (s.resetRegs z).inHeld = s.inHeld := rfl
@[simp] theorem State.resetRegs_mgmtHeld (s : State) (z : Nat → Bool) : (s.resetRegs z).mgmtHeld = s.mgmtHeld := rfl
@[simp] theorem State.resetRegs_helloSent (s : State) (z : Nat → Bool) : (s.resetRegs z).helloSent = s.helloSent := rfl
@[simp] theorem State.resetRegs_exchSent (s : State) (z : Nat → Bool) : (s.resetRegs z).exchSent = s.exchSent := rfl
@[simp] theorem State.resetRegs_ft (s : State) (z : Nat → Bool) : (s.resetRegs z).ft = s.ft := rfl
@[simp] theorem State.resetRegs_as (s : State) (z : Nat → Bool) : (s.resetRegs z).as = s.as := rfl
@[simp] theorem State.resetRegs_microWb (s : State) (z : Nat → Bool) : (s.resetRegs z).microWb = s.microWb := rfl
@[simp] theorem State.resetRegs_claimed (s : State) (z : Nat → Bool) : (s.resetRegs z).claimed = s.claimed := rfl
@[simp] theorem State.resetRegs_arb (s : State) (z : Nat → Bool) : (s.resetRegs z).arb = s.arb := rfl
@[simp] theorem State.resetRegs_retryReq (s : State) (z : Nat → Bool) : (s.resetRegs z).retryReq = s.retryReq := rfl
@[simp] theorem State.resetRegs_c1Share (s : State) (z : Nat → Bool) : (s.resetRegs z).c1Share = s.c1Share := rfl
@[simp] theorem State.resetRegs_chkDirty (s : State) (z : Nat → Bool) : (s.resetRegs z).chkDirty = s.chkDirty := rfl
@[simp] theorem State.resetRegs_linkActs (s : State) (z : Nat → Bool) : (s.resetRegs z).linkActs = s.linkActs := rfl
@[simp] theorem State.resetRegs_stepFrom (s : State) (z : Nat → Bool) : (s.resetRegs z).stepFrom = s.stepFrom := rfl
@[simp] theorem State.resetRegs_stepMark (s : State) (z : Nat → Bool) : (s.resetRegs z).stepMark = s.stepMark := rfl
@[simp] theorem State.resetRegs_dmaHeld (s : State) (z : Nat → Bool) : (s.resetRegs z).dmaHeld = s.dmaHeld := rfl
@[simp] theorem State.resetRegs_held (s : State) (z : Nat → Bool) : (s.resetRegs z).held = s.held := rfl
@[simp] theorem State.resetRegs_lateTags (s : State) (z : Nat → Bool) : (s.resetRegs z).lateTags = s.lateTags := rfl
@[simp] theorem State.resetRegs_xspi (s : State) (z : Nat → Bool) : (s.resetRegs z).xspi = s.xspi := rfl
@[simp] theorem State.resetRegs_wtape (s : State) (z : Nat → Bool) : (s.resetRegs z).wtape = s.wtape := rfl
@[simp] theorem State.resetRegs_wtapeN (s : State) (z : Nat → Bool) : (s.resetRegs z).wtapeN = s.wtapeN := rfl
@[simp] theorem State.resetRegs_l2Old (s : State) (z : Nat → Bool) : (s.resetRegs z).l2Old = s.l2Old := rfl
@[simp] theorem State.resetRegs_elg (s : State) (z : Nat → Bool) : (s.resetRegs z).elg = s.elg := rfl
@[simp] theorem State.resetRegs_pmu (s : State) (z : Nat → Bool) : (s.resetRegs z).pmu = s.pmu := rfl
@[simp] theorem State.resetRegs_si (s : State) (z : Nat → Bool) : (s.resetRegs z).si = s.si := rfl
@[simp] theorem State.resetRegs_core_read (s : State) (z : Nat → Bool) (i : CoreId) : (s.resetRegs z).core i = s.core i := rfl
@[simp] theorem State.resetRegs_sr_read (s : State) (z : Nat → Bool) (i : CoreId) (k : Nat) : (s.resetRegs z).sr i k = s.sr i k := rfl
@[simp] theorem State.resetRegs_srf_read (s : State) (z : Nat → Bool) (i : CoreId) (k p q : Nat) : (s.resetRegs z).srf i k p q = s.srf i k p q := rfl
@[simp] theorem State.resetRegs_g_read (s : State) (z : Nat → Bool) (i : CoreId) (t : GReg) : (s.resetRegs z).g i t = s.g i t := rfl
@[simp] theorem State.resetRegs_f_read (s : State) (z : Nat → Bool) (i : CoreId) (t : FReg) : (s.resetRegs z).f i t = s.f i t := rfl
@[simp] theorem State.resetRegs_q_read (s : State) (z : Nat → Bool) (i : CoreId) (t : QReg) : (s.resetRegs z).q i t = s.q i t := rfl
@[simp] theorem State.resetRegs_pc_read (s : State) (z : Nat → Bool) (i : CoreId) : (s.resetRegs z).pc i = s.pc i := rfl
@[simp] theorem State.resetRegs_lvl_read (s : State) (z : Nat → Bool) (i : CoreId) : (s.resetRegs z).lvl i = s.lvl i := rfl
@[simp] theorem State.resetRegs_byte_read (s : State) (z : Nat → Bool) (k : Nat) : (s.resetRegs z).byte k = s.byte k := rfl
@[simp] theorem State.resetRegs_wrong_read (s : State) (z : Nat → Bool) (k : Nat) : (s.resetRegs z).wrong k = s.wrong k := rfl
@[simp] theorem State.resetRegs_vc_read (s : State) (z : Nat → Bool) (y : CtxId) : (s.resetRegs z).vc y = s.vc y := rfl
@[simp] theorem State.resetRegs_power_read (s : State) (z : Nat → Bool)  : (s.resetRegs z).power = s.power := rfl

@[simp] theorem State.setCore_pending (s : State) (c : CoreId) (z : Core) : (s.setCore c z).pending = s.pending := rfl
@[simp] theorem State.setCore_regs (s : State) (c : CoreId) (z : Core) : (s.setCore c z).regs = s.regs := rfl
@[simp] theorem State.setCore_mem (s : State) (c : CoreId) (z : Core) : (s.setCore c z).mem = s.mem := rfl
@[simp] theorem State.setCore_ecc (s : State) (c : CoreId) (z : Core) : (s.setCore c z).ecc = s.ecc := rfl
@[simp] theorem State.setCore_dramErr (s : State) (c : CoreId) (z : Core) : (s.setCore c z).dramErr = s.dramErr := rfl
@[simp] theorem State.setCore_ceWb (s : State) (c : CoreId) (z : Core) : (s.setCore c z).ceWb = s.ceWb := rfl
@[simp] theorem State.setCore_fresh (s : State) (c : CoreId) (z : Core) : (s.setCore c z).fresh = s.fresh := rfl
@[simp] theorem State.setCore_icuHeld (s : State) (c : CoreId) (z : Core) : (s.setCore c z).icuHeld = s.icuHeld := rfl
@[simp] theorem State.setCore_edges (s : State) (c : CoreId) (z : Core) : (s.setCore c z).edges = s.edges := rfl
@[simp] theorem State.setCore_tb (s : State) (c : CoreId) (z : Core) : (s.setCore c z).tb = s.tb := rfl
@[simp] theorem State.setCore_tbSub (s : State) (c : CoreId) (z : Core) : (s.setCore c z).tbSub = s.tbSub := rfl
@[simp] theorem State.setCore_adjPend (s : State) (c : CoreId) (z : Core) : (s.setCore c z).adjPend = s.adjPend := rfl
@[simp] theorem State.setCore_xclk (s : State) (c : CoreId) (z : Core) : (s.setCore c z).xclk = s.xclk := rfl
@[simp] theorem State.setCore_tmAcc (s : State) (c : CoreId) (z : Core) : (s.setCore c z).tmAcc = s.tmAcc := rfl
@[simp] theorem State.setCore_evrHeld (s : State) (c : CoreId) (z : Core) : (s.setCore c z).evrHeld = s.evrHeld := rfl
@[simp] theorem State.setCore_evoutBusy (s : State) (c : CoreId) (z : Core) : (s.setCore c z).evoutBusy = s.evoutBusy := rfl
@[simp] theorem State.setCore_evoutLvl (s : State) (c : CoreId) (z : Core) : (s.setCore c z).evoutLvl = s.evoutLvl := rfl
@[simp] theorem State.setCore_capDead (s : State) (c : CoreId) (z : Core) : (s.setCore c z).capDead = s.capDead := rfl
@[simp] theorem State.setCore_fillRun (s : State) (c : CoreId) (z : Core) : (s.setCore c z).fillRun = s.fillRun := rfl
@[simp] theorem State.setCore_ergSlots (s : State) (c : CoreId) (z : Core) : (s.setCore c z).ergSlots = s.ergSlots := rfl
@[simp] theorem State.setCore_scrubT0 (s : State) (c : CoreId) (z : Core) : (s.setCore c z).scrubT0 = s.scrubT0 := rfl
@[simp] theorem State.setCore_lapLate (s : State) (c : CoreId) (z : Core) : (s.setCore c z).lapLate = s.lapLate := rfl
@[simp] theorem State.setCore_vclkStop (s : State) (c : CoreId) (z : Core) : (s.setCore c z).vclkStop = s.vclkStop := rfl
@[simp] theorem State.setCore_dmcTraining (s : State) (c : CoreId) (z : Core) : (s.setCore c z).dmcTraining = s.dmcTraining := rfl
@[simp] theorem State.setCore_patrol (s : State) (c : CoreId) (z : Core) : (s.setCore c z).patrol = s.patrol := rfl
@[simp] theorem State.setCore_pwrfailN (s : State) (c : CoreId) (z : Core) : (s.setCore c z).pwrfailN = s.pwrfailN := rfl
@[simp] theorem State.setCore_cmNow (s : State) (c : CoreId) (z : Core) : (s.setCore c z).cmNow = s.cmNow := rfl
@[simp] theorem State.setCore_outst (s : State) (c : CoreId) (z : Core) : (s.setCore c z).outst = s.outst := rfl
@[simp] theorem State.setCore_linkTx (s : State) (c : CoreId) (z : Core) : (s.setCore c z).linkTx = s.linkTx := rfl
@[simp] theorem State.setCore_xacts (s : State) (c : CoreId) (z : Core) : (s.setCore c z).xacts = s.xacts := rfl
@[simp] theorem State.setCore_walkCache (s : State) (c : CoreId) (z : Core) : (s.setCore c z).walkCache = s.walkCache := rfl
@[simp] theorem State.setCore_walks (s : State) (c : CoreId) (z : Core) : (s.setCore c z).walks = s.walks := rfl
@[simp] theorem State.setCore_vseTlb (s : State) (c : CoreId) (z : Core) : (s.setCore c z).vseTlb = s.vseTlb := rfl
@[simp] theorem State.setCore_vctx (s : State) (c : CoreId) (z : Core) : (s.setCore c z).vctx = s.vctx := rfl
@[simp] theorem State.setCore_eau (s : State) (c : CoreId) (z : Core) : (s.setCore c z).eau = s.eau := rfl
@[simp] theorem State.setCore_stamps (s : State) (c : CoreId) (z : Core) : (s.setCore c z).stamps = s.stamps := rfl
@[simp] theorem State.setCore_pwr (s : State) (c : CoreId) (z : Core) : (s.setCore c z).pwr = s.pwr := rfl
@[simp] theorem State.setCore_pfFilter (s : State) (c : CoreId) (z : Core) : (s.setCore c z).pfFilter = s.pfFilter := rfl
@[simp] theorem State.setCore_elgCredit (s : State) (c : CoreId) (z : Core) : (s.setCore c z).elgCredit = s.elgCredit := rfl
@[simp] theorem State.setCore_elgStage (s : State) (c : CoreId) (z : Core) : (s.setCore c z).elgStage = s.elgStage := rfl
@[simp] theorem State.setCore_pfT0 (s : State) (c : CoreId) (z : Core) : (s.setCore c z).pfT0 = s.pfT0 := rfl
@[simp] theorem State.setCore_wakeReq (s : State) (c : CoreId) (z : Core) : (s.setCore c z).wakeReq = s.wakeReq := rfl
@[simp] theorem State.setCore_bypT0 (s : State) (c : CoreId) (z : Core) : (s.setCore c z).bypT0 = s.bypT0 := rfl
@[simp] theorem State.setCore_otp (s : State) (c : CoreId) (z : Core) : (s.setCore c z).otp = s.otp := rfl
@[simp] theorem State.setCore_nvm (s : State) (c : CoreId) (z : Core) : (s.setCore c z).nvm = s.nvm := rfl
@[simp] theorem State.setCore_boot (s : State) (c : CoreId) (z : Core) : (s.setCore c z).boot = s.boot := rfl
@[simp] theorem State.setCore_nvmOp (s : State) (c : CoreId) (z : Core) : (s.setCore c z).nvmOp = s.nvmOp := rfl
@[simp] theorem State.setCore_sceBank0 (s : State) (c : CoreId) (z : Core) : (s.setCore c z).sceBank0 = s.sceBank0 := rfl
@[simp] theorem State.setCore_sceBank1 (s : State) (c : CoreId) (z : Core) : (s.setCore c z).sceBank1 = s.sceBank1 := rfl
@[simp] theorem State.setCore_sce (s : State) (c : CoreId) (z : Core) : (s.setCore c z).sce = s.sce := rfl
@[simp] theorem State.setCore_c0 (s : State) (c : CoreId) (z : Core) : (s.setCore c z).c0 = s.c0 := rfl
@[simp] theorem State.setCore_mac (s : State) (c : CoreId) (z : Core) : (s.setCore c z).mac = s.mac := rfl
@[simp] theorem State.setCore_qciDebt (s : State) (c : CoreId) (z : Core) : (s.setCore c z).qciDebt = s.qciDebt := rfl
@[simp] theorem State.setCore_qciLast (s : State) (c : CoreId) (z : Core) : (s.setCore c z).qciLast = s.qciLast := rfl
@[simp] theorem State.setCore_frer (s : State) (c : CoreId) (z : Core) : (s.setCore c z).frer = s.frer := rfl
@[simp] theorem State.setCore_genSeq (s : State) (c : CoreId) (z : Core) : (s.setCore c z).genSeq = s.genSeq := rfl
@[simp] theorem State.setCore_can (s : State) (c : CoreId) (z : Core) : (s.setCore c z).can = s.can := rfl
@[simp] theorem State.setCore_uart (s : State) (c : CoreId) (z : Core) : (s.setCore c z).uart = s.uart := rfl
@[simp] theorem State.setCore_mvbWait (s : State) (c : CoreId) (z : Core) : (s.setCore c z).mvbWait = s.mvbWait := rfl
@[simp] theorem State.setCore_mvbRead (s : State) (c : CoreId) (z : Core) : (s.setCore c z).mvbRead = s.mvbRead := rfl
@[simp] theorem State.setCore_mvbSent (s : State) (c : CoreId) (z : Core) : (s.setCore c z).mvbSent = s.mvbSent := rfl
@[simp] theorem State.setCore_txSeq (s : State) (c : CoreId) (z : Core) : (s.setCore c z).txSeq = s.txSeq := rfl
@[simp] theorem State.setCore_retries (s : State) (c : CoreId) (z : Core) : (s.setCore c z).retries = s.retries := rfl
@[simp] theorem State.setCore_helloIn (s : State) (c : CoreId) (z : Core) : (s.setCore c z).helloIn = s.helloIn := rfl
@[simp] theorem State.setCore_ended (s : State) (c : CoreId) (z : Core) : (s.setCore c z).ended = s.ended := rfl
@[simp] theorem State.setCore_inHeld (s : State) (c : CoreId) (z : Core) : (s.setCore c z).inHeld = s.inHeld := rfl
@[simp] theorem State.setCore_mgmtHeld (s : State) (c : CoreId) (z : Core) : (s.setCore c z).mgmtHeld = s.mgmtHeld := rfl
@[simp] theorem State.setCore_helloSent (s : State) (c : CoreId) (z : Core) : (s.setCore c z).helloSent = s.helloSent := rfl
@[simp] theorem State.setCore_exchSent (s : State) (c : CoreId) (z : Core) : (s.setCore c z).exchSent = s.exchSent := rfl
@[simp] theorem State.setCore_ft (s : State) (c : CoreId) (z : Core) : (s.setCore c z).ft = s.ft := rfl
@[simp] theorem State.setCore_as (s : State) (c : CoreId) (z : Core) : (s.setCore c z).as = s.as := rfl
@[simp] theorem State.setCore_microWb (s : State) (c : CoreId) (z : Core) : (s.setCore c z).microWb = s.microWb := rfl
@[simp] theorem State.setCore_claimed (s : State) (c : CoreId) (z : Core) : (s.setCore c z).claimed = s.claimed := rfl
@[simp] theorem State.setCore_arb (s : State) (c : CoreId) (z : Core) : (s.setCore c z).arb = s.arb := rfl
@[simp] theorem State.setCore_retryReq (s : State) (c : CoreId) (z : Core) : (s.setCore c z).retryReq = s.retryReq := rfl
@[simp] theorem State.setCore_c1Share (s : State) (c : CoreId) (z : Core) : (s.setCore c z).c1Share = s.c1Share := rfl
@[simp] theorem State.setCore_chkDirty (s : State) (c : CoreId) (z : Core) : (s.setCore c z).chkDirty = s.chkDirty := rfl
@[simp] theorem State.setCore_linkActs (s : State) (c : CoreId) (z : Core) : (s.setCore c z).linkActs = s.linkActs := rfl
@[simp] theorem State.setCore_stepFrom (s : State) (c : CoreId) (z : Core) : (s.setCore c z).stepFrom = s.stepFrom := rfl
@[simp] theorem State.setCore_stepMark (s : State) (c : CoreId) (z : Core) : (s.setCore c z).stepMark = s.stepMark := rfl
@[simp] theorem State.setCore_dmaHeld (s : State) (c : CoreId) (z : Core) : (s.setCore c z).dmaHeld = s.dmaHeld := rfl
@[simp] theorem State.setCore_held (s : State) (c : CoreId) (z : Core) : (s.setCore c z).held = s.held := rfl
@[simp] theorem State.setCore_lateTags (s : State) (c : CoreId) (z : Core) : (s.setCore c z).lateTags = s.lateTags := rfl
@[simp] theorem State.setCore_xspi (s : State) (c : CoreId) (z : Core) : (s.setCore c z).xspi = s.xspi := rfl
@[simp] theorem State.setCore_wtape (s : State) (c : CoreId) (z : Core) : (s.setCore c z).wtape = s.wtape := rfl
@[simp] theorem State.setCore_wtapeN (s : State) (c : CoreId) (z : Core) : (s.setCore c z).wtapeN = s.wtapeN := rfl
@[simp] theorem State.setCore_l2Old (s : State) (c : CoreId) (z : Core) : (s.setCore c z).l2Old = s.l2Old := rfl
@[simp] theorem State.setCore_elg (s : State) (c : CoreId) (z : Core) : (s.setCore c z).elg = s.elg := rfl
@[simp] theorem State.setCore_pmu (s : State) (c : CoreId) (z : Core) : (s.setCore c z).pmu = s.pmu := rfl
@[simp] theorem State.setCore_si (s : State) (c : CoreId) (z : Core) : (s.setCore c z).si = s.si := rfl
@[simp] theorem State.setCore_reg_read (s : State) (c : CoreId) (z : Core) (k : Nat) : (s.setCore c z).reg k = s.reg k := rfl
@[simp] theorem State.setCore_rf_read (s : State) (c : CoreId) (z : Core) (k p q : Nat) : (s.setCore c z).rf k p q = s.rf k p q := rfl
@[simp] theorem State.setCore_rb_read (s : State) (c : CoreId) (z : Core) (k p : Nat) : (s.setCore c z).rb k p = s.rb k p := rfl
@[simp] theorem State.setCore_reg64_read (s : State) (c : CoreId) (z : Core) (k p : Nat) : (s.setCore c z).reg64 k p = s.reg64 k p := rfl
@[simp] theorem State.setCore_byte_read (s : State) (c : CoreId) (z : Core) (k : Nat) : (s.setCore c z).byte k = s.byte k := rfl
@[simp] theorem State.setCore_wrong_read (s : State) (c : CoreId) (z : Core) (k : Nat) : (s.setCore c z).wrong k = s.wrong k := rfl
@[simp] theorem State.setCore_vc_read (s : State) (c : CoreId) (z : Core) (y : CtxId) : (s.setCore c z).vc y = s.vc y := rfl
@[simp] theorem State.setCore_power_read (s : State) (c : CoreId) (z : Core)  : (s.setCore c z).power = s.power := rfl

@[simp] theorem State.modCore_pending (s : State) (c : CoreId) (z : Core → Core) : (s.modCore c z).pending = s.pending := rfl
@[simp] theorem State.modCore_regs (s : State) (c : CoreId) (z : Core → Core) : (s.modCore c z).regs = s.regs := rfl
@[simp] theorem State.modCore_mem (s : State) (c : CoreId) (z : Core → Core) : (s.modCore c z).mem = s.mem := rfl
@[simp] theorem State.modCore_ecc (s : State) (c : CoreId) (z : Core → Core) : (s.modCore c z).ecc = s.ecc := rfl
@[simp] theorem State.modCore_dramErr (s : State) (c : CoreId) (z : Core → Core) : (s.modCore c z).dramErr = s.dramErr := rfl
@[simp] theorem State.modCore_ceWb (s : State) (c : CoreId) (z : Core → Core) : (s.modCore c z).ceWb = s.ceWb := rfl
@[simp] theorem State.modCore_fresh (s : State) (c : CoreId) (z : Core → Core) : (s.modCore c z).fresh = s.fresh := rfl
@[simp] theorem State.modCore_icuHeld (s : State) (c : CoreId) (z : Core → Core) : (s.modCore c z).icuHeld = s.icuHeld := rfl
@[simp] theorem State.modCore_edges (s : State) (c : CoreId) (z : Core → Core) : (s.modCore c z).edges = s.edges := rfl
@[simp] theorem State.modCore_tb (s : State) (c : CoreId) (z : Core → Core) : (s.modCore c z).tb = s.tb := rfl
@[simp] theorem State.modCore_tbSub (s : State) (c : CoreId) (z : Core → Core) : (s.modCore c z).tbSub = s.tbSub := rfl
@[simp] theorem State.modCore_adjPend (s : State) (c : CoreId) (z : Core → Core) : (s.modCore c z).adjPend = s.adjPend := rfl
@[simp] theorem State.modCore_xclk (s : State) (c : CoreId) (z : Core → Core) : (s.modCore c z).xclk = s.xclk := rfl
@[simp] theorem State.modCore_tmAcc (s : State) (c : CoreId) (z : Core → Core) : (s.modCore c z).tmAcc = s.tmAcc := rfl
@[simp] theorem State.modCore_evrHeld (s : State) (c : CoreId) (z : Core → Core) : (s.modCore c z).evrHeld = s.evrHeld := rfl
@[simp] theorem State.modCore_evoutBusy (s : State) (c : CoreId) (z : Core → Core) : (s.modCore c z).evoutBusy = s.evoutBusy := rfl
@[simp] theorem State.modCore_evoutLvl (s : State) (c : CoreId) (z : Core → Core) : (s.modCore c z).evoutLvl = s.evoutLvl := rfl
@[simp] theorem State.modCore_capDead (s : State) (c : CoreId) (z : Core → Core) : (s.modCore c z).capDead = s.capDead := rfl
@[simp] theorem State.modCore_fillRun (s : State) (c : CoreId) (z : Core → Core) : (s.modCore c z).fillRun = s.fillRun := rfl
@[simp] theorem State.modCore_ergSlots (s : State) (c : CoreId) (z : Core → Core) : (s.modCore c z).ergSlots = s.ergSlots := rfl
@[simp] theorem State.modCore_scrubT0 (s : State) (c : CoreId) (z : Core → Core) : (s.modCore c z).scrubT0 = s.scrubT0 := rfl
@[simp] theorem State.modCore_lapLate (s : State) (c : CoreId) (z : Core → Core) : (s.modCore c z).lapLate = s.lapLate := rfl
@[simp] theorem State.modCore_vclkStop (s : State) (c : CoreId) (z : Core → Core) : (s.modCore c z).vclkStop = s.vclkStop := rfl
@[simp] theorem State.modCore_dmcTraining (s : State) (c : CoreId) (z : Core → Core) : (s.modCore c z).dmcTraining = s.dmcTraining := rfl
@[simp] theorem State.modCore_patrol (s : State) (c : CoreId) (z : Core → Core) : (s.modCore c z).patrol = s.patrol := rfl
@[simp] theorem State.modCore_pwrfailN (s : State) (c : CoreId) (z : Core → Core) : (s.modCore c z).pwrfailN = s.pwrfailN := rfl
@[simp] theorem State.modCore_cmNow (s : State) (c : CoreId) (z : Core → Core) : (s.modCore c z).cmNow = s.cmNow := rfl
@[simp] theorem State.modCore_outst (s : State) (c : CoreId) (z : Core → Core) : (s.modCore c z).outst = s.outst := rfl
@[simp] theorem State.modCore_linkTx (s : State) (c : CoreId) (z : Core → Core) : (s.modCore c z).linkTx = s.linkTx := rfl
@[simp] theorem State.modCore_xacts (s : State) (c : CoreId) (z : Core → Core) : (s.modCore c z).xacts = s.xacts := rfl
@[simp] theorem State.modCore_walkCache (s : State) (c : CoreId) (z : Core → Core) : (s.modCore c z).walkCache = s.walkCache := rfl
@[simp] theorem State.modCore_walks (s : State) (c : CoreId) (z : Core → Core) : (s.modCore c z).walks = s.walks := rfl
@[simp] theorem State.modCore_vseTlb (s : State) (c : CoreId) (z : Core → Core) : (s.modCore c z).vseTlb = s.vseTlb := rfl
@[simp] theorem State.modCore_vctx (s : State) (c : CoreId) (z : Core → Core) : (s.modCore c z).vctx = s.vctx := rfl
@[simp] theorem State.modCore_eau (s : State) (c : CoreId) (z : Core → Core) : (s.modCore c z).eau = s.eau := rfl
@[simp] theorem State.modCore_stamps (s : State) (c : CoreId) (z : Core → Core) : (s.modCore c z).stamps = s.stamps := rfl
@[simp] theorem State.modCore_pwr (s : State) (c : CoreId) (z : Core → Core) : (s.modCore c z).pwr = s.pwr := rfl
@[simp] theorem State.modCore_pfFilter (s : State) (c : CoreId) (z : Core → Core) : (s.modCore c z).pfFilter = s.pfFilter := rfl
@[simp] theorem State.modCore_elgCredit (s : State) (c : CoreId) (z : Core → Core) : (s.modCore c z).elgCredit = s.elgCredit := rfl
@[simp] theorem State.modCore_elgStage (s : State) (c : CoreId) (z : Core → Core) : (s.modCore c z).elgStage = s.elgStage := rfl
@[simp] theorem State.modCore_pfT0 (s : State) (c : CoreId) (z : Core → Core) : (s.modCore c z).pfT0 = s.pfT0 := rfl
@[simp] theorem State.modCore_wakeReq (s : State) (c : CoreId) (z : Core → Core) : (s.modCore c z).wakeReq = s.wakeReq := rfl
@[simp] theorem State.modCore_bypT0 (s : State) (c : CoreId) (z : Core → Core) : (s.modCore c z).bypT0 = s.bypT0 := rfl
@[simp] theorem State.modCore_otp (s : State) (c : CoreId) (z : Core → Core) : (s.modCore c z).otp = s.otp := rfl
@[simp] theorem State.modCore_nvm (s : State) (c : CoreId) (z : Core → Core) : (s.modCore c z).nvm = s.nvm := rfl
@[simp] theorem State.modCore_boot (s : State) (c : CoreId) (z : Core → Core) : (s.modCore c z).boot = s.boot := rfl
@[simp] theorem State.modCore_nvmOp (s : State) (c : CoreId) (z : Core → Core) : (s.modCore c z).nvmOp = s.nvmOp := rfl
@[simp] theorem State.modCore_sceBank0 (s : State) (c : CoreId) (z : Core → Core) : (s.modCore c z).sceBank0 = s.sceBank0 := rfl
@[simp] theorem State.modCore_sceBank1 (s : State) (c : CoreId) (z : Core → Core) : (s.modCore c z).sceBank1 = s.sceBank1 := rfl
@[simp] theorem State.modCore_sce (s : State) (c : CoreId) (z : Core → Core) : (s.modCore c z).sce = s.sce := rfl
@[simp] theorem State.modCore_c0 (s : State) (c : CoreId) (z : Core → Core) : (s.modCore c z).c0 = s.c0 := rfl
@[simp] theorem State.modCore_mac (s : State) (c : CoreId) (z : Core → Core) : (s.modCore c z).mac = s.mac := rfl
@[simp] theorem State.modCore_qciDebt (s : State) (c : CoreId) (z : Core → Core) : (s.modCore c z).qciDebt = s.qciDebt := rfl
@[simp] theorem State.modCore_qciLast (s : State) (c : CoreId) (z : Core → Core) : (s.modCore c z).qciLast = s.qciLast := rfl
@[simp] theorem State.modCore_frer (s : State) (c : CoreId) (z : Core → Core) : (s.modCore c z).frer = s.frer := rfl
@[simp] theorem State.modCore_genSeq (s : State) (c : CoreId) (z : Core → Core) : (s.modCore c z).genSeq = s.genSeq := rfl
@[simp] theorem State.modCore_can (s : State) (c : CoreId) (z : Core → Core) : (s.modCore c z).can = s.can := rfl
@[simp] theorem State.modCore_uart (s : State) (c : CoreId) (z : Core → Core) : (s.modCore c z).uart = s.uart := rfl
@[simp] theorem State.modCore_mvbWait (s : State) (c : CoreId) (z : Core → Core) : (s.modCore c z).mvbWait = s.mvbWait := rfl
@[simp] theorem State.modCore_mvbRead (s : State) (c : CoreId) (z : Core → Core) : (s.modCore c z).mvbRead = s.mvbRead := rfl
@[simp] theorem State.modCore_mvbSent (s : State) (c : CoreId) (z : Core → Core) : (s.modCore c z).mvbSent = s.mvbSent := rfl
@[simp] theorem State.modCore_txSeq (s : State) (c : CoreId) (z : Core → Core) : (s.modCore c z).txSeq = s.txSeq := rfl
@[simp] theorem State.modCore_retries (s : State) (c : CoreId) (z : Core → Core) : (s.modCore c z).retries = s.retries := rfl
@[simp] theorem State.modCore_helloIn (s : State) (c : CoreId) (z : Core → Core) : (s.modCore c z).helloIn = s.helloIn := rfl
@[simp] theorem State.modCore_ended (s : State) (c : CoreId) (z : Core → Core) : (s.modCore c z).ended = s.ended := rfl
@[simp] theorem State.modCore_inHeld (s : State) (c : CoreId) (z : Core → Core) : (s.modCore c z).inHeld = s.inHeld := rfl
@[simp] theorem State.modCore_mgmtHeld (s : State) (c : CoreId) (z : Core → Core) : (s.modCore c z).mgmtHeld = s.mgmtHeld := rfl
@[simp] theorem State.modCore_helloSent (s : State) (c : CoreId) (z : Core → Core) : (s.modCore c z).helloSent = s.helloSent := rfl
@[simp] theorem State.modCore_exchSent (s : State) (c : CoreId) (z : Core → Core) : (s.modCore c z).exchSent = s.exchSent := rfl
@[simp] theorem State.modCore_ft (s : State) (c : CoreId) (z : Core → Core) : (s.modCore c z).ft = s.ft := rfl
@[simp] theorem State.modCore_as (s : State) (c : CoreId) (z : Core → Core) : (s.modCore c z).as = s.as := rfl
@[simp] theorem State.modCore_microWb (s : State) (c : CoreId) (z : Core → Core) : (s.modCore c z).microWb = s.microWb := rfl
@[simp] theorem State.modCore_claimed (s : State) (c : CoreId) (z : Core → Core) : (s.modCore c z).claimed = s.claimed := rfl
@[simp] theorem State.modCore_arb (s : State) (c : CoreId) (z : Core → Core) : (s.modCore c z).arb = s.arb := rfl
@[simp] theorem State.modCore_retryReq (s : State) (c : CoreId) (z : Core → Core) : (s.modCore c z).retryReq = s.retryReq := rfl
@[simp] theorem State.modCore_c1Share (s : State) (c : CoreId) (z : Core → Core) : (s.modCore c z).c1Share = s.c1Share := rfl
@[simp] theorem State.modCore_chkDirty (s : State) (c : CoreId) (z : Core → Core) : (s.modCore c z).chkDirty = s.chkDirty := rfl
@[simp] theorem State.modCore_linkActs (s : State) (c : CoreId) (z : Core → Core) : (s.modCore c z).linkActs = s.linkActs := rfl
@[simp] theorem State.modCore_stepFrom (s : State) (c : CoreId) (z : Core → Core) : (s.modCore c z).stepFrom = s.stepFrom := rfl
@[simp] theorem State.modCore_stepMark (s : State) (c : CoreId) (z : Core → Core) : (s.modCore c z).stepMark = s.stepMark := rfl
@[simp] theorem State.modCore_dmaHeld (s : State) (c : CoreId) (z : Core → Core) : (s.modCore c z).dmaHeld = s.dmaHeld := rfl
@[simp] theorem State.modCore_held (s : State) (c : CoreId) (z : Core → Core) : (s.modCore c z).held = s.held := rfl
@[simp] theorem State.modCore_lateTags (s : State) (c : CoreId) (z : Core → Core) : (s.modCore c z).lateTags = s.lateTags := rfl
@[simp] theorem State.modCore_xspi (s : State) (c : CoreId) (z : Core → Core) : (s.modCore c z).xspi = s.xspi := rfl
@[simp] theorem State.modCore_wtape (s : State) (c : CoreId) (z : Core → Core) : (s.modCore c z).wtape = s.wtape := rfl
@[simp] theorem State.modCore_wtapeN (s : State) (c : CoreId) (z : Core → Core) : (s.modCore c z).wtapeN = s.wtapeN := rfl
@[simp] theorem State.modCore_l2Old (s : State) (c : CoreId) (z : Core → Core) : (s.modCore c z).l2Old = s.l2Old := rfl
@[simp] theorem State.modCore_elg (s : State) (c : CoreId) (z : Core → Core) : (s.modCore c z).elg = s.elg := rfl
@[simp] theorem State.modCore_pmu (s : State) (c : CoreId) (z : Core → Core) : (s.modCore c z).pmu = s.pmu := rfl
@[simp] theorem State.modCore_si (s : State) (c : CoreId) (z : Core → Core) : (s.modCore c z).si = s.si := rfl
@[simp] theorem State.modCore_reg_read (s : State) (c : CoreId) (z : Core → Core) (k : Nat) : (s.modCore c z).reg k = s.reg k := rfl
@[simp] theorem State.modCore_rf_read (s : State) (c : CoreId) (z : Core → Core) (k p q : Nat) : (s.modCore c z).rf k p q = s.rf k p q := rfl
@[simp] theorem State.modCore_rb_read (s : State) (c : CoreId) (z : Core → Core) (k p : Nat) : (s.modCore c z).rb k p = s.rb k p := rfl
@[simp] theorem State.modCore_reg64_read (s : State) (c : CoreId) (z : Core → Core) (k p : Nat) : (s.modCore c z).reg64 k p = s.reg64 k p := rfl
@[simp] theorem State.modCore_byte_read (s : State) (c : CoreId) (z : Core → Core) (k : Nat) : (s.modCore c z).byte k = s.byte k := rfl
@[simp] theorem State.modCore_wrong_read (s : State) (c : CoreId) (z : Core → Core) (k : Nat) : (s.modCore c z).wrong k = s.wrong k := rfl
@[simp] theorem State.modCore_vc_read (s : State) (c : CoreId) (z : Core → Core) (y : CtxId) : (s.modCore c z).vc y = s.vc y := rfl
@[simp] theorem State.modCore_power_read (s : State) (c : CoreId) (z : Core → Core)  : (s.modCore c z).power = s.power := rfl

@[simp] theorem State.setSr_pending (s : State) (c : CoreId) (n : Nat) (v : Word) : (s.setSr c n v).pending = s.pending := rfl
@[simp] theorem State.setSr_regs (s : State) (c : CoreId) (n : Nat) (v : Word) : (s.setSr c n v).regs = s.regs := rfl
@[simp] theorem State.setSr_mem (s : State) (c : CoreId) (n : Nat) (v : Word) : (s.setSr c n v).mem = s.mem := rfl
@[simp] theorem State.setSr_ecc (s : State) (c : CoreId) (n : Nat) (v : Word) : (s.setSr c n v).ecc = s.ecc := rfl
@[simp] theorem State.setSr_dramErr (s : State) (c : CoreId) (n : Nat) (v : Word) : (s.setSr c n v).dramErr = s.dramErr := rfl
@[simp] theorem State.setSr_ceWb (s : State) (c : CoreId) (n : Nat) (v : Word) : (s.setSr c n v).ceWb = s.ceWb := rfl
@[simp] theorem State.setSr_fresh (s : State) (c : CoreId) (n : Nat) (v : Word) : (s.setSr c n v).fresh = s.fresh := rfl
@[simp] theorem State.setSr_icuHeld (s : State) (c : CoreId) (n : Nat) (v : Word) : (s.setSr c n v).icuHeld = s.icuHeld := rfl
@[simp] theorem State.setSr_edges (s : State) (c : CoreId) (n : Nat) (v : Word) : (s.setSr c n v).edges = s.edges := rfl
@[simp] theorem State.setSr_tb (s : State) (c : CoreId) (n : Nat) (v : Word) : (s.setSr c n v).tb = s.tb := rfl
@[simp] theorem State.setSr_tbSub (s : State) (c : CoreId) (n : Nat) (v : Word) : (s.setSr c n v).tbSub = s.tbSub := rfl
@[simp] theorem State.setSr_adjPend (s : State) (c : CoreId) (n : Nat) (v : Word) : (s.setSr c n v).adjPend = s.adjPend := rfl
@[simp] theorem State.setSr_xclk (s : State) (c : CoreId) (n : Nat) (v : Word) : (s.setSr c n v).xclk = s.xclk := rfl
@[simp] theorem State.setSr_tmAcc (s : State) (c : CoreId) (n : Nat) (v : Word) : (s.setSr c n v).tmAcc = s.tmAcc := rfl
@[simp] theorem State.setSr_evrHeld (s : State) (c : CoreId) (n : Nat) (v : Word) : (s.setSr c n v).evrHeld = s.evrHeld := rfl
@[simp] theorem State.setSr_evoutBusy (s : State) (c : CoreId) (n : Nat) (v : Word) : (s.setSr c n v).evoutBusy = s.evoutBusy := rfl
@[simp] theorem State.setSr_evoutLvl (s : State) (c : CoreId) (n : Nat) (v : Word) : (s.setSr c n v).evoutLvl = s.evoutLvl := rfl
@[simp] theorem State.setSr_capDead (s : State) (c : CoreId) (n : Nat) (v : Word) : (s.setSr c n v).capDead = s.capDead := rfl
@[simp] theorem State.setSr_fillRun (s : State) (c : CoreId) (n : Nat) (v : Word) : (s.setSr c n v).fillRun = s.fillRun := rfl
@[simp] theorem State.setSr_ergSlots (s : State) (c : CoreId) (n : Nat) (v : Word) : (s.setSr c n v).ergSlots = s.ergSlots := rfl
@[simp] theorem State.setSr_scrubT0 (s : State) (c : CoreId) (n : Nat) (v : Word) : (s.setSr c n v).scrubT0 = s.scrubT0 := rfl
@[simp] theorem State.setSr_lapLate (s : State) (c : CoreId) (n : Nat) (v : Word) : (s.setSr c n v).lapLate = s.lapLate := rfl
@[simp] theorem State.setSr_vclkStop (s : State) (c : CoreId) (n : Nat) (v : Word) : (s.setSr c n v).vclkStop = s.vclkStop := rfl
@[simp] theorem State.setSr_dmcTraining (s : State) (c : CoreId) (n : Nat) (v : Word) : (s.setSr c n v).dmcTraining = s.dmcTraining := rfl
@[simp] theorem State.setSr_patrol (s : State) (c : CoreId) (n : Nat) (v : Word) : (s.setSr c n v).patrol = s.patrol := rfl
@[simp] theorem State.setSr_pwrfailN (s : State) (c : CoreId) (n : Nat) (v : Word) : (s.setSr c n v).pwrfailN = s.pwrfailN := rfl
@[simp] theorem State.setSr_cmNow (s : State) (c : CoreId) (n : Nat) (v : Word) : (s.setSr c n v).cmNow = s.cmNow := rfl
@[simp] theorem State.setSr_outst (s : State) (c : CoreId) (n : Nat) (v : Word) : (s.setSr c n v).outst = s.outst := rfl
@[simp] theorem State.setSr_linkTx (s : State) (c : CoreId) (n : Nat) (v : Word) : (s.setSr c n v).linkTx = s.linkTx := rfl
@[simp] theorem State.setSr_xacts (s : State) (c : CoreId) (n : Nat) (v : Word) : (s.setSr c n v).xacts = s.xacts := rfl
@[simp] theorem State.setSr_walkCache (s : State) (c : CoreId) (n : Nat) (v : Word) : (s.setSr c n v).walkCache = s.walkCache := rfl
@[simp] theorem State.setSr_walks (s : State) (c : CoreId) (n : Nat) (v : Word) : (s.setSr c n v).walks = s.walks := rfl
@[simp] theorem State.setSr_vseTlb (s : State) (c : CoreId) (n : Nat) (v : Word) : (s.setSr c n v).vseTlb = s.vseTlb := rfl
@[simp] theorem State.setSr_vctx (s : State) (c : CoreId) (n : Nat) (v : Word) : (s.setSr c n v).vctx = s.vctx := rfl
@[simp] theorem State.setSr_eau (s : State) (c : CoreId) (n : Nat) (v : Word) : (s.setSr c n v).eau = s.eau := rfl
@[simp] theorem State.setSr_stamps (s : State) (c : CoreId) (n : Nat) (v : Word) : (s.setSr c n v).stamps = s.stamps := rfl
@[simp] theorem State.setSr_pwr (s : State) (c : CoreId) (n : Nat) (v : Word) : (s.setSr c n v).pwr = s.pwr := rfl
@[simp] theorem State.setSr_pfFilter (s : State) (c : CoreId) (n : Nat) (v : Word) : (s.setSr c n v).pfFilter = s.pfFilter := rfl
@[simp] theorem State.setSr_elgCredit (s : State) (c : CoreId) (n : Nat) (v : Word) : (s.setSr c n v).elgCredit = s.elgCredit := rfl
@[simp] theorem State.setSr_elgStage (s : State) (c : CoreId) (n : Nat) (v : Word) : (s.setSr c n v).elgStage = s.elgStage := rfl
@[simp] theorem State.setSr_pfT0 (s : State) (c : CoreId) (n : Nat) (v : Word) : (s.setSr c n v).pfT0 = s.pfT0 := rfl
@[simp] theorem State.setSr_wakeReq (s : State) (c : CoreId) (n : Nat) (v : Word) : (s.setSr c n v).wakeReq = s.wakeReq := rfl
@[simp] theorem State.setSr_bypT0 (s : State) (c : CoreId) (n : Nat) (v : Word) : (s.setSr c n v).bypT0 = s.bypT0 := rfl
@[simp] theorem State.setSr_otp (s : State) (c : CoreId) (n : Nat) (v : Word) : (s.setSr c n v).otp = s.otp := rfl
@[simp] theorem State.setSr_nvm (s : State) (c : CoreId) (n : Nat) (v : Word) : (s.setSr c n v).nvm = s.nvm := rfl
@[simp] theorem State.setSr_boot (s : State) (c : CoreId) (n : Nat) (v : Word) : (s.setSr c n v).boot = s.boot := rfl
@[simp] theorem State.setSr_nvmOp (s : State) (c : CoreId) (n : Nat) (v : Word) : (s.setSr c n v).nvmOp = s.nvmOp := rfl
@[simp] theorem State.setSr_sceBank0 (s : State) (c : CoreId) (n : Nat) (v : Word) : (s.setSr c n v).sceBank0 = s.sceBank0 := rfl
@[simp] theorem State.setSr_sceBank1 (s : State) (c : CoreId) (n : Nat) (v : Word) : (s.setSr c n v).sceBank1 = s.sceBank1 := rfl
@[simp] theorem State.setSr_sce (s : State) (c : CoreId) (n : Nat) (v : Word) : (s.setSr c n v).sce = s.sce := rfl
@[simp] theorem State.setSr_c0 (s : State) (c : CoreId) (n : Nat) (v : Word) : (s.setSr c n v).c0 = s.c0 := rfl
@[simp] theorem State.setSr_mac (s : State) (c : CoreId) (n : Nat) (v : Word) : (s.setSr c n v).mac = s.mac := rfl
@[simp] theorem State.setSr_qciDebt (s : State) (c : CoreId) (n : Nat) (v : Word) : (s.setSr c n v).qciDebt = s.qciDebt := rfl
@[simp] theorem State.setSr_qciLast (s : State) (c : CoreId) (n : Nat) (v : Word) : (s.setSr c n v).qciLast = s.qciLast := rfl
@[simp] theorem State.setSr_frer (s : State) (c : CoreId) (n : Nat) (v : Word) : (s.setSr c n v).frer = s.frer := rfl
@[simp] theorem State.setSr_genSeq (s : State) (c : CoreId) (n : Nat) (v : Word) : (s.setSr c n v).genSeq = s.genSeq := rfl
@[simp] theorem State.setSr_can (s : State) (c : CoreId) (n : Nat) (v : Word) : (s.setSr c n v).can = s.can := rfl
@[simp] theorem State.setSr_uart (s : State) (c : CoreId) (n : Nat) (v : Word) : (s.setSr c n v).uart = s.uart := rfl
@[simp] theorem State.setSr_mvbWait (s : State) (c : CoreId) (n : Nat) (v : Word) : (s.setSr c n v).mvbWait = s.mvbWait := rfl
@[simp] theorem State.setSr_mvbRead (s : State) (c : CoreId) (n : Nat) (v : Word) : (s.setSr c n v).mvbRead = s.mvbRead := rfl
@[simp] theorem State.setSr_mvbSent (s : State) (c : CoreId) (n : Nat) (v : Word) : (s.setSr c n v).mvbSent = s.mvbSent := rfl
@[simp] theorem State.setSr_txSeq (s : State) (c : CoreId) (n : Nat) (v : Word) : (s.setSr c n v).txSeq = s.txSeq := rfl
@[simp] theorem State.setSr_retries (s : State) (c : CoreId) (n : Nat) (v : Word) : (s.setSr c n v).retries = s.retries := rfl
@[simp] theorem State.setSr_helloIn (s : State) (c : CoreId) (n : Nat) (v : Word) : (s.setSr c n v).helloIn = s.helloIn := rfl
@[simp] theorem State.setSr_ended (s : State) (c : CoreId) (n : Nat) (v : Word) : (s.setSr c n v).ended = s.ended := rfl
@[simp] theorem State.setSr_inHeld (s : State) (c : CoreId) (n : Nat) (v : Word) : (s.setSr c n v).inHeld = s.inHeld := rfl
@[simp] theorem State.setSr_mgmtHeld (s : State) (c : CoreId) (n : Nat) (v : Word) : (s.setSr c n v).mgmtHeld = s.mgmtHeld := rfl
@[simp] theorem State.setSr_helloSent (s : State) (c : CoreId) (n : Nat) (v : Word) : (s.setSr c n v).helloSent = s.helloSent := rfl
@[simp] theorem State.setSr_exchSent (s : State) (c : CoreId) (n : Nat) (v : Word) : (s.setSr c n v).exchSent = s.exchSent := rfl
@[simp] theorem State.setSr_ft (s : State) (c : CoreId) (n : Nat) (v : Word) : (s.setSr c n v).ft = s.ft := rfl
@[simp] theorem State.setSr_as (s : State) (c : CoreId) (n : Nat) (v : Word) : (s.setSr c n v).as = s.as := rfl
@[simp] theorem State.setSr_microWb (s : State) (c : CoreId) (n : Nat) (v : Word) : (s.setSr c n v).microWb = s.microWb := rfl
@[simp] theorem State.setSr_claimed (s : State) (c : CoreId) (n : Nat) (v : Word) : (s.setSr c n v).claimed = s.claimed := rfl
@[simp] theorem State.setSr_arb (s : State) (c : CoreId) (n : Nat) (v : Word) : (s.setSr c n v).arb = s.arb := rfl
@[simp] theorem State.setSr_retryReq (s : State) (c : CoreId) (n : Nat) (v : Word) : (s.setSr c n v).retryReq = s.retryReq := rfl
@[simp] theorem State.setSr_c1Share (s : State) (c : CoreId) (n : Nat) (v : Word) : (s.setSr c n v).c1Share = s.c1Share := rfl
@[simp] theorem State.setSr_chkDirty (s : State) (c : CoreId) (n : Nat) (v : Word) : (s.setSr c n v).chkDirty = s.chkDirty := rfl
@[simp] theorem State.setSr_linkActs (s : State) (c : CoreId) (n : Nat) (v : Word) : (s.setSr c n v).linkActs = s.linkActs := rfl
@[simp] theorem State.setSr_stepFrom (s : State) (c : CoreId) (n : Nat) (v : Word) : (s.setSr c n v).stepFrom = s.stepFrom := rfl
@[simp] theorem State.setSr_stepMark (s : State) (c : CoreId) (n : Nat) (v : Word) : (s.setSr c n v).stepMark = s.stepMark := rfl
@[simp] theorem State.setSr_dmaHeld (s : State) (c : CoreId) (n : Nat) (v : Word) : (s.setSr c n v).dmaHeld = s.dmaHeld := rfl
@[simp] theorem State.setSr_held (s : State) (c : CoreId) (n : Nat) (v : Word) : (s.setSr c n v).held = s.held := rfl
@[simp] theorem State.setSr_lateTags (s : State) (c : CoreId) (n : Nat) (v : Word) : (s.setSr c n v).lateTags = s.lateTags := rfl
@[simp] theorem State.setSr_xspi (s : State) (c : CoreId) (n : Nat) (v : Word) : (s.setSr c n v).xspi = s.xspi := rfl
@[simp] theorem State.setSr_wtape (s : State) (c : CoreId) (n : Nat) (v : Word) : (s.setSr c n v).wtape = s.wtape := rfl
@[simp] theorem State.setSr_wtapeN (s : State) (c : CoreId) (n : Nat) (v : Word) : (s.setSr c n v).wtapeN = s.wtapeN := rfl
@[simp] theorem State.setSr_l2Old (s : State) (c : CoreId) (n : Nat) (v : Word) : (s.setSr c n v).l2Old = s.l2Old := rfl
@[simp] theorem State.setSr_elg (s : State) (c : CoreId) (n : Nat) (v : Word) : (s.setSr c n v).elg = s.elg := rfl
@[simp] theorem State.setSr_pmu (s : State) (c : CoreId) (n : Nat) (v : Word) : (s.setSr c n v).pmu = s.pmu := rfl
@[simp] theorem State.setSr_si (s : State) (c : CoreId) (n : Nat) (v : Word) : (s.setSr c n v).si = s.si := rfl
@[simp] theorem State.setSr_reg_read (s : State) (c : CoreId) (n : Nat) (v : Word) (k : Nat) : (s.setSr c n v).reg k = s.reg k := rfl
@[simp] theorem State.setSr_rf_read (s : State) (c : CoreId) (n : Nat) (v : Word) (k p q : Nat) : (s.setSr c n v).rf k p q = s.rf k p q := rfl
@[simp] theorem State.setSr_rb_read (s : State) (c : CoreId) (n : Nat) (v : Word) (k p : Nat) : (s.setSr c n v).rb k p = s.rb k p := rfl
@[simp] theorem State.setSr_reg64_read (s : State) (c : CoreId) (n : Nat) (v : Word) (k p : Nat) : (s.setSr c n v).reg64 k p = s.reg64 k p := rfl
@[simp] theorem State.setSr_byte_read (s : State) (c : CoreId) (n : Nat) (v : Word) (k : Nat) : (s.setSr c n v).byte k = s.byte k := rfl
@[simp] theorem State.setSr_wrong_read (s : State) (c : CoreId) (n : Nat) (v : Word) (k : Nat) : (s.setSr c n v).wrong k = s.wrong k := rfl
@[simp] theorem State.setSr_vc_read (s : State) (c : CoreId) (n : Nat) (v : Word) (y : CtxId) : (s.setSr c n v).vc y = s.vc y := rfl
@[simp] theorem State.setSr_power_read (s : State) (c : CoreId) (n : Nat) (v : Word)  : (s.setSr c n v).power = s.power := rfl

@[simp] theorem State.setPc_pending (s : State) (c : CoreId) (v : Word) : (s.setPc c v).pending = s.pending := rfl
@[simp] theorem State.setPc_regs (s : State) (c : CoreId) (v : Word) : (s.setPc c v).regs = s.regs := rfl
@[simp] theorem State.setPc_mem (s : State) (c : CoreId) (v : Word) : (s.setPc c v).mem = s.mem := rfl
@[simp] theorem State.setPc_ecc (s : State) (c : CoreId) (v : Word) : (s.setPc c v).ecc = s.ecc := rfl
@[simp] theorem State.setPc_dramErr (s : State) (c : CoreId) (v : Word) : (s.setPc c v).dramErr = s.dramErr := rfl
@[simp] theorem State.setPc_ceWb (s : State) (c : CoreId) (v : Word) : (s.setPc c v).ceWb = s.ceWb := rfl
@[simp] theorem State.setPc_fresh (s : State) (c : CoreId) (v : Word) : (s.setPc c v).fresh = s.fresh := rfl
@[simp] theorem State.setPc_icuHeld (s : State) (c : CoreId) (v : Word) : (s.setPc c v).icuHeld = s.icuHeld := rfl
@[simp] theorem State.setPc_edges (s : State) (c : CoreId) (v : Word) : (s.setPc c v).edges = s.edges := rfl
@[simp] theorem State.setPc_tb (s : State) (c : CoreId) (v : Word) : (s.setPc c v).tb = s.tb := rfl
@[simp] theorem State.setPc_tbSub (s : State) (c : CoreId) (v : Word) : (s.setPc c v).tbSub = s.tbSub := rfl
@[simp] theorem State.setPc_adjPend (s : State) (c : CoreId) (v : Word) : (s.setPc c v).adjPend = s.adjPend := rfl
@[simp] theorem State.setPc_xclk (s : State) (c : CoreId) (v : Word) : (s.setPc c v).xclk = s.xclk := rfl
@[simp] theorem State.setPc_tmAcc (s : State) (c : CoreId) (v : Word) : (s.setPc c v).tmAcc = s.tmAcc := rfl
@[simp] theorem State.setPc_evrHeld (s : State) (c : CoreId) (v : Word) : (s.setPc c v).evrHeld = s.evrHeld := rfl
@[simp] theorem State.setPc_evoutBusy (s : State) (c : CoreId) (v : Word) : (s.setPc c v).evoutBusy = s.evoutBusy := rfl
@[simp] theorem State.setPc_evoutLvl (s : State) (c : CoreId) (v : Word) : (s.setPc c v).evoutLvl = s.evoutLvl := rfl
@[simp] theorem State.setPc_capDead (s : State) (c : CoreId) (v : Word) : (s.setPc c v).capDead = s.capDead := rfl
@[simp] theorem State.setPc_fillRun (s : State) (c : CoreId) (v : Word) : (s.setPc c v).fillRun = s.fillRun := rfl
@[simp] theorem State.setPc_ergSlots (s : State) (c : CoreId) (v : Word) : (s.setPc c v).ergSlots = s.ergSlots := rfl
@[simp] theorem State.setPc_scrubT0 (s : State) (c : CoreId) (v : Word) : (s.setPc c v).scrubT0 = s.scrubT0 := rfl
@[simp] theorem State.setPc_lapLate (s : State) (c : CoreId) (v : Word) : (s.setPc c v).lapLate = s.lapLate := rfl
@[simp] theorem State.setPc_vclkStop (s : State) (c : CoreId) (v : Word) : (s.setPc c v).vclkStop = s.vclkStop := rfl
@[simp] theorem State.setPc_dmcTraining (s : State) (c : CoreId) (v : Word) : (s.setPc c v).dmcTraining = s.dmcTraining := rfl
@[simp] theorem State.setPc_patrol (s : State) (c : CoreId) (v : Word) : (s.setPc c v).patrol = s.patrol := rfl
@[simp] theorem State.setPc_pwrfailN (s : State) (c : CoreId) (v : Word) : (s.setPc c v).pwrfailN = s.pwrfailN := rfl
@[simp] theorem State.setPc_cmNow (s : State) (c : CoreId) (v : Word) : (s.setPc c v).cmNow = s.cmNow := rfl
@[simp] theorem State.setPc_outst (s : State) (c : CoreId) (v : Word) : (s.setPc c v).outst = s.outst := rfl
@[simp] theorem State.setPc_linkTx (s : State) (c : CoreId) (v : Word) : (s.setPc c v).linkTx = s.linkTx := rfl
@[simp] theorem State.setPc_xacts (s : State) (c : CoreId) (v : Word) : (s.setPc c v).xacts = s.xacts := rfl
@[simp] theorem State.setPc_walkCache (s : State) (c : CoreId) (v : Word) : (s.setPc c v).walkCache = s.walkCache := rfl
@[simp] theorem State.setPc_walks (s : State) (c : CoreId) (v : Word) : (s.setPc c v).walks = s.walks := rfl
@[simp] theorem State.setPc_vseTlb (s : State) (c : CoreId) (v : Word) : (s.setPc c v).vseTlb = s.vseTlb := rfl
@[simp] theorem State.setPc_vctx (s : State) (c : CoreId) (v : Word) : (s.setPc c v).vctx = s.vctx := rfl
@[simp] theorem State.setPc_eau (s : State) (c : CoreId) (v : Word) : (s.setPc c v).eau = s.eau := rfl
@[simp] theorem State.setPc_stamps (s : State) (c : CoreId) (v : Word) : (s.setPc c v).stamps = s.stamps := rfl
@[simp] theorem State.setPc_pwr (s : State) (c : CoreId) (v : Word) : (s.setPc c v).pwr = s.pwr := rfl
@[simp] theorem State.setPc_pfFilter (s : State) (c : CoreId) (v : Word) : (s.setPc c v).pfFilter = s.pfFilter := rfl
@[simp] theorem State.setPc_elgCredit (s : State) (c : CoreId) (v : Word) : (s.setPc c v).elgCredit = s.elgCredit := rfl
@[simp] theorem State.setPc_elgStage (s : State) (c : CoreId) (v : Word) : (s.setPc c v).elgStage = s.elgStage := rfl
@[simp] theorem State.setPc_pfT0 (s : State) (c : CoreId) (v : Word) : (s.setPc c v).pfT0 = s.pfT0 := rfl
@[simp] theorem State.setPc_wakeReq (s : State) (c : CoreId) (v : Word) : (s.setPc c v).wakeReq = s.wakeReq := rfl
@[simp] theorem State.setPc_bypT0 (s : State) (c : CoreId) (v : Word) : (s.setPc c v).bypT0 = s.bypT0 := rfl
@[simp] theorem State.setPc_otp (s : State) (c : CoreId) (v : Word) : (s.setPc c v).otp = s.otp := rfl
@[simp] theorem State.setPc_nvm (s : State) (c : CoreId) (v : Word) : (s.setPc c v).nvm = s.nvm := rfl
@[simp] theorem State.setPc_boot (s : State) (c : CoreId) (v : Word) : (s.setPc c v).boot = s.boot := rfl
@[simp] theorem State.setPc_nvmOp (s : State) (c : CoreId) (v : Word) : (s.setPc c v).nvmOp = s.nvmOp := rfl
@[simp] theorem State.setPc_sceBank0 (s : State) (c : CoreId) (v : Word) : (s.setPc c v).sceBank0 = s.sceBank0 := rfl
@[simp] theorem State.setPc_sceBank1 (s : State) (c : CoreId) (v : Word) : (s.setPc c v).sceBank1 = s.sceBank1 := rfl
@[simp] theorem State.setPc_sce (s : State) (c : CoreId) (v : Word) : (s.setPc c v).sce = s.sce := rfl
@[simp] theorem State.setPc_c0 (s : State) (c : CoreId) (v : Word) : (s.setPc c v).c0 = s.c0 := rfl
@[simp] theorem State.setPc_mac (s : State) (c : CoreId) (v : Word) : (s.setPc c v).mac = s.mac := rfl
@[simp] theorem State.setPc_qciDebt (s : State) (c : CoreId) (v : Word) : (s.setPc c v).qciDebt = s.qciDebt := rfl
@[simp] theorem State.setPc_qciLast (s : State) (c : CoreId) (v : Word) : (s.setPc c v).qciLast = s.qciLast := rfl
@[simp] theorem State.setPc_frer (s : State) (c : CoreId) (v : Word) : (s.setPc c v).frer = s.frer := rfl
@[simp] theorem State.setPc_genSeq (s : State) (c : CoreId) (v : Word) : (s.setPc c v).genSeq = s.genSeq := rfl
@[simp] theorem State.setPc_can (s : State) (c : CoreId) (v : Word) : (s.setPc c v).can = s.can := rfl
@[simp] theorem State.setPc_uart (s : State) (c : CoreId) (v : Word) : (s.setPc c v).uart = s.uart := rfl
@[simp] theorem State.setPc_mvbWait (s : State) (c : CoreId) (v : Word) : (s.setPc c v).mvbWait = s.mvbWait := rfl
@[simp] theorem State.setPc_mvbRead (s : State) (c : CoreId) (v : Word) : (s.setPc c v).mvbRead = s.mvbRead := rfl
@[simp] theorem State.setPc_mvbSent (s : State) (c : CoreId) (v : Word) : (s.setPc c v).mvbSent = s.mvbSent := rfl
@[simp] theorem State.setPc_txSeq (s : State) (c : CoreId) (v : Word) : (s.setPc c v).txSeq = s.txSeq := rfl
@[simp] theorem State.setPc_retries (s : State) (c : CoreId) (v : Word) : (s.setPc c v).retries = s.retries := rfl
@[simp] theorem State.setPc_helloIn (s : State) (c : CoreId) (v : Word) : (s.setPc c v).helloIn = s.helloIn := rfl
@[simp] theorem State.setPc_ended (s : State) (c : CoreId) (v : Word) : (s.setPc c v).ended = s.ended := rfl
@[simp] theorem State.setPc_inHeld (s : State) (c : CoreId) (v : Word) : (s.setPc c v).inHeld = s.inHeld := rfl
@[simp] theorem State.setPc_mgmtHeld (s : State) (c : CoreId) (v : Word) : (s.setPc c v).mgmtHeld = s.mgmtHeld := rfl
@[simp] theorem State.setPc_helloSent (s : State) (c : CoreId) (v : Word) : (s.setPc c v).helloSent = s.helloSent := rfl
@[simp] theorem State.setPc_exchSent (s : State) (c : CoreId) (v : Word) : (s.setPc c v).exchSent = s.exchSent := rfl
@[simp] theorem State.setPc_ft (s : State) (c : CoreId) (v : Word) : (s.setPc c v).ft = s.ft := rfl
@[simp] theorem State.setPc_as (s : State) (c : CoreId) (v : Word) : (s.setPc c v).as = s.as := rfl
@[simp] theorem State.setPc_microWb (s : State) (c : CoreId) (v : Word) : (s.setPc c v).microWb = s.microWb := rfl
@[simp] theorem State.setPc_claimed (s : State) (c : CoreId) (v : Word) : (s.setPc c v).claimed = s.claimed := rfl
@[simp] theorem State.setPc_arb (s : State) (c : CoreId) (v : Word) : (s.setPc c v).arb = s.arb := rfl
@[simp] theorem State.setPc_retryReq (s : State) (c : CoreId) (v : Word) : (s.setPc c v).retryReq = s.retryReq := rfl
@[simp] theorem State.setPc_c1Share (s : State) (c : CoreId) (v : Word) : (s.setPc c v).c1Share = s.c1Share := rfl
@[simp] theorem State.setPc_chkDirty (s : State) (c : CoreId) (v : Word) : (s.setPc c v).chkDirty = s.chkDirty := rfl
@[simp] theorem State.setPc_linkActs (s : State) (c : CoreId) (v : Word) : (s.setPc c v).linkActs = s.linkActs := rfl
@[simp] theorem State.setPc_stepFrom (s : State) (c : CoreId) (v : Word) : (s.setPc c v).stepFrom = s.stepFrom := rfl
@[simp] theorem State.setPc_stepMark (s : State) (c : CoreId) (v : Word) : (s.setPc c v).stepMark = s.stepMark := rfl
@[simp] theorem State.setPc_dmaHeld (s : State) (c : CoreId) (v : Word) : (s.setPc c v).dmaHeld = s.dmaHeld := rfl
@[simp] theorem State.setPc_held (s : State) (c : CoreId) (v : Word) : (s.setPc c v).held = s.held := rfl
@[simp] theorem State.setPc_lateTags (s : State) (c : CoreId) (v : Word) : (s.setPc c v).lateTags = s.lateTags := rfl
@[simp] theorem State.setPc_xspi (s : State) (c : CoreId) (v : Word) : (s.setPc c v).xspi = s.xspi := rfl
@[simp] theorem State.setPc_wtape (s : State) (c : CoreId) (v : Word) : (s.setPc c v).wtape = s.wtape := rfl
@[simp] theorem State.setPc_wtapeN (s : State) (c : CoreId) (v : Word) : (s.setPc c v).wtapeN = s.wtapeN := rfl
@[simp] theorem State.setPc_l2Old (s : State) (c : CoreId) (v : Word) : (s.setPc c v).l2Old = s.l2Old := rfl
@[simp] theorem State.setPc_elg (s : State) (c : CoreId) (v : Word) : (s.setPc c v).elg = s.elg := rfl
@[simp] theorem State.setPc_pmu (s : State) (c : CoreId) (v : Word) : (s.setPc c v).pmu = s.pmu := rfl
@[simp] theorem State.setPc_si (s : State) (c : CoreId) (v : Word) : (s.setPc c v).si = s.si := rfl
@[simp] theorem State.setPc_reg_read (s : State) (c : CoreId) (v : Word) (k : Nat) : (s.setPc c v).reg k = s.reg k := rfl
@[simp] theorem State.setPc_rf_read (s : State) (c : CoreId) (v : Word) (k p q : Nat) : (s.setPc c v).rf k p q = s.rf k p q := rfl
@[simp] theorem State.setPc_rb_read (s : State) (c : CoreId) (v : Word) (k p : Nat) : (s.setPc c v).rb k p = s.rb k p := rfl
@[simp] theorem State.setPc_reg64_read (s : State) (c : CoreId) (v : Word) (k p : Nat) : (s.setPc c v).reg64 k p = s.reg64 k p := rfl
@[simp] theorem State.setPc_byte_read (s : State) (c : CoreId) (v : Word) (k : Nat) : (s.setPc c v).byte k = s.byte k := rfl
@[simp] theorem State.setPc_wrong_read (s : State) (c : CoreId) (v : Word) (k : Nat) : (s.setPc c v).wrong k = s.wrong k := rfl
@[simp] theorem State.setPc_vc_read (s : State) (c : CoreId) (v : Word) (y : CtxId) : (s.setPc c v).vc y = s.vc y := rfl
@[simp] theorem State.setPc_power_read (s : State) (c : CoreId) (v : Word)  : (s.setPc c v).power = s.power := rfl

@[simp] theorem State.setF_pending (s : State) (c : CoreId) (r : FReg) (v : Dword) : (s.setF c r v).pending = s.pending := rfl
@[simp] theorem State.setF_regs (s : State) (c : CoreId) (r : FReg) (v : Dword) : (s.setF c r v).regs = s.regs := rfl
@[simp] theorem State.setF_mem (s : State) (c : CoreId) (r : FReg) (v : Dword) : (s.setF c r v).mem = s.mem := rfl
@[simp] theorem State.setF_ecc (s : State) (c : CoreId) (r : FReg) (v : Dword) : (s.setF c r v).ecc = s.ecc := rfl
@[simp] theorem State.setF_dramErr (s : State) (c : CoreId) (r : FReg) (v : Dword) : (s.setF c r v).dramErr = s.dramErr := rfl
@[simp] theorem State.setF_ceWb (s : State) (c : CoreId) (r : FReg) (v : Dword) : (s.setF c r v).ceWb = s.ceWb := rfl
@[simp] theorem State.setF_fresh (s : State) (c : CoreId) (r : FReg) (v : Dword) : (s.setF c r v).fresh = s.fresh := rfl
@[simp] theorem State.setF_icuHeld (s : State) (c : CoreId) (r : FReg) (v : Dword) : (s.setF c r v).icuHeld = s.icuHeld := rfl
@[simp] theorem State.setF_edges (s : State) (c : CoreId) (r : FReg) (v : Dword) : (s.setF c r v).edges = s.edges := rfl
@[simp] theorem State.setF_tb (s : State) (c : CoreId) (r : FReg) (v : Dword) : (s.setF c r v).tb = s.tb := rfl
@[simp] theorem State.setF_tbSub (s : State) (c : CoreId) (r : FReg) (v : Dword) : (s.setF c r v).tbSub = s.tbSub := rfl
@[simp] theorem State.setF_adjPend (s : State) (c : CoreId) (r : FReg) (v : Dword) : (s.setF c r v).adjPend = s.adjPend := rfl
@[simp] theorem State.setF_xclk (s : State) (c : CoreId) (r : FReg) (v : Dword) : (s.setF c r v).xclk = s.xclk := rfl
@[simp] theorem State.setF_tmAcc (s : State) (c : CoreId) (r : FReg) (v : Dword) : (s.setF c r v).tmAcc = s.tmAcc := rfl
@[simp] theorem State.setF_evrHeld (s : State) (c : CoreId) (r : FReg) (v : Dword) : (s.setF c r v).evrHeld = s.evrHeld := rfl
@[simp] theorem State.setF_evoutBusy (s : State) (c : CoreId) (r : FReg) (v : Dword) : (s.setF c r v).evoutBusy = s.evoutBusy := rfl
@[simp] theorem State.setF_evoutLvl (s : State) (c : CoreId) (r : FReg) (v : Dword) : (s.setF c r v).evoutLvl = s.evoutLvl := rfl
@[simp] theorem State.setF_capDead (s : State) (c : CoreId) (r : FReg) (v : Dword) : (s.setF c r v).capDead = s.capDead := rfl
@[simp] theorem State.setF_fillRun (s : State) (c : CoreId) (r : FReg) (v : Dword) : (s.setF c r v).fillRun = s.fillRun := rfl
@[simp] theorem State.setF_ergSlots (s : State) (c : CoreId) (r : FReg) (v : Dword) : (s.setF c r v).ergSlots = s.ergSlots := rfl
@[simp] theorem State.setF_scrubT0 (s : State) (c : CoreId) (r : FReg) (v : Dword) : (s.setF c r v).scrubT0 = s.scrubT0 := rfl
@[simp] theorem State.setF_lapLate (s : State) (c : CoreId) (r : FReg) (v : Dword) : (s.setF c r v).lapLate = s.lapLate := rfl
@[simp] theorem State.setF_vclkStop (s : State) (c : CoreId) (r : FReg) (v : Dword) : (s.setF c r v).vclkStop = s.vclkStop := rfl
@[simp] theorem State.setF_dmcTraining (s : State) (c : CoreId) (r : FReg) (v : Dword) : (s.setF c r v).dmcTraining = s.dmcTraining := rfl
@[simp] theorem State.setF_patrol (s : State) (c : CoreId) (r : FReg) (v : Dword) : (s.setF c r v).patrol = s.patrol := rfl
@[simp] theorem State.setF_pwrfailN (s : State) (c : CoreId) (r : FReg) (v : Dword) : (s.setF c r v).pwrfailN = s.pwrfailN := rfl
@[simp] theorem State.setF_cmNow (s : State) (c : CoreId) (r : FReg) (v : Dword) : (s.setF c r v).cmNow = s.cmNow := rfl
@[simp] theorem State.setF_outst (s : State) (c : CoreId) (r : FReg) (v : Dword) : (s.setF c r v).outst = s.outst := rfl
@[simp] theorem State.setF_linkTx (s : State) (c : CoreId) (r : FReg) (v : Dword) : (s.setF c r v).linkTx = s.linkTx := rfl
@[simp] theorem State.setF_xacts (s : State) (c : CoreId) (r : FReg) (v : Dword) : (s.setF c r v).xacts = s.xacts := rfl
@[simp] theorem State.setF_walkCache (s : State) (c : CoreId) (r : FReg) (v : Dword) : (s.setF c r v).walkCache = s.walkCache := rfl
@[simp] theorem State.setF_walks (s : State) (c : CoreId) (r : FReg) (v : Dword) : (s.setF c r v).walks = s.walks := rfl
@[simp] theorem State.setF_vseTlb (s : State) (c : CoreId) (r : FReg) (v : Dword) : (s.setF c r v).vseTlb = s.vseTlb := rfl
@[simp] theorem State.setF_vctx (s : State) (c : CoreId) (r : FReg) (v : Dword) : (s.setF c r v).vctx = s.vctx := rfl
@[simp] theorem State.setF_eau (s : State) (c : CoreId) (r : FReg) (v : Dword) : (s.setF c r v).eau = s.eau := rfl
@[simp] theorem State.setF_stamps (s : State) (c : CoreId) (r : FReg) (v : Dword) : (s.setF c r v).stamps = s.stamps := rfl
@[simp] theorem State.setF_pwr (s : State) (c : CoreId) (r : FReg) (v : Dword) : (s.setF c r v).pwr = s.pwr := rfl
@[simp] theorem State.setF_pfFilter (s : State) (c : CoreId) (r : FReg) (v : Dword) : (s.setF c r v).pfFilter = s.pfFilter := rfl
@[simp] theorem State.setF_elgCredit (s : State) (c : CoreId) (r : FReg) (v : Dword) : (s.setF c r v).elgCredit = s.elgCredit := rfl
@[simp] theorem State.setF_elgStage (s : State) (c : CoreId) (r : FReg) (v : Dword) : (s.setF c r v).elgStage = s.elgStage := rfl
@[simp] theorem State.setF_pfT0 (s : State) (c : CoreId) (r : FReg) (v : Dword) : (s.setF c r v).pfT0 = s.pfT0 := rfl
@[simp] theorem State.setF_wakeReq (s : State) (c : CoreId) (r : FReg) (v : Dword) : (s.setF c r v).wakeReq = s.wakeReq := rfl
@[simp] theorem State.setF_bypT0 (s : State) (c : CoreId) (r : FReg) (v : Dword) : (s.setF c r v).bypT0 = s.bypT0 := rfl
@[simp] theorem State.setF_otp (s : State) (c : CoreId) (r : FReg) (v : Dword) : (s.setF c r v).otp = s.otp := rfl
@[simp] theorem State.setF_nvm (s : State) (c : CoreId) (r : FReg) (v : Dword) : (s.setF c r v).nvm = s.nvm := rfl
@[simp] theorem State.setF_boot (s : State) (c : CoreId) (r : FReg) (v : Dword) : (s.setF c r v).boot = s.boot := rfl
@[simp] theorem State.setF_nvmOp (s : State) (c : CoreId) (r : FReg) (v : Dword) : (s.setF c r v).nvmOp = s.nvmOp := rfl
@[simp] theorem State.setF_sceBank0 (s : State) (c : CoreId) (r : FReg) (v : Dword) : (s.setF c r v).sceBank0 = s.sceBank0 := rfl
@[simp] theorem State.setF_sceBank1 (s : State) (c : CoreId) (r : FReg) (v : Dword) : (s.setF c r v).sceBank1 = s.sceBank1 := rfl
@[simp] theorem State.setF_sce (s : State) (c : CoreId) (r : FReg) (v : Dword) : (s.setF c r v).sce = s.sce := rfl
@[simp] theorem State.setF_c0 (s : State) (c : CoreId) (r : FReg) (v : Dword) : (s.setF c r v).c0 = s.c0 := rfl
@[simp] theorem State.setF_mac (s : State) (c : CoreId) (r : FReg) (v : Dword) : (s.setF c r v).mac = s.mac := rfl
@[simp] theorem State.setF_qciDebt (s : State) (c : CoreId) (r : FReg) (v : Dword) : (s.setF c r v).qciDebt = s.qciDebt := rfl
@[simp] theorem State.setF_qciLast (s : State) (c : CoreId) (r : FReg) (v : Dword) : (s.setF c r v).qciLast = s.qciLast := rfl
@[simp] theorem State.setF_frer (s : State) (c : CoreId) (r : FReg) (v : Dword) : (s.setF c r v).frer = s.frer := rfl
@[simp] theorem State.setF_genSeq (s : State) (c : CoreId) (r : FReg) (v : Dword) : (s.setF c r v).genSeq = s.genSeq := rfl
@[simp] theorem State.setF_can (s : State) (c : CoreId) (r : FReg) (v : Dword) : (s.setF c r v).can = s.can := rfl
@[simp] theorem State.setF_uart (s : State) (c : CoreId) (r : FReg) (v : Dword) : (s.setF c r v).uart = s.uart := rfl
@[simp] theorem State.setF_mvbWait (s : State) (c : CoreId) (r : FReg) (v : Dword) : (s.setF c r v).mvbWait = s.mvbWait := rfl
@[simp] theorem State.setF_mvbRead (s : State) (c : CoreId) (r : FReg) (v : Dword) : (s.setF c r v).mvbRead = s.mvbRead := rfl
@[simp] theorem State.setF_mvbSent (s : State) (c : CoreId) (r : FReg) (v : Dword) : (s.setF c r v).mvbSent = s.mvbSent := rfl
@[simp] theorem State.setF_txSeq (s : State) (c : CoreId) (r : FReg) (v : Dword) : (s.setF c r v).txSeq = s.txSeq := rfl
@[simp] theorem State.setF_retries (s : State) (c : CoreId) (r : FReg) (v : Dword) : (s.setF c r v).retries = s.retries := rfl
@[simp] theorem State.setF_helloIn (s : State) (c : CoreId) (r : FReg) (v : Dword) : (s.setF c r v).helloIn = s.helloIn := rfl
@[simp] theorem State.setF_ended (s : State) (c : CoreId) (r : FReg) (v : Dword) : (s.setF c r v).ended = s.ended := rfl
@[simp] theorem State.setF_inHeld (s : State) (c : CoreId) (r : FReg) (v : Dword) : (s.setF c r v).inHeld = s.inHeld := rfl
@[simp] theorem State.setF_mgmtHeld (s : State) (c : CoreId) (r : FReg) (v : Dword) : (s.setF c r v).mgmtHeld = s.mgmtHeld := rfl
@[simp] theorem State.setF_helloSent (s : State) (c : CoreId) (r : FReg) (v : Dword) : (s.setF c r v).helloSent = s.helloSent := rfl
@[simp] theorem State.setF_exchSent (s : State) (c : CoreId) (r : FReg) (v : Dword) : (s.setF c r v).exchSent = s.exchSent := rfl
@[simp] theorem State.setF_ft (s : State) (c : CoreId) (r : FReg) (v : Dword) : (s.setF c r v).ft = s.ft := rfl
@[simp] theorem State.setF_as (s : State) (c : CoreId) (r : FReg) (v : Dword) : (s.setF c r v).as = s.as := rfl
@[simp] theorem State.setF_microWb (s : State) (c : CoreId) (r : FReg) (v : Dword) : (s.setF c r v).microWb = s.microWb := rfl
@[simp] theorem State.setF_claimed (s : State) (c : CoreId) (r : FReg) (v : Dword) : (s.setF c r v).claimed = s.claimed := rfl
@[simp] theorem State.setF_arb (s : State) (c : CoreId) (r : FReg) (v : Dword) : (s.setF c r v).arb = s.arb := rfl
@[simp] theorem State.setF_retryReq (s : State) (c : CoreId) (r : FReg) (v : Dword) : (s.setF c r v).retryReq = s.retryReq := rfl
@[simp] theorem State.setF_c1Share (s : State) (c : CoreId) (r : FReg) (v : Dword) : (s.setF c r v).c1Share = s.c1Share := rfl
@[simp] theorem State.setF_chkDirty (s : State) (c : CoreId) (r : FReg) (v : Dword) : (s.setF c r v).chkDirty = s.chkDirty := rfl
@[simp] theorem State.setF_linkActs (s : State) (c : CoreId) (r : FReg) (v : Dword) : (s.setF c r v).linkActs = s.linkActs := rfl
@[simp] theorem State.setF_stepFrom (s : State) (c : CoreId) (r : FReg) (v : Dword) : (s.setF c r v).stepFrom = s.stepFrom := rfl
@[simp] theorem State.setF_stepMark (s : State) (c : CoreId) (r : FReg) (v : Dword) : (s.setF c r v).stepMark = s.stepMark := rfl
@[simp] theorem State.setF_dmaHeld (s : State) (c : CoreId) (r : FReg) (v : Dword) : (s.setF c r v).dmaHeld = s.dmaHeld := rfl
@[simp] theorem State.setF_held (s : State) (c : CoreId) (r : FReg) (v : Dword) : (s.setF c r v).held = s.held := rfl
@[simp] theorem State.setF_lateTags (s : State) (c : CoreId) (r : FReg) (v : Dword) : (s.setF c r v).lateTags = s.lateTags := rfl
@[simp] theorem State.setF_xspi (s : State) (c : CoreId) (r : FReg) (v : Dword) : (s.setF c r v).xspi = s.xspi := rfl
@[simp] theorem State.setF_wtape (s : State) (c : CoreId) (r : FReg) (v : Dword) : (s.setF c r v).wtape = s.wtape := rfl
@[simp] theorem State.setF_wtapeN (s : State) (c : CoreId) (r : FReg) (v : Dword) : (s.setF c r v).wtapeN = s.wtapeN := rfl
@[simp] theorem State.setF_l2Old (s : State) (c : CoreId) (r : FReg) (v : Dword) : (s.setF c r v).l2Old = s.l2Old := rfl
@[simp] theorem State.setF_elg (s : State) (c : CoreId) (r : FReg) (v : Dword) : (s.setF c r v).elg = s.elg := rfl
@[simp] theorem State.setF_pmu (s : State) (c : CoreId) (r : FReg) (v : Dword) : (s.setF c r v).pmu = s.pmu := rfl
@[simp] theorem State.setF_si (s : State) (c : CoreId) (r : FReg) (v : Dword) : (s.setF c r v).si = s.si := rfl
@[simp] theorem State.setF_reg_read (s : State) (c : CoreId) (r : FReg) (v : Dword) (k : Nat) : (s.setF c r v).reg k = s.reg k := rfl
@[simp] theorem State.setF_rf_read (s : State) (c : CoreId) (r : FReg) (v : Dword) (k p q : Nat) : (s.setF c r v).rf k p q = s.rf k p q := rfl
@[simp] theorem State.setF_rb_read (s : State) (c : CoreId) (r : FReg) (v : Dword) (k p : Nat) : (s.setF c r v).rb k p = s.rb k p := rfl
@[simp] theorem State.setF_reg64_read (s : State) (c : CoreId) (r : FReg) (v : Dword) (k p : Nat) : (s.setF c r v).reg64 k p = s.reg64 k p := rfl
@[simp] theorem State.setF_byte_read (s : State) (c : CoreId) (r : FReg) (v : Dword) (k : Nat) : (s.setF c r v).byte k = s.byte k := rfl
@[simp] theorem State.setF_wrong_read (s : State) (c : CoreId) (r : FReg) (v : Dword) (k : Nat) : (s.setF c r v).wrong k = s.wrong k := rfl
@[simp] theorem State.setF_vc_read (s : State) (c : CoreId) (r : FReg) (v : Dword) (y : CtxId) : (s.setF c r v).vc y = s.vc y := rfl
@[simp] theorem State.setF_power_read (s : State) (c : CoreId) (r : FReg) (v : Dword)  : (s.setF c r v).power = s.power := rfl

@[simp] theorem State.setG_pending (s : State) (c : CoreId) (r : GReg) (v : Word) : (s.setG c r v).pending = s.pending := by
  unfold State.setG; split <;> (try split) <;> rfl
@[simp] theorem State.setG_regs (s : State) (c : CoreId) (r : GReg) (v : Word) : (s.setG c r v).regs = s.regs := by
  unfold State.setG; split <;> (try split) <;> rfl
@[simp] theorem State.setG_mem (s : State) (c : CoreId) (r : GReg) (v : Word) : (s.setG c r v).mem = s.mem := by
  unfold State.setG; split <;> (try split) <;> rfl
@[simp] theorem State.setG_ecc (s : State) (c : CoreId) (r : GReg) (v : Word) : (s.setG c r v).ecc = s.ecc := by
  unfold State.setG; split <;> (try split) <;> rfl
@[simp] theorem State.setG_dramErr (s : State) (c : CoreId) (r : GReg) (v : Word) : (s.setG c r v).dramErr = s.dramErr := by
  unfold State.setG; split <;> (try split) <;> rfl
@[simp] theorem State.setG_ceWb (s : State) (c : CoreId) (r : GReg) (v : Word) : (s.setG c r v).ceWb = s.ceWb := by
  unfold State.setG; split <;> (try split) <;> rfl
@[simp] theorem State.setG_fresh (s : State) (c : CoreId) (r : GReg) (v : Word) : (s.setG c r v).fresh = s.fresh := by
  unfold State.setG; split <;> (try split) <;> rfl
@[simp] theorem State.setG_icuHeld (s : State) (c : CoreId) (r : GReg) (v : Word) : (s.setG c r v).icuHeld = s.icuHeld := by
  unfold State.setG; split <;> (try split) <;> rfl
@[simp] theorem State.setG_edges (s : State) (c : CoreId) (r : GReg) (v : Word) : (s.setG c r v).edges = s.edges := by
  unfold State.setG; split <;> (try split) <;> rfl
@[simp] theorem State.setG_tb (s : State) (c : CoreId) (r : GReg) (v : Word) : (s.setG c r v).tb = s.tb := by
  unfold State.setG; split <;> (try split) <;> rfl
@[simp] theorem State.setG_tbSub (s : State) (c : CoreId) (r : GReg) (v : Word) : (s.setG c r v).tbSub = s.tbSub := by
  unfold State.setG; split <;> (try split) <;> rfl
@[simp] theorem State.setG_adjPend (s : State) (c : CoreId) (r : GReg) (v : Word) : (s.setG c r v).adjPend = s.adjPend := by
  unfold State.setG; split <;> (try split) <;> rfl
@[simp] theorem State.setG_xclk (s : State) (c : CoreId) (r : GReg) (v : Word) : (s.setG c r v).xclk = s.xclk := by
  unfold State.setG; split <;> (try split) <;> rfl
@[simp] theorem State.setG_tmAcc (s : State) (c : CoreId) (r : GReg) (v : Word) : (s.setG c r v).tmAcc = s.tmAcc := by
  unfold State.setG; split <;> (try split) <;> rfl
@[simp] theorem State.setG_evrHeld (s : State) (c : CoreId) (r : GReg) (v : Word) : (s.setG c r v).evrHeld = s.evrHeld := by
  unfold State.setG; split <;> (try split) <;> rfl
@[simp] theorem State.setG_evoutBusy (s : State) (c : CoreId) (r : GReg) (v : Word) : (s.setG c r v).evoutBusy = s.evoutBusy := by
  unfold State.setG; split <;> (try split) <;> rfl
@[simp] theorem State.setG_evoutLvl (s : State) (c : CoreId) (r : GReg) (v : Word) : (s.setG c r v).evoutLvl = s.evoutLvl := by
  unfold State.setG; split <;> (try split) <;> rfl
@[simp] theorem State.setG_capDead (s : State) (c : CoreId) (r : GReg) (v : Word) : (s.setG c r v).capDead = s.capDead := by
  unfold State.setG; split <;> (try split) <;> rfl
@[simp] theorem State.setG_fillRun (s : State) (c : CoreId) (r : GReg) (v : Word) : (s.setG c r v).fillRun = s.fillRun := by
  unfold State.setG; split <;> (try split) <;> rfl
@[simp] theorem State.setG_ergSlots (s : State) (c : CoreId) (r : GReg) (v : Word) : (s.setG c r v).ergSlots = s.ergSlots := by
  unfold State.setG; split <;> (try split) <;> rfl
@[simp] theorem State.setG_scrubT0 (s : State) (c : CoreId) (r : GReg) (v : Word) : (s.setG c r v).scrubT0 = s.scrubT0 := by
  unfold State.setG; split <;> (try split) <;> rfl
@[simp] theorem State.setG_lapLate (s : State) (c : CoreId) (r : GReg) (v : Word) : (s.setG c r v).lapLate = s.lapLate := by
  unfold State.setG; split <;> (try split) <;> rfl
@[simp] theorem State.setG_vclkStop (s : State) (c : CoreId) (r : GReg) (v : Word) : (s.setG c r v).vclkStop = s.vclkStop := by
  unfold State.setG; split <;> (try split) <;> rfl
@[simp] theorem State.setG_dmcTraining (s : State) (c : CoreId) (r : GReg) (v : Word) : (s.setG c r v).dmcTraining = s.dmcTraining := by
  unfold State.setG; split <;> (try split) <;> rfl
@[simp] theorem State.setG_patrol (s : State) (c : CoreId) (r : GReg) (v : Word) : (s.setG c r v).patrol = s.patrol := by
  unfold State.setG; split <;> (try split) <;> rfl
@[simp] theorem State.setG_pwrfailN (s : State) (c : CoreId) (r : GReg) (v : Word) : (s.setG c r v).pwrfailN = s.pwrfailN := by
  unfold State.setG; split <;> (try split) <;> rfl
@[simp] theorem State.setG_cmNow (s : State) (c : CoreId) (r : GReg) (v : Word) : (s.setG c r v).cmNow = s.cmNow := by
  unfold State.setG; split <;> (try split) <;> rfl
@[simp] theorem State.setG_outst (s : State) (c : CoreId) (r : GReg) (v : Word) : (s.setG c r v).outst = s.outst := by
  unfold State.setG; split <;> (try split) <;> rfl
@[simp] theorem State.setG_linkTx (s : State) (c : CoreId) (r : GReg) (v : Word) : (s.setG c r v).linkTx = s.linkTx := by
  unfold State.setG; split <;> (try split) <;> rfl
@[simp] theorem State.setG_xacts (s : State) (c : CoreId) (r : GReg) (v : Word) : (s.setG c r v).xacts = s.xacts := by
  unfold State.setG; split <;> (try split) <;> rfl
@[simp] theorem State.setG_walkCache (s : State) (c : CoreId) (r : GReg) (v : Word) : (s.setG c r v).walkCache = s.walkCache := by
  unfold State.setG; split <;> (try split) <;> rfl
@[simp] theorem State.setG_walks (s : State) (c : CoreId) (r : GReg) (v : Word) : (s.setG c r v).walks = s.walks := by
  unfold State.setG; split <;> (try split) <;> rfl
@[simp] theorem State.setG_vseTlb (s : State) (c : CoreId) (r : GReg) (v : Word) : (s.setG c r v).vseTlb = s.vseTlb := by
  unfold State.setG; split <;> (try split) <;> rfl
@[simp] theorem State.setG_vctx (s : State) (c : CoreId) (r : GReg) (v : Word) : (s.setG c r v).vctx = s.vctx := by
  unfold State.setG; split <;> (try split) <;> rfl
@[simp] theorem State.setG_eau (s : State) (c : CoreId) (r : GReg) (v : Word) : (s.setG c r v).eau = s.eau := by
  unfold State.setG; split <;> (try split) <;> rfl
@[simp] theorem State.setG_stamps (s : State) (c : CoreId) (r : GReg) (v : Word) : (s.setG c r v).stamps = s.stamps := by
  unfold State.setG; split <;> (try split) <;> rfl
@[simp] theorem State.setG_pwr (s : State) (c : CoreId) (r : GReg) (v : Word) : (s.setG c r v).pwr = s.pwr := by
  unfold State.setG; split <;> (try split) <;> rfl
@[simp] theorem State.setG_pfFilter (s : State) (c : CoreId) (r : GReg) (v : Word) : (s.setG c r v).pfFilter = s.pfFilter := by
  unfold State.setG; split <;> (try split) <;> rfl
@[simp] theorem State.setG_elgCredit (s : State) (c : CoreId) (r : GReg) (v : Word) : (s.setG c r v).elgCredit = s.elgCredit := by
  unfold State.setG; split <;> (try split) <;> rfl
@[simp] theorem State.setG_elgStage (s : State) (c : CoreId) (r : GReg) (v : Word) : (s.setG c r v).elgStage = s.elgStage := by
  unfold State.setG; split <;> (try split) <;> rfl
@[simp] theorem State.setG_pfT0 (s : State) (c : CoreId) (r : GReg) (v : Word) : (s.setG c r v).pfT0 = s.pfT0 := by
  unfold State.setG; split <;> (try split) <;> rfl
@[simp] theorem State.setG_wakeReq (s : State) (c : CoreId) (r : GReg) (v : Word) : (s.setG c r v).wakeReq = s.wakeReq := by
  unfold State.setG; split <;> (try split) <;> rfl
@[simp] theorem State.setG_bypT0 (s : State) (c : CoreId) (r : GReg) (v : Word) : (s.setG c r v).bypT0 = s.bypT0 := by
  unfold State.setG; split <;> (try split) <;> rfl
@[simp] theorem State.setG_otp (s : State) (c : CoreId) (r : GReg) (v : Word) : (s.setG c r v).otp = s.otp := by
  unfold State.setG; split <;> (try split) <;> rfl
@[simp] theorem State.setG_nvm (s : State) (c : CoreId) (r : GReg) (v : Word) : (s.setG c r v).nvm = s.nvm := by
  unfold State.setG; split <;> (try split) <;> rfl
@[simp] theorem State.setG_boot (s : State) (c : CoreId) (r : GReg) (v : Word) : (s.setG c r v).boot = s.boot := by
  unfold State.setG; split <;> (try split) <;> rfl
@[simp] theorem State.setG_nvmOp (s : State) (c : CoreId) (r : GReg) (v : Word) : (s.setG c r v).nvmOp = s.nvmOp := by
  unfold State.setG; split <;> (try split) <;> rfl
@[simp] theorem State.setG_sceBank0 (s : State) (c : CoreId) (r : GReg) (v : Word) : (s.setG c r v).sceBank0 = s.sceBank0 := by
  unfold State.setG; split <;> (try split) <;> rfl
@[simp] theorem State.setG_sceBank1 (s : State) (c : CoreId) (r : GReg) (v : Word) : (s.setG c r v).sceBank1 = s.sceBank1 := by
  unfold State.setG; split <;> (try split) <;> rfl
@[simp] theorem State.setG_sce (s : State) (c : CoreId) (r : GReg) (v : Word) : (s.setG c r v).sce = s.sce := by
  unfold State.setG; split <;> (try split) <;> rfl
@[simp] theorem State.setG_c0 (s : State) (c : CoreId) (r : GReg) (v : Word) : (s.setG c r v).c0 = s.c0 := by
  unfold State.setG; split <;> (try split) <;> rfl
@[simp] theorem State.setG_mac (s : State) (c : CoreId) (r : GReg) (v : Word) : (s.setG c r v).mac = s.mac := by
  unfold State.setG; split <;> (try split) <;> rfl
@[simp] theorem State.setG_qciDebt (s : State) (c : CoreId) (r : GReg) (v : Word) : (s.setG c r v).qciDebt = s.qciDebt := by
  unfold State.setG; split <;> (try split) <;> rfl
@[simp] theorem State.setG_qciLast (s : State) (c : CoreId) (r : GReg) (v : Word) : (s.setG c r v).qciLast = s.qciLast := by
  unfold State.setG; split <;> (try split) <;> rfl
@[simp] theorem State.setG_frer (s : State) (c : CoreId) (r : GReg) (v : Word) : (s.setG c r v).frer = s.frer := by
  unfold State.setG; split <;> (try split) <;> rfl
@[simp] theorem State.setG_genSeq (s : State) (c : CoreId) (r : GReg) (v : Word) : (s.setG c r v).genSeq = s.genSeq := by
  unfold State.setG; split <;> (try split) <;> rfl
@[simp] theorem State.setG_can (s : State) (c : CoreId) (r : GReg) (v : Word) : (s.setG c r v).can = s.can := by
  unfold State.setG; split <;> (try split) <;> rfl
@[simp] theorem State.setG_uart (s : State) (c : CoreId) (r : GReg) (v : Word) : (s.setG c r v).uart = s.uart := by
  unfold State.setG; split <;> (try split) <;> rfl
@[simp] theorem State.setG_mvbWait (s : State) (c : CoreId) (r : GReg) (v : Word) : (s.setG c r v).mvbWait = s.mvbWait := by
  unfold State.setG; split <;> (try split) <;> rfl
@[simp] theorem State.setG_mvbRead (s : State) (c : CoreId) (r : GReg) (v : Word) : (s.setG c r v).mvbRead = s.mvbRead := by
  unfold State.setG; split <;> (try split) <;> rfl
@[simp] theorem State.setG_mvbSent (s : State) (c : CoreId) (r : GReg) (v : Word) : (s.setG c r v).mvbSent = s.mvbSent := by
  unfold State.setG; split <;> (try split) <;> rfl
@[simp] theorem State.setG_txSeq (s : State) (c : CoreId) (r : GReg) (v : Word) : (s.setG c r v).txSeq = s.txSeq := by
  unfold State.setG; split <;> (try split) <;> rfl
@[simp] theorem State.setG_retries (s : State) (c : CoreId) (r : GReg) (v : Word) : (s.setG c r v).retries = s.retries := by
  unfold State.setG; split <;> (try split) <;> rfl
@[simp] theorem State.setG_helloIn (s : State) (c : CoreId) (r : GReg) (v : Word) : (s.setG c r v).helloIn = s.helloIn := by
  unfold State.setG; split <;> (try split) <;> rfl
@[simp] theorem State.setG_ended (s : State) (c : CoreId) (r : GReg) (v : Word) : (s.setG c r v).ended = s.ended := by
  unfold State.setG; split <;> (try split) <;> rfl
@[simp] theorem State.setG_inHeld (s : State) (c : CoreId) (r : GReg) (v : Word) : (s.setG c r v).inHeld = s.inHeld := by
  unfold State.setG; split <;> (try split) <;> rfl
@[simp] theorem State.setG_mgmtHeld (s : State) (c : CoreId) (r : GReg) (v : Word) : (s.setG c r v).mgmtHeld = s.mgmtHeld := by
  unfold State.setG; split <;> (try split) <;> rfl
@[simp] theorem State.setG_helloSent (s : State) (c : CoreId) (r : GReg) (v : Word) : (s.setG c r v).helloSent = s.helloSent := by
  unfold State.setG; split <;> (try split) <;> rfl
@[simp] theorem State.setG_exchSent (s : State) (c : CoreId) (r : GReg) (v : Word) : (s.setG c r v).exchSent = s.exchSent := by
  unfold State.setG; split <;> (try split) <;> rfl
@[simp] theorem State.setG_ft (s : State) (c : CoreId) (r : GReg) (v : Word) : (s.setG c r v).ft = s.ft := by
  unfold State.setG; split <;> (try split) <;> rfl
@[simp] theorem State.setG_as (s : State) (c : CoreId) (r : GReg) (v : Word) : (s.setG c r v).as = s.as := by
  unfold State.setG; split <;> (try split) <;> rfl
@[simp] theorem State.setG_microWb (s : State) (c : CoreId) (r : GReg) (v : Word) : (s.setG c r v).microWb = s.microWb := by
  unfold State.setG; split <;> (try split) <;> rfl
@[simp] theorem State.setG_claimed (s : State) (c : CoreId) (r : GReg) (v : Word) : (s.setG c r v).claimed = s.claimed := by
  unfold State.setG; split <;> (try split) <;> rfl
@[simp] theorem State.setG_arb (s : State) (c : CoreId) (r : GReg) (v : Word) : (s.setG c r v).arb = s.arb := by
  unfold State.setG; split <;> (try split) <;> rfl
@[simp] theorem State.setG_retryReq (s : State) (c : CoreId) (r : GReg) (v : Word) : (s.setG c r v).retryReq = s.retryReq := by
  unfold State.setG; split <;> (try split) <;> rfl
@[simp] theorem State.setG_c1Share (s : State) (c : CoreId) (r : GReg) (v : Word) : (s.setG c r v).c1Share = s.c1Share := by
  unfold State.setG; split <;> (try split) <;> rfl
@[simp] theorem State.setG_chkDirty (s : State) (c : CoreId) (r : GReg) (v : Word) : (s.setG c r v).chkDirty = s.chkDirty := by
  unfold State.setG; split <;> (try split) <;> rfl
@[simp] theorem State.setG_linkActs (s : State) (c : CoreId) (r : GReg) (v : Word) : (s.setG c r v).linkActs = s.linkActs := by
  unfold State.setG; split <;> (try split) <;> rfl
@[simp] theorem State.setG_stepFrom (s : State) (c : CoreId) (r : GReg) (v : Word) : (s.setG c r v).stepFrom = s.stepFrom := by
  unfold State.setG; split <;> (try split) <;> rfl
@[simp] theorem State.setG_stepMark (s : State) (c : CoreId) (r : GReg) (v : Word) : (s.setG c r v).stepMark = s.stepMark := by
  unfold State.setG; split <;> (try split) <;> rfl
@[simp] theorem State.setG_dmaHeld (s : State) (c : CoreId) (r : GReg) (v : Word) : (s.setG c r v).dmaHeld = s.dmaHeld := by
  unfold State.setG; split <;> (try split) <;> rfl
@[simp] theorem State.setG_held (s : State) (c : CoreId) (r : GReg) (v : Word) : (s.setG c r v).held = s.held := by
  unfold State.setG; split <;> (try split) <;> rfl
@[simp] theorem State.setG_lateTags (s : State) (c : CoreId) (r : GReg) (v : Word) : (s.setG c r v).lateTags = s.lateTags := by
  unfold State.setG; split <;> (try split) <;> rfl
@[simp] theorem State.setG_xspi (s : State) (c : CoreId) (r : GReg) (v : Word) : (s.setG c r v).xspi = s.xspi := by
  unfold State.setG; split <;> (try split) <;> rfl
@[simp] theorem State.setG_wtape (s : State) (c : CoreId) (r : GReg) (v : Word) : (s.setG c r v).wtape = s.wtape := by
  unfold State.setG; split <;> (try split) <;> rfl
@[simp] theorem State.setG_wtapeN (s : State) (c : CoreId) (r : GReg) (v : Word) : (s.setG c r v).wtapeN = s.wtapeN := by
  unfold State.setG; split <;> (try split) <;> rfl
@[simp] theorem State.setG_l2Old (s : State) (c : CoreId) (r : GReg) (v : Word) : (s.setG c r v).l2Old = s.l2Old := by
  unfold State.setG; split <;> (try split) <;> rfl
@[simp] theorem State.setG_elg (s : State) (c : CoreId) (r : GReg) (v : Word) : (s.setG c r v).elg = s.elg := by
  unfold State.setG; split <;> (try split) <;> rfl
@[simp] theorem State.setG_pmu (s : State) (c : CoreId) (r : GReg) (v : Word) : (s.setG c r v).pmu = s.pmu := by
  unfold State.setG; split <;> (try split) <;> rfl
@[simp] theorem State.setG_si (s : State) (c : CoreId) (r : GReg) (v : Word) : (s.setG c r v).si = s.si := by
  unfold State.setG; split <;> (try split) <;> rfl
@[simp] theorem State.setG_reg_read (s : State) (c : CoreId) (r : GReg) (v : Word) (k : Nat) : (s.setG c r v).reg k = s.reg k := by
  unfold State.setG; split <;> (try split) <;> rfl
@[simp] theorem State.setG_rf_read (s : State) (c : CoreId) (r : GReg) (v : Word) (k p q : Nat) : (s.setG c r v).rf k p q = s.rf k p q := by
  unfold State.setG; split <;> (try split) <;> rfl
@[simp] theorem State.setG_rb_read (s : State) (c : CoreId) (r : GReg) (v : Word) (k p : Nat) : (s.setG c r v).rb k p = s.rb k p := by
  unfold State.setG; split <;> (try split) <;> rfl
@[simp] theorem State.setG_reg64_read (s : State) (c : CoreId) (r : GReg) (v : Word) (k p : Nat) : (s.setG c r v).reg64 k p = s.reg64 k p := by
  unfold State.setG; split <;> (try split) <;> rfl
@[simp] theorem State.setG_byte_read (s : State) (c : CoreId) (r : GReg) (v : Word) (k : Nat) : (s.setG c r v).byte k = s.byte k := by
  unfold State.setG; split <;> (try split) <;> rfl
@[simp] theorem State.setG_wrong_read (s : State) (c : CoreId) (r : GReg) (v : Word) (k : Nat) : (s.setG c r v).wrong k = s.wrong k := by
  unfold State.setG; split <;> (try split) <;> rfl
@[simp] theorem State.setG_vc_read (s : State) (c : CoreId) (r : GReg) (v : Word) (y : CtxId) : (s.setG c r v).vc y = s.vc y := by
  unfold State.setG; split <;> (try split) <;> rfl
@[simp] theorem State.setG_power_read (s : State) (c : CoreId) (r : GReg) (v : Word)  : (s.setG c r v).power = s.power := by
  unfold State.setG; split <;> (try split) <;> rfl

@[simp] theorem State.setByte_pending (s : State) (a : Nat) (v : Byte) : (s.setByte a v).pending = s.pending := rfl
@[simp] theorem State.setByte_regs (s : State) (a : Nat) (v : Byte) : (s.setByte a v).regs = s.regs := rfl
@[simp] theorem State.setByte_cores (s : State) (a : Nat) (v : Byte) : (s.setByte a v).cores = s.cores := rfl
@[simp] theorem State.setByte_ecc (s : State) (a : Nat) (v : Byte) : (s.setByte a v).ecc = s.ecc := rfl
@[simp] theorem State.setByte_dramErr (s : State) (a : Nat) (v : Byte) : (s.setByte a v).dramErr = s.dramErr := rfl
@[simp] theorem State.setByte_ceWb (s : State) (a : Nat) (v : Byte) : (s.setByte a v).ceWb = s.ceWb := rfl
@[simp] theorem State.setByte_fresh (s : State) (a : Nat) (v : Byte) : (s.setByte a v).fresh = s.fresh := rfl
@[simp] theorem State.setByte_icuHeld (s : State) (a : Nat) (v : Byte) : (s.setByte a v).icuHeld = s.icuHeld := rfl
@[simp] theorem State.setByte_edges (s : State) (a : Nat) (v : Byte) : (s.setByte a v).edges = s.edges := rfl
@[simp] theorem State.setByte_tb (s : State) (a : Nat) (v : Byte) : (s.setByte a v).tb = s.tb := rfl
@[simp] theorem State.setByte_tbSub (s : State) (a : Nat) (v : Byte) : (s.setByte a v).tbSub = s.tbSub := rfl
@[simp] theorem State.setByte_adjPend (s : State) (a : Nat) (v : Byte) : (s.setByte a v).adjPend = s.adjPend := rfl
@[simp] theorem State.setByte_xclk (s : State) (a : Nat) (v : Byte) : (s.setByte a v).xclk = s.xclk := rfl
@[simp] theorem State.setByte_tmAcc (s : State) (a : Nat) (v : Byte) : (s.setByte a v).tmAcc = s.tmAcc := rfl
@[simp] theorem State.setByte_evrHeld (s : State) (a : Nat) (v : Byte) : (s.setByte a v).evrHeld = s.evrHeld := rfl
@[simp] theorem State.setByte_evoutBusy (s : State) (a : Nat) (v : Byte) : (s.setByte a v).evoutBusy = s.evoutBusy := rfl
@[simp] theorem State.setByte_evoutLvl (s : State) (a : Nat) (v : Byte) : (s.setByte a v).evoutLvl = s.evoutLvl := rfl
@[simp] theorem State.setByte_capDead (s : State) (a : Nat) (v : Byte) : (s.setByte a v).capDead = s.capDead := rfl
@[simp] theorem State.setByte_fillRun (s : State) (a : Nat) (v : Byte) : (s.setByte a v).fillRun = s.fillRun := rfl
@[simp] theorem State.setByte_ergSlots (s : State) (a : Nat) (v : Byte) : (s.setByte a v).ergSlots = s.ergSlots := rfl
@[simp] theorem State.setByte_scrubT0 (s : State) (a : Nat) (v : Byte) : (s.setByte a v).scrubT0 = s.scrubT0 := rfl
@[simp] theorem State.setByte_lapLate (s : State) (a : Nat) (v : Byte) : (s.setByte a v).lapLate = s.lapLate := rfl
@[simp] theorem State.setByte_vclkStop (s : State) (a : Nat) (v : Byte) : (s.setByte a v).vclkStop = s.vclkStop := rfl
@[simp] theorem State.setByte_dmcTraining (s : State) (a : Nat) (v : Byte) : (s.setByte a v).dmcTraining = s.dmcTraining := rfl
@[simp] theorem State.setByte_patrol (s : State) (a : Nat) (v : Byte) : (s.setByte a v).patrol = s.patrol := rfl
@[simp] theorem State.setByte_pwrfailN (s : State) (a : Nat) (v : Byte) : (s.setByte a v).pwrfailN = s.pwrfailN := rfl
@[simp] theorem State.setByte_cmNow (s : State) (a : Nat) (v : Byte) : (s.setByte a v).cmNow = s.cmNow := rfl
@[simp] theorem State.setByte_outst (s : State) (a : Nat) (v : Byte) : (s.setByte a v).outst = s.outst := rfl
@[simp] theorem State.setByte_linkTx (s : State) (a : Nat) (v : Byte) : (s.setByte a v).linkTx = s.linkTx := rfl
@[simp] theorem State.setByte_xacts (s : State) (a : Nat) (v : Byte) : (s.setByte a v).xacts = s.xacts := rfl
@[simp] theorem State.setByte_walkCache (s : State) (a : Nat) (v : Byte) : (s.setByte a v).walkCache = s.walkCache := rfl
@[simp] theorem State.setByte_walks (s : State) (a : Nat) (v : Byte) : (s.setByte a v).walks = s.walks := rfl
@[simp] theorem State.setByte_vseTlb (s : State) (a : Nat) (v : Byte) : (s.setByte a v).vseTlb = s.vseTlb := rfl
@[simp] theorem State.setByte_vctx (s : State) (a : Nat) (v : Byte) : (s.setByte a v).vctx = s.vctx := rfl
@[simp] theorem State.setByte_eau (s : State) (a : Nat) (v : Byte) : (s.setByte a v).eau = s.eau := rfl
@[simp] theorem State.setByte_stamps (s : State) (a : Nat) (v : Byte) : (s.setByte a v).stamps = s.stamps := rfl
@[simp] theorem State.setByte_pwr (s : State) (a : Nat) (v : Byte) : (s.setByte a v).pwr = s.pwr := rfl
@[simp] theorem State.setByte_pfFilter (s : State) (a : Nat) (v : Byte) : (s.setByte a v).pfFilter = s.pfFilter := rfl
@[simp] theorem State.setByte_elgCredit (s : State) (a : Nat) (v : Byte) : (s.setByte a v).elgCredit = s.elgCredit := rfl
@[simp] theorem State.setByte_elgStage (s : State) (a : Nat) (v : Byte) : (s.setByte a v).elgStage = s.elgStage := rfl
@[simp] theorem State.setByte_pfT0 (s : State) (a : Nat) (v : Byte) : (s.setByte a v).pfT0 = s.pfT0 := rfl
@[simp] theorem State.setByte_wakeReq (s : State) (a : Nat) (v : Byte) : (s.setByte a v).wakeReq = s.wakeReq := rfl
@[simp] theorem State.setByte_bypT0 (s : State) (a : Nat) (v : Byte) : (s.setByte a v).bypT0 = s.bypT0 := rfl
@[simp] theorem State.setByte_otp (s : State) (a : Nat) (v : Byte) : (s.setByte a v).otp = s.otp := rfl
@[simp] theorem State.setByte_nvm (s : State) (a : Nat) (v : Byte) : (s.setByte a v).nvm = s.nvm := rfl
@[simp] theorem State.setByte_boot (s : State) (a : Nat) (v : Byte) : (s.setByte a v).boot = s.boot := rfl
@[simp] theorem State.setByte_nvmOp (s : State) (a : Nat) (v : Byte) : (s.setByte a v).nvmOp = s.nvmOp := rfl
@[simp] theorem State.setByte_sceBank0 (s : State) (a : Nat) (v : Byte) : (s.setByte a v).sceBank0 = s.sceBank0 := rfl
@[simp] theorem State.setByte_sceBank1 (s : State) (a : Nat) (v : Byte) : (s.setByte a v).sceBank1 = s.sceBank1 := rfl
@[simp] theorem State.setByte_sce (s : State) (a : Nat) (v : Byte) : (s.setByte a v).sce = s.sce := rfl
@[simp] theorem State.setByte_c0 (s : State) (a : Nat) (v : Byte) : (s.setByte a v).c0 = s.c0 := rfl
@[simp] theorem State.setByte_mac (s : State) (a : Nat) (v : Byte) : (s.setByte a v).mac = s.mac := rfl
@[simp] theorem State.setByte_qciDebt (s : State) (a : Nat) (v : Byte) : (s.setByte a v).qciDebt = s.qciDebt := rfl
@[simp] theorem State.setByte_qciLast (s : State) (a : Nat) (v : Byte) : (s.setByte a v).qciLast = s.qciLast := rfl
@[simp] theorem State.setByte_frer (s : State) (a : Nat) (v : Byte) : (s.setByte a v).frer = s.frer := rfl
@[simp] theorem State.setByte_genSeq (s : State) (a : Nat) (v : Byte) : (s.setByte a v).genSeq = s.genSeq := rfl
@[simp] theorem State.setByte_can (s : State) (a : Nat) (v : Byte) : (s.setByte a v).can = s.can := rfl
@[simp] theorem State.setByte_uart (s : State) (a : Nat) (v : Byte) : (s.setByte a v).uart = s.uart := rfl
@[simp] theorem State.setByte_mvbWait (s : State) (a : Nat) (v : Byte) : (s.setByte a v).mvbWait = s.mvbWait := rfl
@[simp] theorem State.setByte_mvbRead (s : State) (a : Nat) (v : Byte) : (s.setByte a v).mvbRead = s.mvbRead := rfl
@[simp] theorem State.setByte_mvbSent (s : State) (a : Nat) (v : Byte) : (s.setByte a v).mvbSent = s.mvbSent := rfl
@[simp] theorem State.setByte_txSeq (s : State) (a : Nat) (v : Byte) : (s.setByte a v).txSeq = s.txSeq := rfl
@[simp] theorem State.setByte_retries (s : State) (a : Nat) (v : Byte) : (s.setByte a v).retries = s.retries := rfl
@[simp] theorem State.setByte_helloIn (s : State) (a : Nat) (v : Byte) : (s.setByte a v).helloIn = s.helloIn := rfl
@[simp] theorem State.setByte_ended (s : State) (a : Nat) (v : Byte) : (s.setByte a v).ended = s.ended := rfl
@[simp] theorem State.setByte_inHeld (s : State) (a : Nat) (v : Byte) : (s.setByte a v).inHeld = s.inHeld := rfl
@[simp] theorem State.setByte_mgmtHeld (s : State) (a : Nat) (v : Byte) : (s.setByte a v).mgmtHeld = s.mgmtHeld := rfl
@[simp] theorem State.setByte_helloSent (s : State) (a : Nat) (v : Byte) : (s.setByte a v).helloSent = s.helloSent := rfl
@[simp] theorem State.setByte_exchSent (s : State) (a : Nat) (v : Byte) : (s.setByte a v).exchSent = s.exchSent := rfl
@[simp] theorem State.setByte_ft (s : State) (a : Nat) (v : Byte) : (s.setByte a v).ft = s.ft := rfl
@[simp] theorem State.setByte_as (s : State) (a : Nat) (v : Byte) : (s.setByte a v).as = s.as := rfl
@[simp] theorem State.setByte_microWb (s : State) (a : Nat) (v : Byte) : (s.setByte a v).microWb = s.microWb := rfl
@[simp] theorem State.setByte_claimed (s : State) (a : Nat) (v : Byte) : (s.setByte a v).claimed = s.claimed := rfl
@[simp] theorem State.setByte_arb (s : State) (a : Nat) (v : Byte) : (s.setByte a v).arb = s.arb := rfl
@[simp] theorem State.setByte_retryReq (s : State) (a : Nat) (v : Byte) : (s.setByte a v).retryReq = s.retryReq := rfl
@[simp] theorem State.setByte_c1Share (s : State) (a : Nat) (v : Byte) : (s.setByte a v).c1Share = s.c1Share := rfl
@[simp] theorem State.setByte_chkDirty (s : State) (a : Nat) (v : Byte) : (s.setByte a v).chkDirty = s.chkDirty := rfl
@[simp] theorem State.setByte_linkActs (s : State) (a : Nat) (v : Byte) : (s.setByte a v).linkActs = s.linkActs := rfl
@[simp] theorem State.setByte_stepFrom (s : State) (a : Nat) (v : Byte) : (s.setByte a v).stepFrom = s.stepFrom := rfl
@[simp] theorem State.setByte_stepMark (s : State) (a : Nat) (v : Byte) : (s.setByte a v).stepMark = s.stepMark := rfl
@[simp] theorem State.setByte_dmaHeld (s : State) (a : Nat) (v : Byte) : (s.setByte a v).dmaHeld = s.dmaHeld := rfl
@[simp] theorem State.setByte_held (s : State) (a : Nat) (v : Byte) : (s.setByte a v).held = s.held := rfl
@[simp] theorem State.setByte_lateTags (s : State) (a : Nat) (v : Byte) : (s.setByte a v).lateTags = s.lateTags := rfl
@[simp] theorem State.setByte_xspi (s : State) (a : Nat) (v : Byte) : (s.setByte a v).xspi = s.xspi := rfl
@[simp] theorem State.setByte_wtape (s : State) (a : Nat) (v : Byte) : (s.setByte a v).wtape = s.wtape := rfl
@[simp] theorem State.setByte_wtapeN (s : State) (a : Nat) (v : Byte) : (s.setByte a v).wtapeN = s.wtapeN := rfl
@[simp] theorem State.setByte_l2Old (s : State) (a : Nat) (v : Byte) : (s.setByte a v).l2Old = s.l2Old := rfl
@[simp] theorem State.setByte_elg (s : State) (a : Nat) (v : Byte) : (s.setByte a v).elg = s.elg := rfl
@[simp] theorem State.setByte_pmu (s : State) (a : Nat) (v : Byte) : (s.setByte a v).pmu = s.pmu := rfl
@[simp] theorem State.setByte_si (s : State) (a : Nat) (v : Byte) : (s.setByte a v).si = s.si := rfl
@[simp] theorem State.setByte_reg_read (s : State) (a : Nat) (v : Byte) (k : Nat) : (s.setByte a v).reg k = s.reg k := rfl
@[simp] theorem State.setByte_rf_read (s : State) (a : Nat) (v : Byte) (k p q : Nat) : (s.setByte a v).rf k p q = s.rf k p q := rfl
@[simp] theorem State.setByte_rb_read (s : State) (a : Nat) (v : Byte) (k p : Nat) : (s.setByte a v).rb k p = s.rb k p := rfl
@[simp] theorem State.setByte_reg64_read (s : State) (a : Nat) (v : Byte) (k p : Nat) : (s.setByte a v).reg64 k p = s.reg64 k p := rfl
@[simp] theorem State.setByte_core_read (s : State) (a : Nat) (v : Byte) (i : CoreId) : (s.setByte a v).core i = s.core i := rfl
@[simp] theorem State.setByte_sr_read (s : State) (a : Nat) (v : Byte) (i : CoreId) (k : Nat) : (s.setByte a v).sr i k = s.sr i k := rfl
@[simp] theorem State.setByte_srf_read (s : State) (a : Nat) (v : Byte) (i : CoreId) (k p q : Nat) : (s.setByte a v).srf i k p q = s.srf i k p q := rfl
@[simp] theorem State.setByte_g_read (s : State) (a : Nat) (v : Byte) (i : CoreId) (t : GReg) : (s.setByte a v).g i t = s.g i t := rfl
@[simp] theorem State.setByte_f_read (s : State) (a : Nat) (v : Byte) (i : CoreId) (t : FReg) : (s.setByte a v).f i t = s.f i t := rfl
@[simp] theorem State.setByte_q_read (s : State) (a : Nat) (v : Byte) (i : CoreId) (t : QReg) : (s.setByte a v).q i t = s.q i t := rfl
@[simp] theorem State.setByte_pc_read (s : State) (a : Nat) (v : Byte) (i : CoreId) : (s.setByte a v).pc i = s.pc i := rfl
@[simp] theorem State.setByte_lvl_read (s : State) (a : Nat) (v : Byte) (i : CoreId) : (s.setByte a v).lvl i = s.lvl i := rfl
@[simp] theorem State.setByte_wrong_read (s : State) (a : Nat) (v : Byte) (k : Nat) : (s.setByte a v).wrong k = s.wrong k := rfl
@[simp] theorem State.setByte_vc_read (s : State) (a : Nat) (v : Byte) (y : CtxId) : (s.setByte a v).vc y = s.vc y := rfl
@[simp] theorem State.setByte_power_read (s : State) (a : Nat) (v : Byte)  : (s.setByte a v).power = s.power := rfl

@[simp] theorem State.setEcc_pending (s : State) (a : Nat) (v : BitVec 13) : (s.setEcc a v).pending = s.pending := rfl
@[simp] theorem State.setEcc_regs (s : State) (a : Nat) (v : BitVec 13) : (s.setEcc a v).regs = s.regs := rfl
@[simp] theorem State.setEcc_cores (s : State) (a : Nat) (v : BitVec 13) : (s.setEcc a v).cores = s.cores := rfl
@[simp] theorem State.setEcc_mem (s : State) (a : Nat) (v : BitVec 13) : (s.setEcc a v).mem = s.mem := rfl
@[simp] theorem State.setEcc_dramErr (s : State) (a : Nat) (v : BitVec 13) : (s.setEcc a v).dramErr = s.dramErr := rfl
@[simp] theorem State.setEcc_ceWb (s : State) (a : Nat) (v : BitVec 13) : (s.setEcc a v).ceWb = s.ceWb := rfl
@[simp] theorem State.setEcc_fresh (s : State) (a : Nat) (v : BitVec 13) : (s.setEcc a v).fresh = s.fresh := rfl
@[simp] theorem State.setEcc_icuHeld (s : State) (a : Nat) (v : BitVec 13) : (s.setEcc a v).icuHeld = s.icuHeld := rfl
@[simp] theorem State.setEcc_edges (s : State) (a : Nat) (v : BitVec 13) : (s.setEcc a v).edges = s.edges := rfl
@[simp] theorem State.setEcc_tb (s : State) (a : Nat) (v : BitVec 13) : (s.setEcc a v).tb = s.tb := rfl
@[simp] theorem State.setEcc_tbSub (s : State) (a : Nat) (v : BitVec 13) : (s.setEcc a v).tbSub = s.tbSub := rfl
@[simp] theorem State.setEcc_adjPend (s : State) (a : Nat) (v : BitVec 13) : (s.setEcc a v).adjPend = s.adjPend := rfl
@[simp] theorem State.setEcc_xclk (s : State) (a : Nat) (v : BitVec 13) : (s.setEcc a v).xclk = s.xclk := rfl
@[simp] theorem State.setEcc_tmAcc (s : State) (a : Nat) (v : BitVec 13) : (s.setEcc a v).tmAcc = s.tmAcc := rfl
@[simp] theorem State.setEcc_evrHeld (s : State) (a : Nat) (v : BitVec 13) : (s.setEcc a v).evrHeld = s.evrHeld := rfl
@[simp] theorem State.setEcc_evoutBusy (s : State) (a : Nat) (v : BitVec 13) : (s.setEcc a v).evoutBusy = s.evoutBusy := rfl
@[simp] theorem State.setEcc_evoutLvl (s : State) (a : Nat) (v : BitVec 13) : (s.setEcc a v).evoutLvl = s.evoutLvl := rfl
@[simp] theorem State.setEcc_capDead (s : State) (a : Nat) (v : BitVec 13) : (s.setEcc a v).capDead = s.capDead := rfl
@[simp] theorem State.setEcc_fillRun (s : State) (a : Nat) (v : BitVec 13) : (s.setEcc a v).fillRun = s.fillRun := rfl
@[simp] theorem State.setEcc_ergSlots (s : State) (a : Nat) (v : BitVec 13) : (s.setEcc a v).ergSlots = s.ergSlots := rfl
@[simp] theorem State.setEcc_scrubT0 (s : State) (a : Nat) (v : BitVec 13) : (s.setEcc a v).scrubT0 = s.scrubT0 := rfl
@[simp] theorem State.setEcc_lapLate (s : State) (a : Nat) (v : BitVec 13) : (s.setEcc a v).lapLate = s.lapLate := rfl
@[simp] theorem State.setEcc_vclkStop (s : State) (a : Nat) (v : BitVec 13) : (s.setEcc a v).vclkStop = s.vclkStop := rfl
@[simp] theorem State.setEcc_dmcTraining (s : State) (a : Nat) (v : BitVec 13) : (s.setEcc a v).dmcTraining = s.dmcTraining := rfl
@[simp] theorem State.setEcc_patrol (s : State) (a : Nat) (v : BitVec 13) : (s.setEcc a v).patrol = s.patrol := rfl
@[simp] theorem State.setEcc_pwrfailN (s : State) (a : Nat) (v : BitVec 13) : (s.setEcc a v).pwrfailN = s.pwrfailN := rfl
@[simp] theorem State.setEcc_cmNow (s : State) (a : Nat) (v : BitVec 13) : (s.setEcc a v).cmNow = s.cmNow := rfl
@[simp] theorem State.setEcc_outst (s : State) (a : Nat) (v : BitVec 13) : (s.setEcc a v).outst = s.outst := rfl
@[simp] theorem State.setEcc_linkTx (s : State) (a : Nat) (v : BitVec 13) : (s.setEcc a v).linkTx = s.linkTx := rfl
@[simp] theorem State.setEcc_xacts (s : State) (a : Nat) (v : BitVec 13) : (s.setEcc a v).xacts = s.xacts := rfl
@[simp] theorem State.setEcc_walkCache (s : State) (a : Nat) (v : BitVec 13) : (s.setEcc a v).walkCache = s.walkCache := rfl
@[simp] theorem State.setEcc_walks (s : State) (a : Nat) (v : BitVec 13) : (s.setEcc a v).walks = s.walks := rfl
@[simp] theorem State.setEcc_vseTlb (s : State) (a : Nat) (v : BitVec 13) : (s.setEcc a v).vseTlb = s.vseTlb := rfl
@[simp] theorem State.setEcc_vctx (s : State) (a : Nat) (v : BitVec 13) : (s.setEcc a v).vctx = s.vctx := rfl
@[simp] theorem State.setEcc_eau (s : State) (a : Nat) (v : BitVec 13) : (s.setEcc a v).eau = s.eau := rfl
@[simp] theorem State.setEcc_stamps (s : State) (a : Nat) (v : BitVec 13) : (s.setEcc a v).stamps = s.stamps := rfl
@[simp] theorem State.setEcc_pwr (s : State) (a : Nat) (v : BitVec 13) : (s.setEcc a v).pwr = s.pwr := rfl
@[simp] theorem State.setEcc_pfFilter (s : State) (a : Nat) (v : BitVec 13) : (s.setEcc a v).pfFilter = s.pfFilter := rfl
@[simp] theorem State.setEcc_elgCredit (s : State) (a : Nat) (v : BitVec 13) : (s.setEcc a v).elgCredit = s.elgCredit := rfl
@[simp] theorem State.setEcc_elgStage (s : State) (a : Nat) (v : BitVec 13) : (s.setEcc a v).elgStage = s.elgStage := rfl
@[simp] theorem State.setEcc_pfT0 (s : State) (a : Nat) (v : BitVec 13) : (s.setEcc a v).pfT0 = s.pfT0 := rfl
@[simp] theorem State.setEcc_wakeReq (s : State) (a : Nat) (v : BitVec 13) : (s.setEcc a v).wakeReq = s.wakeReq := rfl
@[simp] theorem State.setEcc_bypT0 (s : State) (a : Nat) (v : BitVec 13) : (s.setEcc a v).bypT0 = s.bypT0 := rfl
@[simp] theorem State.setEcc_otp (s : State) (a : Nat) (v : BitVec 13) : (s.setEcc a v).otp = s.otp := rfl
@[simp] theorem State.setEcc_nvm (s : State) (a : Nat) (v : BitVec 13) : (s.setEcc a v).nvm = s.nvm := rfl
@[simp] theorem State.setEcc_boot (s : State) (a : Nat) (v : BitVec 13) : (s.setEcc a v).boot = s.boot := rfl
@[simp] theorem State.setEcc_nvmOp (s : State) (a : Nat) (v : BitVec 13) : (s.setEcc a v).nvmOp = s.nvmOp := rfl
@[simp] theorem State.setEcc_sceBank0 (s : State) (a : Nat) (v : BitVec 13) : (s.setEcc a v).sceBank0 = s.sceBank0 := rfl
@[simp] theorem State.setEcc_sceBank1 (s : State) (a : Nat) (v : BitVec 13) : (s.setEcc a v).sceBank1 = s.sceBank1 := rfl
@[simp] theorem State.setEcc_sce (s : State) (a : Nat) (v : BitVec 13) : (s.setEcc a v).sce = s.sce := rfl
@[simp] theorem State.setEcc_c0 (s : State) (a : Nat) (v : BitVec 13) : (s.setEcc a v).c0 = s.c0 := rfl
@[simp] theorem State.setEcc_mac (s : State) (a : Nat) (v : BitVec 13) : (s.setEcc a v).mac = s.mac := rfl
@[simp] theorem State.setEcc_qciDebt (s : State) (a : Nat) (v : BitVec 13) : (s.setEcc a v).qciDebt = s.qciDebt := rfl
@[simp] theorem State.setEcc_qciLast (s : State) (a : Nat) (v : BitVec 13) : (s.setEcc a v).qciLast = s.qciLast := rfl
@[simp] theorem State.setEcc_frer (s : State) (a : Nat) (v : BitVec 13) : (s.setEcc a v).frer = s.frer := rfl
@[simp] theorem State.setEcc_genSeq (s : State) (a : Nat) (v : BitVec 13) : (s.setEcc a v).genSeq = s.genSeq := rfl
@[simp] theorem State.setEcc_can (s : State) (a : Nat) (v : BitVec 13) : (s.setEcc a v).can = s.can := rfl
@[simp] theorem State.setEcc_uart (s : State) (a : Nat) (v : BitVec 13) : (s.setEcc a v).uart = s.uart := rfl
@[simp] theorem State.setEcc_mvbWait (s : State) (a : Nat) (v : BitVec 13) : (s.setEcc a v).mvbWait = s.mvbWait := rfl
@[simp] theorem State.setEcc_mvbRead (s : State) (a : Nat) (v : BitVec 13) : (s.setEcc a v).mvbRead = s.mvbRead := rfl
@[simp] theorem State.setEcc_mvbSent (s : State) (a : Nat) (v : BitVec 13) : (s.setEcc a v).mvbSent = s.mvbSent := rfl
@[simp] theorem State.setEcc_txSeq (s : State) (a : Nat) (v : BitVec 13) : (s.setEcc a v).txSeq = s.txSeq := rfl
@[simp] theorem State.setEcc_retries (s : State) (a : Nat) (v : BitVec 13) : (s.setEcc a v).retries = s.retries := rfl
@[simp] theorem State.setEcc_helloIn (s : State) (a : Nat) (v : BitVec 13) : (s.setEcc a v).helloIn = s.helloIn := rfl
@[simp] theorem State.setEcc_ended (s : State) (a : Nat) (v : BitVec 13) : (s.setEcc a v).ended = s.ended := rfl
@[simp] theorem State.setEcc_inHeld (s : State) (a : Nat) (v : BitVec 13) : (s.setEcc a v).inHeld = s.inHeld := rfl
@[simp] theorem State.setEcc_mgmtHeld (s : State) (a : Nat) (v : BitVec 13) : (s.setEcc a v).mgmtHeld = s.mgmtHeld := rfl
@[simp] theorem State.setEcc_helloSent (s : State) (a : Nat) (v : BitVec 13) : (s.setEcc a v).helloSent = s.helloSent := rfl
@[simp] theorem State.setEcc_exchSent (s : State) (a : Nat) (v : BitVec 13) : (s.setEcc a v).exchSent = s.exchSent := rfl
@[simp] theorem State.setEcc_ft (s : State) (a : Nat) (v : BitVec 13) : (s.setEcc a v).ft = s.ft := rfl
@[simp] theorem State.setEcc_as (s : State) (a : Nat) (v : BitVec 13) : (s.setEcc a v).as = s.as := rfl
@[simp] theorem State.setEcc_microWb (s : State) (a : Nat) (v : BitVec 13) : (s.setEcc a v).microWb = s.microWb := rfl
@[simp] theorem State.setEcc_claimed (s : State) (a : Nat) (v : BitVec 13) : (s.setEcc a v).claimed = s.claimed := rfl
@[simp] theorem State.setEcc_arb (s : State) (a : Nat) (v : BitVec 13) : (s.setEcc a v).arb = s.arb := rfl
@[simp] theorem State.setEcc_retryReq (s : State) (a : Nat) (v : BitVec 13) : (s.setEcc a v).retryReq = s.retryReq := rfl
@[simp] theorem State.setEcc_c1Share (s : State) (a : Nat) (v : BitVec 13) : (s.setEcc a v).c1Share = s.c1Share := rfl
@[simp] theorem State.setEcc_chkDirty (s : State) (a : Nat) (v : BitVec 13) : (s.setEcc a v).chkDirty = s.chkDirty := rfl
@[simp] theorem State.setEcc_linkActs (s : State) (a : Nat) (v : BitVec 13) : (s.setEcc a v).linkActs = s.linkActs := rfl
@[simp] theorem State.setEcc_stepFrom (s : State) (a : Nat) (v : BitVec 13) : (s.setEcc a v).stepFrom = s.stepFrom := rfl
@[simp] theorem State.setEcc_stepMark (s : State) (a : Nat) (v : BitVec 13) : (s.setEcc a v).stepMark = s.stepMark := rfl
@[simp] theorem State.setEcc_dmaHeld (s : State) (a : Nat) (v : BitVec 13) : (s.setEcc a v).dmaHeld = s.dmaHeld := rfl
@[simp] theorem State.setEcc_held (s : State) (a : Nat) (v : BitVec 13) : (s.setEcc a v).held = s.held := rfl
@[simp] theorem State.setEcc_lateTags (s : State) (a : Nat) (v : BitVec 13) : (s.setEcc a v).lateTags = s.lateTags := rfl
@[simp] theorem State.setEcc_xspi (s : State) (a : Nat) (v : BitVec 13) : (s.setEcc a v).xspi = s.xspi := rfl
@[simp] theorem State.setEcc_wtape (s : State) (a : Nat) (v : BitVec 13) : (s.setEcc a v).wtape = s.wtape := rfl
@[simp] theorem State.setEcc_wtapeN (s : State) (a : Nat) (v : BitVec 13) : (s.setEcc a v).wtapeN = s.wtapeN := rfl
@[simp] theorem State.setEcc_l2Old (s : State) (a : Nat) (v : BitVec 13) : (s.setEcc a v).l2Old = s.l2Old := rfl
@[simp] theorem State.setEcc_elg (s : State) (a : Nat) (v : BitVec 13) : (s.setEcc a v).elg = s.elg := rfl
@[simp] theorem State.setEcc_pmu (s : State) (a : Nat) (v : BitVec 13) : (s.setEcc a v).pmu = s.pmu := rfl
@[simp] theorem State.setEcc_si (s : State) (a : Nat) (v : BitVec 13) : (s.setEcc a v).si = s.si := rfl
@[simp] theorem State.setEcc_reg_read (s : State) (a : Nat) (v : BitVec 13) (k : Nat) : (s.setEcc a v).reg k = s.reg k := rfl
@[simp] theorem State.setEcc_rf_read (s : State) (a : Nat) (v : BitVec 13) (k p q : Nat) : (s.setEcc a v).rf k p q = s.rf k p q := rfl
@[simp] theorem State.setEcc_rb_read (s : State) (a : Nat) (v : BitVec 13) (k p : Nat) : (s.setEcc a v).rb k p = s.rb k p := rfl
@[simp] theorem State.setEcc_reg64_read (s : State) (a : Nat) (v : BitVec 13) (k p : Nat) : (s.setEcc a v).reg64 k p = s.reg64 k p := rfl
@[simp] theorem State.setEcc_core_read (s : State) (a : Nat) (v : BitVec 13) (i : CoreId) : (s.setEcc a v).core i = s.core i := rfl
@[simp] theorem State.setEcc_sr_read (s : State) (a : Nat) (v : BitVec 13) (i : CoreId) (k : Nat) : (s.setEcc a v).sr i k = s.sr i k := rfl
@[simp] theorem State.setEcc_srf_read (s : State) (a : Nat) (v : BitVec 13) (i : CoreId) (k p q : Nat) : (s.setEcc a v).srf i k p q = s.srf i k p q := rfl
@[simp] theorem State.setEcc_g_read (s : State) (a : Nat) (v : BitVec 13) (i : CoreId) (t : GReg) : (s.setEcc a v).g i t = s.g i t := rfl
@[simp] theorem State.setEcc_f_read (s : State) (a : Nat) (v : BitVec 13) (i : CoreId) (t : FReg) : (s.setEcc a v).f i t = s.f i t := rfl
@[simp] theorem State.setEcc_q_read (s : State) (a : Nat) (v : BitVec 13) (i : CoreId) (t : QReg) : (s.setEcc a v).q i t = s.q i t := rfl
@[simp] theorem State.setEcc_pc_read (s : State) (a : Nat) (v : BitVec 13) (i : CoreId) : (s.setEcc a v).pc i = s.pc i := rfl
@[simp] theorem State.setEcc_lvl_read (s : State) (a : Nat) (v : BitVec 13) (i : CoreId) : (s.setEcc a v).lvl i = s.lvl i := rfl
@[simp] theorem State.setEcc_byte_read (s : State) (a : Nat) (v : BitVec 13) (k : Nat) : (s.setEcc a v).byte k = s.byte k := rfl
@[simp] theorem State.setEcc_vc_read (s : State) (a : Nat) (v : BitVec 13) (y : CtxId) : (s.setEcc a v).vc y = s.vc y := rfl
@[simp] theorem State.setEcc_power_read (s : State) (a : Nat) (v : BitVec 13)  : (s.setEcc a v).power = s.power := rfl

@[simp] theorem State.setVc_pending (s : State) (x : CtxId) (v : VCtx) : (s.setVc x v).pending = s.pending := rfl
@[simp] theorem State.setVc_regs (s : State) (x : CtxId) (v : VCtx) : (s.setVc x v).regs = s.regs := rfl
@[simp] theorem State.setVc_cores (s : State) (x : CtxId) (v : VCtx) : (s.setVc x v).cores = s.cores := rfl
@[simp] theorem State.setVc_mem (s : State) (x : CtxId) (v : VCtx) : (s.setVc x v).mem = s.mem := rfl
@[simp] theorem State.setVc_ecc (s : State) (x : CtxId) (v : VCtx) : (s.setVc x v).ecc = s.ecc := rfl
@[simp] theorem State.setVc_dramErr (s : State) (x : CtxId) (v : VCtx) : (s.setVc x v).dramErr = s.dramErr := rfl
@[simp] theorem State.setVc_ceWb (s : State) (x : CtxId) (v : VCtx) : (s.setVc x v).ceWb = s.ceWb := rfl
@[simp] theorem State.setVc_fresh (s : State) (x : CtxId) (v : VCtx) : (s.setVc x v).fresh = s.fresh := rfl
@[simp] theorem State.setVc_icuHeld (s : State) (x : CtxId) (v : VCtx) : (s.setVc x v).icuHeld = s.icuHeld := rfl
@[simp] theorem State.setVc_edges (s : State) (x : CtxId) (v : VCtx) : (s.setVc x v).edges = s.edges := rfl
@[simp] theorem State.setVc_tb (s : State) (x : CtxId) (v : VCtx) : (s.setVc x v).tb = s.tb := rfl
@[simp] theorem State.setVc_tbSub (s : State) (x : CtxId) (v : VCtx) : (s.setVc x v).tbSub = s.tbSub := rfl
@[simp] theorem State.setVc_adjPend (s : State) (x : CtxId) (v : VCtx) : (s.setVc x v).adjPend = s.adjPend := rfl
@[simp] theorem State.setVc_xclk (s : State) (x : CtxId) (v : VCtx) : (s.setVc x v).xclk = s.xclk := rfl
@[simp] theorem State.setVc_tmAcc (s : State) (x : CtxId) (v : VCtx) : (s.setVc x v).tmAcc = s.tmAcc := rfl
@[simp] theorem State.setVc_evrHeld (s : State) (x : CtxId) (v : VCtx) : (s.setVc x v).evrHeld = s.evrHeld := rfl
@[simp] theorem State.setVc_evoutBusy (s : State) (x : CtxId) (v : VCtx) : (s.setVc x v).evoutBusy = s.evoutBusy := rfl
@[simp] theorem State.setVc_evoutLvl (s : State) (x : CtxId) (v : VCtx) : (s.setVc x v).evoutLvl = s.evoutLvl := rfl
@[simp] theorem State.setVc_capDead (s : State) (x : CtxId) (v : VCtx) : (s.setVc x v).capDead = s.capDead := rfl
@[simp] theorem State.setVc_fillRun (s : State) (x : CtxId) (v : VCtx) : (s.setVc x v).fillRun = s.fillRun := rfl
@[simp] theorem State.setVc_ergSlots (s : State) (x : CtxId) (v : VCtx) : (s.setVc x v).ergSlots = s.ergSlots := rfl
@[simp] theorem State.setVc_scrubT0 (s : State) (x : CtxId) (v : VCtx) : (s.setVc x v).scrubT0 = s.scrubT0 := rfl
@[simp] theorem State.setVc_lapLate (s : State) (x : CtxId) (v : VCtx) : (s.setVc x v).lapLate = s.lapLate := rfl
@[simp] theorem State.setVc_vclkStop (s : State) (x : CtxId) (v : VCtx) : (s.setVc x v).vclkStop = s.vclkStop := rfl
@[simp] theorem State.setVc_dmcTraining (s : State) (x : CtxId) (v : VCtx) : (s.setVc x v).dmcTraining = s.dmcTraining := rfl
@[simp] theorem State.setVc_patrol (s : State) (x : CtxId) (v : VCtx) : (s.setVc x v).patrol = s.patrol := rfl
@[simp] theorem State.setVc_pwrfailN (s : State) (x : CtxId) (v : VCtx) : (s.setVc x v).pwrfailN = s.pwrfailN := rfl
@[simp] theorem State.setVc_cmNow (s : State) (x : CtxId) (v : VCtx) : (s.setVc x v).cmNow = s.cmNow := rfl
@[simp] theorem State.setVc_outst (s : State) (x : CtxId) (v : VCtx) : (s.setVc x v).outst = s.outst := rfl
@[simp] theorem State.setVc_linkTx (s : State) (x : CtxId) (v : VCtx) : (s.setVc x v).linkTx = s.linkTx := rfl
@[simp] theorem State.setVc_xacts (s : State) (x : CtxId) (v : VCtx) : (s.setVc x v).xacts = s.xacts := rfl
@[simp] theorem State.setVc_walkCache (s : State) (x : CtxId) (v : VCtx) : (s.setVc x v).walkCache = s.walkCache := rfl
@[simp] theorem State.setVc_walks (s : State) (x : CtxId) (v : VCtx) : (s.setVc x v).walks = s.walks := rfl
@[simp] theorem State.setVc_vseTlb (s : State) (x : CtxId) (v : VCtx) : (s.setVc x v).vseTlb = s.vseTlb := rfl
@[simp] theorem State.setVc_eau (s : State) (x : CtxId) (v : VCtx) : (s.setVc x v).eau = s.eau := rfl
@[simp] theorem State.setVc_stamps (s : State) (x : CtxId) (v : VCtx) : (s.setVc x v).stamps = s.stamps := rfl
@[simp] theorem State.setVc_pwr (s : State) (x : CtxId) (v : VCtx) : (s.setVc x v).pwr = s.pwr := rfl
@[simp] theorem State.setVc_pfFilter (s : State) (x : CtxId) (v : VCtx) : (s.setVc x v).pfFilter = s.pfFilter := rfl
@[simp] theorem State.setVc_elgCredit (s : State) (x : CtxId) (v : VCtx) : (s.setVc x v).elgCredit = s.elgCredit := rfl
@[simp] theorem State.setVc_elgStage (s : State) (x : CtxId) (v : VCtx) : (s.setVc x v).elgStage = s.elgStage := rfl
@[simp] theorem State.setVc_pfT0 (s : State) (x : CtxId) (v : VCtx) : (s.setVc x v).pfT0 = s.pfT0 := rfl
@[simp] theorem State.setVc_wakeReq (s : State) (x : CtxId) (v : VCtx) : (s.setVc x v).wakeReq = s.wakeReq := rfl
@[simp] theorem State.setVc_bypT0 (s : State) (x : CtxId) (v : VCtx) : (s.setVc x v).bypT0 = s.bypT0 := rfl
@[simp] theorem State.setVc_otp (s : State) (x : CtxId) (v : VCtx) : (s.setVc x v).otp = s.otp := rfl
@[simp] theorem State.setVc_nvm (s : State) (x : CtxId) (v : VCtx) : (s.setVc x v).nvm = s.nvm := rfl
@[simp] theorem State.setVc_boot (s : State) (x : CtxId) (v : VCtx) : (s.setVc x v).boot = s.boot := rfl
@[simp] theorem State.setVc_nvmOp (s : State) (x : CtxId) (v : VCtx) : (s.setVc x v).nvmOp = s.nvmOp := rfl
@[simp] theorem State.setVc_sceBank0 (s : State) (x : CtxId) (v : VCtx) : (s.setVc x v).sceBank0 = s.sceBank0 := rfl
@[simp] theorem State.setVc_sceBank1 (s : State) (x : CtxId) (v : VCtx) : (s.setVc x v).sceBank1 = s.sceBank1 := rfl
@[simp] theorem State.setVc_sce (s : State) (x : CtxId) (v : VCtx) : (s.setVc x v).sce = s.sce := rfl
@[simp] theorem State.setVc_c0 (s : State) (x : CtxId) (v : VCtx) : (s.setVc x v).c0 = s.c0 := rfl
@[simp] theorem State.setVc_mac (s : State) (x : CtxId) (v : VCtx) : (s.setVc x v).mac = s.mac := rfl
@[simp] theorem State.setVc_qciDebt (s : State) (x : CtxId) (v : VCtx) : (s.setVc x v).qciDebt = s.qciDebt := rfl
@[simp] theorem State.setVc_qciLast (s : State) (x : CtxId) (v : VCtx) : (s.setVc x v).qciLast = s.qciLast := rfl
@[simp] theorem State.setVc_frer (s : State) (x : CtxId) (v : VCtx) : (s.setVc x v).frer = s.frer := rfl
@[simp] theorem State.setVc_genSeq (s : State) (x : CtxId) (v : VCtx) : (s.setVc x v).genSeq = s.genSeq := rfl
@[simp] theorem State.setVc_can (s : State) (x : CtxId) (v : VCtx) : (s.setVc x v).can = s.can := rfl
@[simp] theorem State.setVc_uart (s : State) (x : CtxId) (v : VCtx) : (s.setVc x v).uart = s.uart := rfl
@[simp] theorem State.setVc_mvbWait (s : State) (x : CtxId) (v : VCtx) : (s.setVc x v).mvbWait = s.mvbWait := rfl
@[simp] theorem State.setVc_mvbRead (s : State) (x : CtxId) (v : VCtx) : (s.setVc x v).mvbRead = s.mvbRead := rfl
@[simp] theorem State.setVc_mvbSent (s : State) (x : CtxId) (v : VCtx) : (s.setVc x v).mvbSent = s.mvbSent := rfl
@[simp] theorem State.setVc_txSeq (s : State) (x : CtxId) (v : VCtx) : (s.setVc x v).txSeq = s.txSeq := rfl
@[simp] theorem State.setVc_retries (s : State) (x : CtxId) (v : VCtx) : (s.setVc x v).retries = s.retries := rfl
@[simp] theorem State.setVc_helloIn (s : State) (x : CtxId) (v : VCtx) : (s.setVc x v).helloIn = s.helloIn := rfl
@[simp] theorem State.setVc_ended (s : State) (x : CtxId) (v : VCtx) : (s.setVc x v).ended = s.ended := rfl
@[simp] theorem State.setVc_inHeld (s : State) (x : CtxId) (v : VCtx) : (s.setVc x v).inHeld = s.inHeld := rfl
@[simp] theorem State.setVc_mgmtHeld (s : State) (x : CtxId) (v : VCtx) : (s.setVc x v).mgmtHeld = s.mgmtHeld := rfl
@[simp] theorem State.setVc_helloSent (s : State) (x : CtxId) (v : VCtx) : (s.setVc x v).helloSent = s.helloSent := rfl
@[simp] theorem State.setVc_exchSent (s : State) (x : CtxId) (v : VCtx) : (s.setVc x v).exchSent = s.exchSent := rfl
@[simp] theorem State.setVc_ft (s : State) (x : CtxId) (v : VCtx) : (s.setVc x v).ft = s.ft := rfl
@[simp] theorem State.setVc_as (s : State) (x : CtxId) (v : VCtx) : (s.setVc x v).as = s.as := rfl
@[simp] theorem State.setVc_microWb (s : State) (x : CtxId) (v : VCtx) : (s.setVc x v).microWb = s.microWb := rfl
@[simp] theorem State.setVc_claimed (s : State) (x : CtxId) (v : VCtx) : (s.setVc x v).claimed = s.claimed := rfl
@[simp] theorem State.setVc_arb (s : State) (x : CtxId) (v : VCtx) : (s.setVc x v).arb = s.arb := rfl
@[simp] theorem State.setVc_retryReq (s : State) (x : CtxId) (v : VCtx) : (s.setVc x v).retryReq = s.retryReq := rfl
@[simp] theorem State.setVc_c1Share (s : State) (x : CtxId) (v : VCtx) : (s.setVc x v).c1Share = s.c1Share := rfl
@[simp] theorem State.setVc_chkDirty (s : State) (x : CtxId) (v : VCtx) : (s.setVc x v).chkDirty = s.chkDirty := rfl
@[simp] theorem State.setVc_linkActs (s : State) (x : CtxId) (v : VCtx) : (s.setVc x v).linkActs = s.linkActs := rfl
@[simp] theorem State.setVc_stepFrom (s : State) (x : CtxId) (v : VCtx) : (s.setVc x v).stepFrom = s.stepFrom := rfl
@[simp] theorem State.setVc_stepMark (s : State) (x : CtxId) (v : VCtx) : (s.setVc x v).stepMark = s.stepMark := rfl
@[simp] theorem State.setVc_dmaHeld (s : State) (x : CtxId) (v : VCtx) : (s.setVc x v).dmaHeld = s.dmaHeld := rfl
@[simp] theorem State.setVc_held (s : State) (x : CtxId) (v : VCtx) : (s.setVc x v).held = s.held := rfl
@[simp] theorem State.setVc_lateTags (s : State) (x : CtxId) (v : VCtx) : (s.setVc x v).lateTags = s.lateTags := rfl
@[simp] theorem State.setVc_xspi (s : State) (x : CtxId) (v : VCtx) : (s.setVc x v).xspi = s.xspi := rfl
@[simp] theorem State.setVc_wtape (s : State) (x : CtxId) (v : VCtx) : (s.setVc x v).wtape = s.wtape := rfl
@[simp] theorem State.setVc_wtapeN (s : State) (x : CtxId) (v : VCtx) : (s.setVc x v).wtapeN = s.wtapeN := rfl
@[simp] theorem State.setVc_l2Old (s : State) (x : CtxId) (v : VCtx) : (s.setVc x v).l2Old = s.l2Old := rfl
@[simp] theorem State.setVc_elg (s : State) (x : CtxId) (v : VCtx) : (s.setVc x v).elg = s.elg := rfl
@[simp] theorem State.setVc_pmu (s : State) (x : CtxId) (v : VCtx) : (s.setVc x v).pmu = s.pmu := rfl
@[simp] theorem State.setVc_si (s : State) (x : CtxId) (v : VCtx) : (s.setVc x v).si = s.si := rfl
@[simp] theorem State.setVc_reg_read (s : State) (x : CtxId) (v : VCtx) (k : Nat) : (s.setVc x v).reg k = s.reg k := rfl
@[simp] theorem State.setVc_rf_read (s : State) (x : CtxId) (v : VCtx) (k p q : Nat) : (s.setVc x v).rf k p q = s.rf k p q := rfl
@[simp] theorem State.setVc_rb_read (s : State) (x : CtxId) (v : VCtx) (k p : Nat) : (s.setVc x v).rb k p = s.rb k p := rfl
@[simp] theorem State.setVc_reg64_read (s : State) (x : CtxId) (v : VCtx) (k p : Nat) : (s.setVc x v).reg64 k p = s.reg64 k p := rfl
@[simp] theorem State.setVc_core_read (s : State) (x : CtxId) (v : VCtx) (i : CoreId) : (s.setVc x v).core i = s.core i := rfl
@[simp] theorem State.setVc_sr_read (s : State) (x : CtxId) (v : VCtx) (i : CoreId) (k : Nat) : (s.setVc x v).sr i k = s.sr i k := rfl
@[simp] theorem State.setVc_srf_read (s : State) (x : CtxId) (v : VCtx) (i : CoreId) (k p q : Nat) : (s.setVc x v).srf i k p q = s.srf i k p q := rfl
@[simp] theorem State.setVc_g_read (s : State) (x : CtxId) (v : VCtx) (i : CoreId) (t : GReg) : (s.setVc x v).g i t = s.g i t := rfl
@[simp] theorem State.setVc_f_read (s : State) (x : CtxId) (v : VCtx) (i : CoreId) (t : FReg) : (s.setVc x v).f i t = s.f i t := rfl
@[simp] theorem State.setVc_q_read (s : State) (x : CtxId) (v : VCtx) (i : CoreId) (t : QReg) : (s.setVc x v).q i t = s.q i t := rfl
@[simp] theorem State.setVc_pc_read (s : State) (x : CtxId) (v : VCtx) (i : CoreId) : (s.setVc x v).pc i = s.pc i := rfl
@[simp] theorem State.setVc_lvl_read (s : State) (x : CtxId) (v : VCtx) (i : CoreId) : (s.setVc x v).lvl i = s.lvl i := rfl
@[simp] theorem State.setVc_byte_read (s : State) (x : CtxId) (v : VCtx) (k : Nat) : (s.setVc x v).byte k = s.byte k := rfl
@[simp] theorem State.setVc_wrong_read (s : State) (x : CtxId) (v : VCtx) (k : Nat) : (s.setVc x v).wrong k = s.wrong k := rfl
@[simp] theorem State.setVc_power_read (s : State) (x : CtxId) (v : VCtx)  : (s.setVc x v).power = s.power := rfl

@[simp] theorem State.modVc_pending (s : State) (x : CtxId) (f : VCtx → VCtx) : (s.modVc x f).pending = s.pending := rfl
@[simp] theorem State.modVc_regs (s : State) (x : CtxId) (f : VCtx → VCtx) : (s.modVc x f).regs = s.regs := rfl
@[simp] theorem State.modVc_cores (s : State) (x : CtxId) (f : VCtx → VCtx) : (s.modVc x f).cores = s.cores := rfl
@[simp] theorem State.modVc_mem (s : State) (x : CtxId) (f : VCtx → VCtx) : (s.modVc x f).mem = s.mem := rfl
@[simp] theorem State.modVc_ecc (s : State) (x : CtxId) (f : VCtx → VCtx) : (s.modVc x f).ecc = s.ecc := rfl
@[simp] theorem State.modVc_dramErr (s : State) (x : CtxId) (f : VCtx → VCtx) : (s.modVc x f).dramErr = s.dramErr := rfl
@[simp] theorem State.modVc_ceWb (s : State) (x : CtxId) (f : VCtx → VCtx) : (s.modVc x f).ceWb = s.ceWb := rfl
@[simp] theorem State.modVc_fresh (s : State) (x : CtxId) (f : VCtx → VCtx) : (s.modVc x f).fresh = s.fresh := rfl
@[simp] theorem State.modVc_icuHeld (s : State) (x : CtxId) (f : VCtx → VCtx) : (s.modVc x f).icuHeld = s.icuHeld := rfl
@[simp] theorem State.modVc_edges (s : State) (x : CtxId) (f : VCtx → VCtx) : (s.modVc x f).edges = s.edges := rfl
@[simp] theorem State.modVc_tb (s : State) (x : CtxId) (f : VCtx → VCtx) : (s.modVc x f).tb = s.tb := rfl
@[simp] theorem State.modVc_tbSub (s : State) (x : CtxId) (f : VCtx → VCtx) : (s.modVc x f).tbSub = s.tbSub := rfl
@[simp] theorem State.modVc_adjPend (s : State) (x : CtxId) (f : VCtx → VCtx) : (s.modVc x f).adjPend = s.adjPend := rfl
@[simp] theorem State.modVc_xclk (s : State) (x : CtxId) (f : VCtx → VCtx) : (s.modVc x f).xclk = s.xclk := rfl
@[simp] theorem State.modVc_tmAcc (s : State) (x : CtxId) (f : VCtx → VCtx) : (s.modVc x f).tmAcc = s.tmAcc := rfl
@[simp] theorem State.modVc_evrHeld (s : State) (x : CtxId) (f : VCtx → VCtx) : (s.modVc x f).evrHeld = s.evrHeld := rfl
@[simp] theorem State.modVc_evoutBusy (s : State) (x : CtxId) (f : VCtx → VCtx) : (s.modVc x f).evoutBusy = s.evoutBusy := rfl
@[simp] theorem State.modVc_evoutLvl (s : State) (x : CtxId) (f : VCtx → VCtx) : (s.modVc x f).evoutLvl = s.evoutLvl := rfl
@[simp] theorem State.modVc_capDead (s : State) (x : CtxId) (f : VCtx → VCtx) : (s.modVc x f).capDead = s.capDead := rfl
@[simp] theorem State.modVc_fillRun (s : State) (x : CtxId) (f : VCtx → VCtx) : (s.modVc x f).fillRun = s.fillRun := rfl
@[simp] theorem State.modVc_ergSlots (s : State) (x : CtxId) (f : VCtx → VCtx) : (s.modVc x f).ergSlots = s.ergSlots := rfl
@[simp] theorem State.modVc_scrubT0 (s : State) (x : CtxId) (f : VCtx → VCtx) : (s.modVc x f).scrubT0 = s.scrubT0 := rfl
@[simp] theorem State.modVc_lapLate (s : State) (x : CtxId) (f : VCtx → VCtx) : (s.modVc x f).lapLate = s.lapLate := rfl
@[simp] theorem State.modVc_vclkStop (s : State) (x : CtxId) (f : VCtx → VCtx) : (s.modVc x f).vclkStop = s.vclkStop := rfl
@[simp] theorem State.modVc_dmcTraining (s : State) (x : CtxId) (f : VCtx → VCtx) : (s.modVc x f).dmcTraining = s.dmcTraining := rfl
@[simp] theorem State.modVc_patrol (s : State) (x : CtxId) (f : VCtx → VCtx) : (s.modVc x f).patrol = s.patrol := rfl
@[simp] theorem State.modVc_pwrfailN (s : State) (x : CtxId) (f : VCtx → VCtx) : (s.modVc x f).pwrfailN = s.pwrfailN := rfl
@[simp] theorem State.modVc_cmNow (s : State) (x : CtxId) (f : VCtx → VCtx) : (s.modVc x f).cmNow = s.cmNow := rfl
@[simp] theorem State.modVc_outst (s : State) (x : CtxId) (f : VCtx → VCtx) : (s.modVc x f).outst = s.outst := rfl
@[simp] theorem State.modVc_linkTx (s : State) (x : CtxId) (f : VCtx → VCtx) : (s.modVc x f).linkTx = s.linkTx := rfl
@[simp] theorem State.modVc_xacts (s : State) (x : CtxId) (f : VCtx → VCtx) : (s.modVc x f).xacts = s.xacts := rfl
@[simp] theorem State.modVc_walkCache (s : State) (x : CtxId) (f : VCtx → VCtx) : (s.modVc x f).walkCache = s.walkCache := rfl
@[simp] theorem State.modVc_walks (s : State) (x : CtxId) (f : VCtx → VCtx) : (s.modVc x f).walks = s.walks := rfl
@[simp] theorem State.modVc_vseTlb (s : State) (x : CtxId) (f : VCtx → VCtx) : (s.modVc x f).vseTlb = s.vseTlb := rfl
@[simp] theorem State.modVc_eau (s : State) (x : CtxId) (f : VCtx → VCtx) : (s.modVc x f).eau = s.eau := rfl
@[simp] theorem State.modVc_stamps (s : State) (x : CtxId) (f : VCtx → VCtx) : (s.modVc x f).stamps = s.stamps := rfl
@[simp] theorem State.modVc_pwr (s : State) (x : CtxId) (f : VCtx → VCtx) : (s.modVc x f).pwr = s.pwr := rfl
@[simp] theorem State.modVc_pfFilter (s : State) (x : CtxId) (f : VCtx → VCtx) : (s.modVc x f).pfFilter = s.pfFilter := rfl
@[simp] theorem State.modVc_elgCredit (s : State) (x : CtxId) (f : VCtx → VCtx) : (s.modVc x f).elgCredit = s.elgCredit := rfl
@[simp] theorem State.modVc_elgStage (s : State) (x : CtxId) (f : VCtx → VCtx) : (s.modVc x f).elgStage = s.elgStage := rfl
@[simp] theorem State.modVc_pfT0 (s : State) (x : CtxId) (f : VCtx → VCtx) : (s.modVc x f).pfT0 = s.pfT0 := rfl
@[simp] theorem State.modVc_wakeReq (s : State) (x : CtxId) (f : VCtx → VCtx) : (s.modVc x f).wakeReq = s.wakeReq := rfl
@[simp] theorem State.modVc_bypT0 (s : State) (x : CtxId) (f : VCtx → VCtx) : (s.modVc x f).bypT0 = s.bypT0 := rfl
@[simp] theorem State.modVc_otp (s : State) (x : CtxId) (f : VCtx → VCtx) : (s.modVc x f).otp = s.otp := rfl
@[simp] theorem State.modVc_nvm (s : State) (x : CtxId) (f : VCtx → VCtx) : (s.modVc x f).nvm = s.nvm := rfl
@[simp] theorem State.modVc_boot (s : State) (x : CtxId) (f : VCtx → VCtx) : (s.modVc x f).boot = s.boot := rfl
@[simp] theorem State.modVc_nvmOp (s : State) (x : CtxId) (f : VCtx → VCtx) : (s.modVc x f).nvmOp = s.nvmOp := rfl
@[simp] theorem State.modVc_sceBank0 (s : State) (x : CtxId) (f : VCtx → VCtx) : (s.modVc x f).sceBank0 = s.sceBank0 := rfl
@[simp] theorem State.modVc_sceBank1 (s : State) (x : CtxId) (f : VCtx → VCtx) : (s.modVc x f).sceBank1 = s.sceBank1 := rfl
@[simp] theorem State.modVc_sce (s : State) (x : CtxId) (f : VCtx → VCtx) : (s.modVc x f).sce = s.sce := rfl
@[simp] theorem State.modVc_c0 (s : State) (x : CtxId) (f : VCtx → VCtx) : (s.modVc x f).c0 = s.c0 := rfl
@[simp] theorem State.modVc_mac (s : State) (x : CtxId) (f : VCtx → VCtx) : (s.modVc x f).mac = s.mac := rfl
@[simp] theorem State.modVc_qciDebt (s : State) (x : CtxId) (f : VCtx → VCtx) : (s.modVc x f).qciDebt = s.qciDebt := rfl
@[simp] theorem State.modVc_qciLast (s : State) (x : CtxId) (f : VCtx → VCtx) : (s.modVc x f).qciLast = s.qciLast := rfl
@[simp] theorem State.modVc_frer (s : State) (x : CtxId) (f : VCtx → VCtx) : (s.modVc x f).frer = s.frer := rfl
@[simp] theorem State.modVc_genSeq (s : State) (x : CtxId) (f : VCtx → VCtx) : (s.modVc x f).genSeq = s.genSeq := rfl
@[simp] theorem State.modVc_can (s : State) (x : CtxId) (f : VCtx → VCtx) : (s.modVc x f).can = s.can := rfl
@[simp] theorem State.modVc_uart (s : State) (x : CtxId) (f : VCtx → VCtx) : (s.modVc x f).uart = s.uart := rfl
@[simp] theorem State.modVc_mvbWait (s : State) (x : CtxId) (f : VCtx → VCtx) : (s.modVc x f).mvbWait = s.mvbWait := rfl
@[simp] theorem State.modVc_mvbRead (s : State) (x : CtxId) (f : VCtx → VCtx) : (s.modVc x f).mvbRead = s.mvbRead := rfl
@[simp] theorem State.modVc_mvbSent (s : State) (x : CtxId) (f : VCtx → VCtx) : (s.modVc x f).mvbSent = s.mvbSent := rfl
@[simp] theorem State.modVc_txSeq (s : State) (x : CtxId) (f : VCtx → VCtx) : (s.modVc x f).txSeq = s.txSeq := rfl
@[simp] theorem State.modVc_retries (s : State) (x : CtxId) (f : VCtx → VCtx) : (s.modVc x f).retries = s.retries := rfl
@[simp] theorem State.modVc_helloIn (s : State) (x : CtxId) (f : VCtx → VCtx) : (s.modVc x f).helloIn = s.helloIn := rfl
@[simp] theorem State.modVc_ended (s : State) (x : CtxId) (f : VCtx → VCtx) : (s.modVc x f).ended = s.ended := rfl
@[simp] theorem State.modVc_inHeld (s : State) (x : CtxId) (f : VCtx → VCtx) : (s.modVc x f).inHeld = s.inHeld := rfl
@[simp] theorem State.modVc_mgmtHeld (s : State) (x : CtxId) (f : VCtx → VCtx) : (s.modVc x f).mgmtHeld = s.mgmtHeld := rfl
@[simp] theorem State.modVc_helloSent (s : State) (x : CtxId) (f : VCtx → VCtx) : (s.modVc x f).helloSent = s.helloSent := rfl
@[simp] theorem State.modVc_exchSent (s : State) (x : CtxId) (f : VCtx → VCtx) : (s.modVc x f).exchSent = s.exchSent := rfl
@[simp] theorem State.modVc_ft (s : State) (x : CtxId) (f : VCtx → VCtx) : (s.modVc x f).ft = s.ft := rfl
@[simp] theorem State.modVc_as (s : State) (x : CtxId) (f : VCtx → VCtx) : (s.modVc x f).as = s.as := rfl
@[simp] theorem State.modVc_microWb (s : State) (x : CtxId) (f : VCtx → VCtx) : (s.modVc x f).microWb = s.microWb := rfl
@[simp] theorem State.modVc_claimed (s : State) (x : CtxId) (f : VCtx → VCtx) : (s.modVc x f).claimed = s.claimed := rfl
@[simp] theorem State.modVc_arb (s : State) (x : CtxId) (f : VCtx → VCtx) : (s.modVc x f).arb = s.arb := rfl
@[simp] theorem State.modVc_retryReq (s : State) (x : CtxId) (f : VCtx → VCtx) : (s.modVc x f).retryReq = s.retryReq := rfl
@[simp] theorem State.modVc_c1Share (s : State) (x : CtxId) (f : VCtx → VCtx) : (s.modVc x f).c1Share = s.c1Share := rfl
@[simp] theorem State.modVc_chkDirty (s : State) (x : CtxId) (f : VCtx → VCtx) : (s.modVc x f).chkDirty = s.chkDirty := rfl
@[simp] theorem State.modVc_linkActs (s : State) (x : CtxId) (f : VCtx → VCtx) : (s.modVc x f).linkActs = s.linkActs := rfl
@[simp] theorem State.modVc_stepFrom (s : State) (x : CtxId) (f : VCtx → VCtx) : (s.modVc x f).stepFrom = s.stepFrom := rfl
@[simp] theorem State.modVc_stepMark (s : State) (x : CtxId) (f : VCtx → VCtx) : (s.modVc x f).stepMark = s.stepMark := rfl
@[simp] theorem State.modVc_dmaHeld (s : State) (x : CtxId) (f : VCtx → VCtx) : (s.modVc x f).dmaHeld = s.dmaHeld := rfl
@[simp] theorem State.modVc_held (s : State) (x : CtxId) (f : VCtx → VCtx) : (s.modVc x f).held = s.held := rfl
@[simp] theorem State.modVc_lateTags (s : State) (x : CtxId) (f : VCtx → VCtx) : (s.modVc x f).lateTags = s.lateTags := rfl
@[simp] theorem State.modVc_xspi (s : State) (x : CtxId) (f : VCtx → VCtx) : (s.modVc x f).xspi = s.xspi := rfl
@[simp] theorem State.modVc_wtape (s : State) (x : CtxId) (f : VCtx → VCtx) : (s.modVc x f).wtape = s.wtape := rfl
@[simp] theorem State.modVc_wtapeN (s : State) (x : CtxId) (f : VCtx → VCtx) : (s.modVc x f).wtapeN = s.wtapeN := rfl
@[simp] theorem State.modVc_l2Old (s : State) (x : CtxId) (f : VCtx → VCtx) : (s.modVc x f).l2Old = s.l2Old := rfl
@[simp] theorem State.modVc_elg (s : State) (x : CtxId) (f : VCtx → VCtx) : (s.modVc x f).elg = s.elg := rfl
@[simp] theorem State.modVc_pmu (s : State) (x : CtxId) (f : VCtx → VCtx) : (s.modVc x f).pmu = s.pmu := rfl
@[simp] theorem State.modVc_si (s : State) (x : CtxId) (f : VCtx → VCtx) : (s.modVc x f).si = s.si := rfl
@[simp] theorem State.modVc_reg_read (s : State) (x : CtxId) (f : VCtx → VCtx) (k : Nat) : (s.modVc x f).reg k = s.reg k := rfl
@[simp] theorem State.modVc_rf_read (s : State) (x : CtxId) (f : VCtx → VCtx) (k p q : Nat) : (s.modVc x f).rf k p q = s.rf k p q := rfl
@[simp] theorem State.modVc_rb_read (s : State) (x : CtxId) (f : VCtx → VCtx) (k p : Nat) : (s.modVc x f).rb k p = s.rb k p := rfl
@[simp] theorem State.modVc_reg64_read (s : State) (x : CtxId) (f : VCtx → VCtx) (k p : Nat) : (s.modVc x f).reg64 k p = s.reg64 k p := rfl
@[simp] theorem State.modVc_core_read (s : State) (x : CtxId) (f : VCtx → VCtx) (i : CoreId) : (s.modVc x f).core i = s.core i := rfl
@[simp] theorem State.modVc_sr_read (s : State) (x : CtxId) (f : VCtx → VCtx) (i : CoreId) (k : Nat) : (s.modVc x f).sr i k = s.sr i k := rfl
@[simp] theorem State.modVc_srf_read (s : State) (x : CtxId) (f : VCtx → VCtx) (i : CoreId) (k p q : Nat) : (s.modVc x f).srf i k p q = s.srf i k p q := rfl
@[simp] theorem State.modVc_g_read (s : State) (x : CtxId) (f : VCtx → VCtx) (i : CoreId) (t : GReg) : (s.modVc x f).g i t = s.g i t := rfl
@[simp] theorem State.modVc_f_read (s : State) (x : CtxId) (f : VCtx → VCtx) (i : CoreId) (t : FReg) : (s.modVc x f).f i t = s.f i t := rfl
@[simp] theorem State.modVc_q_read (s : State) (x : CtxId) (f : VCtx → VCtx) (i : CoreId) (t : QReg) : (s.modVc x f).q i t = s.q i t := rfl
@[simp] theorem State.modVc_pc_read (s : State) (x : CtxId) (f : VCtx → VCtx) (i : CoreId) : (s.modVc x f).pc i = s.pc i := rfl
@[simp] theorem State.modVc_lvl_read (s : State) (x : CtxId) (f : VCtx → VCtx) (i : CoreId) : (s.modVc x f).lvl i = s.lvl i := rfl
@[simp] theorem State.modVc_byte_read (s : State) (x : CtxId) (f : VCtx → VCtx) (k : Nat) : (s.modVc x f).byte k = s.byte k := rfl
@[simp] theorem State.modVc_wrong_read (s : State) (x : CtxId) (f : VCtx → VCtx) (k : Nat) : (s.modVc x f).wrong k = s.wrong k := rfl
@[simp] theorem State.modVc_power_read (s : State) (x : CtxId) (f : VCtx → VCtx)  : (s.modVc x f).power = s.power := rfl

@[simp] theorem State.setEa_pending (s : State) (n : Nat) (e : EauAcc) : (s.setEa n e).pending = s.pending := rfl
@[simp] theorem State.setEa_regs (s : State) (n : Nat) (e : EauAcc) : (s.setEa n e).regs = s.regs := rfl
@[simp] theorem State.setEa_cores (s : State) (n : Nat) (e : EauAcc) : (s.setEa n e).cores = s.cores := rfl
@[simp] theorem State.setEa_mem (s : State) (n : Nat) (e : EauAcc) : (s.setEa n e).mem = s.mem := rfl
@[simp] theorem State.setEa_ecc (s : State) (n : Nat) (e : EauAcc) : (s.setEa n e).ecc = s.ecc := rfl
@[simp] theorem State.setEa_dramErr (s : State) (n : Nat) (e : EauAcc) : (s.setEa n e).dramErr = s.dramErr := rfl
@[simp] theorem State.setEa_ceWb (s : State) (n : Nat) (e : EauAcc) : (s.setEa n e).ceWb = s.ceWb := rfl
@[simp] theorem State.setEa_fresh (s : State) (n : Nat) (e : EauAcc) : (s.setEa n e).fresh = s.fresh := rfl
@[simp] theorem State.setEa_icuHeld (s : State) (n : Nat) (e : EauAcc) : (s.setEa n e).icuHeld = s.icuHeld := rfl
@[simp] theorem State.setEa_edges (s : State) (n : Nat) (e : EauAcc) : (s.setEa n e).edges = s.edges := rfl
@[simp] theorem State.setEa_tb (s : State) (n : Nat) (e : EauAcc) : (s.setEa n e).tb = s.tb := rfl
@[simp] theorem State.setEa_tbSub (s : State) (n : Nat) (e : EauAcc) : (s.setEa n e).tbSub = s.tbSub := rfl
@[simp] theorem State.setEa_adjPend (s : State) (n : Nat) (e : EauAcc) : (s.setEa n e).adjPend = s.adjPend := rfl
@[simp] theorem State.setEa_xclk (s : State) (n : Nat) (e : EauAcc) : (s.setEa n e).xclk = s.xclk := rfl
@[simp] theorem State.setEa_tmAcc (s : State) (n : Nat) (e : EauAcc) : (s.setEa n e).tmAcc = s.tmAcc := rfl
@[simp] theorem State.setEa_evrHeld (s : State) (n : Nat) (e : EauAcc) : (s.setEa n e).evrHeld = s.evrHeld := rfl
@[simp] theorem State.setEa_evoutBusy (s : State) (n : Nat) (e : EauAcc) : (s.setEa n e).evoutBusy = s.evoutBusy := rfl
@[simp] theorem State.setEa_evoutLvl (s : State) (n : Nat) (e : EauAcc) : (s.setEa n e).evoutLvl = s.evoutLvl := rfl
@[simp] theorem State.setEa_capDead (s : State) (n : Nat) (e : EauAcc) : (s.setEa n e).capDead = s.capDead := rfl
@[simp] theorem State.setEa_fillRun (s : State) (n : Nat) (e : EauAcc) : (s.setEa n e).fillRun = s.fillRun := rfl
@[simp] theorem State.setEa_ergSlots (s : State) (n : Nat) (e : EauAcc) : (s.setEa n e).ergSlots = s.ergSlots := rfl
@[simp] theorem State.setEa_scrubT0 (s : State) (n : Nat) (e : EauAcc) : (s.setEa n e).scrubT0 = s.scrubT0 := rfl
@[simp] theorem State.setEa_lapLate (s : State) (n : Nat) (e : EauAcc) : (s.setEa n e).lapLate = s.lapLate := rfl
@[simp] theorem State.setEa_vclkStop (s : State) (n : Nat) (e : EauAcc) : (s.setEa n e).vclkStop = s.vclkStop := rfl
@[simp] theorem State.setEa_dmcTraining (s : State) (n : Nat) (e : EauAcc) : (s.setEa n e).dmcTraining = s.dmcTraining := rfl
@[simp] theorem State.setEa_patrol (s : State) (n : Nat) (e : EauAcc) : (s.setEa n e).patrol = s.patrol := rfl
@[simp] theorem State.setEa_pwrfailN (s : State) (n : Nat) (e : EauAcc) : (s.setEa n e).pwrfailN = s.pwrfailN := rfl
@[simp] theorem State.setEa_cmNow (s : State) (n : Nat) (e : EauAcc) : (s.setEa n e).cmNow = s.cmNow := rfl
@[simp] theorem State.setEa_outst (s : State) (n : Nat) (e : EauAcc) : (s.setEa n e).outst = s.outst := rfl
@[simp] theorem State.setEa_linkTx (s : State) (n : Nat) (e : EauAcc) : (s.setEa n e).linkTx = s.linkTx := rfl
@[simp] theorem State.setEa_xacts (s : State) (n : Nat) (e : EauAcc) : (s.setEa n e).xacts = s.xacts := rfl
@[simp] theorem State.setEa_walkCache (s : State) (n : Nat) (e : EauAcc) : (s.setEa n e).walkCache = s.walkCache := rfl
@[simp] theorem State.setEa_walks (s : State) (n : Nat) (e : EauAcc) : (s.setEa n e).walks = s.walks := rfl
@[simp] theorem State.setEa_vseTlb (s : State) (n : Nat) (e : EauAcc) : (s.setEa n e).vseTlb = s.vseTlb := rfl
@[simp] theorem State.setEa_vctx (s : State) (n : Nat) (e : EauAcc) : (s.setEa n e).vctx = s.vctx := rfl
@[simp] theorem State.setEa_stamps (s : State) (n : Nat) (e : EauAcc) : (s.setEa n e).stamps = s.stamps := rfl
@[simp] theorem State.setEa_pwr (s : State) (n : Nat) (e : EauAcc) : (s.setEa n e).pwr = s.pwr := rfl
@[simp] theorem State.setEa_pfFilter (s : State) (n : Nat) (e : EauAcc) : (s.setEa n e).pfFilter = s.pfFilter := rfl
@[simp] theorem State.setEa_elgCredit (s : State) (n : Nat) (e : EauAcc) : (s.setEa n e).elgCredit = s.elgCredit := rfl
@[simp] theorem State.setEa_elgStage (s : State) (n : Nat) (e : EauAcc) : (s.setEa n e).elgStage = s.elgStage := rfl
@[simp] theorem State.setEa_pfT0 (s : State) (n : Nat) (e : EauAcc) : (s.setEa n e).pfT0 = s.pfT0 := rfl
@[simp] theorem State.setEa_wakeReq (s : State) (n : Nat) (e : EauAcc) : (s.setEa n e).wakeReq = s.wakeReq := rfl
@[simp] theorem State.setEa_bypT0 (s : State) (n : Nat) (e : EauAcc) : (s.setEa n e).bypT0 = s.bypT0 := rfl
@[simp] theorem State.setEa_otp (s : State) (n : Nat) (e : EauAcc) : (s.setEa n e).otp = s.otp := rfl
@[simp] theorem State.setEa_nvm (s : State) (n : Nat) (e : EauAcc) : (s.setEa n e).nvm = s.nvm := rfl
@[simp] theorem State.setEa_boot (s : State) (n : Nat) (e : EauAcc) : (s.setEa n e).boot = s.boot := rfl
@[simp] theorem State.setEa_nvmOp (s : State) (n : Nat) (e : EauAcc) : (s.setEa n e).nvmOp = s.nvmOp := rfl
@[simp] theorem State.setEa_sceBank0 (s : State) (n : Nat) (e : EauAcc) : (s.setEa n e).sceBank0 = s.sceBank0 := rfl
@[simp] theorem State.setEa_sceBank1 (s : State) (n : Nat) (e : EauAcc) : (s.setEa n e).sceBank1 = s.sceBank1 := rfl
@[simp] theorem State.setEa_sce (s : State) (n : Nat) (e : EauAcc) : (s.setEa n e).sce = s.sce := rfl
@[simp] theorem State.setEa_c0 (s : State) (n : Nat) (e : EauAcc) : (s.setEa n e).c0 = s.c0 := rfl
@[simp] theorem State.setEa_mac (s : State) (n : Nat) (e : EauAcc) : (s.setEa n e).mac = s.mac := rfl
@[simp] theorem State.setEa_qciDebt (s : State) (n : Nat) (e : EauAcc) : (s.setEa n e).qciDebt = s.qciDebt := rfl
@[simp] theorem State.setEa_qciLast (s : State) (n : Nat) (e : EauAcc) : (s.setEa n e).qciLast = s.qciLast := rfl
@[simp] theorem State.setEa_frer (s : State) (n : Nat) (e : EauAcc) : (s.setEa n e).frer = s.frer := rfl
@[simp] theorem State.setEa_genSeq (s : State) (n : Nat) (e : EauAcc) : (s.setEa n e).genSeq = s.genSeq := rfl
@[simp] theorem State.setEa_can (s : State) (n : Nat) (e : EauAcc) : (s.setEa n e).can = s.can := rfl
@[simp] theorem State.setEa_uart (s : State) (n : Nat) (e : EauAcc) : (s.setEa n e).uart = s.uart := rfl
@[simp] theorem State.setEa_mvbWait (s : State) (n : Nat) (e : EauAcc) : (s.setEa n e).mvbWait = s.mvbWait := rfl
@[simp] theorem State.setEa_mvbRead (s : State) (n : Nat) (e : EauAcc) : (s.setEa n e).mvbRead = s.mvbRead := rfl
@[simp] theorem State.setEa_mvbSent (s : State) (n : Nat) (e : EauAcc) : (s.setEa n e).mvbSent = s.mvbSent := rfl
@[simp] theorem State.setEa_txSeq (s : State) (n : Nat) (e : EauAcc) : (s.setEa n e).txSeq = s.txSeq := rfl
@[simp] theorem State.setEa_retries (s : State) (n : Nat) (e : EauAcc) : (s.setEa n e).retries = s.retries := rfl
@[simp] theorem State.setEa_helloIn (s : State) (n : Nat) (e : EauAcc) : (s.setEa n e).helloIn = s.helloIn := rfl
@[simp] theorem State.setEa_ended (s : State) (n : Nat) (e : EauAcc) : (s.setEa n e).ended = s.ended := rfl
@[simp] theorem State.setEa_inHeld (s : State) (n : Nat) (e : EauAcc) : (s.setEa n e).inHeld = s.inHeld := rfl
@[simp] theorem State.setEa_mgmtHeld (s : State) (n : Nat) (e : EauAcc) : (s.setEa n e).mgmtHeld = s.mgmtHeld := rfl
@[simp] theorem State.setEa_helloSent (s : State) (n : Nat) (e : EauAcc) : (s.setEa n e).helloSent = s.helloSent := rfl
@[simp] theorem State.setEa_exchSent (s : State) (n : Nat) (e : EauAcc) : (s.setEa n e).exchSent = s.exchSent := rfl
@[simp] theorem State.setEa_ft (s : State) (n : Nat) (e : EauAcc) : (s.setEa n e).ft = s.ft := rfl
@[simp] theorem State.setEa_as (s : State) (n : Nat) (e : EauAcc) : (s.setEa n e).as = s.as := rfl
@[simp] theorem State.setEa_microWb (s : State) (n : Nat) (e : EauAcc) : (s.setEa n e).microWb = s.microWb := rfl
@[simp] theorem State.setEa_claimed (s : State) (n : Nat) (e : EauAcc) : (s.setEa n e).claimed = s.claimed := rfl
@[simp] theorem State.setEa_arb (s : State) (n : Nat) (e : EauAcc) : (s.setEa n e).arb = s.arb := rfl
@[simp] theorem State.setEa_retryReq (s : State) (n : Nat) (e : EauAcc) : (s.setEa n e).retryReq = s.retryReq := rfl
@[simp] theorem State.setEa_c1Share (s : State) (n : Nat) (e : EauAcc) : (s.setEa n e).c1Share = s.c1Share := rfl
@[simp] theorem State.setEa_chkDirty (s : State) (n : Nat) (e : EauAcc) : (s.setEa n e).chkDirty = s.chkDirty := rfl
@[simp] theorem State.setEa_linkActs (s : State) (n : Nat) (e : EauAcc) : (s.setEa n e).linkActs = s.linkActs := rfl
@[simp] theorem State.setEa_stepFrom (s : State) (n : Nat) (e : EauAcc) : (s.setEa n e).stepFrom = s.stepFrom := rfl
@[simp] theorem State.setEa_stepMark (s : State) (n : Nat) (e : EauAcc) : (s.setEa n e).stepMark = s.stepMark := rfl
@[simp] theorem State.setEa_dmaHeld (s : State) (n : Nat) (e : EauAcc) : (s.setEa n e).dmaHeld = s.dmaHeld := rfl
@[simp] theorem State.setEa_held (s : State) (n : Nat) (e : EauAcc) : (s.setEa n e).held = s.held := rfl
@[simp] theorem State.setEa_lateTags (s : State) (n : Nat) (e : EauAcc) : (s.setEa n e).lateTags = s.lateTags := rfl
@[simp] theorem State.setEa_xspi (s : State) (n : Nat) (e : EauAcc) : (s.setEa n e).xspi = s.xspi := rfl
@[simp] theorem State.setEa_wtape (s : State) (n : Nat) (e : EauAcc) : (s.setEa n e).wtape = s.wtape := rfl
@[simp] theorem State.setEa_wtapeN (s : State) (n : Nat) (e : EauAcc) : (s.setEa n e).wtapeN = s.wtapeN := rfl
@[simp] theorem State.setEa_l2Old (s : State) (n : Nat) (e : EauAcc) : (s.setEa n e).l2Old = s.l2Old := rfl
@[simp] theorem State.setEa_elg (s : State) (n : Nat) (e : EauAcc) : (s.setEa n e).elg = s.elg := rfl
@[simp] theorem State.setEa_pmu (s : State) (n : Nat) (e : EauAcc) : (s.setEa n e).pmu = s.pmu := rfl
@[simp] theorem State.setEa_si (s : State) (n : Nat) (e : EauAcc) : (s.setEa n e).si = s.si := rfl
@[simp] theorem State.setEa_reg_read (s : State) (n : Nat) (e : EauAcc) (k : Nat) : (s.setEa n e).reg k = s.reg k := rfl
@[simp] theorem State.setEa_rf_read (s : State) (n : Nat) (e : EauAcc) (k p q : Nat) : (s.setEa n e).rf k p q = s.rf k p q := rfl
@[simp] theorem State.setEa_rb_read (s : State) (n : Nat) (e : EauAcc) (k p : Nat) : (s.setEa n e).rb k p = s.rb k p := rfl
@[simp] theorem State.setEa_reg64_read (s : State) (n : Nat) (e : EauAcc) (k p : Nat) : (s.setEa n e).reg64 k p = s.reg64 k p := rfl
@[simp] theorem State.setEa_core_read (s : State) (n : Nat) (e : EauAcc) (i : CoreId) : (s.setEa n e).core i = s.core i := rfl
@[simp] theorem State.setEa_sr_read (s : State) (n : Nat) (e : EauAcc) (i : CoreId) (k : Nat) : (s.setEa n e).sr i k = s.sr i k := rfl
@[simp] theorem State.setEa_srf_read (s : State) (n : Nat) (e : EauAcc) (i : CoreId) (k p q : Nat) : (s.setEa n e).srf i k p q = s.srf i k p q := rfl
@[simp] theorem State.setEa_g_read (s : State) (n : Nat) (e : EauAcc) (i : CoreId) (t : GReg) : (s.setEa n e).g i t = s.g i t := rfl
@[simp] theorem State.setEa_f_read (s : State) (n : Nat) (e : EauAcc) (i : CoreId) (t : FReg) : (s.setEa n e).f i t = s.f i t := rfl
@[simp] theorem State.setEa_q_read (s : State) (n : Nat) (e : EauAcc) (i : CoreId) (t : QReg) : (s.setEa n e).q i t = s.q i t := rfl
@[simp] theorem State.setEa_pc_read (s : State) (n : Nat) (e : EauAcc) (i : CoreId) : (s.setEa n e).pc i = s.pc i := rfl
@[simp] theorem State.setEa_lvl_read (s : State) (n : Nat) (e : EauAcc) (i : CoreId) : (s.setEa n e).lvl i = s.lvl i := rfl
@[simp] theorem State.setEa_byte_read (s : State) (n : Nat) (e : EauAcc) (k : Nat) : (s.setEa n e).byte k = s.byte k := rfl
@[simp] theorem State.setEa_wrong_read (s : State) (n : Nat) (e : EauAcc) (k : Nat) : (s.setEa n e).wrong k = s.wrong k := rfl
@[simp] theorem State.setEa_vc_read (s : State) (n : Nat) (e : EauAcc) (y : CtxId) : (s.setEa n e).vc y = s.vc y := rfl
@[simp] theorem State.setEa_power_read (s : State) (n : Nat) (e : EauAcc)  : (s.setEa n e).power = s.power := rfl

end Sys2Proof.Machine
end

