-- ==== Sys2Proof/Laws/Fields.lean ====
section
/-! SUPPORT. Bit fields, and reads of registers, bytes, cores and contexts after writes of them. -/
namespace Sys2Proof.Machine

/-! ### Bit fields -/

theorem testBit_nfld (x hi lo i : Nat) : (nfld x hi lo).testBit i = (decide (i < hi + 1 - lo) && x.testBit (lo + i)) := by
  unfold nfld
  rw [Nat.testBit_mod_two_pow, Nat.testBit_shiftRight]

theorem wbit_eq (w : Word) (b : Nat) : wbit w b = w.toNat.testBit b := BitVec.testBit_toNat w |>.symm

theorem getLsbD_fmask (hi lo i : Nat) : (fmask hi lo).getLsbD i = (decide (i < 32) && decide (lo ≤ i) && decide (i - lo < hi + 1 - lo)) := by
  unfold fmask
  rw [BitVec.getLsbD_ofNat, Nat.testBit_shiftLeft, Nat.testBit_two_pow_sub_one]
  simp [Bool.and_assoc]

theorem wbit_putFld (w : Word) (hi lo x i : Nat) :
    wbit (putFld w hi lo x) i = if i < 32 ∧ lo ≤ i ∧ i - lo < hi + 1 - lo then x.testBit (i - lo) else wbit w i := by
  unfold wbit putFld
  rw [BitVec.getLsbD_or, BitVec.getLsbD_and, BitVec.getLsbD_and, BitVec.getLsbD_not, getLsbD_fmask, BitVec.getLsbD_ofNat, Nat.testBit_shiftLeft]
  by_cases h1 : i < 32
  · by_cases h2 : lo ≤ i
    · by_cases h3 : i - lo < hi + 1 - lo <;> simp [h1, h2, h3]
    · simp [h1, h2]
  · simp [h1, BitVec.getLsbD_of_ge w i (by omega)]

theorem wbit_putBit_self (w : Word) {b : Nat} (v : Bool) (h : b < 32) : wbit (putBit w b v) b = v := by
  unfold putBit
  rw [wbit_putFld, if_pos ⟨h, Nat.le_refl _, by omega⟩]
  cases v <;> simp

theorem wbit_putBit_ne (w : Word) {b i : Nat} (v : Bool) (h : i ≠ b) : wbit (putBit w b v) i = wbit w i := by
  unfold putBit
  rw [wbit_putFld, if_neg (by omega)]

theorem wbit_putFld_out (w : Word) {hi lo x i : Nat} (h : i < lo ∨ hi < i) : wbit (putFld w hi lo x) i = wbit w i := by
  rw [wbit_putFld, if_neg (by omega)]

theorem testBit_fld (w : Word) (hi lo i : Nat) : (fld w hi lo).testBit i = (decide (i < hi + 1 - lo) && wbit w (lo + i)) := by
  rw [fld, testBit_nfld, wbit_eq]

theorem fld_putFld_self (w : Word) {hi lo : Nat} (x : Nat) (h : hi < 32) : fld (putFld w hi lo x) hi lo = x % 2 ^ (hi + 1 - lo) := by
  apply Nat.eq_of_testBit_eq
  intro i
  rw [testBit_fld, wbit_putFld, Nat.testBit_mod_two_pow]
  by_cases hi' : i < hi + 1 - lo
  · rw [if_pos ⟨by omega, by omega, by omega⟩]; simp [hi']
  · simp [hi']

theorem fld_putFld_out (w : Word) {hi lo h2 l2 : Nat} (x : Nat) (h : h2 < lo ∨ hi < l2) : fld (putFld w hi lo x) h2 l2 = fld w h2 l2 := by
  apply Nat.eq_of_testBit_eq
  intro i
  rw [testBit_fld, testBit_fld]
  by_cases hi' : i < h2 + 1 - l2
  · rw [wbit_putFld_out w (by omega)]
  · simp [hi']

theorem fld_putBit_out (w : Word) {b h2 l2 : Nat} (v : Bool) (h : h2 < b ∨ b < l2) : fld (putBit w b v) h2 l2 = fld w h2 l2 :=
  fld_putFld_out w _ h

theorem fld_lt (w : Word) (hi lo : Nat) : fld w hi lo < 2 ^ (hi + 1 - lo) := Nat.mod_lt _ (Nat.two_pow_pos _)

/-! ### Registers by address -/

@[simp] theorem reg_setReg_self (s : State) (a : Nat) (v : Word) : (s.setReg a v).reg a = v := smGet_smPut_self regReset s.regs a v

theorem reg_setReg_ne (s : State) (v : Word) {a k : Nat} (h : k ≠ a) : (s.setReg a v).reg k = s.reg k := smGet_smPut_ne regReset s.regs v h

@[simp] theorem reg_setRf_self (s : State) (a hi lo x : Nat) : (s.setRf a hi lo x).reg a = putFld (s.reg a) hi lo x := reg_setReg_self ..

theorem reg_setRf_ne (s : State) (hi lo x : Nat) {a k : Nat} (h : k ≠ a) : (s.setRf a hi lo x).reg k = s.reg k := reg_setReg_ne s _ h

@[simp] theorem reg_setRb_self (s : State) (a b : Nat) (v : Bool) : (s.setRb a b v).reg a = putBit (s.reg a) b v := reg_setReg_self ..

theorem reg_setRb_ne (s : State) (b : Nat) (v : Bool) {a k : Nat} (h : k ≠ a) : (s.setRb a b v).reg k = s.reg k := reg_setReg_ne s _ h

theorem rb_setReg_ne (s : State) (v : Word) (p : Nat) {a k : Nat} (h : k ≠ a) : (s.setReg a v).rb k p = s.rb k p :=
  congrArg (wbit · p) (reg_setReg_ne s v h)

theorem rf_setReg_ne (s : State) (v : Word) (p q : Nat) {a k : Nat} (h : k ≠ a) : (s.setReg a v).rf k p q = s.rf k p q :=
  congrArg (fld · p q) (reg_setReg_ne s v h)

theorem rb_setRb_self (s : State) (a : Nat) {b : Nat} (v : Bool) (h : b < 32) : (s.setRb a b v).rb a b = v := by
  unfold State.rb
  rw [reg_setRb_self, wbit_putBit_self _ v h]

theorem rb_setRb_ne (s : State) (a : Nat) {b p : Nat} (v : Bool) (k : Nat) (h : k ≠ a ∨ p ≠ b) : (s.setRb a b v).rb k p = s.rb k p := by
  unfold State.rb
  by_cases hk : k = a
  · subst hk
    rw [reg_setRb_self, wbit_putBit_ne _ v (h.resolve_left fun n => n rfl)]
  · rw [reg_setRb_ne s b v hk]

theorem rf_setRb_ne (s : State) (a : Nat) {b p q : Nat} (v : Bool) (k : Nat) (h : k ≠ a ∨ p < b ∨ b < q) : (s.setRb a b v).rf k p q = s.rf k p q := by
  unfold State.rf
  by_cases hk : k = a
  · subst hk
    rw [reg_setRb_self, fld_putBit_out _ v (h.resolve_left fun n => n rfl)]
  · rw [reg_setRb_ne s b v hk]

theorem rf_setRf_self (s : State) (a : Nat) {hi lo : Nat} (x : Nat) (h : hi < 32) : (s.setRf a hi lo x).rf a hi lo = x % 2 ^ (hi + 1 - lo) := by
  unfold State.rf
  rw [reg_setRf_self, fld_putFld_self _ x h]

theorem rf_setRf_ne (s : State) (a : Nat) {hi lo p q : Nat} (x k : Nat) (h : k ≠ a ∨ p < lo ∨ hi < q) : (s.setRf a hi lo x).rf k p q = s.rf k p q := by
  unfold State.rf
  by_cases hk : k = a
  · subst hk
    rw [reg_setRf_self, fld_putFld_out _ x (h.resolve_left fun n => n rfl)]
  · rw [reg_setRf_ne s hi lo x hk]

theorem rb_setRf_ne (s : State) (a : Nat) {hi lo p : Nat} (x k : Nat) (h : k ≠ a ∨ p < lo ∨ hi < p) : (s.setRf a hi lo x).rb k p = s.rb k p := by
  unfold State.rb
  by_cases hk : k = a
  · subst hk
    rw [reg_setRf_self, wbit_putFld_out _ (h.resolve_left fun n => n rfl)]
  · rw [reg_setRf_ne s hi lo x hk]

theorem reg_resetRegs (s : State) (p : Nat → Bool) (k : Nat) : (s.resetRegs p).reg k = if p k then regReset k else s.reg k :=
  smGet_smDrop regReset p s.regs k

/-! ### Memory bytes -/

@[simp] theorem byte_setByte_self (s : State) (a : Nat) (v : Byte) : (s.setByte a v).byte a = v := smGet_smPut_self memDefault s.mem a v

theorem byte_setByte_ne (s : State) (v : Byte) {a k : Nat} (h : k ≠ a) : (s.setByte a v).byte k = s.byte k := smGet_smPut_ne memDefault s.mem v h

@[simp] theorem wrong_setEcc_self (s : State) (a : Nat) (v : BitVec 13) : (s.setEcc a v).wrong a = v := smGet_smPut_self eccDefault s.ecc a v

theorem wrong_setEcc_ne (s : State) (v : BitVec 13) {a k : Nat} (h : k ≠ a) : (s.setEcc a v).wrong k = s.wrong k := smGet_smPut_ne eccDefault s.ecc v h

/-- Bytes outside a stored stretch stay as they were. -/
theorem storeBytes_byte_out (l : List Byte) : ∀ (s : State) (a k : Nat), k < a ∨ a + l.length ≤ k → (s.storeBytes a l).byte k = s.byte k := by
  induction l with
  | nil => intro s a k _; rfl
  | cons b t ih =>
    intro s a k h
    simp only [List.length_cons] at h
    rw [State.storeBytes, ih _ _ _ (by omega), State.setEcc_byte_read, byte_setByte_ne s b (by omega)]

/-- A stored stretch holds what was stored. -/
theorem storeBytes_byte_in (l : List Byte) : ∀ (s : State) (a i : Nat) (h : i < l.length), (s.storeBytes a l).byte (a + i) = l[i] := by
  induction l with
  | nil => intro s a i h; exact absurd h (by simp)
  | cons b t ih =>
    intro s a i h
    rw [State.storeBytes]
    cases i with
    | zero => rw [storeBytes_byte_out t _ _ _ (by omega)]; simp
    | succ j =>
      have := ih ((s.setByte a b).setEcc a 0) (a + 1) j (by simpa using h)
      rw [show a + (j + 1) = a + 1 + j by omega, this]; rfl

/-! ### Cores -/

@[simp] theorem core_setCore_self (s : State) (c : CoreId) (k : Core) : (s.setCore c k).core c = k := by
  simp [State.core, State.setCore]

theorem core_setCore_ne (s : State) {c i : CoreId} (k : Core) (h : i ≠ c) : (s.setCore c k).core i = s.core i := by
  have : c.val ≠ i.val := fun e => h (Fin.ext e.symm)
  simp [State.core, State.setCore, this]

@[simp] theorem core_modCore_self (s : State) (c : CoreId) (f : Core → Core) : (s.modCore c f).core c = f (s.core c) := core_setCore_self ..

theorem core_modCore_ne (s : State) {c i : CoreId} (f : Core → Core) (h : i ≠ c) : (s.modCore c f).core i = s.core i := core_setCore_ne s _ h

@[simp] theorem sr_setSr_self (s : State) (c : CoreId) (n : Nat) (v : Word) : (s.setSr c n v).sr c n = v := by
  simp [State.sr, State.setSr]

theorem sr_setSr_ne (s : State) (c : CoreId) {n k : Nat} (v : Word) (h : k ≠ n) : (s.setSr c n v).sr c k = s.sr c k := by
  simp [State.sr, State.setSr, smGet_smPut_ne srReset _ v h]

theorem sr_setSr_other (s : State) {c i : CoreId} (n k : Nat) (v : Word) (h : i ≠ c) : (s.setSr c n v).sr i k = s.sr i k := by
  simp [State.sr, State.setSr, core_modCore_ne s _ h]

@[simp] theorem pc_setPc_self (s : State) (c : CoreId) (v : Word) : (s.setPc c v).pc c = v := by simp [State.pc, State.setPc]

@[simp] theorem g_zero (s : State) (c : CoreId) : s.g c 0 = 0 := rfl

/-- Every field of a core but the general registers survives a write of one. -/
theorem core_setG (s : State) (c : CoreId) (r : GReg) (v : Word) :
    ∃ g gs, (s.setG c r v).core c = { s.core c with g := g, gs := gs } := by
  unfold State.setG
  split
  · exact ⟨_, _, rfl⟩
  · split <;> exact ⟨_, _, core_modCore_self ..⟩

theorem core_setG_ne (s : State) {c i : CoreId} (r : GReg) (v : Word) (h : i ≠ c) : (s.setG c r v).core i = s.core i := by
  unfold State.setG
  split
  · rfl
  · split <;> exact core_modCore_ne s _ h

@[simp] theorem sr_setG (s : State) (c i : CoreId) (r : GReg) (v : Word) (n : Nat) : (s.setG c r v).sr i n = s.sr i n := by
  unfold State.sr
  by_cases h : i = c
  · subst h
    obtain ⟨g, gs, e⟩ := core_setG s i r v
    rw [e]
  · rw [core_setG_ne s r v h]

@[simp] theorem f_setG (s : State) (c i : CoreId) (r : GReg) (v : Word) (n : FReg) : (s.setG c r v).f i n = s.f i n := by
  unfold State.f
  by_cases h : i = c
  · subst h
    obtain ⟨g, gs, e⟩ := core_setG s i r v
    rw [e]
  · rw [core_setG_ne s r v h]

@[simp] theorem pc_setG (s : State) (c i : CoreId) (r : GReg) (v : Word) : (s.setG c r v).pc i = s.pc i := by
  unfold State.pc
  by_cases h : i = c
  · subst h
    obtain ⟨g, gs, e⟩ := core_setG s i r v
    rw [e]
  · rw [core_setG_ne s r v h]

@[simp] theorem lvl_setG (s : State) (c i : CoreId) (r : GReg) (v : Word) : (s.setG c r v).lvl i = s.lvl i := by
  unfold State.lvl
  by_cases h : i = c
  · subst h
    obtain ⟨g, gs, e⟩ := core_setG s i r v
    rw [e]
  · rw [core_setG_ne s r v h]

@[simp] theorem shadow_setG (s : State) (c i : CoreId) (r : GReg) (v : Word) : (s.setG c r v).shadow i = s.shadow i := by
  unfold State.shadow
  rw [sr_setG]

/-- A general register just written reads as written; G0 reads as zero (R194). -/
theorem g_setG_self (s : State) (c : CoreId) (r : GReg) (v : Word) : (s.setG c r v).g c r = if r.val = 0 then 0 else v := by
  by_cases h0 : r.val = 0
  · simp [State.g, h0]
  · unfold State.g
    rw [shadow_setG]
    simp only [h0, if_false]
    by_cases h : (s.shadow c && decide (20 ≤ r.val) && decide (r.val < 30)) = true
    · rw [if_pos h]
      unfold State.setG
      rw [if_neg h0, if_pos h, core_modCore_self]
      simp only [Bool.and_eq_true, decide_eq_true_eq] at h
      simp [List.getD_eq_getElem?_getD, show r.val - 20 < 10 by omega]
    · rw [if_neg h]
      unfold State.setG
      rw [if_neg h0, if_neg h, core_modCore_self]
      simp

/-- The other general registers stay as they were. -/
theorem g_setG_ne (s : State) (c : CoreId) {r t : GReg} (v : Word) (h : t ≠ r) : (s.setG c r v).g c t = s.g c t := by
  have hv : r.val ≠ t.val := fun e => h (Fin.ext e.symm)
  unfold State.g
  rw [shadow_setG]
  split
  · rfl
  · rename_i h0
    unfold State.setG
    split
    · rfl
    · split
      · rw [core_modCore_self]
        split
        · rename_i h1 h2
          simp only [Bool.and_eq_true, decide_eq_true_eq] at h1 h2
          simp only [List.getD_eq_getElem?_getD, Vector.toList_setIfInBounds]
          rw [List.getElem?_set_ne (by omega)]
        · rfl
      · rw [core_modCore_self]
        split
        · rfl
        · simp [hv]

theorem g_setG_other (s : State) {c i : CoreId} (r t : GReg) (v : Word) (h : i ≠ c) : (s.setG c r v).g i t = s.g i t := by
  unfold State.g
  rw [shadow_setG, core_setG_ne s r v h]

/-! ### Contexts -/

@[simp] theorem vc_setVc_self (s : State) (x : CtxId) (v : VCtx) : (s.setVc x v).vc x = v := by
  simp [State.vc, State.setVc]

theorem vc_setVc_ne (s : State) {x y : CtxId} (v : VCtx) (h : y ≠ x) : (s.setVc x v).vc y = s.vc y := by
  have : x.val ≠ y.val := fun e => h (Fin.ext e.symm)
  simp [State.vc, State.setVc, this]

@[simp] theorem vc_modVc_self (s : State) (x : CtxId) (f : VCtx → VCtx) : (s.modVc x f).vc x = f (s.vc x) := vc_setVc_self ..

theorem vc_modVc_ne (s : State) {x y : CtxId} (f : VCtx → VCtx) (h : y ≠ x) : (s.modVc x f).vc y = s.vc y := vc_setVc_ne s _ h

end Sys2Proof.Machine
end

