-- ==== Sys2Proof/Laws/Core.lean ====
section
/-! SUPPORT. The frame of a core's instruction: what `run`, `retire` and `unstall` can do. -/
namespace Sys2Proof.Machine

/-- An instruction that issues carries its own effect through. -/
theorem run_go {c : CoreId} {i : Instr} {k : SyncKind} {b : State → Acc Flow} {s s1 : State} (h : prelude_ c i k s = .go s1) :
    run c i k b s = conclude c i (b s1) := by
  unfold run; rw [h]

/-- An instruction that does not issue does no more than its frame does. -/
theorem run_stop {c : CoreId} {i : Instr} {k : SyncKind} {b : State → Acc Flow} {s s1 : State} (h : prelude_ c i k s = .stop s1) :
    run c i k b s = s1 := by
  unfold run; rw [h]

/-- A core that does not execute leaves the state as it is. -/
theorem run_notRunning {c : CoreId} {i : Instr} {k : SyncKind} {b : State → Acc Flow} {s : State} (h : running s c = false) :
    run c i k b s = s := by
  unfold run prelude_; rw [h]; rfl

/-- An instruction that is carried through, other than a block repeat that goes on. -/
theorem conclude_ok (c : CoreId) (i : Instr) (f : Flow) (s : State) (h : f ≠ .again) : conclude c i (.ok f s) = retire c f (unstall c s) := by
  cases f <;> first | rfl | exact absurd rfl h
theorem conclude_next (c : CoreId) (i : Instr) (s : State) : conclude c i (.ok .next s) = retire c .next (unstall c s) := rfl
theorem conclude_jump (c : CoreId) (i : Instr) (t : Word) (s : State) : conclude c i (.ok (.jump t) s) = retire c (.jump t) (unstall c s) := rfl
theorem conclude_again (c : CoreId) (i : Instr) (s : State) : conclude c i (.ok .again s) = repeatGoes c i s := rfl
theorem conclude_exc (c : CoreId) (i : Instr) (e : Exc) (s : State) : conclude c i (.exc e s) = takeExc c i e s := rfl
theorem conclude_wait (c : CoreId) (i : Instr) (s : State) : conclude c i (.wait s) = stallOn c i s := rfl

/-- The end of an instruction touches only its core. -/
theorem unstall_cores (c : CoreId) (s : State) : unstall c s = { s with cores := (unstall c s).cores } := rfl

/-- What `retire` leaves: everything but the core's pc, the loop counter, LCTL and the end of the loop to come. -/
theorem retire_cores (c : CoreId) (f : Flow) (s : State) : retire c f s = { s with cores := (retire c f s).cores } := by
  have hg : ∀ (t : State) (r : GReg) (v : Word), t.setG c r v = { t with cores := (t.setG c r v).cores } := by
    intro t r v; unfold State.setG; split
    · rfl
    · split <;> rfl
  have hl : ∀ t : State, loopBack c t = { t with cores := (loopBack c t).cores } := by
    intro t; unfold loopBack; dsimp only
    rw [hg t]
    split <;> rfl
  unfold retire
  split
  · rfl
  · rfl
  · split
    · exact hl s
    · rfl
  · split
    · rfl
    · split
      · exact hl s
      · rfl

end Sys2Proof.Machine
end

