-- ==== Sys2Proof/Laws/SiSram.lean ====
section
/-! SUPPORT. Bytes of a number, stored bytes, and accesses of the Safety Island to its SRAM. -/
namespace Sys2Proof.Machine

/-- With an empty store buffer there is nothing to drain. -/
theorem drain_nil (c : CoreId) (s : State) (h : (s.core c).sbuf = []) : drain c s = s := by
  unfold drain; rw [h]; rfl

/-- `leBytes n` gives n bytes. -/
theorem leBytes_length (n x : Nat) : (leBytes n x).length = n := by
  induction n generalizing x with
  | zero => rfl
  | succ n ih => simp [leBytes, ih]

/-- Byte k of a number, least significant first. -/
theorem leBytes_get (n x k : Nat) (h : k < n) : (leBytes n x)[k]'(by rw [leBytes_length]; exact h) = BitVec.ofNat 8 (x / 256 ^ k) := by
  induction n generalizing x k with
  | zero => omega
  | succ n ih =>
    cases k with
    | zero => simp [leBytes]
    | succ k => simp only [leBytes, List.getElem_cons_succ]; rw [ih _ _ (by omega), Nat.div_div_eq_div_mul, Nat.pow_succ, Nat.mul_comm]

/-- Codes outside the stored bytes stay. -/
theorem storeBytes_wrong_out (l : List Byte) : ∀ (s : State) (a k : Nat), k < a ∨ a + l.length ≤ k → (s.storeBytes a l).wrong k = s.wrong k := by
  induction l with
  | nil => intro s a k _; rfl
  | cons b t ih =>
    intro s a k h
    simp only [List.length_cons] at h
    rw [State.storeBytes, ih _ _ _ (by omega), wrong_setEcc_ne _ 0 (by omega)]
    simp

/-- A stored byte has a good code (R282). -/
theorem storeBytes_wrong_in (l : List Byte) : ∀ (s : State) (a i : Nat), i < l.length → (s.storeBytes a l).wrong (a + i) = 0 := by
  induction l with
  | nil => intro s a i h; simp at h
  | cons b t ih =>
    intro s a i h
    rw [State.storeBytes]
    cases i with
    | zero => rw [storeBytes_wrong_out t _ _ _ (by omega)]; simp
    | succ j =>
      simp only [List.length_cons] at h
      have := ih ((s.setByte a b).setEcc a 0) (a+1) j (by omega)
      rwa [show a + 1 + j = a + (j + 1) by omega] at this

/-- Storing bytes touches the memory and its codes alone. -/
theorem storeBytes_eq (l : List Byte) : ∀ (s : State) (a : Nat), s.storeBytes a l = { s with mem := (s.storeBytes a l).mem, ecc := (s.storeBytes a l).ecc } := by
  induction l with
  | nil => intro s a; rfl
  | cons b t ih => intro s a; rw [State.storeBytes, ih]; rfl

/-- An undisturbed byte needs no correction (R283). -/
theorem eccDecode_zero : eccDecode 0 = ⟨0, false, false⟩ := by decide

/-- Good SI SRAM bytes read as they stand, and reading them changes nothing (R406). -/
theorem siRead_good (s : State) (pa n : Nat) (h : ∀ k, k < n → s.wrong (pa + k) = 0) :
    siRead pa n s = (some ((List.range n).map fun i => s.byte (pa + i)), s) := by
  have e : ((List.range n).map fun i => eccDecode (s.wrong (pa + i))) = (List.range n).map fun _ => (⟨0, false, false⟩ : EccOut) := by
    apply List.map_congr_left; intro k hk; rw [h k (List.mem_range.1 hk), eccDecode_zero]
  have e2 : ((List.range n).map fun i => readByte s (pa + i)) = (List.range n).map fun i => s.byte (pa + i) := by
    apply List.map_congr_left; intro k hk; unfold readByte; rw [h k (List.mem_range.1 hk), eccDecode_zero]; simp
  unfold siRead
  rw [e, e2]
  simp

/-- M4 reaches SI SRAM, which lies behind T7 (R12, R24). -/
theorem si_target (s : State) (pa : Nat) (h1 : 0x30000000 ≤ pa) (h2 : pa < 0x30200000) : targetOf s pa = 7 ∧ isSiSram pa = true ∧ reaches s 4 pa false = true ∧ reaches s 4 pa true = true := by
  have hp : isSiSram pa = true := by unfold isSiSram; simp; omega
  have ht : targetOf s pa = 7 := by
    unfold targetOf
    rw [if_neg, if_neg, if_neg]
    · simp [hp]
    all_goals simp [isErg, isBootRom, isCtl]; omega
  refine ⟨ht, hp, ?_, ?_⟩ <;> simp [reaches, ht]

/-- An access that its port may issue is not one that it has issued before (R303). -/
theorem mayIssue_fresh (s : State) (older : List Xact) (m : Nat) (wr : Bool) (pa len : Nat) (hn : 0 < len) (h : mayIssue s older m wr pa len = true) :
    ∀ g ∈ s.held, (BusHeld.same ⟨m, wr, pa, len, true, false⟩ g) = false := by
  intro g hg
  rw [Bool.eq_false_iff]
  intro hs
  simp only [BusHeld.same, Bool.and_eq_true, beq_iff_eq] at hs
  obtain ⟨⟨⟨e1, _⟩, e3⟩, e4⟩ := hs
  simp only [mayIssue, Bool.and_eq_true, Bool.not_eq_true', inWay, Bool.or_eq_false_iff] at h
  have := List.any_eq_false.1 h.2.2 g (List.mem_append_left _ hg)
  apply this
  simp only [touches, Bool.and_eq_true, beq_iff_eq, decide_eq_true_eq]
  omega

/-- What an engine's access does when its port issues it: its target answers, or it waits there (R302, R303). -/
theorem busGate_issue (x : Xact) (go : State → BusRes × State) (s : State) (hn : 0 < x.len)
    (h : mayIssue s s.xacts x.m (x.kind != 0) x.pa x.len = true) :
    busGate x go s = match go s with
      | (.wait, s1) => (.wait, if isRemote x.pa then s1 else { s1 with held := s1.held ++ [heldOf x] })
      | d => d := by
  have hf := mayIssue_fresh s s.xacts x.m (x.kind != 0) x.pa x.len hn h
  have e : (s.held.filter fun g => !(heldOf x).same g) = s.held := by
    apply List.filter_eq_self.2; intro g hg; rw [heldOf, hf g hg]; rfl
  have e2 : (s.held.any fun g => (heldOf x).same g && g.tmo) = false := by
    apply List.any_eq_false.2; intro g hg; rw [heldOf, hf g hg]; simp
  unfold busGate
  simp only [e, e2, h, Bool.or_true, Bool.false_eq_true, if_false, if_true]
  all_goals rfl

/-- An access of a disabled port that it has not issued waits, and changes nothing (R25, R312). -/
theorem busGate_off (x : Xact) (go : State → BusRes × State) (s : State) (hm : masterOn s x.m = false) (hi : issuedAt s (heldOf x) = false) :
    busGate x go s = (.wait, s) := by
  have e2 : (s.held.any fun g => (heldOf x).same g && g.tmo) = false := by
    apply List.any_eq_false.2; intro g hg
    have := List.any_eq_false.1 hi g hg
    simp only [Bool.and_eq_true, not_and]; intro hc; exact absurd hc this
  unfold busGate
  simp only [e2, hi, mayIssue, hm, Bool.false_and, Bool.or_false, Bool.false_eq_true, if_false]

/-- A read of good SI SRAM by M4 answers the bytes and changes nothing. -/
theorem si_busRead (s : State) (c pa n : Nat) (own : ReqOwner) (id : Nat) (hn : 0 < n) (hm : mayIssue s s.xacts 4 false pa n = true) (hs : s.rb MIU_STEST 24 = false)
   (h1 : 0x30000000 ≤ pa) (h2 : pa < 0x30200000) (h : ∀ k, k < n → s.wrong (pa + k) = 0) :
   busRead 4 c own id pa n s = (.done rOKAY ((List.range n).map fun i => s.byte (pa + i)), s) := by
  obtain ⟨a, b, d, _⟩ := si_target s pa h1 h2
  rw [busRead, busGate_issue _ _ _ hn (by simpa [newXact] using hm)]
  simp [readIssued, targetRead, a, b, d, hs, siRead_good s pa n h, xbmLogged, rOKAY, rDECODE, rTARGET]

/-- A write of SI SRAM by M4 that ends in it stores the bytes with good codes and changes nothing else. -/
theorem si_busWrite (s : State) (c pa : Nat) (lvl : Level) (own : ReqOwner) (id : Nat) (b : List Byte) (coll : List Nat) (hn : 0 < b.length)
   (hm : mayIssue s s.xacts 4 true pa b.length = true) (hs : s.rb MIU_STEST 24 = false) (h1 : 0x30000000 ≤ pa) (h2 : pa + b.length ≤ 0x30200000) :
   busWrite 4 c lvl own id pa b coll s = (.done rOKAY [], s.storeBytes pa b) := by
  obtain ⟨a, e, _, d⟩ := si_target s pa h1 (by omega)
  have ht : b.take (0x30200000 - pa) = b := List.take_of_length_le (by omega)
  rw [busWrite, busGate_issue _ _ _ hn (by simpa [newXact] using hm)]
  simp [targetWrite, a, e, d, hs, xbmLogged, h2, ht, rOKAY, rDECODE, rTARGET]

/-- An aligned SI SRAM address of the Safety Island is its own physical address (R404, R406). -/
theorem si_fresh (s : State) (va n : Nat) (k : AccKind) (h1 : 0x30000000 ≤ va) (h2 : va < 0x30200000) (hn : n ≤ 64) :
   transFresh siCore va n k false s = .ok [⟨va, n, true, false, va⟩] s := by
  have hp : siPhys s va = va := by unfold siPhys; rw [if_pos (by omega)]
  have hd : isDevice va = true := by unfold isDevice isSiSram; simp; omega
  have hl : (if va < 0xF0000000 then 0xF0000000 else 2 ^ 32) - va = 0xF0000000 - va := by rw [if_pos (by omega)]
  simp only [transFresh, isSI, siPieces, hp, hd, hl]
  rw [if_pos (by omega : n ≤ 0xF0000000 - va)]
  rfl

/-- A first access of an instruction translates afresh and keeps the translation for the accesses that wait (R202). -/
theorem transPieces_fresh (c : CoreId) (va n : Nat) (k : AccKind) (m : Bool) (s : State) (h : (s.core c).rsp = []) :
   transPieces c va n k m s = (transFresh c va n k m s).bind fun ps s1 => .ok ps (s1.modCore c fun q => { q with tr := (va, n, k, ps) :: q.tr }) := by
  simp [transPieces, h]

end Sys2Proof.Machine
end

