-- ==== Sys2Proof/Laws/BusWrite.lean ====
section
/-! SUPPORT. A register write at the bus matrix: what a master that reaches the register, one that does not, and a disabled one do. -/
namespace Sys2Proof.Machine

theorem leWord_leBytes (v : Word) : leWord (leBytes 4 v.toNat) = v := by
  apply BitVec.eq_of_toNat_eq
  have h := v.isLt
  simp only [leWord, leNat, leBytes, BitVec.toNat_ofNat]
  omega

theorem wordAccess_word (pa : Nat) (v : Word) (h : pa % 4 = 0) : wordAccess pa (leBytes 4 v.toNat).length = true := by
  rw [leBytes_length]; simp [wordAccess, h]

/-- A control frame is at T3, T4 or T5, or at none. -/
theorem frameTarget_range (f : Nat) : frameTarget f = 3 ∨ frameTarget f = 4 ∨ frameTarget f = 5 ∨ frameTarget f = 8 := by
  have key : ∀ (c : Prop) [Decidable c] (a b : Nat), (a = 3 ∨ a = 4 ∨ a = 5 ∨ a = 8) → (b = 3 ∨ b = 4 ∨ b = 5 ∨ b = 8) →
      ((if c then a else b) = 3 ∨ (if c then a else b) = 4 ∨ (if c then a else b) = 5 ∨ (if c then a else b) = 8) := by
    intro c _ a b ha hb; split <;> assumption
  unfold frameTarget
  repeat' (first | apply key | decide)

/-- A word in control space or the SI frame is at none of the memories and at no remote window. -/
theorem reg_target (s : State) (pa : Nat) (h : regWf pa = true) :
    pa % 4 = 0 ∧ targetOf s pa ≠ 0 ∧ targetOf s pa ≠ 1 ∧ targetOf s pa ≠ 2 ∧ targetOf s pa ≠ 6 ∧ (targetOf s pa = 7 → isSiSram pa = false) := by
  have ht := frameTarget_range
  simp only [regWf, Bool.and_eq_true, Bool.or_eq_true, decide_eq_true_eq, beq_iff_eq] at h
  obtain ⟨h4, h⟩ := h
  refine ⟨h4, ?_⟩
  rcases h with ⟨h1, h2⟩ | ⟨h1, h2⟩
  · have e : targetOf s pa = frameTarget (pa / 0x10000 % 0x1000) := by
      unfold targetOf
      rw [if_neg (by simp [isErg]; omega), if_neg (by simp [isBootRom]; omega), if_pos (by simp [isCtl]; omega)]
    have := ht (pa / 0x10000 % 0x1000)
    rw [e]
    exact ⟨by omega, by omega, by omega, by omega, by omega⟩
  · have e : targetOf s pa = 7 := by
      unfold targetOf
      rw [if_neg (by simp [isErg]; omega), if_neg (by simp [isBootRom]; omega), if_neg (by simp [isCtl]; omega), if_pos (by simp [isSiFrame]; omega)]
    rw [e]
    exact ⟨by decide, by decide, by decide, by decide, fun _ => by simp [isSiSram]; omega⟩

/-- What the register's target answers to a write by a master that reaches it. -/
theorem reg_targetWrite (m c : Nat) (lvl : Level) (own : ReqOwner) (pa : Nat) (v : Word) (coll : List Nat) (s : State)
    (h : regWf pa = true) (hr : reaches s m pa true = true) :
    targetWrite m c lvl own pa (leBytes 4 v.toNat) coll s = (.done rOKAY [], ctlWrite m c lvl pa v s) := by
  obtain ⟨h4, h0, h1, h2, h6, h7⟩ := reg_target s pa h
  have hw := wordAccess_word pa v h4
  unfold targetWrite
  rw [hr]
  simp only [Bool.not_true, Bool.false_eq_true, if_false]
  split
  · contradiction
  · contradiction
  · contradiction
  · rename_i e; rw [h7 e, if_neg (by decide), frameWrite, hw, leWord_leBytes]; rfl
  · rw [frameWrite, hw, leWord_leBytes]; rfl

/-- A register write by a master whose port issues it and that reaches the register. -/
theorem busWrite_reg (m c : Nat) (lvl : Level) (own : ReqOwner) (id pa : Nat) (v : Word) (coll : List Nat) (s : State)
    (h : regWf pa = true) (hm : mayIssue s s.xacts m true pa 4 = true) (hr : reaches s m pa true = true) :
    busWrite m c lvl own id pa (leBytes 4 v.toNat) coll s = (.done rOKAY [], ctlWrite m c lvl pa v s) := by
  rw [busWrite, busGate_issue _ _ _ (by simp [leBytes_length, newXact]) (by simpa [leBytes_length, newXact] using hm), reg_targetWrite m c lvl own pa v coll s h hr]
  rfl

/-- A write by a disabled master waits, and changes nothing (R25, R312). -/
theorem busWrite_off (m c : Nat) (lvl : Level) (own : ReqOwner) (id pa : Nat) (b : List Byte) (coll : List Nat) (s : State)
    (hm : masterOn s m = false) (hi : issuedAt s ⟨m, true, pa, b.length, true, false⟩ = false) :
    busWrite m c lvl own id pa b coll s = (.wait, s) := busGate_off _ _ s hm hi

/-- A write by a master that does not reach the target is answered with DECODE and logged (R24, R311). -/
theorem busWrite_decode (m c : Nat) (lvl : Level) (own : ReqOwner) (id pa : Nat) (b : List Byte) (coll : List Nat) (s : State) (hn : 0 < b.length)
    (hm : mayIssue s s.xacts m true pa b.length = true) (hr : reaches s m pa true = false) :
    busWrite m c lvl own id pa b coll s = (.done rDECODE [], xbmLog m id (targetOf s pa) true false rDECODE pa s) := by
  rw [busWrite, busGate_issue _ _ _ hn hm]
  simp only [targetWrite, hr]; rfl

/-- A register lies outside the Erg, so no word of it meets port V (R280). -/
theorem portVLost_reg (s : State) (pa len : Nat) (h : regWf pa = true) : portVLost pa len s = ([], s) := by
  have e : isErg pa = false := by
    simp only [regWf, Bool.and_eq_true, Bool.or_eq_true, decide_eq_true_eq, beq_iff_eq] at h
    simp [isErg]; omega
  simp [portVLost, e]

/-- A register write that a master does not wait for: it is performed when the master's port issues it and it reaches the register (R7, R24). -/
theorem postWrite_reg (m c : Nat) (lvl : Level) (pa : Nat) (v : Word) (s : State) (h : regWf pa = true) (hm : mayIssue s s.xacts m true pa 4 = true)
    (hr : reaches s m pa true = true) : postWrite m c lvl pa (leBytes 4 v.toNat) s = ctlWrite m c lvl pa v s := by
  rw [postWrite, posted, if_pos (by simpa [mayGrant, newXact, leBytes_length] using hm), writeIssued, portVLost_reg s pa _ h]
  dsimp only
  rw [reg_targetWrite m c lvl .nobody pa v [] s h hr]
  rfl

/-- One by a master that does not reach the register is answered with DECODE and logged (R24, R311). -/
theorem postWrite_decode (m c : Nat) (lvl : Level) (pa : Nat) (v : Word) (s : State) (h : regWf pa = true) (hm : mayIssue s s.xacts m true pa 4 = true)
    (hr : reaches s m pa true = false) :
    postWrite m c lvl pa (leBytes 4 v.toNat) s = xbmLog m plainId (targetOf s pa) true false rDECODE pa s := by
  rw [postWrite, posted, if_pos (by simpa [mayGrant, newXact, leBytes_length] using hm), writeIssued, portVLost_reg s pa _ h]
  dsimp only
  simp only [targetWrite, hr]; rfl

/-- One that the master's port may not issue yet is held (R302, R303, R312). -/
theorem postWrite_off (m c : Nat) (lvl : Level) (pa : Nat) (v : Word) (s : State) (hm : mayIssue s s.xacts m true pa 4 = false) :
    postWrite m c lvl pa (leBytes 4 v.toNat) s = { s with xacts := s.xacts ++
      [{ newXact s m c plainId 1 pa 4 0 lvl false [] [(pa, leBytes 4 v.toNat)] with auto := true }] } := by
  rw [postWrite, posted, if_neg (by simpa [mayGrant, newXact, leBytes_length] using hm), leBytes_length]

/-- What a command does that is one register write by a master. -/
theorem masterWrite_reg (m : Master) (pa : Nat) (v : Word) (s : State) (h : regWf pa = true) (hm : mayIssue s s.xacts m.val true pa 4 = true)
    (hr : reaches s m.val pa true = true) : masterWrite m pa v s = ctlWrite m.val 0 .m pa v s := postWrite_reg m.val 0 .m pa v s h hm hr

end Sys2Proof.Machine
end

