-- ==== Sys2Proof/Laws/Signals.lean ====
section
/-! SUPPORT. What an interrupt source, a Safety Island source, an event-router pulse, a counter and the safe-state latch can do: registers,
cores' WAIT, held sources and edges change, and nothing else; the registers stay canonical. -/
namespace Sys2Proof.Machine

/-- `t` is `s` after signals: only the registers, the cores, the held sources, the edges, the Safety Island's marks and the count of free values may
differ, and the registers stay canonical. -/
def Signalled (s t : State) : Prop :=
  ∃ r c h e f i, t = { s with regs := r, cores := c, icuHeld := h, edges := e, fresh := f, si := i } ∧
    (smWf regReset s.regs = true → smWf regReset r = true)

theorem Signalled.refl (s : State) : Signalled s s := ⟨s.regs, s.cores, s.icuHeld, s.edges, s.fresh, s.si, by cases s; rfl, id⟩

theorem Signalled.trans {s t u : State} (h1 : Signalled s t) (h2 : Signalled t u) : Signalled s u := by
  obtain ⟨r, c, h, e, f, i, rfl, w⟩ := h1
  obtain ⟨r2, c2, h2, e2, f2, i2, rfl, w2⟩ := h2
  exact ⟨r2, c2, h2, e2, f2, i2, rfl, fun x => w2 (w x)⟩

theorem signalled_setReg (s : State) (a : Nat) (v : Word) : Signalled s (s.setReg a v) :=
  ⟨_, s.cores, s.icuHeld, s.edges, s.fresh, s.si, by cases s; rfl, smWf_smPut regReset s.regs a v⟩

theorem signalled_setRb (s : State) (a b : Nat) (v : Bool) : Signalled s (s.setRb a b v) := signalled_setReg ..

theorem signalled_setRf (s : State) (a hi lo x : Nat) : Signalled s (s.setRf a hi lo x) := signalled_setReg ..

theorem signalled_modCore (s : State) (c : CoreId) (f : Core → Core) : Signalled s (s.modCore c f) :=
  ⟨s.regs, (s.modCore c f).cores, s.icuHeld, s.edges, s.fresh, s.si, by cases s; rfl, id⟩

theorem signalled_ite {p : Prop} [Decidable p] {s t u : State} (h1 : Signalled s t) (h2 : Signalled s u) : Signalled s (if p then t else u) := by
  split <;> assumption

theorem signalled_foldl {α : Type} (f : State → α → State) (h : ∀ s a, Signalled s (f s a)) : ∀ (l : List α) (s : State), Signalled s (l.foldl f s)
  | [], s => .refl s
  | a :: t, s => (h s a).trans (signalled_foldl f h t (f s a))

theorem signalled_sicEvent (n : Nat) (s : State) : Signalled s (sicEvent n s) :=
  signalled_ite (.refl s) (signalled_ite (.refl s) (signalled_setRb ..))

theorem signalled_mirrorEvent (n : Nat) (s : State) : Signalled s (mirrorEvent n s) :=
  signalled_foldl _ (fun t _ => signalled_ite (signalled_sicEvent _ t) (.refl t)) _ s

theorem signalled_wakeFor (n : Nat) (s : State) : Signalled s (wakeFor n s) :=
  signalled_ite (signalled_foldl _ (fun t _ => signalled_ite (signalled_modCore t ..) (.refl t)) _ s) (.refl s)

theorem signalled_icuAccept (n : Nat) (s : State) : Signalled s (icuAccept n s) :=
  signalled_ite (.refl s) (signalled_ite (signalled_setRb ..) ((signalled_setRb ..).trans (signalled_wakeFor ..)))

theorem signalled_icuEvent (n : Nat) (s : State) : Signalled s (icuEvent n s) :=
  signalled_ite (.refl s) (signalled_ite ⟨s.regs, s.cores, s.icuHeld ++ [n], s.edges, s.fresh, s.si, by cases s; rfl, id⟩
    (signalled_ite (.refl s) ((signalled_mirrorEvent n s).trans (signalled_icuAccept n _))))

theorem signalled_pulse (p : Nat) (s : State) : Signalled s (pulse p s) := ⟨s.regs, s.cores, s.icuHeld, s.edges ++ [p], s.fresh, s.si, by cases s; rfl, id⟩

theorem signalled_bypRelease (k : Nat) (s : State) : Signalled s (bypRelease k s) :=
  signalled_ite ((signalled_setReg ..).trans (signalled_icuEvent ..)) (.refl s)

theorem signalled_marks (s : State) (i : SiSt) : Signalled s { s with si := i } := ⟨s.regs, s.cores, s.icuHeld, s.edges, s.fresh, i, by cases s; rfl, id⟩

theorem signalled_draw (s : State) : Signalled s s.draw.2 := ⟨s.regs, s.cores, s.icuHeld, s.edges, s.fresh + 1, s.si, by cases s; rfl, id⟩

theorem signalled_latchClear (s : State) : Signalled s (latchClear s) :=
  signalled_ite (((signalled_marks s _).trans (signalled_setReg ..)).trans (signalled_icuEvent ..)) ((signalled_marks s _).trans (signalled_setReg ..))

theorem signalled_releaseMeets (s : State) : Signalled s (releaseMeets s) :=
  signalled_ite ((signalled_draw s).trans (signalled_ite ((signalled_marks ..).trans (signalled_setRb ..)) (signalled_latchClear _))) (.refl s)

theorem signalled_safeTrigger (b : Nat) (s : State) : Signalled s (safeTrigger b s) := by
  unfold safeTrigger
  refine signalled_ite ?_ (.refl s)
  generalize hu : releaseMeets { s with si := { s.si with trigAt := some s.xclk } } = u
  have h0 : Signalled s u := hu ▸ (signalled_marks s _).trans (signalled_releaseMeets _)
  have h := h0.trans (signalled_setReg u SI_SSC (putBit (putBit (u.reg SI_SSC) b true) 23 true))
  have h2 := signalled_ite (p := u.rb SI_SSC 23 = true) h (h.trans (signalled_icuEvent 633 _))
  exact signalled_ite h2 (h2.trans (signalled_bypRelease 3 _))

theorem signalled_countUp (s : State) (a hi lo n : Nat) : Signalled s (s.countUp a hi lo n) := signalled_setRf ..

theorem signalled_countThresh (a src : Nat) (s : State) : Signalled s (countThresh a src s) :=
  signalled_ite ((signalled_countUp s a 15 0 1).trans (signalled_icuEvent ..)) (signalled_countUp ..)

theorem signalled_miuReport (src wa b : Nat) (s : State) : Signalled s (miuReport src wa b s) := by
  unfold miuReport
  refine .trans (signalled_ite (signalled_setRb s MIU_STAT 30 true) ?_) (signalled_icuEvent 128 _)
  exact (((signalled_setRb s MIU_STAT 31 true).trans (signalled_setReg _ MIU_ELOG_INFO _)).trans (signalled_setReg _ MIU_ELOG_PA_LO _)).trans
    (signalled_setReg _ MIU_ELOG_PA_HI 0)

/-- Signals leave the memory, its codes, the NVM, the OTP and the vector engine's contexts as they are. -/
theorem Signalled.keeps {s t : State} (h : Signalled s t) :
    t.mem = s.mem ∧ t.ecc = s.ecc ∧ t.dramErr = s.dramErr ∧ t.nvm = s.nvm ∧ t.otp = s.otp ∧ t.vctx = s.vctx ∧ t.eau = s.eau ∧ t.tb = s.tb ∧ t.pwr = s.pwr ∧
      t.pending = s.pending := by
  obtain ⟨r, c, h, e, f, i, rfl, -⟩ := h
  exact ⟨rfl, rfl, rfl, rfl, rfl, rfl, rfl, rfl, rfl, rfl⟩

end Sys2Proof.Machine
end

