-- ==== Sys2Proof/Laws/Memory.lean ====
section
/-! SUPPORT. Every memory operation keeps the canonical form of the memory, and reading after writing. -/
namespace Sys2Proof.Machine

/-- The memory of the state after reset is canonical. -/
theorem reset_memory_wf : Memory.wf State.reset := by decide

theorem byte_setByte (s : State) (a k : Nat) (v : Byte) : (s.setByte a v).byte k = if k = a then v else s.byte k := smGet_smPut memDefault s.mem a k v

@[simp] theorem byte_setEcc (s : State) (a k : Nat) (v : BitVec 13) : (s.setEcc a v).byte k = s.byte k := rfl

/-- Memory canonical in one state and equal in another is canonical there. -/
theorem Signalled.wf {s t : State} (h : Signalled s t) (w : Memory.wf s) : Memory.wf t := by
  obtain ⟨e1, e2, -⟩ := h.keeps
  exact ⟨e1 ▸ w.1, e2 ▸ w.2⟩

theorem setByte_wf (s : State) (a : Nat) (v : Byte) (h : Memory.wf s) : Memory.wf (s.setByte a v) := ⟨smWf_smPut memDefault s.mem a v h.1, h.2⟩

theorem setEcc_wf (s : State) (a : Nat) (v : BitVec 13) (h : Memory.wf s) : Memory.wf (s.setEcc a v) := ⟨h.1, smWf_smPut eccDefault s.ecc a v h.2⟩

theorem storeBytes_wf : ∀ (l : List Byte) (s : State) (a : Nat), Memory.wf s → Memory.wf (s.storeBytes a l)
  | [], _, _, h => h
  | b :: t, s, a, h => storeBytes_wf t _ (a + 1) (setEcc_wf _ a 0 (setByte_wf s a b h))

theorem correctByte_wf (s : State) (a : Nat) (h : Memory.wf s) : Memory.wf (correctByte s a) := storeBytes_wf _ s a h

/-- A fold of steps that each keep the form keeps it. -/
theorem foldl_wf {α : Type} (f : State → α → State) (hf : ∀ s a, Memory.wf s → Memory.wf (f s a)) :
    ∀ (l : List α) (s : State), Memory.wf s → Memory.wf (l.foldl f s)
  | [], _, h => h
  | a :: t, s, h => foldl_wf f hf t (f s a) (hf s a h)

/-- The same with a truth value carried along. -/
theorem foldl_pair_wf {α : Type} (f : Bool × State → α → Bool × State) (hf : ∀ p a, Memory.wf p.2 → Memory.wf (f p a).2) :
    ∀ (l : List α) (p : Bool × State), Memory.wf p.2 → Memory.wf (l.foldl f p).2
  | [], _, h => h
  | a :: t, p, h => foldl_pair_wf f hf t (f p a) (hf p a h)

theorem ergWordWrite_wf (wa : Nat) (upd : List (Nat × Byte)) (s : State) (h : Memory.wf s) : Memory.wf (ergWordWrite wa upd s) := by
  unfold ergWordWrite
  dsimp only
  have h0 : Memory.wf (if smGet zeroDefault s.ceWb (ergBank s wa) = wa + 1 then { s with ceWb := smPut zeroDefault s.ceWb (ergBank s wa) 0 } else s) := by
    split <;> exact h
  split
  · exact (((signalled_setRb _ MIU_INJ 0 false).trans (signalled_setRb _ MIU_STAT 28 true)).trans (signalled_icuEvent 131 _)).wf
      (foldl_wf _ (fun t _ ht => setEcc_wf _ _ _ (setByte_wf _ _ _ ht)) upd _ h0)
  · exact foldl_wf _ (fun t _ ht => setEcc_wf _ _ _ (setByte_wf _ _ _ ht)) upd _ h0

theorem ergWrite_wf (pa : Nat) (b : List Byte) (coll : List Nat) (s : State) (h : Memory.wf s) : Memory.wf (ergWrite pa b coll s) :=
  foldl_wf _ (fun t wa ht => by
    split
    · exact ht
    · split
      · exact (signalled_countUp t ERG_COLLCNT 15 0 1).wf ht
      · exact ergWordWrite_wf _ _ _ ht) _ s h

theorem dramWordCheck_wf (src wa : Nat) (s : State) (h : Memory.wf s) : Memory.wf (dramWordCheck src wa s).2 := by
  unfold dramWordCheck
  dsimp only
  split
  · exact h
  · exact (signalled_countThresh (DMC_CH_CECNT (dramChan wa)) (138 + dramChan wa) s).wf h
  · refine (signalled_icuEvent (136 + dramChan wa) _).wf (Signalled.wf (s := s) (signalled_ite (signalled_setRb s (DMC_CH_ELOG_INFO (dramChan wa)) 30 true) ?_) h)
    exact ((signalled_setReg s (DMC_CH_ELOG_INFO (dramChan wa)) _).trans (signalled_setReg _ (DMC_CH_ELOG_PA_LO (dramChan wa)) _)).trans
      (signalled_setReg _ (DMC_CH_ELOG_PA_HI (dramChan wa)) _)

theorem dramWordWrite_wf (wa : Nat) (upd : List (Nat × Byte)) (s : State) (h : Memory.wf s) : Memory.wf (dramWordWrite wa upd s).2 := by
  have put : ∀ t : State, Memory.wf t → Memory.wf (chkTouch wa (upd.foldl (fun t e => t.setByte e.1 e.2) t)) := fun t ht =>
    foldl_wf _ (fun u e hu => setByte_wf u e.1 e.2 hu) upd t ht
  unfold dramWordWrite
  dsimp only
  split
  · exact put _ h
  · split
    · exact dramWordCheck_wf 1 wa s h
    · exact put _ (dramWordCheck_wf 1 wa s h)

theorem dramWrite_wf (pa : Nat) (b : List Byte) (s : State) (h : Memory.wf s) : Memory.wf (dramWrite pa b s).2 :=
  foldl_pair_wf (fun acc wa => (acc.1 || (dramWordWrite wa (updIn wa (placed pa b)) acc.2).1, (dramWordWrite wa (updIn wa (placed pa b)) acc.2).2))
    (fun p wa hp => dramWordWrite_wf wa _ p.2 hp) _ (false, s) h

/-- Dropping the bytes of a range keeps the form. -/
theorem drop_wf (p : Nat → Bool) (s : State) (h : Memory.wf s) : Memory.wf { s with mem := smDrop p s.mem, ecc := smDrop p s.ecc } :=
  ⟨smWf_smDrop memDefault p s.mem h.1, smWf_smDrop eccDefault p s.ecc h.2⟩

theorem rehash_wf (n : Nat) (s : State) (h : Memory.wf s) : Memory.wf (rehash n s) :=
  foldl_wf _ (fun t _ ht => setEcc_wf t _ _ ht) _ _
    (foldl_wf _ (fun t _ ht => setByte_wf t _ _ ht) _ _ (drop_wf (fun a => decide (isErg a) && a / 0x200000 == n) s h))

theorem groupZero_wf (g : Nat) (s : State) (h : Memory.wf s) : Memory.wf (groupZero g s) := drop_wf (fun a => isErg a && ergGroup s a == g) s h

theorem siZero_wf (s : State) (h : Memory.wf s) : Memory.wf (siZero s) := drop_wf isSiSram s h

end Sys2Proof.Machine
end

