-- ==== Sys2Proof/Laws/Time.lean ====
section
/-! SUPPORT. The time base: what one cycle does to it, and that it touches nothing else. -/
namespace Sys2Proof.Machine

@[simp] theorem tbAdvance_adjPend (x : Nat) (s : State) : (tbAdvance x s).adjPend = s.adjPend := by cases s; rfl
@[simp] theorem tbAdvance_regs (x : Nat) (s : State) : (tbAdvance x s).regs = s.regs := by cases s; rfl
@[simp] theorem tbAdvance_mem (x : Nat) (s : State) : (tbAdvance x s).mem = s.mem := by cases s; rfl
@[simp] theorem tbAdvance_cores (x : Nat) (s : State) : (tbAdvance x s).cores = s.cores := by cases s; rfl
@[simp] theorem tbAdvance_pwr (x : Nat) (s : State) : (tbAdvance x s).pwr = s.pwr := by cases s; rfl

theorem tbAdvance_tb (x : Nat) (s : State) : (tbAdvance x s).tb = BitVec.ofNat 80 ((s.tb.toNat * 2 ^ 32 + s.tbSub + x) / 2 ^ 32) := rfl
theorem tbAdvance_tbSub (x : Nat) (s : State) : (tbAdvance x s).tbSub = (s.tb.toNat * 2 ^ 32 + s.tbSub + x) % 2 ^ 32 := rfl

theorem div_mod_split (y a b : Nat) : (y / a) % b * a + y % a = y % (a * b) := by
  rw [Nat.mod_mul, Nat.mul_comm, Nat.add_comm]

/-- TB with its internal fraction goes on by the amount, modulo 2^112. -/
theorem tbAdvance_total (x : Nat) (s : State) :
    (tbAdvance x s).tb.toNat * 2 ^ 32 + (tbAdvance x s).tbSub = (s.tb.toNat * 2 ^ 32 + s.tbSub + x) % (2 ^ 32 * 2 ^ 80) := by
  rw [tbAdvance_tb, tbAdvance_tbSub, BitVec.toNat_ofNat]
  exact div_mod_split _ _ _

/-- The marks of refill instants are all that passing them changes. -/
theorem refillMarks_eq (n : Nat) (s : State) : refillMarks n s = { s with elg := (refillMarks n s).elg } := by
  unfold refillMarks; split <;> (cases s; rfl)

@[simp] theorem tbCycle_adjPend (s : State) : (tbCycle s).adjPend = s.adjPend - tbSlewStep s (tbNominal s) := by
  unfold tbCycle; rw [refillMarks_eq]; cases s; rfl
@[simp] theorem tbCycle_regs (s : State) : (tbCycle s).regs = s.regs := by unfold tbCycle; rw [refillMarks_eq]; cases s; rfl
@[simp] theorem tbCycle_mem (s : State) : (tbCycle s).mem = s.mem := by unfold tbCycle; rw [refillMarks_eq]; cases s; rfl
@[simp] theorem tbCycle_cores (s : State) : (tbCycle s).cores = s.cores := by unfold tbCycle; rw [refillMarks_eq]; cases s; rfl

theorem tbCycle_tb (s : State) : (tbCycle s).tb = (tbAdvance ((tbNominal s : Int) + tbSlewStep s (tbNominal s)).toNat s).tb := by
  unfold tbCycle; rw [refillMarks_eq]
theorem tbCycle_tbSub (s : State) : (tbCycle s).tbSub = (tbAdvance ((tbNominal s : Int) + tbSlewStep s (tbNominal s)).toNat s).tbSub := by
  unfold tbCycle; rw [refillMarks_eq]

/-- The slew of a step is at most a sixteenth of it, toward zero of the pending offset and never past it (R327). -/
theorem tbSlewStep_bounds (s : State) (n : Nat) :
    16 * tbSlewStep s n ≤ (n : Int) ∧ -(n : Int) ≤ 16 * tbSlewStep s n ∧
    (0 ≤ s.adjPend → 0 ≤ tbSlewStep s n ∧ tbSlewStep s n ≤ s.adjPend) ∧ (s.adjPend ≤ 0 → tbSlewStep s n ≤ 0 ∧ s.adjPend ≤ tbSlewStep s n) := by
  have hk : 4 ≤ tbSlew s := Nat.le_max_left ..
  have h16 : 16 ≤ 2 ^ tbSlew s := Nat.pow_le_pow_right (n := 2) (by decide) hk
  have hd : n / 2 ^ tbSlew s * 16 ≤ n :=
    Nat.le_trans (Nat.mul_le_mul_left _ h16) (Nat.div_mul_le_self ..)
  unfold tbSlewStep
  generalize n / 2 ^ tbSlew s = q at hd ⊢
  dsimp only
  split
  · refine ⟨by omega, by omega, fun _ => by omega, fun _ => by omega⟩
  · split
    · split <;> refine ⟨by omega, by omega, fun _ => by omega, fun _ => by omega⟩
    · split
      · split <;> refine ⟨by omega, by omega, fun _ => by omega, fun _ => by omega⟩
      · refine ⟨by omega, by omega, fun _ => by omega, fun _ => by omega⟩

end Sys2Proof.Machine
end

