-- ==== Sys2Proof/Tests/Slice0.lean ====
section
/-! SUPPORT. Tests of the model: well-formedness, one step of a command from a small state, and for every statement with hypotheses a
state that meets them. Expected values come from the rules that each test names. -/
namespace Sys2Proof.Tests
set_option Elab.async false
open Sys2Proof.Machine Sys2Proof.Stated

/-! ### Small states -/

/-- What a next state answers to a question; false of any other outcome. -/
def after (o : Out) (p : State → Bool) : Bool := match o with | .next t => p t | _ => false

/-- The instruction issues, and the state in which its own effect begins answers `p`. -/
def issued (c : CoreId) (i : Instr) (k : SyncKind) (s : State) (p : State → Bool) : Bool :=
  match prelude_ c i k s with | .go s1 => p s1 | _ => false

/-- A part of an instruction goes well, with a value and a state that answer `p`. -/
def okWith {α : Type} (r : Acc α) (p : α → State → Bool) : Bool := match r with | .ok v s => p v s | _ => false

/-- A part of an instruction raises an exception. -/
def excs {α : Type} (r : Acc α) : Bool := match r with | .exc _ _ => true | _ => false

/-- A part of an instruction waits. -/
def waits {α : Type} (r : Acc α) : Bool := match r with | .wait _ => true | _ => false

/-- The Safety Island's pair released at the start of SI SRAM, with M4 enabled. -/
def tsSi : State := (State.reset.setReg XBM_MEN 0x310).modCore siCore fun k => { k with released := true, pc := 0x30000000 }

/-- Application core 0 released in the Erg, whose groups are all ready, with M0 to M3, M5 and M6 enabled beside M8 and M9. -/
def tsApp : State := ((State.reset.setReg XBM_MEN 0x36F).setReg ERG_BGSTAT 0xFF).modCore 0 fun k => { k with released := true, pc := 0x1000 }

/-- A core at another level. -/
def atLvl (c : CoreId) (l : Level) (s : State) : State := s.modCore c fun k => { k with lvl := l }

/-- Every master enabled and the Erg ready. -/
def tsBus : State := (State.reset.setReg XBM_MEN 0xFFF).setReg ERG_BGSTAT 0xFF

/-- A state whose link port 1 is UP, with this node's ID 5 valid. -/
def tsLink : State := ((tsBus.setReg (IDL_P_STAT 1) 0xC0000000).setReg IDL_NODEID 0x80000005).setReg (IDL_P_CTL 1) 0x80000000

theorem issues_of {c : CoreId} {i : Instr} {k : SyncKind} {s : State} {p : State → Bool} (h : issued c i k s p = true) :
    ∃ s1, Issues c i k s s1 ∧ p s1 = true := by
  unfold issued at h
  unfold Issues
  split at h
  · exact ⟨_, ‹_›, h⟩
  · cases h

/-! ### Well-formed commands -/

theorem test_wf_nvm : (Instr.prstNRelease [(2 ^ 32 - 1, 0)]).wf = true ∧ (Instr.prstNRelease [(2 ^ 32, 0)]).wf = false := by decide
theorem test_wf_regWrite : (Instr.regWrite 1 0 0x20000000 0).wf = true ∧ (Instr.regWrite 1 0 0x20000002 0).wf = false ∧
    (Instr.regWrite 1 0 0x30000000 0).wf = false ∧ (Instr.regWrite 1 0 0x3800FFFC 0).wf = true := by decide
theorem test_wf_xbmRead : (Instr.xbmRead 1 0 0x1F0 16 0).wf = true ∧ (Instr.xbmRead 1 0 0x1F0 17 0).wf = false ∧ (Instr.xbmRead 1 0 0 0 0).wf = false := by
  decide
theorem test_wf_xbmWrite : (Instr.xbmWrite 1 0 0xFF [some 0] 0 []).wf = true ∧ (Instr.xbmWrite 1 0 0xFF [some 0, none] 0 []).wf = false := by decide
theorem test_wf_xbmAtomic : (Instr.xbmAtomic 1 0 4 0 0 0 false).wf = true ∧ (Instr.xbmAtomic 1 0 6 0 0 0 false).wf = false := by decide
theorem test_wf_icuEvent : (Instr.icuEvent 640).wf = true ∧ (Instr.icuEvent 0).wf = false ∧ (Instr.icuEvent 641).wf = false := by decide
theorem test_wf_sicEvent : (Instr.sicEvent 63).wf = true ∧ (Instr.sicEvent 64).wf = false := by decide
theorem test_wf_pcu : (Instr.pcuFuncWrite 1 411 0).wf = true ∧ (Instr.pcuFuncWrite 1 412 0).wf = false := by decide
theorem test_wf_elgRefill : (Instr.elgRefill [0, 0, 0, 0, 0, 0, 0, 0]).wf = true ∧ (Instr.elgRefill []).wf = false := by decide
theorem test_wf_packet : (Instr.read 0 ⟨0, 0, 0, 0, [], 0⟩).wf = true ∧ (Instr.read 0 ⟨0, 4, 0, 0, [], 0⟩).wf = false := by decide

/-- The table gives no row any bits, so no word spells a command. -/
theorem test_no_word (n w : Nat) : decodeTableWord n w = none ∧ ∀ s : State, s.withFetchWord n w = s := ⟨rfl, fun _ => rfl⟩

/-! ### One step each, by family: integer and control flow (R199, R200, R206 to R214) -/

theorem test_step_takes_front : after (step { tsSi with pending := [.lui siCore 3 0x1234, .fsync siCore] })
    (fun t => t.g siCore 3 == 0x12340000 && t.pending == [.fsync siCore] && t.pc siCore == 0x30000004) = true := by decide
theorem test_add_wraps : after (exec (.add siCore 1 2 2) (tsSi.setG siCore 2 0x80000001)) (fun t => t.g siCore 1 == 2) = true := by decide
theorem test_g0_discards : after (exec (.addi siCore 0 0 7) tsSi) (fun t => t.g siCore 0 == 0 && t.pc siCore == 0x30000004) = true := by decide
theorem test_div_by_zero : after (exec (.div siCore 1 2 3) (tsSi.setG siCore 2 9)) (fun t => t.g siCore 1 == 0xFFFFFFFF) = true ∧
    after (exec (.rem siCore 1 2 3) (tsSi.setG siCore 2 9)) (fun t => t.g siCore 1 == 9) = true := by decide
theorem test_div_overflow : after (exec (.div siCore 1 2 3) ((tsSi.setG siCore 2 0x80000000).setG siCore 3 0xFFFFFFFF))
    (fun t => t.g siCore 1 == 0x80000000) = true := by decide
theorem test_mulh : after (exec (.mulh siCore 1 2 2) (tsSi.setG siCore 2 0xFFFFFFFF)) (fun t => t.g siCore 1 == 0) = true := by decide
theorem test_sextension : after (exec (.sexb siCore 1 2) (tsSi.setG siCore 2 0x180)) (fun t => t.g siCore 1 == 0xFFFFFF80) = true := by decide
theorem test_branch_back : after (exec (.bne siCore 0 2 0xFFFF) (tsSi.setG siCore 2 1)) (fun t => t.pc siCore == 0x2FFFFFFC) = true := by decide
theorem test_call_links : after (exec (.call siCore 2) tsSi) (fun t => t.pc siCore == 0x30000008 && t.g siCore 31 == 0x30000004) = true := by decide
theorem test_loop_zero : after (exec (.loop siCore 2 3) tsSi) (fun t => t.pc siCore == 0x30000014) = true := by decide
theorem test_stopped_core : after (exec (.add siCore 1 2 2) (State.reset.setG siCore 2 1)) (fun t => t.g siCore 1 == 0) = true := by decide

/-! ### Memory: byte order, alignment, atomics (R4, R201, R203) -/

theorem test_store_bytes : after (exec (.stw siCore 2 3 4) ((tsSi.setG siCore 2 0x11223344).setG siCore 3 0x30000100))
    (fun t => t.byte 0x30000104 == 0x44 && t.byte 0x30000107 == 0x11 && t.byte 0x30000108 == 0) = true := by decide
theorem test_load_signed : after (exec (.ldb siCore 1 3 0) ((tsSi.setG siCore 3 0x30000100).setByte 0x30000100 0x80))
    (fun t => t.g siCore 1 == 0xFFFFFF80) = true := by decide
/-- The pair with its vector table at 0x30000000, whose entry 3 (ALIGN) names a handler at 0x30002000. -/
def tsVec : State := ((((tsSi.setSr siCore 0x115 0x3000).setByte 0x30000019 0x20).setByte 0x3000001B 0x30))

theorem test_misaligned_load : after (exec (.ldw siCore 1 3 2) (tsVec.setG siCore 3 0x30000100)) (fun t => t.sr siCore (srRsn .m) == 3 &&
    t.sr siCore (srFval .m) == 0x30000102 && t.sr siCore (srRpc .m) == 0x30000000 && t.lvl siCore == .m && t.pc siCore == 0x30002000) = true := by
  decide +kernel
theorem test_erg_atomic : after (exec (.atomAdd 0 1 2 3) (((tsApp.setG 0 2 0x2000).setG 0 3 5).setByte 0x2000 7))
    (fun t => t.g 0 1 == 7 && t.byte 0x2000 == 12) = true := by decide +kernel

/-! ### Witnesses: scalar instructions -/

theorem witness_TimeBaseNeverGoesBack : (State.reset.pending = [] ∧ State.reset.pwr ≤ 1) ∧ (let s : State := { State.reset with pwr := 2 }; 2 ≤ s.pwr ∧ s.pwr ≠ 5) ∧
    (let s : State := { State.reset with adjPend := -7 }; s.adjPend ≤ 0) := by decide

theorem witness_IntegerInstructionsComplete : issued siCore (.add siCore 1 2 3) .none tsSi (fun _ => true) = true ∧
    issued siCore (.clz siCore 1 2) .none tsSi (fun _ => true) = true ∧ issued siCore (.addi siCore 1 2 3) .none tsSi (fun _ => true) = true ∧
    issued siCore (.lui siCore 1 2) .none tsSi (fun _ => true) = true ∧ issued siCore (.shi siCore 1 2 3 4) .none tsSi (fun _ => true) = true ∧
    issued 0 (.add 0 1 2 3) .none tsApp (fun _ => true) = true := by decide +kernel

theorem witness_GeneralRegisterWrites : (31 : GReg) ≠ 0 ∧ (31 : GReg) ≠ 30 ∧ (0 : CoreId) ≠ 4 := by decide

theorem witness_RegisterInstructionsFrame : (∃ s1, Issues siCore (.add siCore 1 2 3) .none tsSi s1 ∧ true = true) ∧
    after (exec (.add siCore 1 2 3) tsSi) (fun _ => true) = true ∧ RegOnly (.add siCore 1 2 3) siCore 1 :=
  ⟨issues_of (by decide), by decide, .three (.add, fun x y => x + y) (List.mem_cons_self ..) siCore 1 2 3⟩

/-- Core 0 with only bank group 0 ready. -/
def tsOneGroup : State := tsApp.setReg ERG_BGSTAT 1

theorem witness_LoadsComplete :
    issued siCore (.ldw siCore 1 3 4) .none (tsSi.setG siCore 3 0x301FFFF8) (fun s => okWith (loadAt siCore (s.g siCore 3 + 4) 4 s) fun _ _ => true) = true ∧
    issued siCore (.ldw siCore 1 3 2) .none (tsSi.setG siCore 3 0x30000100) (fun s => excs (loadAt siCore (s.g siCore 3 + 2) 4 s)) = true ∧
    issued 0 (.ldw 0 1 3 0) .none (tsOneGroup.setG 0 3 0x1080) (fun s => waits (loadAt 0 (s.g 0 3) 4 s)) = true ∧
    issued siCore (.fldd siCore 1 3 0) .none (tsSi.setG siCore 3 0x301FFFF8) (fun s => okWith (loadAt siCore (s.g siCore 3) 8 s) fun _ _ => true) = true ∧
    issued siCore (.fldd siCore 1 3 4) .none (tsSi.setG siCore 3 0x30000100) (fun s => excs (loadAt siCore (s.g siCore 3 + 4) 8 s)) = true ∧
    issued 0 (.flds 0 1 3 0) .none (tsOneGroup.setG 0 3 0x1080) (fun s => waits (loadAt 0 (s.g 0 3) 4 s)) = true := by decide +kernel

theorem witness_StoresComplete :
    issued siCore (.stb siCore 1 3 4) .none (tsSi.setG siCore 3 0x301FFFFB) (fun s => okWith (storeAt siCore (s.g siCore 3 + 4) [0] s) fun _ _ => true) = true ∧
    issued siCore (.sth siCore 1 3 1) .none (tsSi.setG siCore 3 0x30000100) (fun s => excs (storeAt siCore (s.g siCore 3 + 1) [0, 0] s)) = true ∧
    issued siCore (.fstd siCore 1 3 0) .none (tsSi.setG siCore 3 0x301FFFF8) (fun s => okWith (storeAt siCore (s.g siCore 3) (leBytes 8 0) s) fun _ _ => true) = true ∧
    issued siCore (.fsts siCore 1 3 2) .none (tsSi.setG siCore 3 0x30000100) (fun s => excs (storeAt siCore (s.g siCore 3 + 2) (leBytes 4 0) s)) = true := by
  decide +kernel

theorem tsSi_issues : SiIssues tsSi :=
  ⟨by decide, by decide, by decide, by decide, by decide, by decide, by decide, fun wr _ _ => by cases wr <;> rfl, by decide, by decide, by decide,
    by decide, by decide⟩

theorem witness_SafetyIslandIssues : SiIssues tsSi ∧ SiIssues (tsSi.setPc siCore 0x301FFFFC) :=
  ⟨tsSi_issues, by decide, by decide, by decide, by decide, by decide, by decide, by decide, fun wr _ _ => by cases wr <;> rfl, by decide, by decide,
    by decide, by decide, by decide⟩

/-- The Safety Island's pair with G3 at the last word of SI SRAM. -/
def tsSiTop : State := tsSi.setG siCore 3 0x301FFFFC

theorem tsSiTop_issues : SiIssues tsSiTop :=
  ⟨by decide, by decide, by decide, by decide, by decide, by decide, by decide, fun wr _ _ => by cases wr <;> rfl, by decide, by decide, by decide,
    by decide, by decide⟩

theorem witness_SafetyIslandLoadsSiSram : SiIssues tsSiTop ∧ (effAddr tsSiTop siCore 3 0).toNat % 4 = 0 ∧ 0x30000000 ≤ (effAddr tsSiTop siCore 3 0).toNat ∧
    (effAddr tsSiTop siCore 3 0).toNat + 4 ≤ 0x30200000 ∧ ∀ k, k < 4 → tsSiTop.wrong ((effAddr tsSiTop siCore 3 0).toNat + k) = 0 :=
  ⟨tsSiTop_issues, by decide, by decide, by decide, by decide⟩

theorem witness_SafetyIslandStoresSiSram : SiIssues tsSiTop ∧ ∀ r ∈ storeRows, (effAddr tsSiTop siCore 3 0).toNat % r.2 = 0 ∧
    0x30000000 ≤ (effAddr tsSiTop siCore 3 0).toNat ∧ (effAddr tsSiTop siCore 3 0).toNat + r.2 ≤ 0x30200000 :=
  ⟨tsSiTop_issues, fun r h => by
    rcases List.mem_cons.mp h with rfl | h
    · decide
    rcases List.mem_cons.mp h with rfl | h
    · decide
    rcases List.mem_cons.mp h with rfl | h
    · decide
    cases h⟩

/-- Core 0 in an atomic at 0x2000, fetched, with the answer that its write was discarded. -/
def tsCollided : State := (tsApp.setG 0 2 0x2000).modCore 0 fun k =>
  { k with stall := some (.atomOr 0 1 2 3), fetched := true, rsp := [⟨0x2000, 4, rCOLLIDE, [1, 0, 0, 0]⟩] }

theorem witness_AtomicsComplete :
    issued 0 (.atomOr 0 1 2 3) .none (tsApp.setG 0 2 0x2002) (fun s => (s.g 0 2).toNat % 4 != 0) = true ∧
    issued 0 (.atomOr 0 1 2 3) .none (tsApp.setG 0 2 0x2000) (fun s => okWith (transPieces 0 (s.g 0 2).toNat 4 .atom false s) fun ps t =>
      match ps with | p :: _ => okWith (atomPiece 0 3 (t.g 0 3) p t) fun r _ => r.1 == rOKAY | [] => false) = true ∧
    issued 0 (.atomOr 0 1 2 3) .none tsCollided (fun s => okWith (transPieces 0 (s.g 0 2).toNat 4 .atom false s) fun ps t =>
      match ps with | p :: _ => okWith (atomPiece 0 3 (t.g 0 3) p t) fun r _ => r.1 == rCOLLIDE | [] => false) = true := by decide +kernel

theorem witness_ErgAtomicWord : (0x2FFFFFC : Nat) % 4 = 0 ∧ isErg 0x2FFFFFC = true ∧ ergInService tsApp 0x2FFFFFC 4 = true ∧ ergIsReady tsApp 0x2FFFFFC 4 = true ∧
    (∀ k, k < 8 → tsApp.wrong (0x2FFFFFC / 8 * 8 + k) = 0) ∧ tsApp.rb MIU_INJ 0 = false ∧ 3 < 4 := by decide +kernel

/-- The Safety Island's pair at the last instruction of a loop counted by G5. -/
def tsLend : State := (((tsSi.setSr siCore 0x020 0x2FFFFFF0).setSr siCore 0x021 0x30000000).setSr siCore 0x022 0x80000005)

theorem witness_BranchesComplete : issued siCore (.beq siCore 1 2 3) .none tsSi (fun _ => true) = true ∧
    issued siCore (.br siCore 3) .none tsSi (fun s => !atLend s siCore) = true ∧ issued siCore (.br siCore 3) .none tsLend (fun s => atLend s siCore) = true ∧
    issued siCore (.call siCore 3) .none tsLend (fun s => atLend s siCore) = true ∧ issued siCore (.jmpr siCore 1 2 3) .none tsLend (fun s => atLend s siCore) = true ∧
    issued siCore (.call siCore 3) .none tsSi (fun s => !atLend s siCore) = true ∧ issued siCore (.jmpr siCore 1 2 3) .none tsSi (fun s => !atLend s siCore) = true := by
  decide +kernel

theorem witness_LoopInstructionsComplete : issued siCore (.loop siCore 2 3) .none tsLend (fun s => loopOn s siCore && inBody s siCore (s.pc siCore)) = true ∧
    issued siCore (.loop siCore 2 3) .none tsSi (fun s => s.g siCore 2 == 0) = true ∧
    issued siCore (.loop siCore 2 63) .none (tsSi.setG siCore 2 1) (fun s => s.g siCore 2 != 0) = true ∧
    ((tsSi.modCore siCore fun k => { k with loopDone := true }).core siCore).loopDone = true := by decide

theorem witness_HardwareLoopRules : atLend tsSi siCore = false ∧
    (atLend (tsLend.setG siCore 5 2) siCore = true ∧ (tsLend.setG siCore 5 2).g siCore (gno ((tsLend.setG siCore 5 2).srf siCore 0x022 4 0)) - 1 ≠ 0) ∧
    (atLend (tsLend.setG siCore 5 1) siCore = true ∧ (tsLend.setG siCore 5 1).g siCore (gno ((tsLend.setG siCore 5 1).srf siCore 0x022 4 0)) - 1 = 0) ∧
    (loopOn tsLend siCore = true ∧ inBody tsLend siCore (tsLend.pc siCore) = true ∧ inBody tsLend siCore 0x30000004 = false) := by decide

theorem witness_SavingCallsComplete :
    issued siCore (.callm siCore 2 0xFFFF) .none tsLend (fun s => atLend s siCore) = true ∧
    issued siCore (.callm siCore 2 0xFFFF) .none (tsSi.setG siCore 30 0x30000204) (fun s => !atLend s siCore && (s.g siCore 30).toNat % 8 != 0) = true ∧
    issued siCore (.callm siCore 2 1) .none (tsSi.setG siCore 30 0x30000200) (fun s =>
      okWith (transPieces siCore (s.g siCore 30 - BitVec.ofNat 32 (frameSize 1)).toNat (frameSize 1) .store false s) fun ps t =>
        okWith (storeFrame siCore ps (1 :: t.g siCore 31 :: (maskRegs 1).map fun r => t.g siCore r) t) fun _ _ => true) = true ∧
    issued siCore (.retm siCore) .none tsLend (fun s => atLend s siCore) = true ∧
    issued siCore (.retm siCore) .none (tsSi.setG siCore 30 0x30000204) (fun s => (s.g siCore 30).toNat % 8 != 0) = true ∧
    issued siCore (.retm siCore) .none ((tsSi.setG siCore 30 0x30000200).setByte 0x30000200 1) (fun s => okWith (loadAt siCore (s.g siCore 30) 4 s) fun b t =>
      leNat b == 1 && okWith (transPieces siCore (s.g siCore 30).toNat (frameSize (leNat b)) .load false t) fun _ u =>
        okWith (loadWords siCore (s.g siCore 30 + 4) (1 + popCount 16 (leNat b)) u) fun _ _ => true) = true := by decide +kernel

/-- The Safety Island's pair with two elements left of a block repeat in SI SRAM. -/
def tsRep : State := (((tsSi.setG siCore 4 0x30000100).setG siCore 5 0x30000200).setG siCore 6 2).setG siCore 7 9

theorem witness_BlockRepeatsComplete :
    issued siCore (.fills siCore 3 1) .none tsSi (fun _ => true) = true ∧ issued siCore (.movs siCore 3 1 1) .none tsSi (fun _ => true) = true ∧
    issued siCore (.scans siCore 3 1 0) .none tsSi (fun _ => true) = true ∧ issued siCore (.cmps siCore 3 1 1) .none tsSi (fun _ => true) = true ∧
    issued siCore (.fills siCore 2 1) .none tsSi (fun s => s.g siCore 6 == 0) = true ∧ issued siCore (.cmps siCore 2 1 1) .none tsSi (fun s => s.g siCore 6 == 0) = true ∧
    issued siCore (.movs siCore 0 1 1) .none tsSi (fun s => s.g siCore 6 == 0) = true ∧ issued siCore (.scans siCore 0 1 3) .none tsSi (fun s => s.g siCore 6 == 0) = true ∧
    issued siCore (.fills siCore 2 1) .none tsRep (fun s => s.g siCore 6 != 0 && okWith (storeAt siCore (s.g siCore 5) (leBytes 4 9) s) fun _ _ => true) = true ∧
    issued siCore (.movs siCore 2 1 15) .none tsRep (fun s => okWith (twoOperands siCore 4 .store s) fun pq t =>
      okWith (loadPieces siCore pq.1 t) fun b u => okWith (storePieces siCore pq.2 b u) fun _ _ => true) = true ∧
    issued siCore (.scans siCore 0 1 3) .none tsRep (fun s => okWith (loadAt siCore (s.g siCore 4) 1 s) fun _ _ => true) = true ∧
    issued siCore (.cmps siCore 1 1 1) .none tsRep (fun s => okWith (twoOperands siCore 2 .load s) fun pq t =>
      okWith (loadPieces siCore (pq.1 ++ pq.2) t) fun xy u => leNat (xy.take 2) == leNat (xy.drop 2) && u.g siCore 6 - 1 != 0) = true ∧
    issued siCore (.cmps siCore 1 1 1) .none (tsRep.setG siCore 6 1) (fun s => okWith (twoOperands siCore 2 .load s) fun pq t =>
      okWith (loadPieces siCore (pq.1 ++ pq.2) t) fun xy u => leNat (xy.take 2) == leNat (xy.drop 2) && u.g siCore 6 - 1 == 0) = true ∧
    issued siCore (.cmps siCore 1 1 1) .none (tsRep.setByte 0x30000101 1) (fun s => okWith (twoOperands siCore 2 .load s) fun pq t =>
      okWith (loadPieces siCore (pq.1 ++ pq.2) t) fun xy _ => leNat (xy.take 2) != leNat (xy.drop 2)) = true := by decide +kernel

theorem witness_FloatingPointComplete :
    issued siCore (.fadd siCore 1 2 3 0 true) .none tsSi (fun s => (fpRm s siCore 0).isSome) = true ∧ issued siCore (.fadd siCore 1 2 3 6 true) .none tsSi (fun s => (fpRm s siCore 6).isNone) = true ∧
    issued siCore (.fsqrt siCore 1 2 0 true) .none tsSi (fun s => (fpRm s siCore 0).isSome) = true ∧ issued siCore (.fcvts siCore 1 2 6 true) .none tsSi (fun s => (fpRm s siCore 6).isNone) = true ∧
    issued siCore (.fcvtfs siCore 1 2 4 true) .none tsSi (fun s => (fpRm s siCore 4).isSome) = true ∧ issued siCore (.fcmpeq siCore 1 2 3 0 false) .none tsSi (fun s => (fpRm s siCore 0).isSome) = true ∧
    issued siCore (.fma siCore 1 2 3 4 0 true) .none tsSi (fun s => (fpRm s siCore 0).isSome) = true ∧ issued siCore (.fmvgf siCore 1 2 0 true) .none tsSi (fun s => (fpRm s siCore 0).isSome) = true ∧
    issued siCore (.fmvgf siCore 1 2 5 true) .none tsSi (fun s => (fpRm s siCore 5).isNone) = true := by
  decide +kernel

/-- FCSR with the trap of NV enabled. -/
def tsTrapOn : State := tsSi.setSr siCore 0x010 0x1F00

theorem witness_FloatingPointFlags : (((1#6 : FFlags).toNat % 32) &&& fld (tsSi.sr siCore 0x010) 12 8) = 0 ∧
    ((((1#6 : FFlags).toNat % 32) &&& fld (tsTrapOn.sr siCore 0x010) 12 8) ≠ 0 ∧ (tsTrapOn.core siCore).fpTrap = none) ∧
    ((((1#6 : FFlags).toNat % 32) &&& fld ((tsTrapOn.modCore siCore fun k => { k with fpTrap := some (4, 2) }).sr siCore 0x010) 12 8) ≠ 0 ∧
      ((tsTrapOn.modCore siCore fun k => { k with fpTrap := some (4, 2) }).core siCore).fpTrap = some (4, 2)) := by decide

theorem witness_SystemRegisterReadsComplete :
    issued siCore (.srr siCore 1 0xFFF) .none tsSi (fun _ => (srSpec 0xFFF).isNone) = true ∧
    issued siCore (.srr siCore 1 0x101) .none tsSi (fun s => match srSpec 0x101 with | some r => !siNoSr siCore 0x101 false && decide (r.rlev.code ≤ (s.lvl siCore).code) | none => false) = true ∧
    issued 0 (.srr 0 1 0x110) .none (atLvl 0 .u tsApp) (fun s => match srSpec 0x110 with | some r => decide ((s.lvl 0).code < r.rlev.code) | none => false) = true ∧
    issued 0 (.iclaimn 0 1) .none tsApp (fun s => s.lvl 0 != .u) = true ∧ issued siCore (.iclaimf siCore 1) .none tsSi (fun s => s.lvl siCore != .u) = true := by decide +kernel

theorem witness_SystemRegisterWritesComplete :
    issued siCore (.srw siCore 0x102 1) .none tsSi (fun s => match srSpec 0x102 with | some r => !siNoSr siCore 0x102 true && decide (r.wlev.code ≤ (s.lvl siCore).code) | none => false) = true ∧
    issued 0 (.srw 0 0x103 1) .none (atLvl 0 .s tsApp) (fun s => match srSpec 0x103 with | some r => decide ((s.lvl 0).code < r.wlev.code) | none => false) = true ∧
    issued siCore (.fcsrWrite siCore 1) .none tsSi (fun _ => true) = true ∧ issued siCore (.lctlWrite siCore 1) .none tsSi (fun _ => true) = true ∧
    issued 0 (.ctxModeWrite 0 1) .none (atLvl 0 .u tsApp) (fun s => s.lvl 0 == .u) = true ∧ issued siCore (.icomplete siCore 1) .none tsSi (fun s => s.lvl siCore != .u) = true ∧
    issued siCore (.vbaseWrite siCore false 1) .none (tsSi.setG siCore 1 0x3000) (fun s =>
      okWith (captureEntry siCore .m 0x20 (s.setSr siCore 0x115 (s.g siCore 1))) fun _ t => okWith (captureEntry siCore .m 0x21 t) fun _ _ => true) = true ∧
    issued 0 (.vbaseWrite 0 true 1) .none tsApp (fun s => !isSI 0 && s.lvl 0 != .u &&
      okWith (captureEntry 0 .s 0x20 (s.setSr 0 0x125 (s.g 0 1))) fun _ t => okWith (captureEntry 0 .s 0x21 t) fun _ _ => true) = true := by decide +kernel

/-- Core 0 at M with source 640 ACTIVE and owned by it, and 640 in G1. -/
def tsServe : State := (tsApp.setReg (ICU_SRC 640) 0x40).setG 0 1 640

theorem witness_CompletionEndsService :
    issued 0 (.icomplete 0 1) .none tsServe (fun s => s.lvl 0 != .u && fld (s.g 0 1) 9 0 == 640 && s.rb (ICU_SRC 640) 6 && s.rf (ICU_SRC 640) 5 4 == 0) = true ∧
    issued 0 (.icomplete 0 1) .none (tsServe.setReg (ICU_SRC 640) 0x20000040) (fun s => s.rb (ICU_SRC 640) 6 && s.rb (ICU_SRC 640) 29) = true ∧
    issued 0 (.icomplete 0 1) .none (tsServe.setReg (ICU_SRC 640) 0x50) (fun s => s.rf (ICU_SRC 640) 5 4 != 0) = true ∧
    issued 0 (.icomplete 0 1) .none (tsServe.setG 0 1 641) (fun s => fld (s.g 0 1) 9 0 == 641) = true := by decide +kernel

theorem witness_SynchronisingInstructionsComplete :
    issued siCore (.fsync siCore) .full tsSi (fun _ => true) = true ∧ issued siCore (.vsync siCore) .full tsSi (fun _ => true) = true ∧
    issued siCore (.mret siCore) .none tsSi (fun s => s.lvl siCore == .m && !atLend s siCore) = true ∧ issued 0 (.sret 0) .none (atLvl 0 .s tsApp) (fun s => s.lvl 0 == .s) = true ∧
    issued siCore (.sret siCore) .none tsSi (fun _ => true) = true ∧ issued siCore (.wait siCore) .none tsSi (fun _ => true) = true ∧
    issued siCore (.brk siCore) .none tsSi (fun _ => true) = true ∧ issued 0 (.mret 0) .none (atLvl 0 .u tsApp) (fun s => s.lvl 0 != .m) = true := by decide +kernel

theorem witness_HoldInstruction :
    issued siCore (.holdi siCore 1023) .none (tsSi.setSr siCore 0x102 5) (fun s => s.lvl siCore != .u && s.srf siCore 0x102 9 0 == 5) = true ∧
    issued 0 (.holdi 0 7) .none (atLvl 0 .u tsApp) (fun s => s.lvl 0 == .u) = true ∧
    issued 0 (.srw 0 0x102 1) .none (atLvl 0 .s tsApp) (fun s => s.lvl 0 == .s) = true ∧
    issued 0 (.srw 0 0x102 1) .none (atLvl 0 .u tsApp) (fun s => s.lvl 0 == .u) = true := by decide +kernel

/-! ### Witnesses: gates, invalidation, exceptions -/

/-- Bytes written one after another. -/
def setBytes (s : State) (a : Nat) (l : List Byte) : State := ((List.range l.length).zip l).foldl (fun t p => t.setByte (a + p.1) p.2) s

/-- The pair with one gate at 0x30010000: to M at 0x30002000, the stack kept. -/
def tsGate : State := setBytes ((tsSi.setSr siCore 0x104 0x3001).setSr siCore 0x105 1) 0x30010000 [0x03, 0x20, 0x00, 0x30, 1]

/-- Core 0 at S level with one gate at 0: to S at 0x2000, its first argument a pointer that is read, of as many bytes as the second says. -/
def tsGateS : State := (((setBytes (((atLvl 0 .s tsApp).setSr 0 0x104 0).setSr 0 0x105 1) 0 [0x01, 0x20]).setByte 12 5).setG 0 8 0x1405000).setG 0 9 8

/-- The same core waiting in that gate for the walk of its first argument. -/
def tsGateW : State := ({ tsGateS with walks := [⟨0, 0x1405000, 0, 0, .probeR, false, false, mmuCfg tsGateS 0, true, true, [], false, none, []⟩] }).modCore 0
  fun k => { k with stall := some (.gate 0 0) }

/-- What a gate's read of its entry answers. -/
def gateRead (c : CoreId) (n : Nat) (s : State) (p : Nat → List Byte → State → Bool) : Bool :=
  match readPhys c ((s.sr c 0x104).toNat * 0x10000 + 32 * n) 32 s with | (.done r b, t) => p r b t | _ => false

theorem witness_GateAndTlbiComplete :
    issued siCore (.gate siCore 0) .none tsLend (fun s => atLend s siCore) = true ∧
    issued siCore (.gate siCore 1023) .none tsSi (fun s => !atLend s siCore && decide (Nat.min 1024 (s.srf siCore 0x105 10 0) ≤ 1023)) = true ∧
    issued siCore (.gate siCore 0) .none (tsGate.setSr siCore 0x104 0x2FFF) (fun s => !atLend s siCore && gateRead siCore 0 s fun r _ _ =>
      r != rOKAY && !sramFails siCore 0x2FFF0000 r) = true ∧
    issued siCore (.gate siCore 0) .none { tsGate with ecc := [⟨0x30010000, 3⟩] } (fun s => !atLend s siCore && gateRead siCore 0 s fun r _ _ =>
      sramFails siCore 0x30010000 r) = true ∧
    issued siCore (.gate siCore 0) .none (tsGate.setByte 0x30010000 2) (fun s => gateRead siCore 0 s fun r b t => r == rOKAY && gateBad siCore (gateOf b) (t.lvl siCore)) = true ∧
    issued siCore (.gate siCore 0) .none tsGate (fun s => gateRead siCore 0 s fun r b t => r == rOKAY && !gateBad siCore (gateOf b) (t.lvl siCore) &&
      okWith (probeArgs siCore 0 false ((List.range 4).zip (gateOf b).args) t) fun _ u =>
        (gateOf b).lvl == 3 && drained (drain siCore u) siCore && !((drain siCore u).core siCore).stPend) = true ∧
    issued 0 (.gate 0 0) .none tsGateS (fun s => gateRead 0 0 s fun r b t => r == rOKAY && !gateBad 0 (gateOf b) (t.lvl 0) &&
      okWith (probeArgs 0 0 false ((List.range 4).zip (gateOf b).args) t) fun _ _ => (gateOf b).lvl == 1) = true ∧
    ((tsGateW.walks.any fun w => w.ag == 0 && w.wanted && w.res.isNone) = true ∧ issued 0 (.gate 0 0) .none tsGateW (fun s => gateRead 0 0 s fun r b t =>
      r == rOKAY && !gateBad 0 (gateOf b) (t.lvl 0) && waits (probeArgs 0 0 false ((List.range 4).zip (gateOf b).args) t)) = true) := by decide +kernel

/-- Core 0 with a load's walk in flight, which no invalidation has reached. -/
def tsWalk : State := { tsApp with walks := [⟨0, 0x5000, 0, 0, .load, false, false, mmuCfg tsApp 0, true, true, [], false, none, []⟩] }

theorem witness_GateAndTlbiComplete_tlbi :
    issued siCore (.tlbi siCore 1 2 0) .none tsSi (fun _ => true) = true ∧ issued 0 (.tlbi 0 1 2 5) .none tsApp (fun _ => true) = true ∧
    issued 0 (.tlbi 0 1 2 4) .none (atLvl 0 .u tsApp) (fun s => s.lvl 0 == .u) = true ∧ issued 0 (.tlbi 0 1 2 1) .none (atLvl 0 .s tsApp) (fun s => s.lvl 0 == .s) = true ∧
    issued 0 (.tlbi 0 1 2 0) .none tsWalk (fun s => s.lvl 0 == .m && drained s 0 && !(s.core 0).marked) = true ∧
    issued 0 (.tlbi 0 1 2 3) .none (atLvl 0 .s tsApp) (fun s => s.lvl 0 == .s && drained s 0 && !(s.core 0).marked) = true ∧
    issued 0 (.tlbi 0 1 2 0) .none (tsApp.modCore 0 fun k => { k with stall := some (.tlbi 0 1 2 0), marked := true })
      (fun s => drained s 0 && (s.core 0).marked && !walksPending s 0) = true ∧
    (tsWalk.walks.any fun w => w.res.isNone && !w.queued && match walkRun w tsWalk with | (.wait, _, _) => false | _ => true) = true := by
  decide +kernel

theorem witness_ExceptionEntry : Level.m ≠ .u ∧ Level.s ≠ .u ∧ (63 < 64 ∧ 63 ≠ 0x21) ∧ 65535 < 65536 := by decide

theorem witness_ExceptionReturn : (0 : CoreId) ≠ siCore ∧ Level.m ≠ .u ∧ wbit (tsApp.sr 0 0x143) (fbBit .m) = false ∧ tsApp.srf 0 0x101 13 12 ≠ 2 ∧
    Level.s ≠ .u ∧ wbit (tsApp.sr 0 0x143) (fbBit .s) = false := by decide

/-- The pair with a source of the SIC of class N and another of class F, and captured entries that name handlers. -/
def tsInt : State := ((tsSi.setReg (SIC_SRC 5) 0x80000080).setReg (SIC_SRC 6) 0xC0000040).modCore siCore fun k =>
  { k with vecMN := ⟨true, 0x30002000, 0⟩, vecMF := ⟨true, 0x30002000, 0⟩ }

/-- The pair with a floating-point trap pending, and a vector table whose entries 0x0D and 0x13 name handlers. -/
def tsTraps : State := setBytes (setBytes (tsSi.setSr siCore 0x115 0x3000) 0x30000068 [0, 0x20, 0, 0x30]) 0x30000098 [0, 0x20, 0, 0x30]

theorem quiet_of {c : CoreId} {s : State} (h : (alive s c && (s.core c).stall.isNone && (s.core c).nacc == 0 && (s.core c).await.isNone &&
    (s.core c).sbuf.isEmpty && drained s c && !(s.core c).loopDone) = true) : Quiet c s := by
  simp only [Bool.and_eq_true, List.isEmpty_iff, Bool.not_eq_true', Option.isNone_iff_eq_none, beq_iff_eq] at h
  obtain ⟨⟨⟨⟨⟨⟨h1, h2⟩, h3⟩, h4⟩, h5⟩, h6⟩, h7⟩ := h
  exact ⟨h1, h2, h3, h4, h5, h6, h7⟩

/-- What the read of a vector entry answers. -/
def entryIs (r : Option VecEntry × State) (p : VecEntry → Bool) : Bool := match r with | (some v, _) => p v | _ => false

/-- What the interrupt of class `k` asks beside a quiet boundary. -/
def intWitness (c : CoreId) (k : Nat) (s : State) (v : VecEntry) : Bool :=
  !(s.core c).stPend && (s.core c).fpTrap.isNone && intReady s c k && (k == 1 || !intReady s c 1) && !wbit (s.sr c 0x103) (30 + k) && v.ok && v.handler != 0

theorem witness_InterruptsAndTrapsEnter : (Quiet siCore tsInt ∧ intWitness siCore 0 tsInt (tsInt.core siCore).vecMN = true) ∧
    (let s := tsInt.setReg (SIC_SRC 6) 0xC0000080; Quiet siCore s ∧ intWitness siCore 1 s (s.core siCore).vecMF = true) :=
  ⟨⟨quiet_of (by decide), by decide⟩, quiet_of (by decide), by decide⟩

theorem witness_InterruptsAndTrapsEnter_traps :
    (let s := tsTraps.modCore siCore fun k => { k with stPend := true }; Quiet siCore s ∧ (s.core siCore).stPend = true ∧
      entryIs (vecEntry siCore .m 0x0D s) (fun v => v.ok && v.handler != 0) = true) ∧
    (let s := tsTraps.modCore siCore fun k => { k with fpTrap := some (0x30000000, 1) }; Quiet siCore s ∧ (s.core siCore).stPend = false ∧
      (s.core siCore).fpTrap = some (0x30000000, 1) ∧ causeLevel s siCore 0x13 false = .m ∧
      entryIs (vecEntry siCore .m 0x13 (((s.setSr siCore 0x011 0x30000000).setSrf siCore 0x010 20 16 1).modCore siCore fun k => { k with fpTrap := none }))
        (fun v => v.ok && v.handler != 0) = true) ∧
    (State.reset.pwr ≤ 1 ∧ (let s := tsApp.setSr 0 0x030 (0x80000000 + 10000); s.pwr ≤ 1 ∧ wbit (s.sr 0 0x030) 31 = true ∧ wbit (s.sr 0 0x030) 30 = false ∧
      wbit (s.sr 0 0x100) 31 = false ∧ s.srf 0 0x030 13 0 = 10000)) ∧
    (let s := tsApp.modCore 0 fun k => { k with svuWaking := true }; s.pwr ≤ 1 ∧ (s.core 0).svuWaking = true) :=
  ⟨⟨quiet_of (by decide +kernel), by decide +kernel, by decide +kernel⟩,
    ⟨quiet_of (by decide +kernel), by decide +kernel, by decide +kernel, by decide +kernel, by decide +kernel⟩,
    by decide, by decide⟩
/-! ### Witnesses: short vector unit -/

/-- Core 0 with the short vector unit powered, and not. -/
def tsSvu : State := tsApp.setSr 0 0x030 0x80000000
def tsSvuOff : State := tsApp.setSr 0 0x030 0

theorem witness_ShortVectorOperationsComplete :
    issued siCore (.qadd siCore 1 2 3 9 0) .none tsSi (fun _ => true) = true ∧ issued 0 (.qadd 0 1 2 3 9 0) .none tsSvu (fun s => svuTy 9 == some .f32 &&
      (fpRm s 0 0).isSome && wbit (s.sr 0 0x030) 31) = true ∧
    issued 0 (.qadd 0 1 2 3 9 0) .none tsSvuOff (fun s => !wbit (s.sr 0 0x030) 31) = true ∧ issued 0 (.qadd 0 1 2 3 15 0) .none tsSvu (fun _ => (svuTy 15).isNone) = true ∧
    issued 0 (.qand 0 1 2 3 9 6) .none tsSvu (fun s => (fpRm s 0 6).isNone) = true ∧ issued 0 (.qand 0 1 2 3 9 0) .none tsSvu (fun _ => !isInt .f32) = true := by decide +kernel

theorem witness_ShortVectorAccessesComplete :
    issued 0 (.lds2 0 14 3 2 1) .none tsSvu (fun s1 => let s := s1.setSr 0 0x030 (putFld (s1.sr 0 0x030) 13 0 0); wbit (s1.sr 0 0x030) 31 &&
      okWith (transPieces 0 (s.g 0 3 + ((1 : BitVec 12).signExtend 32 <<< 4)).toNat 32 .load false s) fun ps t => okWith (loadPieces 0 ps t) fun b _ => b.length == 32) = true ∧
    issued 0 (.stq 0 15 3 1) .none tsSvu (fun s1 => let s := s1.setSr 0 0x030 (putFld (s1.sr 0 0x030) 13 0 0); wbit (s1.sr 0 0x030) 31 &&
      okWith (transPieces 0 (s.g 0 3 + ((1 : BitVec 12).signExtend 32 <<< 4)).toNat 16 .store false s) fun ps t =>
        okWith (storePieces 0 ps (qGather 1 16 [leBytes 16 (qNat s 0 15)]) t) fun _ _ => true) = true ∧
    issued 0 (.lds2 0 15 3 2 1) .none tsSvu (fun _ => true) = true ∧ issued siCore (.sts2 siCore 0 3 2 1) .none tsSi (fun _ => true) = true := by decide +kernel

/-! ### Witnesses: vector class -/

/-- Core 0 at M, bound to context 1, which is allocated and has no command. -/
def tsCtx : State := (tsApp.setRb (VC_STAT 1) 31 true).setRb (VC_BINDS 1) 0 true

/-- A command word of VADD whose source A is descriptor 5 and whose length register is L2. -/
def tsCmd : VCmd := { opc := 1, rm := 0, sub := 0, ea := 0, men := false, grp := 3, lnr := 2, sm := 0, sd := 1, sc := 0, sb := 1, sa := 5, imm := 0 }

/-- Context 1 with that command in an open group, or in a closed one. -/
def tsOpen : State := tsCtx.modVc 1 fun v => { v with opened := [⟨vcmdWord { tsCmd with grp := 1 }, 0⟩] }
def tsClosed : State := tsCtx.modVc 1 fun v => { v with closed := [⟨[⟨vcmdWord tsCmd, 0⟩], none, []⟩] }

theorem witness_VectorClassRefusals : issued siCore (.vsd siCore 1 2 0 0) .none tsSi (fun _ => true) = true ∧
    issued 0 (.vctxAlloc 0 1) .none (atLvl 0 .u tsApp) (fun s => s.lvl 0 == .u) = true ∧
    issued 0 (.vsd 0 1 2 16 7) .none tsApp (fun s => (boundCtx s 0).isNone) = true ∧ issued 0 (.vldd 0 1 0 63) .none tsApp (fun s => (boundCtx s 0).isNone) = true ∧
    issued 0 (.vissue 0 3 1 2) .none tsApp (fun s => (boundCtx s 0).isNone) = true ∧ issued 0 (.veaown 0 3 1) .none tsApp (fun s => s.lvl 0 != .u && (boundCtx s 0).isNone) = true := by
  decide +kernel

theorem witness_DescriptorsAndVissueComplete :
    issued 0 (.vsd 0 1 2 5 0) .none tsOpen (fun s => boundCtx s 0 == some 1 && (s.vc 1).opened.any fun q => namesAny s 1 false 5 1 q.w) = true ∧
    issued 0 (.vsd 0 1 2 6 0) .none tsOpen (fun s => boundCtx s 0 == some 1 && !(s.vc 1).opened.any fun q => namesAny s 1 false 6 1 q.w) = true ∧
    issued 0 (.vsd 0 1 2 2 7) .none tsClosed (fun s => boundCtx s 0 == some 1 && groupsPending (groupsNamed 0 1 (fun _ g =>
      g.cmds.any fun q => namesAny s 1 true 2 1 q.w) s) 0) = true ∧
    issued 0 (.vldd 0 1 63 0) .none tsCtx (fun s => boundCtx s 0 == some 1 && okWith (loadRange 0 (s.g 0 1).toNat 32 (groupsNamed 0 1 (fun _ _ => false) s)) fun b _ =>
      b.length == 32) = true ∧
    issued 0 (.vldd 0 1 5 0) .none tsClosed (fun s => groupsPending (groupsNamed 0 1 (fun _ g => g.cmds.any fun q => namesAny s 1 false 5 1 q.w) s) 0) = true ∧
    issued 0 (.vldd 0 1 5 0) .none tsOpen (fun s => (s.vc 1).opened.any fun q => namesAny s 1 false 5 1 q.w) = true ∧
    issued 0 (.vldd 0 1 5 0) .none (tsCtx.modCore 0 fun k => { k with stall := some (.vldd 0 1 5 0), marked := true }) (fun s => boundCtx s 0 == some 1 &&
      (s.core 0).marked && !groupsPending s 0 && okWith (loadRange 0 (s.g 0 1).toNat 32 s) fun b _ => b.length == 32) = true ∧
    issued 0 (.vldd 0 1 0 0) .none (tsCtx.setG 0 1 16) (fun s => (s.g 0 1).toNat % 32 != 0) = true ∧
    issued 0 (.vsd 0 1 2 2 7) .none (tsCtx.modCore 0 fun k => { k with stall := some (.vsd 0 1 2 2 7), marked := true }) (fun s => boundCtx s 0 == some 1 &&
      (s.core 0).marked && !groupsPending s 0) = true := by decide +kernel

/-- The same core with G1 and G2 holding a VNOP that is a group of its own. -/
def tsIssue : State := tsCtx.setG 0 2 0x3000

theorem witness_DescriptorsAndVissueComplete_vissue :
    issued 0 (.vissue 0 3 1 2) .none tsIssue (fun s => boundCtx s 0 == some 1 && drained s 0 && !vissueBad (s.vc 1) (s.g 0 2 ++ s.g 0 1)) = true ∧
    issued 0 (.vissue 0 3 1 2) .none tsCtx (fun s => boundCtx s 0 == some 1 && vissueBad (s.vc 1) (s.g 0 2 ++ s.g 0 1)) = true ∧
    issued 0 (.vissue 0 3 1 2) .none (tsIssue.modCore 0 fun k => { k with stall := some (.vissue 0 3 1 2) }) (fun s => boundCtx s 0 == some 1 && drained s 0 &&
      !vissueBad (s.vc 1) (s.g 0 2 ++ s.g 0 1) && decide ((s.vc 1).queue.length < 64)) = true := by decide +kernel

theorem witness_QueuedCommandStandsLast : nfld (BitVec.ofNat 64 (1 * 2 ^ 44)).toNat 45 44 < 2 ∧ 2 ≤ nfld (BitVec.ofNat 64 (2 * 2 ^ 44)).toNat 45 44 ∧ (1 : CtxId) ≠ 0 := by
  decide

theorem witness_CommandWordRoundTrip : (127 < 128 ∧ 7 < 8 ∧ 15 < 16 ∧ 3 < 4 ∧ 63 < 64 ∧ 1023 < 1024) ∧ vcmdOf (vcmdWord tsCmd) = tsCmd ∧ vcmdOk tsCmd = true := by decide

/-- Core 0 with all eight contexts allocated. -/
def tsFull : State := (List.range 8).foldl (fun t x => t.setRb (VC_STAT x) 31 true) tsApp

theorem witness_ContextInstructionsComplete : MayManage tsCtx 0 ∧
    issued 0 (.vctxAlloc 0 1) .none tsFull (fun s => (freeCtx s).isNone) = true ∧ issued 0 (.vctxAlloc 0 1) .none (tsApp.setRb VMS_PSTAT 30 true) (fun s => freeCtx s == some 0) = true ∧
    issued 0 (.vctxFree 0 2 1) .none tsCtx (fun s => !ctxAlloc s (ctxNo (fld (s.g 0 1) 2 0))) = true ∧
    issued 0 (.vctxFree 0 2 1) .none (tsCtx.setG 0 1 1) (fun s => ctxAlloc s (ctxNo (fld (s.g 0 1) 2 0)) && !(s.vc 1).busy) = true ∧
    issued 0 (.vbind 0 2 1) .none (tsCtx.setG 0 1 1) (fun s => !wbit (s.g 0 1) 31 && ctxAlloc s (ctxNo (fld (s.g 0 1) 2 0))) = true ∧
    issued 0 (.vbind 0 2 1) .none (tsCtx.setG 0 1 0x80000000) (fun s => wbit (s.g 0 1) 31) = true ∧
    issued 0 (.vbind 0 2 1) .none tsCtx (fun s => !wbit (s.g 0 1) 31 && !ctxAlloc s (ctxNo (fld (s.g 0 1) 2 0))) = true ∧
    issued 0 (.veaown 0 2 1) .none tsCtx (fun s => boundCtx s 0 == some 1) = true := by
  refine ⟨⟨by decide, by decide⟩, ?_⟩; decide +kernel

theorem witness_BindingsStayExclusive : (2 : CtxId) ≠ 1 ∧ (3 : CoreId) ≠ 0 := by decide

/-- Context 1 suspended with an empty queue. -/
def tsSusp : State := (tsCtx.setRb (VC_STAT 1) 26 true).setG 0 2 1

theorem witness_ImagesSuspensionAndFencesComplete_save : issued 0 (.vcsave 0 3 1 2) .none tsSusp (fun s => (s.g 0 1).toNat % 32 == 0 &&
    ctxNo (fld (s.g 0 2) 2 0) == 1 && ctxAlloc s 1 && s.rb (VC_STAT 1) 26 && !(s.vc 1).busy && (s.vc 1).held == (s.vc 1).queue.length &&
    okWith (rangePieces 0 .store ((imageBytes s 1).length / 4096 + 2) (s.g 0 1).toNat (imageBytes s 1).length s) fun ps t =>
      okWith (storePieces 0 (smallPieces ps) (imageBytes s 1) t) fun _ _ => true) = true := by decide +kernel

theorem witness_ImagesSuspensionAndFencesComplete_restore : issued 0 (.vcrst 0 3 1) .none (setBytes (tsCtx.setRb VMS_PSTAT 30 true) 0 [0x41, 0x51, 0x56, 0x43, 1])
    (fun s => (s.g 0 1).toNat % 32 == 0 && okWith (loadRange 0 (s.g 0 1).toNat 3584 s) fun b t => wordAt b 0 == 0x43565141 && fld (wordAt b 1) 7 0 == 1 &&
      freeCtx t == some 0 && ((List.range 8).filter fun m => wbit (wordAt b 1) (8 + m)).isEmpty) = true := by decide +kernel

theorem witness_ImagesSuspensionAndFencesComplete :
    issued 0 (.vsusp 0 3 1) .none tsCtx (fun s => s.lvl 0 != .u) = true ∧ issued 0 (.vresume 0 3 1 2) .none tsCtx (fun s => s.lvl 0 != .u) = true ∧
    issued 0 (.vfence 0 0) .none tsClosed (fun s => boundCtx s 0 == some 1 && groupsPending (groupsNamed 0 1 (fun _ _ => true) s) 0) = true ∧
    issued 0 (.vfence 0 0) .none (tsCtx.modCore 0 fun k => { k with stall := some (.vfence 0 0), marked := true }) (fun s => boundCtx s 0 == some 1 && (s.core 0).marked &&
      !groupsPending s 0) = true ∧
    issued 0 (.vinv 0 1 2 4) .none tsCtx (fun s => s.lvl 0 == .m && drained s 0 && !(s.core 0).marked) = true ∧
    issued 0 (.vinv 0 1 2 3) .none (atLvl 0 .s tsCtx) (fun s => s.lvl 0 == .s && drained s 0) = true ∧
    issued 0 (.vinv 0 1 2 0) .none (tsCtx.modCore 0 fun k => { k with stall := some (.vinv 0 1 2 0), marked := true }) (fun s => s.lvl 0 == .m && drained s 0 && (s.core 0).marked &&
      !vinvPending s 0) = true := by decide +kernel
/-! ### Witnesses: vector commands and groups -/

/-- Context 1 with VMS locked and descriptors 5, 1 and 2 as U32 arrays at 0x1000, 0x1100 and 0x1200, of as many elements as L2 says: two. -/
def tsArr : State := [(5, 0x1000), (1, 0x1100), (2, 0x1200)].foldl
  (fun t d => vsdWrite 1 d.1 4 4 0 (vsdWrite 1 d.1 1 4 0 (vsdWrite 1 d.1 0 d.2 0 t))) (((tsCtx.setRb VMS_LOCK 0 true).setReg (VC_LN 1 2) 2).setRb (VMS_PSTAT) 30 true)

/-- A copy of page 1 mapped to itself. -/
def tsPage : TlbEntry := ⟨0x1000, 0, 0, 0, 0x1000, true, true, true, none, 0, false, true, 0, 0⟩

/-- VADD of those arrays, or VNOP, at the front of a group that streams. -/
def tsVadd (c : VCmd) : Run := { surveyBegin tsArr 1 ⟨[⟨vcmdWord c, 0⟩], none, []⟩ with
  phase := .stream, found := [⟨0x1000, .vsrc, .ok tsPage, []⟩, ⟨0x1000, .vdst, .ok tsPage, []⟩] }
def tsStream : State := (setBytes tsArr 0x1000 [5, 0, 0, 0, 6]).modVc 1 fun v =>
  { v with closed := [⟨[⟨vcmdWord { tsCmd with sd := 2 }, 0⟩], none, []⟩], cur := some (tsVadd { tsCmd with sd := 2 }) }

/-- The same group with its page in another node, which port 0 leads to and has not answered. -/
def tsAway : State := { (tsStream.setReg XBM_MEN 0xFFF).modVc 1 fun v => { v with cur := v.cur.map fun r =>
    { r with found := [⟨0x1000, .vsrc, .ok { tsPage with pa := 0x800100000000 }, []⟩, ⟨0x1000, .vdst, .ok tsPage, []⟩] } } with
  outst := [⟨0, 0, 0x800100000000, 8, 2, .vse 1, 0, false, 0, [], []⟩] }

/-- What the next command of context 1 finds, and the state that it finds it in. -/
def nextIs (opc : Nat) (s : State) (p : Run → SInstr → Srcs → State → Bool) : Bool :=
  let t := Ready 1 s
  match nextInstr t 1 with
  | some (run, i) => mayRun t opc run i && p run i (srcsOf 1 run i s).1 (Answered (accsCorrected (accsNeeded i.cmd) t).fresh (srcsOf 1 run i s).2)
  | none => false

theorem witness_VectorCommandsComplete :
    nextIs 0x01 tsStream (fun _ i src t => !src.wait && (accBad t (accsNeeded i.cmd)).isNone && (firstFail i src.vin.m src.fails).isNone && src.vin.a == [5, 6] && src.vin.b == [0, 0]) = true ∧
    nextIs 0x01 (tsStream.setEcc 0x1000 3) (fun _ i src t => !src.wait && (accBad t (accsNeeded i.cmd)).isNone &&
      (firstFail i src.vin.m src.fails).isSome) = true ∧
    nextIs 0x01 tsAway (fun _ _ src _ => src.wait) = true := by decide +kernel

/-- R77, R78: VADD of 5, 6 and 0, 0 stores 5, 6. -/
theorem test_vadd : after (exec (.vadd 1) tsStream) (fun t => t.byte 0x1200 == 5 && t.byte 0x1204 == 6 && t.byte 0x1208 == 0) = true := by decide +kernel

theorem witness_VectorCommandsLeaveCores : VecRow .vadd 0x01 (perElem (fun e a b _ => numAdd e.ta e.rm false false a b)) := .vadd

theorem witness_CompletedCommandResults : let out : VOut := VOut.elems []
    ((out.accs.map Prod.fst).Nodup ∧ (∀ a ∈ out.accs, a.1 < 8)) ∧ ∀ d, (sampleInstr tsArr 1 (BitVec.ofNat 64 0x300000000000)).d = some d → d.trans = true := by
  refine ⟨⟨List.nodup_nil, fun a h => by cases h⟩, fun d h => ?_⟩
  have e : (sampleInstr tsArr 1 (BitVec.ofNat 64 0x300000000000)).d = none := by decide +kernel
  rw [e] at h; cases h

theorem witness_ExactAccumulationIgnoresOrder : [(false, Fv.inf false), (true, Fv.inf false)].Perm [(true, Fv.inf false), (false, Fv.inf false)] := .swap ..

/-- The same group before its survey, and at the end of its streaming. -/
def tsHead : State := tsStream.modVc 1 fun v => { v with cur := none }
def tsRunAt (f : Run → Run) : State := tsHead.modVc 1 fun v => { v with cur := some (f (tsVadd { tsCmd with sd := 2 })) }
def tsSv (p : RunPhase) : State := tsHead.modVc 1 fun v => { v with sv := some { tsVadd { tsCmd with sd := 2 } with phase := p } }

theorem witness_SurveyStepsComplete : (tsHead.pwr ≤ 1 ∧ maySurvey tsHead 1 = true ∧ (tsHead.vc 1).sv = none ∧ (surveyGroup tsHead 1).isSome = true) ∧
    (mayGoOn (tsSv .survey) 1 = true ∧ ((tsSv .survey).vc 1).sv.isSome = true) ∧ (mayGoOn (tsSv .prev) 1 = true ∧ ((tsSv .prev).vc 1).cur = none) ∧
    mayGoOn (tsSv .inflight) 1 = true ∧ (let r := { tsVadd { tsCmd with sd := 2 } with phase := .table, pages := 1024 }; let s := tsRunAt fun _ => r
      (s.vc 1).cur = some r ∧ firstInPhase s .table r.stamp = true ∧ tableInUse s + r.pages ≤ 1024) ∧
    (let r := { tsVadd { tsCmd with sd := 2 } with phase := .slots, slots := 8 }; let s := tsRunAt fun _ => r
      (s.vc 1).cur = some r ∧ firstInPhase s .slots r.stamp = true ∧ slotsInUse s + r.slots ≤ 8) := by decide +kernel

theorem witness_GroupEndsComplete :
    (let r := { tsVadd { tsCmd with sd := 2 } with pos := 1 }; let s := tsRunAt fun _ => r
      (s.vc 1).unsent = [] ∧ (s.vc 1).cur = some r ∧ vmsRuns s = true ∧ groupFinished s 1 r = true) ∧
    (let r := { tsVadd { tsCmd with sd := 2 } with stopped := some (condAt 8 0 0 0 0 0) }; let s := tsRunAt fun _ => r
      (s.vc 1).cur = some r ∧ r.stopped = some (condAt 8 0 0 0 0 0) ∧ writesOut s 1 = false ∧ (s.vc 1).unsent = []) ∧
    (let s := tsHead.modVc 1 fun v => { v with closed := [⟨[], some (0, 9), []⟩] }; mayHead s 1 = true ∧ (s.vc 1).cur = none) ∧
    (let s := tsHead.modVc 1 fun v => { v with suspPend := true }; (s.vc 1).suspPend = true ∧ (s.vc 1).cur = none ∧ (s.vc 1).sv = none) ∧
    (tsStream.vc 1).busy = true := by decide +kernel

theorem witness_GroupEndReports : ringLog tsStream 1 = 0 ∧ (tsStream.vc 1).recs = [] ∧ (let c := condAt 15 0 0 7 1 0; c.status < 16 ∧ c.probe < 8 ∧ c.stream < 8 ∧ c.isrc < 8) := by
  decide +kernel
/-! ### Witnesses: memories, events, time, the bus -/

/-- A master's port issues a write, or a read, of the register at an address now, and the master reaches it. -/
def canWrite (s : State) (m : Master) (a : Nat) : Bool := mayIssue s s.xacts m.val true a 4 && reaches s m.val a true
def canRead (s : State) (m : Master) (a : Nat) : Bool := mayIssue s s.xacts m.val false a 4 && reaches s m.val a false

theorem sends_of {s : State} {m : Master} {a : Nat} (h : canWrite s m a = true) : Sends s m a := by
  simpa [canWrite, Sends] using h

/-- M1 may write each register that its commands are about; M8 those of the VMS, and M4 those of the Safety Island. -/
theorem witness_Sends : (∀ a ∈ [ERG_HASH, ERG_XQOS, ERG_BGCTL, ERG_INIT, MIU_INJ, DMC_CTL, DMC_CAP, ICU_SWI, VC_CRTAIL 7, VC_CRBASE_LO 0, EVR_CSEL 255, EVR_SWP, TB_RATE, TB_ADJ,
      TB_STEP_HI, TMU_GCMD, IDL_P_CTL 5, IDL_MTXGO, IDL_NODEID, SCE_CTL, SCE_SWAP, TNC_BYP, TNC_BYPWD, SI_A2SDB, PCU_PIN 411, PMU_SLEEP, ELG_SNAP,
      ELG_CREDIT_LO, BCU_REL, KSU_REVOKE], canWrite tsBus 1 a = true) ∧
    canWrite tsBus 8 VMS_LOCK = true ∧ canWrite tsBus 8 BCU_ST_CTL = true ∧
    (∀ a ∈ [SI_LSCTL, SI_SSC, SI_WDCTL, SI_WDKICK, SI_S2ADB], canWrite tsBus 4 a = true ∧ canWrite tsBus 1 a = true) ∧
    (∀ a ∈ [CAP_NS_HI 0, CAP_NS_HI 15], canRead tsBus 1 a = true) ∧ Sends tsBus 1 ERG_HASH := by
  refine ⟨by decide, by decide, by decide, by decide, by decide, sends_of (by decide)⟩

theorem witness_MemoryEventsComplete : tsBus.pwr ≤ 1 ∧
    (let s := (tsBus.setReg (DMC_CH_CFG 0) 0x20).setReg (DMC_CH_CFG 1) 0x20; s.rb DMC_CTL 0 = false ∧ dmcDens s 0 ≠ 0 ∧ dmcDens s 1 = dmcDens s 0) ∧
    (let s := tsBus.setReg (DMC_CH_CFG 0) 0x20; s.rb DMC_CTL 0 = false ∧ dmcDens s 1 ≠ dmcDens s 0) ∧
    (let s := { tsBus.setReg PMU_PLL 0x1F with dmcTraining := true }; s.dmcTraining = true ∧ s.rb PMU_PLL 1 = true) ∧
    (let s := (tsBus.setRb DMC_STAT 31 true).setRb DMC_CTL 12 true; s.rb DMC_STAT 31 = true ∧ s.rb DMC_CTL 12 = true) ∧
    smGet zeroDefault [(127, 0x1000 + 1)] 127 = 0x1000 + 1 ∧
    (let s := tsBus.setRb MIU_CTL 0 true; scrubOn s = true ∧ s.rf MIU_SCRUB_POS 15 0 < 49151 ∧ scrubOn (s.setReg MIU_SCRUB_POS 49151) = true ∧
      (s.setReg MIU_SCRUB_POS 49151).rf MIU_SCRUB_POS 15 0 = 49151) ∧
    (let s := { tsBus.setReg MIU_SCRUB_LIMIT 1 with tb := BitVec.ofNat 80 (1000001 * 65536) }; s.rf MIU_SCRUB_LIMIT 15 0 ≠ 0 ∧ s.lapLate = false ∧
      s.rf MIU_SCRUB_LIMIT 15 0 * 1000000 < lapNs s) ∧
    ((tsBus.setReg ERG_BGCTL 0x80).rb ERG_BGCTL 7 = true ∧ groupOos (tsBus.setReg ERG_BGCTL 0x80) 7 = false ∧ vseUsesErg tsBus = false) ∧
    (let s := tsBus.setReg ERG_INIT 1; s.rb ERG_INIT 0 = true ∧ groupOos s 0 = false ∧ s.fillRun.getLsbD 0 = false) ∧
    ({ tsBus with fillRun := 0x80 } : State).fillRun.getLsbD 7 = true ∧ tsBus.rb MIU_STEST 31 = false ∧
    (let s := { tsBus with ergSlots := 0x80, pwr := 2 }; s.pwr = 2 ∧ s.ergSlots.getLsbD 7 = true ∧ (∀ j, j < 7 → s.ergSlots.getLsbD j = false) ∧ groupOos s 7 = false) := by
  decide +kernel

theorem witness_InterruptAndTimeEventsComplete : (icuAssigned 633 = true ∧ icuAssigned 640 = false ∧ 1 ≤ 63 ∧ State.reset.pwr ≤ 1) ∧ ((tsBus.setReg (PCU_FPIN 0x40) 0x80000000).rb (PCU_FPIN 0x40) 31 = true ∧
      fnPlaced (tsBus.setReg (PCU_FPIN 0x40) 0x80000000) 0x50 = true ∧ 80 ≤ 0x50 ∧ 0x50 < 96) ∧ (79 ∈ ({ tsBus with edges := [79, 96] } : State).edges ∧
      96 ∈ ({ tsBus with edges := [79, 96] } : State).edges) ∧
    (({ tsBus with evoutBusy := 0x8000 } : State).evoutBusy.getLsbD 15 = true ∧ tsBus.pwr ≠ 2) ∧ tbDisc tsBus = 0 ∧
    (let s := tsBus.setRb (TB_WK_CTL 1) 31 true; s.rb (TB_WK_CTL 1) 31 = true ∧ s.reg64 (TB_WK_CMP_LO 1) (TB_WK_CMP_HI 1) ≤ tbNs s) ∧
    (let s := tsBus.setReg (tmReg TM_CTL 47) 0x80000000; s.rb (tmReg TM_CTL 47) 31 = true ∧ s.rf (tmReg TM_CTL 47) 30 28 ≤ 4 ∧ timerNext (s.setReg (tmReg TM_CNT 47) 0xFFFFFFFE) 47 = s.reg (tmReg TM_MATCH 47) ∧
      (s.setReg (tmReg TM_CNT 47) 0xFFFFFFFF).reg (tmReg TM_CNT 47) = s.reg (tmReg TM_RELOAD 47)) ∧
    (let s := (tsBus.setReg (MC_CTL 3) 0x80000000).setReg (SC_CTL 0) 0x80000000; s.rb (MC_CTL 3) 31 = true ∧ cmpValue s 3 ≤ s.tb.toNat ∧ s.rb (SC_CTL 0) 31 = true ∧
      cmpValue s 4 ≤ s.tb.toNat) ∧
    (let s := tsBus.setReg (CAP_CTL 15) 0x80000012; s.rb (CAP_CTL 15) 31 = true ∧ s.rb (CAP_CTL 15) 4 = true ∧ s.rf (CAP_CTL 15) 2 0 = 2) := by decide +kernel

/-- A read of M1's at 0x100 with identifier 5. -/
def tsRead5 (det : Bool) : Xact := newXact tsBus 1 0 5 0 0x100 4 0 .m det [] [(0x100, [])]

/-- The bus with that read granted, and answered or not. -/
def tsXact (answered det : Bool) : State := { tsBus with xacts := [{ tsRead5 det with granted := true, answered := answered }] }

theorem witness_BusTransactionsComplete : (regWf 0x20100100 = true ∧ canWrite tsBus 1 0x20100100 = true ∧
      mayIssue tsBus tsBus.xacts 7 true 0x20100100 4 = true ∧ reaches tsBus 7 0x20100100 true = false ∧
      mayIssue State.reset State.reset.xacts 1 true 0x20100100 4 = false) ∧
    (mayGrant tsBus tsBus.xacts (tsRead5 false) = true ∧ contended tsBus (tsRead5 false) = false ∧ mayGrant State.reset [] (tsRead5 false) = false) ∧
    (burstOk 0x1FF 1 = true ∧ burstOk 0x1FF 2 = false ∧ burstOk 0 4 = true ∧ tsBus.outst = [] ∧
      (targetRead 1 0 (.xact 1 5) 0x100 4 { tsBus with arb := smPut zeroDefault tsBus.arb (arbKey (targetOf tsBus 0x100) false (tsRead5 false).qos) 2 }).1 =
        .done rOKAY [0, 0, 0, 0]) ∧
    (xactOf (tsXact true false) 1 5 (fun _ => true) = some 0 ∧ ((tsXact true false).xacts[0]?.map fun x => x.answered && !x.det) = some true) ∧
    ((tsXact true true).xacts[0]?.map fun x => x.answered && x.det) = some true ∧
    ((tsXact false false).setReg XBM_TMO 1).rf XBM_TMO 19 0 ≠ 0 ∧ timed (tsXact false false) 1 5 = some 0 ∧
    ((tsXact false false).setReg XBM_AGE 1).rf XBM_AGE 11 0 ≠ 0 ∧
    xactOf { tsBus with xacts := [tsRead5 false] } 1 5 (fun y => !y.granted && !y.aged) = some 0 := by
  decide +kernel

/-! ### Witnesses: the Idene Link -/

/-- Port `p` in state `n`, with KPLL locked, the port enabled and this node's ID valid. -/
def tsPort (p n : Nat) : State := ((((tsBus.setReg PMU_PLL 0x1F).setReg (IDL_P_STAT p) (BitVec.ofNat 32 (n * 2 ^ 29))).setReg (IDL_P_CTL p) 0x80000000).setReg IDL_NODEID 0x80000005)

/-- A packet of a type to node 5, or another. -/
def tsPkt (ty dst len : Nat) : Packet :=
  let p : Packet := ⟨BitVec.ofNat 32 (dst * 65536), BitVec.ofNat 32 (ty * 2 ^ 28 + 3 * 2 ^ 24 + len), 0, 0, List.replicate len 0, BitVec.ofNat 32 (crc32c (List.replicate len 0))⟩
  { p with w3 := BitVec.ofNat 32 (packetHcrc p * 65536) }

theorem witness_LinkPortEventsComplete : (canWrite (tsPort 5 1) 1 (IDL_P_CTL 5) = true ∧ (tsPort 5 1).rb (IDL_P_CTL 5) 31 = true ∧ (tsPort 5 1).rb PMU_PLL 0 = true ∧
      1 ≤ portState (tsPort 5 1) 5 ∧ portState (tsPort 5 4) 5 ≤ 4) ∧
    (portState (tsPort 0 5) 0 = 5 ∧ ({ tsPort 0 5 with helloIn := 1 } : State).helloIn.getLsbD 0 = true) ∧ portUp (tsPort 0 6) 0 = true ∧
    (let s := { tsPort 1 6 with linkTx := [⟨1, 7, tsPkt 1 0x4005 0, true, false⟩] }; portUp s 1 = true ∧ s.linkTx.any (fun e => e.port == 1 && e.sent && e.seq == 7) = true) ∧
    (let s := (tsPort 2 6).setReg IDL_TCTL 0x82000000; ftSlave s = true ∧ portUp s (ftUport s) = true ∧ steppedSince s 5 = false) ∧
    (let s := { tsPort 2 6 with c0 := [⟨31, 0, false, none⟩], tb := BitVec.ofNat 80 (256 * 65536) }; (s.c0.find? fun e => e.k == 31).isSome = true ∧ 0 + 256 ≤ tbNs s) := by
  decide +kernel

theorem witness_LinkPacketsComplete : (tsPort 1 6).pwr ≤ 1 ∧ portUp (tsPort 1 6) 1 = true ∧ nodeValid (tsPort 1 6) = true ∧
    (∀ ty ∈ [0, 1, 2, 3, 0xC, 8, 9, 0xA, 0xD, 4], let k := tsPkt ty 5 4; packetOk k = true ∧ pktDst k = nodeId (tsPort 1 6) ∧ pktTy k = ty ∧ k.payload.length = pktLen k) ∧
    ((5 ∈ ({ tsBus with lateTags := [5] } : State).lateTags ∧ 5 ∉ tsBus.lateTags) ∧ knownType 4 = false ∧ knownType (pktTy (tsPkt 1 6 0)) = true ∧ packetOk (tsPkt 1 6 0) = true ∧ pktTy (tsPkt 1 6 0) ≠ 0xD ∧
      pktDst (tsPkt 1 6 0) ≠ nodeId (tsPort 1 6)) := by decide +kernel

/-! ### Witnesses: schedule engine, train networks, safety, power, starts -/

/-- The schedule engine in a macrocycle of 1000 ns, at an entry of action `a`. -/
def tsSce (a : Nat) : State := { (tsBus.setReg SCE_CTL 1).setReg SCE_MCYCLE 1000 with
  sce := { SceSt.reset with begun := true }, sceBank0 := [(1, BitVec.ofNat 32 (a * 2 ^ 28))] }

theorem witness_ScheduleEngineComplete : (∀ a ∈ List.range 16, sceDue (tsSce a) = true ∧ fld (sceCur (tsSce a)).w1 31 28 = a) ∧
    (let s := tsBus.setReg SCE_CTL 1; s.rb SCE_CTL 0 = true ∧ sceNext s * 65536 ≤ s.tb.toNat) ∧ (tsBus.setRb SCE_STAT 30 true).rb SCE_STAT 30 = true ∧
    (0x30000004, 7) ∈ ({ tsBus with sce := { SceSt.reset with errs := [(0x30000000, 1), (0x30000004, 7)] } } : State).sce.errs := by decide +kernel

/-- MAC 0 enabled, with one frame of 64 bytes at 0x5000 in the ring of queue 7 at 0x4000. -/
def tsTx : State := setBytes ((((((tsBus.setReg PMU_PLL 0x1F).setReg (MAC_CTL 0) 0x80000000).setReg (MAC_TX_BASE_LO 0 7) 0x4000).setReg (MAC_TX_SIZE 0 7) 4).setReg (MAC_TX_TAIL 0 7) 1))
  0x4000 [0x00, 0x50, 0, 0, 0, 0, 64, 0, 0, 0, 0, 0xC0]

/-- The same MAC with a frame of the device's own for queue 7 before it. -/
def tsOwn : State := tsTx.modMac 0 fun k => { k with own := [(7, List.replicate 64 1)] }

theorem findSpec_mem : ∀ (l : List RegSpec) (o : Nat) (r : RegSpec), findSpec l o = some r → r ∈ l
  | [], _, _, h => by cases h
  | q :: t, o, r, h => by
    unfold findSpec at h
    split at h
    · cases h; exact List.mem_cons_self ..
    · exact List.mem_cons_of_mem _ (findSpec_mem t o r h)

/-- No stream filter is valid at reset. -/
theorem no_filter (k : Nat) (h : k < 1024) : wbit (regReset (TNC_FLT1 k)) 31 = false := by
  unfold regReset regSpec
  have e : TNC_FLT1 k / 0x10000 = 0x20b0 := by unfold TNC_FLT1; omega
  rw [e]
  split
  · rename_i r hr
    exact (by decide +kernel : ∀ r ∈ frameSpecs frameTable 0x20b0, wbit (BitVec.ofNat 32 r.rst) 31 = false) r (findSpec_mem _ _ _ hr)
  · rfl

/-- MAC 0 enabled, with its clock, and nothing else set. -/
def tsMac : State := (State.reset.setReg PMU_PLL 0x1F).setReg (MAC_CTL 0) 0x80000000

theorem witness_TrainNetworksComplete_no_filter : tsMac.pwr ≤ 1 ∧ tsMac.rb (MAC_CTL 0) 31 = true ∧ macClocked tsMac 0 = true ∧ macPinned tsMac 0 = true ∧
    filterOf tsMac 0 [] = none := by
  refine ⟨by decide, by decide, by decide, by decide, ?_⟩
  unfold filterOf
  rw [List.find?_eq_none]
  intro k hk
  have hr : tsMac.reg (TNC_FLT1 k) = regReset (TNC_FLT1 k) :=
    (reg_setReg_ne _ _ (by unfold TNC_FLT1 MAC_CTL; omega)).trans (reg_setReg_ne _ _ (by unfold TNC_FLT1 PMU_PLL; omega))
  unfold filterMatches
  dsimp only
  rw [hr, no_filter k (List.mem_range.mp hk)]
  simp

/-- A frame of MAC 1's on the wire. -/
def tsWire : State := tsBus.modMac 1 fun k => { k with tx := some ⟨7, [], 0, 0, 0, []⟩ }

theorem witness_TrainNetworksComplete : (tsTx.rb (MAC_CTL 0) 31 = true ∧ (tsTx.macSt 0).tx = none ∧ (tsTx.macSt 0).fetch = none ∧ txTry tsTx 0 7 = true ∧
      macOwn tsTx 0 7 = none) ∧ (txTry tsOwn 0 7 = true ∧ macOwn tsOwn 0 7 = some (List.replicate 64 1)) ∧ (txWants tsTx 0 6 = false ∧ txWants tsTx 0 0 = false) ∧
    (let s := (tsTx.setReg (TNC_FLT1 0) 0x80000000).setReg (TNC_FLT2 0) 0x10000000; filterOf s 0 (List.replicate 64 0) = some 0) ∧
    macClocked tsTx 0 = true ∧
    (match txDescs 0 7 (txReady tsTx 0 7) [] tsTx with
      | (some true, l, s1) => l.length == 1 && (match txBytes l 0 [] s1 with
        | (some st, _, b, s2) => st == (0, 0) && b.length == 64 && txMay (s2.modMac 0 fun k => { k with fetch := none }) 0 7 (txLen l)
        | _ => false)
      | _ => false) = true ∧
    (tsWire.macSt 1).tx.isSome = true ∧ (tsBus.macSt 3).up ≠ true ∧ (let s := (tsBus.setReg TNC_AS_CTL 0xF0000003).setReg (MAC_CTL 3) 0x80000000
      asSlaveOn s = true ∧ s.rb (MAC_CTL (s.rf TNC_AS_CTL 29 28)) 31 = true) ∧
    (let s := (tsBus.setReg TNC_AS_CTL 0x80000002).setReg (MAC_CTL 1) 0x80000000; s.rb TNC_AS_CTL 31 = true ∧ s.rb TNC_AS_CTL 1 = true ∧ s.rb (MAC_CTL 1) 31 = true) ∧
    (tsBus.setReg TNC_TTDP 0x10000).rf TNC_TTDP 31 16 ≠ 0 ∧ (tsBus.setReg (TNC_REC0 255) 0x80000000).rb (TNC_REC0 255) 31 = true ∧
    (let s := { (tsBus.setReg MVB_CTL 0x80000000).setReg (PCU_FPIN 0x62) 0x80000000 with mvbWait := some 0xF001 }; mvbOn s = true ∧ mvbPinned s = true ∧ s.mvbWait = some 0xF001) ∧
    (let s := (tsBus.setReg (CAN_CTL 3) 0x80000000).setReg (PCU_FPIN 0x7A) 0x80000000;
      s.rb (CAN_CTL 3) 31 = true ∧ fnPlaced s (0x81 + 3 * 3) = true) ∧
    (let s := (tsBus.setReg (CAN_CTL 3) 0x80000000).modCan 3 fun k => { k with req := 0x80000000, tec := 255 };
      s.rb (CAN_CTL 3) 31 = true ∧ (s.canSt 3).req.getLsbD 31 = true ∧ (s.canSt 3).tec < 256) ∧
    (let s := (tsBus.setReg (CAN_CTL 3) 0x80000000).modCan 3 fun k => { k with tec := 256 }; s.rb (CAN_CTL 3) 31 = true ∧ 256 ≤ (s.canSt 3).tec) ∧
    (tsBus.mvbWait = none ∧ masterOn tsBus 7 = true ∧ (tsBus.uartSt 3).go = false ∧ ((tsBus.modUart 3 fun k => { k with go := true }).uartSt 3).go = true) ∧
    (let s := ((tsBus.setReg (UART_CTL 3) 0xC0000001).setReg (PCU_FPIN 0x8D) 0x80000000).modUart 3 fun k => { k with idle := true, de := true };
      s.rb (UART_CTL 3) 31 = true ∧ fnPlaced s (0x91 + 4 * 3) = true ∧ s.rb (UART_CTL 3) 30 = true ∧
      (s.uartSt 3).de = true ∧ (s.uartSt 3).idle = true ∧ s.rf (UART_CTL 3) 7 0 ≠ 0) ∧
    (let s := { (tsBus.setReg TNC_BYP 0x80000000).setReg TNC_BYPWD 1 with tb := BitVec.ofNat 80 (1000000 * 65536) }; bypExpired s = true) := by decide +kernel

/-- The clauses on a draw: the draw is some number and some state, and what the free choice is of it is one of two. -/
theorem witness_TrainNetworksComplete_draws : ∃ q u, tsBus.draw = (q, u) ∧ (Config.canRecovered q = false ∨ Config.canRecovered q = true) := by
  refine ⟨_, _, rfl, ?_⟩
  cases Config.canRecovered _ <;> simp

/-- MAC 1's frame done: the device's own, and one of a ring. -/
theorem witness_TrainNetworksComplete_done : (∃ x, (tsWire.macSt 1).tx = some x ∧ x.q = 7 ∧ x.descs = []) ∧
    ∃ x, ((tsWire.modMac 1 fun k => { k with tx := k.tx.map fun x => { x with descs := [⟨0x5000, 64, 0xC0000000⟩] } }).macSt 1).tx = some x ∧ x.q = 7 ∧ x.descs ≠ [] :=
  ⟨⟨_, rfl, by decide, by decide⟩, _, rfl, by decide, by decide⟩

theorem witness_SafetyIslandEventsComplete : (let s := ((tsBus.setReg SI_WDCTL 0x80000064).setReg SI_WDCNT 60).setReg SI_WDWIN 0x280000
      s.rb SI_WDCTL 31 = true ∧ s.rf SI_WDCNT 15 0 + s.rf SI_WDWIN 31 16 = s.rf SI_WDCTL 15 0) ∧
    (let s := (tsBus.setReg SI_WDCTL 0x80000064).setReg SI_WDCNT 100; s.rb SI_WDCTL 31 = true ∧ s.rf SI_WDCNT 15 0 = s.rf SI_WDCTL 15 0) ∧ siReleased tsBus = false := by
  decide +kernel

/-- Consumer `c` of the Safety Island fed by channel 191, which producer 96 alone feeds, with trigger 11 enabled. -/
def tsEvr (c : Nat) : State := { ((tsBus.setReg (EVR_CSEL c) 0x800000BF).setReg (EVR_PMASK (8 * 191 + 3)) 1).setReg SI_TRIGEN 0xC00 with edges := [96] }

theorem witness_EventRouterReachesSafety : ∀ c ∈ [58, 59, 60, 63], (tsEvr c).pwr ≤ 1 ∧ 96 ∈ (tsEvr c).edges ∧ channelsOf (tsEvr c) 96 = [191] ∧
    channelConsumer (tsEvr c) 191 = some c ∧ (tsEvr c).rb SI_TRIGEN 11 = true := by decide +kernel

/-- An EVIN pin's event on two channels, of which one is joined. -/
theorem witness_EventRouterReachesSafety_pin : let s := ((((tsBus.setReg (PCU_FPIN 0x40) 0x80000000).setReg (EVR_CSEL 58) 0x800000BF).setReg
      (EVR_PMASK (8 * 191 + 2)) 0x10000).setReg (EVR_PMASK (8 * 190 + 2)) 0x10000);
    fnPlaced s 80 = true ∧ channelsOf s 80 = [190, 191] ∧ 191 ∉ [190] ∧ channelConsumer s 191 = some 58 := by decide +kernel

theorem witness_EventRouterReachesSafety_off : channelConsumer (tsEvr 56) 191 = some 56 ∧ (tsEvr 56).rb SI_TRIGEN 8 = false := by decide +kernel

/-- A state that sleep may be asked for in, and one that has asked. -/
def tsSleep : State := tsBus.setReg PMU_SLEEP 0x10100

/-- A request for COCOON armed by ARM, with and without a wake event in the same XCLK; and a wake event in the XCLK of a GO. -/
theorem witness_PowerEventsComplete_goAndWake : let s := tsBus.setReg PMU_SLEEP 0x100
    canWrite s 1 PMU_SLEEP = true ∧ s.rb PMU_SLEEP 16 = false ∧ (plainWrite 1 PMU_SLEEP 1 s).rb PMU_SLEEP 8 = true ∧
    (plainWrite 1 PMU_SLEEP 1 tsBus).rb PMU_SLEEP 8 = false ∧ s.pmu.wakeAt ≠ some s.xclk ∧
    ({ s with pmu := { s.pmu with wakeAt := some s.xclk } } : State).pmu.wakeAt = some s.xclk ∧
    (let u := { tsSleep with wakeReq := 0x80, pmu := { tsSleep.pmu with goAt := some tsSleep.xclk } }; wakeCame (some 7) u = true ∧
      u.rb PMU_SLEEP 16 = true ∧ u.pmu.goAt = some u.xclk) ∧ tsSleep.pmu.goAt ≠ some tsSleep.xclk := by decide +kernel

theorem witness_PowerEventsComplete : (({ tsBus with elg := { tsBus.elg with due := true } } : State).elg.due = true ∧
      ({ tsBus with elg := { tsBus.elg with plimDue := true } } : State).elg.plimDue = true) ∧ (tsBus.pwr = 0 ∧ coresWait tsBus = true ∧ vseQuiet tsBus = true) ∧
    (let s := { (tsBus.modCore 0 fun k => { k with released := true }) with pwr := 1 }; s.pwr = 1 ∧ coresWait s = false) ∧ tsBus.rb PMU_SLEEP 16 = false ∧
    (tsSleep.rb PMU_SLEEP 16 = true ∧ coresWait tsSleep = true ∧ tsSleep.wakeReq = 0 ∧ inFlight tsSleep = false) ∧
    coresWait (tsSleep.modCore 0 fun k => { k with released := true }) = false ∧
    (let s := { tsSleep with wakeReq := 0x80 }; wakeCame (some 7) s = true) ∧ pfStep { tsSleep with pwr := 2 } = 0 ∧ (let s := { tsBus with wakeReq := 1, pwr := 2 }; wakeCame (some 0) s = true ∧ s.ergSlots = 0 ∧ pfStep s = 0) ∧
    (tsBus.setReg ELG_PLIM 1).rf ELG_PLIM 23 0 ≠ 0 ∧ tsBus.pwrfailN = true ∧ (let s := { tsBus with pwrfailN := false, pfFilter := true }; s.pfFilter = true ∧
      s.pwrfailN = false ∧ pfStep s = 0) ∧
    pfStep3Due (setPfStep 2 tsBus) = true ∧ pfStep3Due { setPfStep 1 tsBus with pwr := 2 } = true ∧ pfStep (setPfStep 3 tsBus) = 3 ∧ pfStep (setPfStep 4 tsBus) = 4 ∧
    pfStep { setPfStep 1 tsBus with pwr := 3 } = 1 ∧ (let s := { tsBus with pwr := 4 }; s.pwr = 4 ∧ s.pwrfailN = true) := by decide +kernel

/-- M8 may write and read a register that a record names. -/
theorem witness_ResetsAndStartsComplete_register : canWrite tsBus 8 ERG_HASH = true ∧ canRead tsBus 8 ERG_HASH = true ∧ regWf ERG_HASH = true := by decide

/-- A start at record `r`. -/
def tsRec (r : CfgRec) : State := { tsBus with boot := { BootSt.reset with phase := .records, recs := [r] } }

/-- What the BCU's read of a record's address answers, and its write of a word there. -/
def recRead (r : CfgRec) (p : Nat → Bool) : Bool := match bcuRead r.addr (tsRec r) with | (.done c _, _) => p c | _ => false
def recWrite (r : CfgRec) (p : Nat → Bool) : Bool := match bcuWrite r.addr (leBytes 4 r.value.toNat) (tsRec r) with | (.done c _, _) => p c | _ => false

theorem witness_ResetsAndStartsComplete : (∀ op ∈ [0, 1, 2, 3, 4, 5], AtRecord (tsRec ⟨op, false, 0, 0x1000, 0, 0xFFFFFFFF⟩) ⟨op, false, 0, 0x1000, 0, 0xFFFFFFFF⟩) ∧
    recRead ⟨2, false, 0, 0x1000, 0, 0xFFFFFFFF⟩ (fun c => c == 0) = true ∧ recRead ⟨2, false, 0, 0x2F000000, 0, 0xFFFFFFFF⟩ (fun c => c != 0) = true ∧
    recWrite ⟨1, false, 0, 0x1000, 5, 0xFFFFFFFF⟩ (fun c => c == 0) = true ∧ recWrite ⟨1, false, 0, 0x2F000000, 5, 0xFFFFFFFF⟩ (fun c => c != 0) = true ∧
    recWrite ⟨1, false, 0, 0x1000, 5, 0xFF⟩ (fun c => c == 0) = true ∧ pllWanted 3 tsBus = true ∧
    (let s := { tsBus with boot := { BootSt.reset with phase := .delay } }; s.boot.phase = .delay ∧ s.pwr ≤ 1) ∧
    (let s := { tsBus with boot := { BootSt.reset with phase := .retry }, tb := BitVec.ofNat 80 (1000000000 * 65536) };
      s.boot.phase = .retry ∧ s.pwr ≤ 1 ∧ s.boot.t0 + 1000000000 ≤ tbNs s) := by
  refine ⟨fun op h => ⟨by show 0 ≤ 1; decide, rfl, [], rfl⟩, ?_⟩
  decide +kernel

/-- Of the two clauses on the free outcome of a verification, one is met. -/
theorem witness_StoreAndReleaseComplete_verify : ∃ j u, ({ tsBus with nvmOp := .commit 0 1 [] } : State).draw = (j, u) ∧
    (Config.verifyFails j = false ∨ Config.verifyFails j = true) := by
  refine ⟨_, _, rfl, ?_⟩
  cases Config.verifyFails _ <;> simp

theorem witness_StoreAndReleaseComplete : (stBusy (tsBus.setReg BCU_ST_STAT 0x80000000) = true ∧ stBusy tsBus = false) ∧ canWrite tsBus 1 BCU_ST_CTL = true ∧
    ({ tsBus with nvmOp := .commit 0 1 [] } : State).nvmOp = .commit 0 1 [] ∧ ({ tsBus with nvmOp := .erase 0 4096 } : State).nvmOp = .erase 0 4096 ∧
    ({ tsBus with nvmOp := .program 0 [] } : State).nvmOp = .program 0 [] ∧ ({ tsBus with nvmOp := .prepare 5 } : State).nvmOp = .prepare 5 := by
  decide +kernel

/-- A record without payload and with SEQ `q` in slot `n` of a store of slots of 512 bytes at 0x2000. -/
def tsRecord (n q : Nat) (s : State) : State :=
  let w : List Byte := leBytes 4 0x54535141 ++ leBytes 4 q ++ leBytes 4 0
  nvmPut (0x2000 + n * 512 + 496) (leBytes 4 commitMark) (nvmPut (0x2000 + n * 512) (w ++ leBytes 4 (crc32c w)) s)

/-- Such a store, empty. -/
def tsEmptyStore : State :=
  let h : List Byte := [0x41, 0x51, 0x49, 0x48, 1, 0] ++ List.replicate 15 0 ++ [0x20, 0, 0, 9, 0, 0, 0]
  nvmPut 0 (h ++ leBytes 4 (crc32c h)) tsBus

/-- Such a store, with records of SEQ `p` and `q` in slots 3 and 70. -/
def tsStore (p q : Nat) : State := tsRecord 70 q (tsRecord 3 p tsEmptyStore)

/-- What makes a slot of a store of slots of 512 bytes at 0x2000 the best of some, the other slots but 3 and 70 without MAGIC. -/
theorem tsStore_best {s : State} {p : Nat → Prop} {n : Nat} (hb : stBase s = 0x2000) (hz : slotSize s = 512)
    (hm : ∀ m, m < 128 → m ≠ 3 → m ≠ 70 → (s.nvmNat (0x2000 + m * 512) 4 == 0x54535141) = false) (hv : n < 128 ∧ p n ∧ slotValid s n = true)
    (h : ∀ m ∈ [3, 70], p m → m ≠ n → serialLater (slotSeq s n) (slotSeq s m) = true ∨
      (serialLater (slotSeq s n) (slotSeq s m) = false ∧ serialLater (slotSeq s m) (slotSeq s n) = false ∧ n < m)) : BestOf s p n := by
  refine ⟨hv, fun m hl hp hn hs => h m ?_ hp hn⟩
  by_cases h3 : m = 3
  · simp [h3]
  · by_cases h7 : m = 70
    · simp [h7]
    · simp [slotValid, slotFramed, slotOffs, hb, hz, hm m hl h3 h7] at hs

theorem witness_StoreSelection_wrap : BestOf (tsStore 0xFFFFFFFF 0) (fun _ => True) 70 :=
  tsStore_best (by decide +kernel) (by decide +kernel) (by decide +kernel) (by decide +kernel) (by decide +kernel)

theorem witness_StoreSelection_otherBank : BestOf (tsStore 0xFFFFFFFF 0) (fun k => k / 64 ≠ 70 / 64) 3 :=
  tsStore_best (by decide +kernel) (by decide +kernel) (by decide +kernel) (by decide +kernel) (by decide +kernel)

theorem witness_StoreSelection_neither : BestOf (tsStore 5 (5 + 2 ^ 31)) (fun _ => True) 3 :=
  tsStore_best (by decide +kernel) (by decide +kernel) (by decide +kernel) (by decide +kernel) (by decide +kernel)

theorem witness_StoreSelection_none : ∀ n, n < 128 → slotValid tsBus n = false := by decide +kernel

/-- With record 3 alone, it is the best and bank B holds none. -/
theorem witness_StoreSelection_emptyBank : BestOf (tsRecord 3 5 tsEmptyStore) (fun _ => True) 3 ∧
    ∀ m, m < 128 → m / 64 ≠ 3 / 64 → slotValid (tsRecord 3 5 tsEmptyStore) m = false := by
  have hb : stBase (tsRecord 3 5 tsEmptyStore) = 0x2000 := by decide +kernel
  have hz : slotSize (tsRecord 3 5 tsEmptyStore) = 512 := by decide +kernel
  have hm : ∀ m, m < 128 → m ≠ 3 → ((tsRecord 3 5 tsEmptyStore).nvmNat (0x2000 + m * 512) 4 == 0x54535141) = false := by decide +kernel
  have hf : ∀ m, m < 128 → m ≠ 3 → slotValid (tsRecord 3 5 tsEmptyStore) m = false := fun m hl h3 => by
    simp [slotValid, slotFramed, slotOffs, hb, hz, hm m hl h3]
  exact ⟨⟨by decide +kernel, fun m hl _ hn hs => by rw [hf m hl hn] at hs; cases hs⟩, fun m hl h => hf m hl (by omega)⟩

/-- Canonical holds at reset and at the small states, and the steps below go on. -/
theorem witness_StepKeepsCanonical : Canonical State.reset ∧ Canonical tsSi ∧ after (step State.reset) (fun _ => true) = true ∧
    after (step { tsSi with pending := [.stw siCore 2 3 4] }) (fun _ => true) = true := by
  unfold Canonical; decide +kernel

theorem witness_FusesOnlyBurn : after (step { tsBus with pending := [.ksuRevoke 8 2] }) (fun t => t.otp.keyRev == 2) = true := by decide +kernel
/-! ### One step each, by family: floating point, system, short vectors, the engine, devices -/

/-- R145, R199: 1.0 and 2.0 in format S make 3.0; R208: 1.0 divided by 0 raises DZ and gives infinity. -/
theorem test_fadd : after (exec (.fadd siCore 1 2 3 0 false) ((tsSi.setF siCore 2 0x3F800000).setF siCore 3 0x40000000)) (fun t => (t.f siCore 1).toNat % 2 ^ 32 == 0x40400000) = true := by
  decide +kernel
theorem test_fdiv_zero : after (exec (.fdiv siCore 1 2 3 0 false) ((tsSi.setF siCore 2 0x3F800000).setF siCore 3 0)) (fun t => (t.f siCore 1).toNat % 2 ^ 32 == 0x7F800000 &&
    t.srf siCore 0x010 4 0 != 0) = true := by decide +kernel
/-- R205: an unlisted system register number is ILLEGAL, code 1. -/
theorem test_srr_unknown : after (exec (.srr siCore 1 0xFFF) ((tsVec.setByte 0x30000009 0x20).setByte 0x3000000B 0x30)) (fun t => t.sr siCore (srRsn .m) % 64 == 1) = true := by decide +kernel
/-- R236: MRET to S leaves the level that MPLVL names, at MRPC. -/
theorem test_mret : after (exec (.mret 0) ((tsApp.setSr 0 0x101 0x1000).setSr 0 (srRpc .m) 0x2000)) (fun t => t.pc 0 == 0x2000 && t.lvl 0 == .s) = true := by decide +kernel
/-- R316, R317: a claim at the SIC takes the source, and its COMPLETE returns it. -/
theorem test_iclaim : after (exec (.iclaimn siCore 1) (tsInt.modCore siCore fun k => { k with hold := 10 })) (fun t => t.g siCore 1 == 5 && t.rf (SIC_SRC 5) 7 6 == 1) = true := by decide +kernel
/-- R216, R217: QADD of 32-bit lanes wraps in each lane. -/
theorem test_qadd : after (exec (.qadd 0 1 2 3 4 0) ((tsSvu.setQ 0 2 0x00000001FFFFFFFF).setQ 0 3 0x0000000100000001)) (fun t => qNat t 0 1 == 0x200000000) = true := by decide +kernel
/-- R66: VISSUE answers the context and the issue number. -/
theorem test_vissue : after (exec (.vissue 0 3 1 2) (tsIssue.setRf (VC_STAT 1) 15 0 9)) (fun t => t.g 0 3 == 0x10009 && (t.vc 1).queue.length == 1 && t.rf (VC_STAT 1) 15 0 == 10) = true := by
  decide +kernel
/-- R114: VCTX_ALLOC gives the lowest free context. -/
theorem test_vctx_alloc : after (exec (.vctxAlloc 0 1) ((tsApp.setRb VMS_PSTAT 30 true).setRb (VC_STAT 0) 31 true)) (fun t => t.g 0 1 == 1 && t.rb (VC_STAT 1) 31) = true := by
  decide +kernel
/-- R102, R159: a group that completes answers OK in VC_DONE. -/
theorem test_group_complete : after (exec (.groupComplete 1) ((tsRunAt fun r => { r with pos := 1 }).setReg (VC_DONE 1) 7)) (fun t => t.rf (VC_DONE 1) 19 16 == 0 && !(t.vc 1).busy) = true := by
  decide +kernel
/-- R302: a write that no target answers is logged; R304: one to a disabled master's path has no effect. -/
theorem test_reg_write : after (exec (.regWrite 1 0 ERG_XQOS 3) tsBus) (fun t => t.reg ERG_XQOS == 3) = true ∧
    after (exec (.regWrite 1 0 ERG_XQOS 3) State.reset) (fun t => t.reg ERG_XQOS == State.reset.reg ERG_XQOS) = true := by decide +kernel
/-- R314: an event makes its source PENDING, and one more while ACTIVE is lost. -/
theorem test_icu_event : after (exec (.icuEvent 633) tsBus) (fun t => t.rb (ICU_SRC 633) 7) = true ∧
    after (exec (.icuEvent 65) (tsBus.setRb (ICU_SRC 65) 6 true)) (fun t => t.rb (ICU_LOST 2) 1 && !t.rb (ICU_SRC 65) 7) = true := by decide +kernel
/-- R383, R391: a GATE entry sets the gates of the MAC that it names. -/
theorem test_sce_gate : after (exec .sceGate { tsSce 1 with sceBank0 := [(1, 0x120000A5)] }) (fun t => (t.macSt 2).gates == 0xA5 && (t.macSt 0).gates == 0xFF) = true := by decide +kernel
/-- R358: a packet with TTL 0 that is for another node is dropped and counted. -/
theorem test_forward_ttl : after (exec (.packetForward 1 (let p : Packet := ⟨0x60000, 0x30000000, 0, 0, [], 0⟩; { p with w3 := BitVec.ofNat 32 (packetHcrc p * 65536) })) (tsPort 1 6))
    (fun t => t.rf (IDL_P_DROP 1) 15 0 == 1 && t.linkTx.isEmpty) = true := by decide +kernel
/-- R410: a lockstep mismatch with its trigger enabled sets its CAUSE bit; disabled, it does not. -/
theorem test_lockstep : after (exec .lockstepMismatch (tsBus.setReg SI_TRIGEN 4)) (fun t => t.rb SI_SSC 23 && t.rb SI_SSC 2 && t.rb SI_STAT 31) = true ∧
    after (exec .lockstepMismatch (tsBus.setReg SI_TRIGEN 0)) (fun t => !t.rb SI_SSC 2 && t.rb SI_STAT 31) = true := by decide +kernel
/-- R424: a device whose cores wait dozes. -/
theorem test_doze : after (exec .dozeEntry tsBus) (fun t => t.pwr == 1 && t.rf PMU_STAT 2 0 == 1) = true := by decide +kernel
/-- R443: a revoked key stays revoked. -/
theorem test_revoke : after (exec (.ksuRevoke 8 2) { tsBus with otp := { Otp.blank with keyRev := 1 } }) (fun t => t.otp.keyRev == 3) = true := by decide +kernel
/-- R9: PRST_N releases into a start; M8 and M9 alone are enabled. -/
theorem test_prst : after (exec (.prstNRelease [(0, 7)]) tsApp) (fun t => t.boot.phase == .locks && t.nvmByte 0 == 7 && t.nvmByte 1 == 0xFF && !(t.core 0).released) = true := by decide +kernel
end Sys2Proof.Tests
end

/-! What HOLDI and a write of HCTL do to the hold window and to HCTL.HLIMIT (R232). -/
namespace Sys2Proof.HoldWindow
open Sys2Proof.Machine Sys2Proof.Stated

/-! ### A core's window and system registers after its updates -/

/-- A change of a core that leaves its system registers leaves what they read. -/
theorem sr_modCore_of_sr_eq {c : CoreId} {f : Core → Core} {s : State} (h : (f (s.core c)).sr = (s.core c).sr) (n : Nat) :
    (s.modCore c f).sr c n = s.sr c n := by
  unfold State.sr
  rw [core_modCore_self, h]

@[simp] theorem sr_setPc (s : State) (c : CoreId) (v : Word) (n : Nat) : (s.setPc c v).sr c n = s.sr c n :=
  sr_modCore_of_sr_eq rfl n

@[simp] theorem sr_unstall (s : State) (c : CoreId) (n : Nat) : (unstall c s).sr c n = s.sr c n :=
  sr_modCore_of_sr_eq rfl n

@[simp] theorem sr_refetch (s : State) (c : CoreId) (n : Nat) : (refetch c s).sr c n = s.sr c n :=
  sr_modCore_of_sr_eq rfl n

@[simp] theorem sr_loopCapture (s : State) (c : CoreId) (n : Nat) : (loopCapture c s).sr c n = s.sr c n := by
  refine sr_modCore_of_sr_eq ?_ n
  split
  · rfl
  · split <;> rfl

@[simp] theorem hold_setPc (s : State) (c : CoreId) (v : Word) : ((s.setPc c v).core c).hold = (s.core c).hold := by
  simp [State.setPc]

@[simp] theorem hold_unstall (s : State) (c : CoreId) : ((unstall c s).core c).hold = (s.core c).hold := by
  simp [unstall, Core.idle]

@[simp] theorem hold_refetch (s : State) (c : CoreId) : ((refetch c s).core c).hold = (s.core c).hold := by
  simp [refetch]

@[simp] theorem hold_setG (s : State) (c : CoreId) (r : GReg) (v : Word) : ((s.setG c r v).core c).hold = (s.core c).hold := by
  obtain ⟨g, gs, e⟩ := core_setG s c r v
  rw [e]

@[simp] theorem hold_loopCapture (s : State) (c : CoreId) : ((loopCapture c s).core c).hold = (s.core c).hold := by
  unfold loopCapture
  rw [core_modCore_self]
  split
  · rfl
  · split <;> rfl

/-! ### The end of an instruction that goes on with the next one -/

@[simp] theorem sr_loopBack (s : State) (c : CoreId) (n : Nat) : (loopBack c s).sr c n = s.sr c n := by
  unfold loopBack
  dsimp only
  split
  · simp
  · rw [sr_modCore_of_sr_eq rfl]
    simp

@[simp] theorem hold_loopBack (s : State) (c : CoreId) : ((loopBack c s).core c).hold = (s.core c).hold := by
  unfold loopBack
  dsimp only
  split <;> simp

/-- Going on with the next instruction writes no system register: at LEND the end of the loop is only noted (R213). -/
@[simp] theorem sr_done_next (s : State) (c : CoreId) (n : Nat) : (Done c .next s).sr c n = s.sr c n := by
  unfold Done retire
  dsimp only
  split <;> simp

/-- Going on with the next instruction neither opens nor shortens a window. -/
@[simp] theorem hold_done_next (s : State) (c : CoreId) : ((Done c .next s).core c).hold = (s.core c).hold := by
  unfold Done retire
  dsimp only
  split <;> simp

/-! ### HOLDI -/

/-- A HOLDI that issues carries its own effect through. -/
theorem exec_holdi_of_issues {c : CoreId} {k : BitVec 10} {s s1 : State} (h : Issues c (.holdi c k) .none s s1) :
    exec (.holdi c k) s = .next (conclude c (.holdi c k) (holdiBody c k.toNat s1)) :=
  congrArg Host.Outcome.next (run_go h)

theorem holdiBody_user {c : CoreId} {s : State} (k : Nat) (h : s.lvl c = .u) :
    holdiBody c k s = .exc (excPriv (encSys 0 0 k 9)) s := by
  simp [holdiBody, h]

theorem holdiBody_privileged {c : CoreId} {s : State} (k : Nat) (h : s.lvl c ≠ .u) :
    holdiBody c k s = .ok .next (openWindow c (Nat.min k (s.srf c 0x102 9 0)) (refetch c s)) := by
  simp [holdiBody, h]

/-- The window that is open after one of `w` is asked for while `old` remain: no longer than `w`, and no longer than before (R231). -/
theorem window_bounds (old w : Nat) :
    let new := if old = 0 then w else Nat.min old w
    new ≤ w ∧ (old ≠ 0 → new ≤ old) ∧ (old = 0 → new = w) := by
  by_cases h : old = 0
  · simp [h]
  · simp only [if_neg h]
    exact ⟨Nat.min_le_right old w, fun _ => Nat.min_le_left old w, fun h0 => absurd h0 h⟩

/-- The window after an instruction that opens one of `w`. -/
theorem hold_done_openWindow (s : State) (c : CoreId) (w : Nat) :
    ((Done c .next (openWindow c w s)).core c).hold = if (s.core c).hold = 0 then w else Nat.min (s.core c).hold w := by
  rw [hold_done_next, openWindow, core_modCore_self]

/-- HOLDI at S or M opens a window under the rule of an entry, and has the next instruction fetched anew. -/
theorem exec_holdi_privileged {c : CoreId} {k : BitVec 10} {s s1 : State} (hi : Issues c (.holdi c k) .none s s1) (hl : s1.lvl c ≠ .u) :
    exec (.holdi c k) s = .next (Done c .next (openWindow c (Nat.min k.toNat (s1.srf c 0x102 9 0)) (refetch c s1))) := by
  rw [exec_holdi_of_issues hi, holdiBody_privileged _ hl, conclude_next, Done]

/-- HOLDI at U raises PRIV. -/
theorem exec_holdi_user {c : CoreId} {k : BitVec 10} {s s1 : State} (hi : Issues c (.holdi c k) .none s s1) (hl : s1.lvl c = .u) :
    exec (.holdi c k) s = .next (Taken c (.holdi c k) (excPriv (encSys 0 0 k.toNat 9)) s1) := by
  rw [exec_holdi_of_issues hi, holdiBody_user _ hl, conclude_exc, Taken]

/-! ### SRW of HCTL -/

/-- No bit of HCTL is open to a write at S; M writes HLIMIT. -/
theorem srSpec_hctl : srSpec 0x102 = some ⟨0x102, .u, .s, 0, 0x3FF, 0⟩ := rfl

/-- The Safety Island has HCTL as the application cores have. -/
theorem siNoSr_hctl (c : CoreId) (w : Bool) : siNoSr c 0x102 w = false := by
  simp [siNoSr]

theorem srRefusal_hctl_user {c : CoreId} {s : State} (w : Word) (h : s.lvl c = .u) : srRefusal s c 0x102 true w = some (excPriv w) := by
  simp [srRefusal, srSpec_hctl, siNoSr_hctl, h, Level.atLeast, Level.code]

theorem srRefusal_hctl_supervisor {c : CoreId} {s : State} (w : Word) (h : s.lvl c = .s) : srRefusal s c 0x102 true w = none := by
  simp [srRefusal, srSpec_hctl, siNoSr_hctl, h, Level.atLeast]

/-- Where S may write no bit and no written 1 clears one, a write below M leaves what the register held. -/
theorem srWritten_belowM_of_readOnly {r : SrSpec} (hrw : r.rwS = 0) (hw1c : r.w1c = 0) (old v : Word) : srWritten r false old v = old := by
  have hall : ∀ x : Word, x &&& 0xFFFFFFFF#32 = x := fun _ => BitVec.and_allOnes
  simp [srWritten, hrw, hw1c, hall]

theorem srwBody_hctl_user {c : CoreId} {s : State} (a : GReg) (h : s.lvl c = .u) :
    srwBody c 0x102 a s = .exc (excPriv (encSys 0 a.val 0x102 1)) s := by
  simp [srwBody, srRefusal_hctl_user _ h]

/-- An SRW of HCTL at S goes on, and writes back what HCTL held. -/
theorem srwBody_hctl_supervisor {c : CoreId} {s : State} (a : GReg) (h : s.lvl c = .s) :
    srwBody c 0x102 a s = .ok .next (refetch c (s.setSr c 0x102 (s.sr c 0x102))) := by
  have hm : (s.lvl c == .m) = false := by rw [h]; rfl
  simp [srwBody, srRefusal_hctl_supervisor _ h, srSpec_hctl, srSerial, hm, srWritten_belowM_of_readOnly]

/-- An SRW of HCTL that issues carries its own effect through. -/
theorem exec_srw_hctl_of_issues {c : CoreId} {a : GReg} {s s1 : State} (h : Issues c (.srw c 0x102 a) .none s s1) :
    exec (.srw c 0x102 a) s = .next (conclude c (.srw c 0x102 a) (srwBody c 0x102 a s1)) :=
  congrArg Host.Outcome.next (run_go h)

/-- An SRW of HCTL at S leaves the whole register. -/
theorem exec_srw_hctl_supervisor {c : CoreId} {a : GReg} {s s1 : State} (hi : Issues c (.srw c 0x102 a) .none s s1) (hl : s1.lvl c = .s) :
    ∃ t, exec (.srw c 0x102 a) s = .next t ∧ t.sr c 0x102 = s1.sr c 0x102 := by
  refine ⟨Done c .next (refetch c (s1.setSr c 0x102 (s1.sr c 0x102))), ?_, ?_⟩
  · rw [exec_srw_hctl_of_issues hi, srwBody_hctl_supervisor _ hl, conclude_next, Done]
  · simp

/-- An SRW of HCTL at U raises PRIV. -/
theorem exec_srw_hctl_user {c : CoreId} {a : GReg} {s s1 : State} (hi : Issues c (.srw c 0x102 a) .none s s1) (hl : s1.lvl c = .u) :
    exec (.srw c 0x102 a) s = .next (Taken c (.srw c 0x102 a) (excPriv (encSys 0 a.val 0x102 1)) s1) := by
  rw [exec_srw_hctl_of_issues hi, srwBody_hctl_user _ hl, conclude_exc, Taken]

/-! ### The statement -/

/-- Settles O24: HOLDI opens its window by `openWindow`, whose bounds are `window_bounds`, and S has no bit of HCTL to write. -/
theorem holdInstruction : Obligations.HoldInstruction := by
  unfold Obligations.HoldInstruction
  refine ⟨fun c k s s1 hi => ⟨fun hl w hw => ?_, exec_holdi_user hi⟩, fun c a s s1 hi => ⟨fun hl => ?_, exec_srw_hctl_user hi⟩⟩
  · subst hw
    have he := exec_holdi_privileged hi hl
    refine ⟨he, fun t ht => ?_⟩
    obtain rfl := Host.Outcome.next.inj (he.symm.trans ht)
    rw [hold_done_openWindow, hold_refetch]
    exact window_bounds _ _
  · obtain ⟨t, ht, hsr⟩ := exec_srw_hctl_supervisor hi hl
    exact ⟨t, ht, congrArg (fld · 9 0) hsr⟩

end Sys2Proof.HoldWindow

/-! What a write of ICOMPLETE by an application core does to the source it names, or to ICU_CSTAT (R314, R317). -/
namespace Sys2Proof.IcuCompletion
open Sys2Proof.Machine Sys2Proof.Stated

/-! ### What waking the cores and drawing a free value leave -/

/-- Waking the cores that a source names writes no register: it only ends their WAIT (R320). -/
theorem regs_wakeFor (n : Nat) (s : State) : (wakeFor n s).regs = s.regs := by
  unfold wakeFor
  split
  · refine List.foldlRecOn (motive := fun t : State => t.regs = s.regs) _ _ rfl fun t ht c _ => ?_
    split <;> exact ht
  · rfl

@[simp] theorem reg_wakeFor (n : Nat) (s : State) (a : Nat) : (wakeFor n s).reg a = s.reg a :=
  congrArg (smGet regReset · a) (regs_wakeFor n s)

@[simp] theorem byte_wakeFor (n : Nat) (s : State) (a : Nat) : (wakeFor n s).byte a = s.byte a :=
  congrArg (smGet memDefault · a) (signalled_wakeFor n s).keeps.1

@[simp] theorem reg_draw (s : State) (a : Nat) : s.draw.2.reg a = s.reg a := rfl

@[simp] theorem byte_draw (s : State) (a : Nat) : s.draw.2.byte a = s.byte a := rfl

/-! ### A source at the end of its service -/

/-- Core `c` serves source `n`: the source exists and is ACTIVE with OWNER `c` (R316). -/
def Serves (s : State) (c n : Nat) : Prop :=
  1 ≤ n ∧ n ≤ 640 ∧ s.rb (ICU_SRC n) 6 = true ∧ s.rf (ICU_SRC n) 5 4 = c

/-- Source `n` ACTIVE no longer, and PENDING as `pend` says (R314). -/
def endService (n : Nat) (pend : Bool) (s : State) : State := s.setRf (ICU_SRC n) 7 6 (if pend then 2 else 0)

theorem rb_endService_active (n : Nat) (pend : Bool) (s : State) : (endService n pend s).rb (ICU_SRC n) 6 = false := by
  rw [endService, State.rb, reg_setRf_self, wbit_putFld, if_pos (by decide)]
  cases pend <;> rfl

theorem rb_endService_pending (n : Nat) (pend : Bool) (s : State) : (endService n pend s).rb (ICU_SRC n) 7 = pend := by
  rw [endService, State.rb, reg_setRf_self, wbit_putFld, if_pos (by decide)]
  cases pend <;> rfl

theorem rb_endService_other (n : Nat) (pend : Bool) (s : State) {k : Nat} (h6 : k ≠ 6) (h7 : k ≠ 7) :
    (endService n pend s).rb (ICU_SRC n) k = s.rb (ICU_SRC n) k :=
  rb_setRf_ne s _ _ _ (.inr (by omega))

theorem reg_endService_other (n : Nat) (pend : Bool) (s : State) {a : Nat} (h : a ≠ ICU_SRC n) : (endService n pend s).reg a = s.reg a :=
  reg_setRf_ne s _ _ _ h

/-! ### A COMPLETE at the ICU -/

/-- Without LVL, a COMPLETE by the core that serves the source makes it IDLE. -/
theorem icuComplete_idle {c n : Nat} {s : State} (h : Serves s c n) (hl : s.rb (ICU_SRC n) 29 = false) :
    icuComplete c n s = endService n false s := by
  simp only [icuComplete, endService, hl]
  exact if_pos h

/-- With LVL, the level input is sampled, and a source PENDING again wakes the cores it names. -/
theorem icuComplete_level {c n : Nat} {s : State} (h : Serves s c n) (hl : s.rb (ICU_SRC n) 29 = true) :
    icuComplete c n s = wakeFor n (endService n (Config.levelInput n s.draw.1) s.draw.2) := by
  simp only [icuComplete, endService, hl]
  exact if_pos h

/-- A COMPLETE of a source that the core does not serve sets BADCOMP. -/
theorem icuComplete_badcomp {c n : Nat} {s : State} (h : ¬ Serves s c n) : icuComplete c n s = s.setRb (ICU_CSTAT c) 0 true :=
  if_neg h

/-- In the registers a COMPLETE by the core that serves the source is the end of that service, PENDING by the level input under LVL alone. -/
theorem icuComplete_endsService {c n : Nat} {s : State} (h : Serves s c n) :
    ∃ pend, (s.rb (ICU_SRC n) 29 = false → pend = false) ∧ (s.rb (ICU_SRC n) 29 = true → ∃ j, pend = Config.levelInput n j) ∧
      ∀ a, (icuComplete c n s).reg a = (endService n pend s).reg a := by
  cases hl : s.rb (ICU_SRC n) 29 with
  | false => exact ⟨false, fun _ => rfl, nofun, fun a => by rw [icuComplete_idle h hl]⟩
  | true =>
    refine ⟨Config.levelInput n s.draw.1, nofun, fun _ => ⟨_, rfl⟩, fun a => ?_⟩
    rw [icuComplete_level h hl, reg_wakeFor]
    rfl

/-- A COMPLETE writes no memory. -/
theorem byte_icuComplete (c n : Nat) (s : State) (a : Nat) : (icuComplete c n s).byte a = s.byte a := by
  by_cases h : Serves s c n
  · cases hl : s.rb (ICU_SRC n) 29 with
    | false => rw [icuComplete_idle h hl]; rfl
    | true => rw [icuComplete_level h hl, byte_wakeFor]; rfl
  · rw [icuComplete_badcomp h]; rfl

/-! ### SRW of ICOMPLETE -/

/-- Both S and M may write ICOMPLETE, and it holds no bit (R318). -/
theorem srSpec_icomplete : srSpec 0x142 = some ⟨0x142, .s, .s, 0, 0, 0⟩ := rfl

theorem siNoSr_icomplete (c : CoreId) (w : Bool) : siNoSr c 0x142 w = false := by
  simp [siNoSr]

theorem atLeast_s_of_ne_u {l : Level} (h : l ≠ .u) : l.atLeast .s = true := by
  cases l with
  | u => exact absurd rfl h
  | s => rfl
  | m => rfl

theorem srRefusal_icomplete_privileged {c : CoreId} {s : State} (w : Word) (h : s.lvl c ≠ .u) : srRefusal s c 0x142 true w = none := by
  simp [srRefusal, srSpec_icomplete, siNoSr_icomplete, atLeast_s_of_ne_u h]

/-- A write of ICOMPLETE at S or M completes the source that Ga names. -/
theorem srwBody_icomplete_privileged {c : CoreId} {s : State} (a : GReg) (h : s.lvl c ≠ .u) :
    srwBody c 0x142 a s = .ok .next (complete c (fld (s.g c a) 9 0) s) := by
  simp [srwBody, srRefusal_icomplete_privileged _ h]

/-- An application core completes at the ICU. -/
theorem complete_app {c : CoreId} (h : c ≠ siCore) (n : Nat) (s : State) : complete c n s = icuComplete c.val n s := by
  simp [complete, isSI, h]

/-- A write of ICOMPLETE that issues at S or M on an application core is a COMPLETE at the ICU. -/
theorem exec_icomplete_app {c : CoreId} {a : GReg} {s s1 : State} (hc : c ≠ siCore) (hi : Issues c (.icomplete c a) .none s s1)
    (hl : s1.lvl c ≠ .u) : exec (.icomplete c a) s = .next (Done c .next (icuComplete c.val (fld (s1.g c a) 9 0) s1)) := by
  have hrun : exec (.icomplete c a) s = .next (conclude c (.icomplete c a) (srwBody c 0x142 a s1)) := congrArg Host.Outcome.next (run_go hi)
  rw [hrun, srwBody_icomplete_privileged a hl, complete_app hc, conclude_next, Done]

/-! ### The statement -/

/-- Settles O22: a COMPLETE by the core that serves the source is `endService` in the registers, any other sets BADCOMP. -/
theorem completionEndsService : Obligations.CompletionEndsService := by
  unfold Obligations.CompletionEndsService
  rintro c a n s s1 hc hi hl rfl
  refine ⟨_, exec_icomplete_app hc hi hl, byte_icuComplete _ _ s1, fun hs => ?_, fun hs => ?_⟩
  · obtain ⟨pend, hidle, hlevel, hreg⟩ := icuComplete_endsService hs
    have hrb : ∀ a k, (icuComplete c.val _ s1).rb a k = (endService _ pend s1).rb a k := fun a k => congrArg (wbit · k) (hreg a)
    simp only [hrb, hreg, rb_endService_active, rb_endService_pending]
    exact ⟨trivial, hidle, hlevel, fun k => rb_endService_other _ pend s1, fun x => reg_endService_other _ pend s1⟩
  · rw [icuComplete_badcomp hs]
    exact ⟨rb_setRb_self s1 _ true (by decide), fun k hk => rb_setRb_ne s1 _ true _ (.inr hk), fun x => reg_setRb_ne s1 0 true⟩

end Sys2Proof.IcuCompletion

/-! How an event-router edge reaches the Safety Island (R335, R420): what every consumer of an event spares, and what the consumers 56 to 63 raise. -/
namespace Sys2Proof.SafetyEvents
open Sys2Proof.Machine Sys2Proof.Stated

/-! ### What the consumers of an event spare -/

/-- The registers by which an event reaches the Safety Island: the consumers' selections, the channels' MERGE bits, the latch and its enables, and the
SIC sources 48 to 55 of consumers 56 to 63 (R418, R420). -/
def Watched (a : Nat) : Prop :=
  0x20800000 ≤ a ∧ a < 0x20800400 ∨ 0x20800820 ≤ a ∧ a < 0x20800840 ∨ a = SI_SSC ∨ a = SI_TRIGEN ∨ SIC_SRC 48 ≤ a ∧ a < SIC_SRC 56

/-- A consumer whose event goes to the Safety Island (R420). -/
abbrev SafetyConsumer (c : Nat) : Prop := 56 ≤ c ∧ c < 64

/-- Consumer `c` has lost an event (R336). -/
abbrev overran (s : State) (c : Nat) : Bool := s.rb (EVR_OVR (c / 32)) (c % 32)

/-- `t` is `s` but for what no event of the Safety Island turns on. -/
structure Spares (s t : State) : Prop where
  pwr : t.pwr = s.pwr
  release : t.si.relPend = s.si.relPend
  reg : ∀ a, Watched a → t.reg a = s.reg a
  overrun : ∀ c, SafetyConsumer c → overran t c = overran s c

/-- An address that is neither watched nor an overrun word of the router. -/
abbrev Foreign (a : Nat) : Prop := a < 0x20800000 ∨ 0x20800880 ≤ a ∧ a < SI_SSC ∨ SI_TRIGEN < a ∧ a < SIC_SRC 48

theorem Spares.of_regs {s t : State} (hp : t.pwr = s.pwr) (hs : t.si.relPend = s.si.relPend) (hr : t.regs = s.regs) : Spares s t := by
  have hreg : ∀ a, t.reg a = s.reg a := fun a => congrArg (smGet regReset · a) hr
  exact ⟨hp, hs, fun a _ => hreg a, fun c _ => congrArg (wbit · _) (hreg _)⟩

theorem Spares.refl (s : State) : Spares s s := .of_regs rfl rfl rfl

theorem Spares.trans {s t u : State} (h : Spares s t) (k : Spares t u) : Spares s u :=
  ⟨k.pwr.trans h.pwr, k.release.trans h.release, fun a w => (k.reg a w).trans (h.reg a w), fun c w => (k.overrun c w).trans (h.overrun c w)⟩

theorem Spares.latch {s t : State} (h : Spares s t) : t.reg SI_SSC = s.reg SI_SSC := h.reg SI_SSC (.inr (.inr (.inl rfl)))

theorem Spares.ite {p : Prop} [Decidable p] {s t u : State} (ht : p → Spares s t) (hu : ¬ p → Spares s u) : Spares s (if p then t else u) := by
  split
  · exact ht ‹_›
  · exact hu ‹_›

theorem Spares.foldl {α : Type} {f : State → α → State} {l : List α} (s : State) (h : ∀ t, ∀ a ∈ l, Spares t (f t a)) : Spares s (l.foldl f s) :=
  List.foldlRecOn l f (.refl s) fun t ht a ha => ht.trans (h t a ha)

theorem spares_setReg {s : State} {a : Nat} (v : Word) (h : Foreign a) : Spares s (s.setReg a v) := by
  unfold Foreign SI_SSC SI_TRIGEN SIC_SRC at h
  refine ⟨rfl, rfl, fun k w => reg_setReg_ne s v ?_, fun c w => rb_setReg_ne s v _ ?_⟩
  · unfold Watched SI_SSC SI_TRIGEN SIC_SRC at w
    omega
  · obtain ⟨hl, hu⟩ := w
    unfold EVR_OVR
    omega

theorem spares_setRb {s : State} {a : Nat} (b : Nat) (v : Bool) (h : Foreign a) : Spares s (s.setRb a b v) := spares_setReg _ h

theorem spares_seen {s : State} {n : Nat} (h : n < 192) : Spares s (setBitOf EVR_SEEN n s) := by
  refine ⟨rfl, rfl, fun k w => reg_setRb_ne s _ _ ?_, fun c w => rb_setRb_ne s _ _ _ (.inl ?_)⟩
  · unfold Watched SI_SSC SI_TRIGEN SIC_SRC at w
    unfold EVR_SEEN
    omega
  · obtain ⟨hl, hu⟩ := w
    unfold EVR_OVR EVR_SEEN
    omega

/-- The overrun of a consumer that is not one of the Safety Island. -/
theorem spares_overrun {s : State} {c : Nat} (hc : c < 256) (h : ¬ SafetyConsumer c) : Spares s (setBitOf EVR_OVR c s) := by
  refine ⟨rfl, rfl, fun k w => reg_setRb_ne s _ _ ?_, fun d w => rb_setRb_ne s _ _ _ ?_⟩
  · unfold Watched SI_SSC SI_TRIGEN SIC_SRC at w
    unfold EVR_OVR
    omega
  · unfold EVR_OVR
    omega

/-! ### Signals -/

/-- A source of the SIC that no consumer of the router has. -/
theorem spares_sicEvent {n : Nat} (s : State) (h : n < 48) : Spares s (sicEvent n s) :=
  .ite (fun _ => .refl s) fun hn => .ite (fun _ => .refl s) fun _ => spares_setRb _ _ (by unfold Foreign SIC_SRC SI_SSC SI_TRIGEN; omega)

theorem spares_mirrorEvent (n : Nat) (s : State) : Spares s (mirrorEvent n s) :=
  .foldl s fun t _ hk => .ite (fun _ => spares_sicEvent t (by have := List.mem_range.mp hk; omega)) fun _ => .refl t

theorem spares_wakeFor (n : Nat) (s : State) : Spares s (wakeFor n s) :=
  .ite (fun _ => .foldl s fun t _ _ => .ite (fun _ => .of_regs rfl rfl rfl) fun _ => .refl t) fun _ => .refl s

theorem spares_icuAccept (n : Nat) (s : State) : Spares s (icuAccept n s) :=
  .ite (fun _ => .refl s) fun hn => .ite (fun _ => spares_setRb _ _ (by unfold Foreign ICU_LOST; omega)) fun _ =>
    (spares_setRb 7 true (by unfold Foreign ICU_SRC; omega)).trans (spares_wakeFor n _)

/-- An event at the ICU: its mirror has sources 32 to 47 of the SIC (R419). -/
theorem spares_icuEvent (n : Nat) (s : State) : Spares s (icuEvent n s) :=
  .ite (fun _ => .refl s) fun _ => .ite (fun _ => .of_regs rfl rfl rfl) fun _ => .ite (fun _ => .refl s) fun _ =>
    (spares_mirrorEvent n s).trans (spares_icuAccept n _)

theorem spares_draw (s : State) : Spares s s.draw.2 := .of_regs rfl rfl rfl

theorem spares_pulse (p : Nat) (s : State) : Spares s (pulse p s) := .of_regs rfl rfl rfl

theorem spares_bypRelease (k : Nat) (s : State) : Spares s (bypRelease k s) :=
  .ite (fun _ => (spares_setReg _ (by unfold Foreign TNC_BYP; decide)).trans (spares_icuEvent 404 _)) fun _ => .refl s

/-! ### Consumers 8 to 55: the reload timers -/

/-- The registers of reload timer `n` lie in the frames 0x2091 to 0x2096. -/
theorem foreign_timer {n o : Nat} (h : n < 48) (ho : o < 64) : Foreign (0x20910000 + o + 0x10000 * (n / 8) + 64 * (n % 8)) := by
  unfold Foreign SI_SSC
  omega

theorem foreign_tmCnt {n : Nat} (h : n < 48) : Foreign (tmReg TM_CNT n) := foreign_timer (o := 16) h (by decide)

/-- Channels 48 to 51 are the compare channels of the Moth domain. -/
theorem foreign_mcCtl {ch : Nat} (h : ¬ ch < 48) (h2 : ch < 52) : Foreign (cmpReg MC_CTL SC_CTL (ch - 48)) := by
  rw [cmpReg, if_pos (by omega)]
  unfold Foreign MC_CTL SI_SSC
  omega

/-- Channel `ch` started or stopped. -/
theorem spares_runBit {ch : Nat} (v : Bool) (s : State) (h : ch < 52) : Spares s (if ch < 48 then s.setRb (tmReg TM_CTL ch) 31 v
    else if ch < 56 then s.setRb (cmpReg MC_CTL SC_CTL (ch - 48)) 31 v else s) :=
  .ite (fun h1 => spares_setRb _ _ (foreign_timer (o := 0) h1 (by decide))) fun h1 => .ite (fun _ => spares_setRb _ _ (foreign_mcCtl h1 h)) fun _ => .refl s

theorem spares_chanStart {ch : Nat} (s : State) (h : ch < 52) : Spares s (chanStart ch s) := spares_runBit true s h

theorem spares_chanStop {ch : Nat} (s : State) (h : ch < 52) : Spares s (chanStop ch s) := spares_runBit false s h

theorem spares_setTmAcc (n v : Nat) (s : State) : Spares s (setTmAcc n v s) := .of_regs rfl rfl rfl

theorem spares_chanReset (ch : Nat) (s : State) : Spares s (chanReset ch s) :=
  .ite (fun h => (spares_setReg 0 (foreign_tmCnt h)).trans (spares_setTmAcc ch 0 _)) fun _ => .refl s

theorem spares_actSelf {ch : Nat} (self : Nat) (s : State) (h : ch < 52) : Spares s (actSelf ch self s) := by
  unfold actSelf
  split
  · exact spares_chanStart s h
  · exact spares_chanStop s h
  · exact spares_chanReset ch s
  · exact (spares_chanReset ch s).trans (spares_chanStop _ h)
  · exact (spares_chanReset ch s).trans (spares_chanStart _ h)
  · exact .refl s

theorem spares_linkDo {link : Nat} (lnk : Nat) (s : State) (h : link < 52) : Spares s (linkDo link lnk s) := by
  unfold linkDo
  split
  · exact spares_chanStart s h
  · exact spares_chanReset link s
  · exact (spares_chanReset link s).trans (spares_chanStart _ h)
  · exact .refl s

/-- A link action from below channel 52 reaches no compare channel of the Safety Island (R341). -/
theorem spares_actLink {ch : Nat} (link lnk : Nat) (s : State) (h : ch < 52) : Spares s (actLink ch link lnk s) := by
  unfold actLink
  refine .ite (fun _ => .refl s) fun hl => ?_
  have hlink : link < 52 := by simp at hl; omega
  split
  · exact spares_linkDo lnk s hlink
  · exact .ite (fun _ => spares_linkDo lnk s hlink) fun _ => .of_regs rfl rfl rfl

theorem spares_act {ch : Nat} (byte stat : Nat) (s : State) (h : ch < 48) : Spares s (act ch byte stat s) := by
  have h52 : ch < 52 := by omega
  have hacts := (spares_actSelf (nfld byte 2 0) s h52).trans (spares_actLink (chanLink s ch) (nfld byte 5 4) _ h52)
  have hpulse := hacts.trans (.ite (p := byte.testBit 6 = true) (fun _ => spares_pulse ch _) fun _ => .refl _)
  refine .ite (fun _ => ?_) fun _ => hpulse
  rw [if_pos h]
  exact (hpulse.trans (spares_setRb stat true (foreign_timer (o := 24) h (by decide)))).trans (spares_icuEvent _ _)

theorem spares_timerTick1 {n : Nat} (s : State) (h : n < 48) : Spares s (timerTick1 n s).2 := by
  have hcount : Spares s (if s.reg (tmReg TM_CNT n) == s.reg (tmReg TM_RELOAD n) then act n (s.rf (tmReg TM_ACT n) 15 8) 1 (s.setReg (tmReg TM_CNT n) 0)
      else s.setReg (tmReg TM_CNT n) (s.reg (tmReg TM_CNT n) + 1)) :=
    .ite (fun _ => (spares_setReg _ (foreign_tmCnt h)).trans (spares_act _ _ _ h)) fun _ => spares_setReg _ (foreign_tmCnt h)
  exact hcount.trans (.ite (fun _ => spares_act _ _ _ h) fun _ => .refl _)

theorem spares_timerTick {n : Nat} (s : State) (h : n < 48) : Spares s (timerTick n s) := by
  refine .ite (fun hw => ?_) fun _ => spares_timerTick1 s h
  have hodd : n + 1 < 48 := by simp at hw; omega
  exact (spares_timerTick1 s h).trans (spares_timerTick1 _ hodd)

theorem spares_timerEvent {n : Nat} (s : State) (h : n < 48) : Spares s (timerEvent n s) := by
  have hcycle : Spares s (timerCycle n s) := .ite (fun _ => (spares_setTmAcc n _ s).trans (spares_timerTick _ h)) fun _ => spares_setTmAcc n _ s
  exact Spares.trans (.ite (fun _ => hcycle) fun _ => .refl s) (spares_act _ _ _ h)

/-! ### Consumer 76: the vehicle bus, whose buffers are read through M7 -/

theorem spares_countThresh {a : Nat} (src : Nat) (s : State) (h : Foreign a) : Spares s (countThresh a src s) :=
  .ite (fun _ => (spares_setReg _ h).trans (spares_icuEvent _ _)) fun _ => spares_setReg _ h

theorem spares_miuReport (src wa b : Nat) (s : State) : Spares s (miuReport src wa b s) := by
  refine Spares.trans (.ite (fun _ => spares_setRb _ _ (by decide)) fun _ => ?_) (spares_icuEvent 128 _)
  exact (((spares_setRb _ _ (by decide)).trans (spares_setReg _ (by decide))).trans (spares_setReg _ (by decide))).trans (spares_setReg _ (by decide))

theorem ergGroup_lt (s : State) (pa : Nat) : ergGroup s pa < 8 := by
  have hfield : ∀ hi lo, hi + 1 - lo = 7 → nfld pa hi lo < 2 ^ 7 := fun hi lo h => h ▸ Nat.mod_lt _ (Nat.two_pow_pos _)
  have hbank : ergBank s pa < 2 ^ 7 := by
    unfold ergBank
    split
    · exact Nat.xor_lt_two_pow (hfield 9 3 rfl) (hfield 16 10 rfl)
    · exact hfield 9 3 rfl
  unfold ergGroup
  omega

theorem foreign_gcecnt (s : State) (pa : Nat) : Foreign (MIU_GCECNT (ergGroup s pa)) := by
  have := ergGroup_lt s pa
  unfold Foreign MIU_GCECNT
  omega

/-- A corrected word may wait to be written back (R283). -/
theorem spares_writeBack {p : Prop} [Decidable p] (s : State) (w : List (Nat × Nat)) : Spares s (if p then s else { s with ceWb := w }) :=
  .ite (fun _ => .refl s) fun _ => .of_regs rfl rfl rfl

theorem spares_ergWordRead (src wa : Nat) (need : Nat → Bool) (s : State) : Spares s (ergWordRead src wa need s).2 := by
  have hcount : ∀ cor : List (Nat × EccOut),
      Spares s (cor.foldl (fun t _ => (countThresh MIU_CECNT 129 t).countUp (MIU_GCECNT (ergGroup s wa)) 15 0 1) s) := fun cor =>
    .foldl s fun t _ _ => (spares_countThresh 129 t (by decide)).trans (spares_setReg _ (foreign_gcecnt s wa))
  unfold ergWordRead
  generalize (List.range 8).map (fun k => (k, eccDecode (s.wrong (wa + k)))) = outs
  exact ((hcount _).trans (spares_writeBack _ _)).trans (.ite (fun _ => .refl _) fun _ => spares_miuReport _ _ _ _)

theorem spares_ergRead (src pa len : Nat) (s : State) : Spares s (ergRead src pa len s).2 :=
  List.foldlRecOn (motive := fun r : Bool × State => Spares s r.2) _ _ (.refl s) fun r hr wa _ =>
    hr.trans (spares_ergWordRead src wa (fun a => decide (pa ≤ a) && decide (a < pa + len)) r.2)

/-- An address below 64 MiB lies in the Erg or in nothing (R12). -/
theorem spares_localRead {pa : Nat} (len : Nat) (s : State) (h : pa < 0x4000000) : Spares s (localRead pa len s).2 := by
  have hdram : isDram s pa = false := by
    have : ¬ 0x100000000 ≤ pa := by omega
    simp [isDram, inDramRange, this]
  unfold localRead
  rw [hdram]
  split
  · exact .refl s
  · split
    · split
      · exact .refl s
      · split
        · exact .refl s
        · have hr := spares_ergRead 1 pa len s
          generalize ergRead 1 pa len s = r at hr ⊢
          obtain ⟨_ | _, _⟩ := r <;> exact hr
    · exact .refl s

theorem spares_xbmLog (m id tgt : Nat) (wr tmo : Bool) (resp : Resp) (pa : Nat) (s : State) : Spares s (xbmLog m id tgt wr tmo resp pa s) :=
  .ite (fun _ => spares_setRb _ _ (by decide)) fun _ =>
    (((spares_setReg _ (by decide)).trans (spares_setReg _ (by decide))).trans (spares_setReg _ (by decide))).trans (spares_icuEvent 8 _)

theorem spares_xbmLogged {s : State} (m id : Nat) (wr : Bool) (pa : Nat) (r : BusRes × State) (h : Spares s r.2) :
    Spares s (xbmLogged m id wr pa r).2 := by
  unfold xbmLogged
  split
  · split
    · exact h.trans (spares_xbmLog ..)
    · exact h
  · exact h

/-- M7 reaches the Erg and DRAM alone (R24). -/
theorem spares_targetRead_m7 {pa : Nat} (c : Nat) (own : ReqOwner) (len : Nat) (s : State) (h : pa < 0x4000000) :
    Spares s (targetRead 7 c own pa len s).2 := by
  unfold targetRead
  split
  · exact .refl s
  · rename_i hr
    have ht : targetOf s pa = 0 ∨ targetOf s pa = 1 := by simpa [reaches, Decidable.or_iff_not_imp_left] using hr
    obtain ht | ht := ht <;> rw [ht] <;> exact spares_localRead len s h

/-- What a port's gate adds to an access: the list of what waits, and the record of a timeout. -/
theorem spares_busGate_read {s : State} {x : Xact} {go : State → BusRes × State} (hx : x.kind = 0) (hgo : ∀ t, Spares t (go t).2) :
    Spares s (busGate x go s).2 := by
  have hheld : ∀ (t : State) l, Spares t { t with held := l } := fun _ _ => .of_regs rfl rfl rfl
  unfold busGate tmoGone
  dsimp only
  rw [if_pos hx]
  split
  · exact (hheld s _).trans (spares_xbmLog ..)
  · split
    · have hg := (hheld s _).trans (hgo { s with held := s.held.filter fun g => !(heldOf x).same g })
      split
      · rename_i heq
        rw [heq] at hg
        exact .ite (fun _ => hg) fun _ => hg.trans (hheld _ _)
      · exact hg
    · exact .refl s

theorem spares_busRead_m7 {pa : Nat} (c : Nat) (own : ReqOwner) (id len : Nat) (s : State) (h : pa < 0x4000000) :
    Spares s (busRead 7 c own id pa len s).2 :=
  spares_busGate_read rfl fun t => spares_xbmLogged _ _ _ _ _ (spares_targetRead_m7 c own len t h)

theorem mvbBuf_lt (s : State) (a : Nat) : mvbBuf s a < 0x4000000 := by
  have := fld_lt (s.reg (MVB_PORT a 1)) 25 5
  unfold mvbBuf State.rf
  omega

theorem spares_mvbAnswer (w : Nat) (s : State) : Spares s (mvbAnswer w s) := by
  have hread := spares_busRead_m7 0 .nobody plainId (mvbBytes (w / 4096)) s (mvbBuf_lt s (w % 4096))
  have hmark : ∀ (t : State) x y z, Spares t { t with mvbSent := x, mvbWait := y, mvbRead := z } := fun _ _ _ _ => .of_regs rfl rfl rfl
  unfold mvbAnswer
  split <;> rename_i heq <;> rw [heq] at hread <;> exact hread.trans (hmark _ _ _ _)

theorem spares_mvbMaster (w : Nat) (s : State) : Spares s (mvbMaster w s) :=
  .ite (fun _ => .ite (fun _ => spares_mvbAnswer _ s) fun _ => .of_regs rfl rfl rfl) fun _ => .refl s

/-! ### The other consumers -/

theorem spares_macRelease (n q : Nat) (s : State) : Spares s (macRelease n q s) :=
  .ite (fun _ => .of_regs rfl rfl rfl) fun _ => .refl s

theorem spares_canRequest {c : Nat} (b : Nat) (s : State) (h : c < 4) : Spares s (canRequest c b s) :=
  .ite (fun _ => .of_regs rfl rfl rfl) fun _ =>
    (spares_draw s).trans (spares_setReg _ (by unfold Foreign CAN_TXMISS SI_SSC; omega))

theorem spares_wakeInput (k : Nat) (s : State) : Spares s (wakeInput k s) :=
  .ite (fun _ => .ite (fun _ => .of_regs rfl rfl rfl) fun _ => .of_regs rfl rfl rfl) fun _ => .refl s

theorem spares_evoutEvent {n : Nat} (s : State) (h : n < 16) : Spares s (evoutEvent n s) :=
  .ite (fun _ => .of_regs rfl rfl rfl) fun _ => .ite (fun _ => spares_overrun (by omega) (by omega)) fun _ => .of_regs rfl rfl rfl

/-- The registers of capture input `n` lie in the frame 0x2098. -/
theorem foreign_capture {n o : Nat} (h : n < 16) (ho : o < 32) : Foreign (0x20980000 + o + 32 * n) := by
  unfold Foreign SI_SSC
  omega

theorem spares_capStamp {n : Nat} (rising : Bool) (s : State) (h : n < 16) : Spares s (capStamp n rising s) := by
  have hset : ∀ (t : State) (o : Nat) (v : Word), o < 32 → Spares t (t.setReg (0x20980000 + o + 32 * n) v) := fun t o v ho =>
    spares_setReg v (foreign_capture h ho)
  have hset4 : ∀ (t : State) (v w : Word) (x : Nat), Spares t (((t.setReg (CAP_STAT n) v).setReg (CAP_FRAC n) w).setReg64 (CAP_NS_LO n) (CAP_NS_HI n) x) :=
    fun t v w x => ((hset t 4 v (by decide)).trans (hset _ 8 w (by decide))).trans ((hset _ 12 _ (by decide)).trans (hset _ 16 _ (by decide)))
  have hdead : ∀ (t : State) x, Spares t { t with capDead := x } := fun _ _ => .of_regs rfl rfl rfl
  exact (((spares_draw s).trans (hset4 _ _ _ _)).trans (.ite (fun _ => spares_icuEvent _ _) fun _ => .refl _)).trans (hdead _ _)

theorem spares_capEdge {n : Nat} (rising : Bool) (s : State) (h : n < 16) : Spares s (capEdge n rising s) := by
  refine Spares.trans (spares_pulse (64 + n) s) (.ite (fun _ => .ite (fun _ => spares_setRb _ _ ?_) fun _ => spares_capStamp rising _ h) fun _ => .refl _)
  exact foreign_capture (o := 4) h (by decide)

theorem spares_captureEvent {n : Nat} (s : State) (h : n < 16) : Spares s (captureEvent n s) := by
  have hedge : ∀ (b : Bool) (t : State), Spares t (if capDetects t n b then capEdge n b t else t) := fun b t =>
    .ite (fun _ => spares_capEdge b t h) fun _ => .refl t
  exact .ite (fun _ => .ite (fun _ => spares_overrun (by omega) (by omega)) fun _ => (hedge true s).trans (hedge false _)) fun _ => .refl s

theorem spares_vseTrigger (x : CtxId) (s : State) : Spares s (vseTrigger x s).2 := by
  unfold vseTrigger
  split
  · exact .of_regs rfl rfl rfl
  · exact .refl s

/-- A consumer that is not one of the Safety Island spares what its events turn on. -/
theorem spares_consumerActs {c : Nat} (s : State) (hc : c < 256) (h : ¬ SafetyConsumer c) : Spares s (consumerActs c s) := by
  have hover : ∀ t, Spares t (setBitOf EVR_OVR c t) := fun t => spares_overrun hc h
  unfold consumerActs
  refine .ite (fun _ => ?_) fun _ => ?_
  · exact (spares_vseTrigger (ctxNo c) s).trans (.ite (fun _ => .refl _) fun _ => hover _)
  refine .ite (fun _ => spares_timerEvent s (by omega)) fun _ => ?_
  rw [if_neg (by omega)]
  refine .ite (fun _ => spares_macRelease _ _ s) fun _ => .ite (fun _ => spares_canRequest _ s (by omega)) fun _ =>
    .ite (fun _ => .of_regs rfl rfl rfl) fun _ => .ite (fun hm => .ite (fun _ => hm ▸ hover s) fun _ => spares_mvbMaster _ s) fun _ =>
    .ite (fun _ => spares_icuEvent _ s) fun _ => .ite (fun _ => spares_wakeInput _ s) fun _ =>
    .ite (fun _ => spares_evoutEvent s (by omega)) fun _ => .ite (fun _ => spares_captureEvent s (by omega)) fun _ => .refl s

/-! ### What every edge at a channel keeps -/

/-- The registers that say which consumer a channel has, and which consumers trigger the safe state. -/
def Selects (a : Nat) : Prop := 0x20800000 ≤ a ∧ a < 0x20800400 ∨ a = SI_TRIGEN

/-- The registers whose bits edges set and never clear: MERGE, and the states of the SIC sources 48 to 55. -/
def Marked (a : Nat) : Prop := 0x20800820 ≤ a ∧ a < 0x20800840 ∨ SIC_SRC 48 ≤ a ∧ a < SIC_SRC 56

/-- What holds of a state and of any one after it that edges at channels have made: the selections stay, no event of the Safety Island's consumers is lost,
and what has been marked stays so; of the latch this holds once no release waits to be performed (R412). -/
structure Routes (s t : State) : Prop where
  pwr : t.pwr = s.pwr
  kept : ∀ a, Selects a → t.reg a = s.reg a
  overrun : ∀ c, SafetyConsumer c → overran t c = overran s c
  marks : ∀ a b, Marked a → s.rb a b = true → t.rb a b = true
  latch : s.si.relPend = false → t.si.relPend = false ∧ ∀ b, s.rb SI_SSC b = true → t.rb SI_SSC b = true

/-- Which consumers trigger the safe state stays as it was. -/
theorem Routes.trigger {s t : State} (h : Routes s t) (b : Nat) : t.rb SI_TRIGEN b = s.rb SI_TRIGEN b :=
  congrArg (wbit · b) (h.kept SI_TRIGEN (.inr rfl))

theorem Routes.trans {s t u : State} (h : Routes s t) (k : Routes t u) : Routes s u := by
  refine ⟨k.pwr.trans h.pwr, fun a w => (k.kept a w).trans (h.kept a w), fun c w => (k.overrun c w).trans (h.overrun c w),
    fun a b w m => k.marks a b w (h.marks a b w m), fun hs => ?_⟩
  obtain ⟨ht, hbits⟩ := h.latch hs
  obtain ⟨hu, hbits'⟩ := k.latch ht
  exact ⟨hu, fun b m => hbits' b (hbits b m)⟩

theorem Spares.routes {s t : State} (h : Spares s t) : Routes s t := by
  have hbit : ∀ a b, Watched a → s.rb a b = true → t.rb a b = true := fun a b w m => (congrArg (wbit · b) (h.reg a w)).trans m
  refine ⟨h.pwr, fun a w => h.reg a ?_, h.overrun, fun a b w => hbit a b ?_, fun hs => ⟨h.release.trans hs, fun b => hbit SI_SSC b ?_⟩⟩
  · exact w.elim .inl fun e => .inr (.inr (.inr (.inl e)))
  · exact w.elim (fun e => .inr (.inl e)) fun e => .inr (.inr (.inr (.inr e)))
  · exact .inr (.inr (.inl rfl))

theorem Routes.refl (s : State) : Routes s s := (Spares.refl s).routes

theorem wbit_putBit_true {w : Word} {p : Nat} (b : Nat) (h : wbit w p = true) : wbit (putBit w b true) p = true := by
  by_cases hp : p = b
  · have hlt : p < 32 := BitVec.lt_of_getLsbD h
    rw [← hp, wbit_putBit_self _ _ hlt]
  · rw [wbit_putBit_ne _ _ hp, h]

/-- Setting a bit clears none. -/
theorem rb_setRb_true {s : State} {k p : Nat} (a b : Nat) (h : s.rb k p = true) : (s.setRb a b true).rb k p = true := by
  by_cases hk : k = a
  · subst hk
    rw [State.rb, reg_setRb_self]
    exact wbit_putBit_true b h
  · rw [rb_setRb_ne s a true k (.inl hk), h]

theorem routes_mark {s : State} {a : Nat} (b : Nat) (h : Marked a) : Routes s (s.setRb a b true) := by
  unfold Marked SIC_SRC at h
  refine ⟨rfl, fun k w => reg_setRb_ne s b true ?_, fun c w => rb_setRb_ne s a true _ (.inl ?_), fun k p _ => rb_setRb_true a b,
    fun hs => ⟨hs, fun p => rb_setRb_true a b⟩⟩
  · unfold Selects SI_TRIGEN at w
    omega
  · obtain ⟨hl, hu⟩ := w
    unfold EVR_OVR
    omega

/-- A change of the latch: with no release waiting, it clears nothing. -/
theorem routes_latch {s t : State} (v : Word) (hp : t.pwr = s.pwr) (hr : t.regs = (s.setReg SI_SSC v).regs)
    (hl : s.si.relPend = false → t.si.relPend = false ∧ ∀ b, s.rb SI_SSC b = true → wbit v b = true) : Routes s t := by
  have hreg : ∀ a, t.reg a = (s.setReg SI_SSC v).reg a := fun a => congrArg (smGet regReset · a) hr
  have hne : ∀ a, a ≠ SI_SSC → t.reg a = s.reg a := fun a h => (hreg a).trans (reg_setReg_ne s v h)
  have hself : t.reg SI_SSC = v := (hreg _).trans (reg_setReg_self ..)
  refine ⟨hp, fun a w => hne a ?_, fun c w => congrArg (wbit · _) (hne _ ?_), fun a b w => (congrArg (wbit · b) (hne a ?_)).trans, fun hs => ?_⟩
  · unfold Selects SI_TRIGEN at w
    unfold SI_SSC
    omega
  · obtain ⟨hl, hu⟩ := w
    unfold EVR_OVR SI_SSC
    omega
  · unfold Marked SIC_SRC at w
    unfold SI_SSC
    omega
  · obtain ⟨ht, hbits⟩ := hl hs
    exact ⟨ht, fun b m => (congrArg (wbit · b) hself).trans (hbits b m)⟩

/-! ### A trigger of the safe-state latch -/

/-- A release that waited is performed: it clears the latch, and waits no longer. -/
theorem latchClear_routes {s : State} (h : s.si.relPend = true) : Routes s (latchClear s) ∧ (latchClear s).si.relPend = false := by
  have hclear : Routes s ({ s with si := { s.si with relPend := false } }.setReg SI_SSC (putFld (putBit (s.reg SI_SSC) 23 false) 15 0 0)) :=
    routes_latch _ rfl rfl fun hs => absurd (h.symm.trans hs) (by decide)
  have hreport : Spares ({ s with si := { s.si with relPend := false } }.setReg SI_SSC (putFld (putBit (s.reg SI_SSC) 23 false) 15 0 0)) (latchClear s) :=
    .ite (fun _ => spares_icuEvent 633 _) fun _ => .refl _
  exact ⟨hclear.trans hreport.routes, hreport.release⟩

/-- A trigger leaves no release waiting (R412). -/
theorem releaseMeets_routes (s : State) : Routes s (releaseMeets s) ∧ (releaseMeets s).si.relPend = false := by
  cases h : s.si.relPend with
  | false =>
    have hnone : releaseMeets s = s := by simp [releaseMeets, h]
    rw [hnone]
    exact ⟨.refl s, h⟩
  | true =>
    simp only [releaseMeets, h, if_true]
    split
    · exact ⟨routes_latch (putBit (s.reg SI_SSC) 17 true) rfl rfl fun hs => absurd (h.symm.trans hs) (by decide), rfl⟩
    · obtain ⟨hroutes, hrel⟩ := latchClear_routes (s := s.draw.2) h
      exact ⟨(spares_draw s).routes.trans hroutes, hrel⟩

theorem safeTrigger_of_disabled {b : Nat} {s : State} (h : s.rb SI_TRIGEN b = false) : safeTrigger b s = s := by
  simp [safeTrigger, h]

/-- An enabled trigger sets its cause and ACTIVE where no release waits any more; what follows is the report and BYP_HOLD (R400, R410, R417). -/
theorem safeTrigger_of_enabled {b : Nat} {s : State} (h : s.rb SI_TRIGEN b = true) :
    ∃ u, Routes s u ∧ u.si.relPend = false ∧ Spares (u.setReg SI_SSC (putBit (putBit (u.reg SI_SSC) b true) 23 true)) (safeTrigger b s) := by
  have hmark : Spares s { s with si := { s.si with trigAt := some s.xclk } } := .of_regs rfl rfl rfl
  obtain ⟨hroutes, hrel⟩ := releaseMeets_routes { s with si := { s.si with trigAt := some s.xclk } }
  refine ⟨_, hmark.routes.trans hroutes, hrel, ?_⟩
  unfold safeTrigger
  rw [if_pos h]
  have hreport : ∀ (p : Prop) [Decidable p] (t : State), Spares t (if p then t else icuEvent 633 t) := fun p _ t =>
    .ite (fun _ => .refl t) fun _ => spares_icuEvent 633 t
  exact .ite (fun _ => hreport _ _) fun _ => (hreport _ _).trans (spares_bypRelease 3 _)

theorem routes_safeTrigger (b : Nat) (s : State) : Routes s (safeTrigger b s) := by
  cases h : s.rb SI_TRIGEN b with
  | false => rw [safeTrigger_of_disabled h]; exact .refl s
  | true =>
    obtain ⟨u, hu, hrel, ht⟩ := safeTrigger_of_enabled h
    have hset : Routes u (u.setReg SI_SSC (putBit (putBit (u.reg SI_SSC) b true) 23 true)) :=
      routes_latch _ rfl rfl fun hs => ⟨hs, fun p m => wbit_putBit_true 23 (wbit_putBit_true b m)⟩
    exact (hu.trans hset).trans ht.routes

/-- The latch is set with cause `b`, and no release of it waits. -/
def Latched (s : State) (b : Nat) : Prop := s.si.relPend = false ∧ s.rb SI_SSC b = true ∧ s.rb SI_SSC 23 = true

theorem Routes.latched {s t : State} (h : Routes s t) {b : Nat} (hs : Latched s b) : Latched t b := by
  obtain ⟨hrel, hcause, hactive⟩ := hs
  obtain ⟨hrel', hbits⟩ := h.latch hrel
  exact ⟨hrel', hbits b hcause, hbits 23 hactive⟩

theorem latched_safeTrigger {b : Nat} {s : State} (hb : b < 32) (h : s.rb SI_TRIGEN b = true) : Latched (safeTrigger b s) b := by
  obtain ⟨u, -, hrel, ht⟩ := safeTrigger_of_enabled h
  refine ht.routes.latched ⟨hrel, ?_, ?_⟩
  · rw [State.rb, reg_setReg_self]
    exact wbit_putBit_true 23 (wbit_putBit_self _ true hb)
  · rw [State.rb, reg_setReg_self]
    exact wbit_putBit_self _ true (by decide)

/-! ### Consumers 56 to 63 -/

/-- SIC source `n` is PENDING or ACTIVE. -/
def Raised (s : State) (n : Nat) : Prop := s.rb (SIC_SRC n) 7 = true ∨ s.rb (SIC_SRC n) 6 = true

theorem marked_sicSrc {n : Nat} (h : 48 ≤ n ∧ n < 56) : Marked (SIC_SRC n) := by
  unfold Marked SIC_SRC
  omega

theorem Routes.raised {s t : State} (h : Routes s t) {n : Nat} (hn : 48 ≤ n ∧ n < 56) (hs : Raised s n) : Raised t n :=
  hs.imp (h.marks _ 7 (marked_sicSrc hn)) (h.marks _ 6 (marked_sicSrc hn))

theorem routes_sicEvent {n : Nat} (s : State) (h : 48 ≤ n ∧ n < 56) : Routes s (sicEvent n s) := by
  unfold sicEvent
  split
  · exact .refl s
  · split
    · exact .refl s
    · exact routes_mark 7 (marked_sicSrc h)

/-- In RUN and DOZE the SIC takes every event, or is serving the source (R314, R418). -/
theorem raised_sicEvent {n : Nat} {s : State} (h : 48 ≤ n ∧ n < 56) (hp : s.pwr ≤ 1) : Raised (sicEvent n s) n := by
  unfold sicEvent
  rw [if_neg (by omega)]
  split
  · exact .inr ‹_›
  · exact .inl (rb_setRb_self s _ true (by decide))

theorem reg_sicEvent_ssc (n : Nat) (s : State) (h : n < 64) : (sicEvent n s).reg SI_SSC = s.reg SI_SSC := by
  unfold sicEvent
  split
  · rfl
  · split
    · rfl
    · exact reg_setRb_ne s 7 true (by unfold SI_SSC SIC_SRC; omega)

/-- A consumer of the Safety Island is never busy (R420). -/
theorem consumerActs_safety {c : Nat} (s : State) (h : SafetyConsumer c) :
    consumerActs c s = if c < 60 then safeTrigger (c - 48) (sicEvent (c - 8) s) else sicEvent (c - 8) s := by
  obtain ⟨hl, hu⟩ := h
  unfold consumerActs
  rw [if_neg (by omega), if_neg (by omega), if_pos hu]

theorem routes_consumerActs {c : Nat} (s : State) (hc : c < 256) : Routes s (consumerActs c s) := by
  by_cases h : SafetyConsumer c
  · have hsic := routes_sicEvent (n := c - 8) s (by omega)
    rw [consumerActs_safety s h]
    split
    · exact hsic.trans (routes_safeTrigger _ _)
    · exact hsic
  · exact (spares_consumerActs s hc h).routes

theorem raised_consumerActs {c : Nat} {s : State} (h : SafetyConsumer c) (hp : s.pwr ≤ 1) : Raised (consumerActs c s) (c - 8) := by
  have hn : 48 ≤ c - 8 ∧ c - 8 < 56 := by omega
  rw [consumerActs_safety s h]
  split
  · exact (routes_safeTrigger _ _).raised hn (raised_sicEvent hn hp)
  · exact raised_sicEvent hn hp

theorem latched_consumerActs {c : Nat} {s : State} (h : SafetyConsumer c) (h60 : c < 60) (he : s.rb SI_TRIGEN (c - 48) = true) :
    Latched (consumerActs c s) (c - 48) := by
  have hsic := routes_sicEvent (n := c - 8) s (by omega)
  rw [consumerActs_safety s h, if_pos h60]
  exact latched_safeTrigger (by omega) ((hsic.trigger _).trans he)

/-- An event at a consumer that triggers nothing leaves the latch. -/
theorem reg_ssc_consumerActs {c : Nat} {s : State} (hc : c < 256) (h : 56 ≤ c → c < 60 → s.rb SI_TRIGEN (c - 48) = false) :
    (consumerActs c s).reg SI_SSC = s.reg SI_SSC := by
  by_cases hs : SafetyConsumer c
  · have hsic := routes_sicEvent (n := c - 8) s (by omega)
    rw [consumerActs_safety s hs]
    split
    · next h60 =>
      rw [safeTrigger_of_disabled ((hsic.trigger _).trans (h hs.1 h60))]
      exact reg_sicEvent_ssc _ s (by omega)
    · exact reg_sicEvent_ssc _ s (by omega)
  · exact (spares_consumerActs s hc hs).latch

/-! ### An edge at a channel -/

theorem consumerGets_awake {c : Nat} {s : State} (h : s.pwr ≤ 1) : consumerGets c s = consumerActs c s := by
  unfold consumerGets State.power
  rw [if_pos h, ite_self]

theorem channelConsumer_lt {s : State} {n c : Nat} (h : channelConsumer s n = some c) : c < 256 :=
  List.mem_range.mp (List.mem_of_find?_eq_some h)

theorem Routes.channelConsumer_eq {s t : State} (h : Routes s t) (n : Nat) : channelConsumer t n = channelConsumer s n := by
  unfold channelConsumer
  rw [← List.head?_filter, ← List.head?_filter]
  refine congrArg List.head? (List.filter_congr fun c hc => ?_)
  have hsel : Selects (EVR_CSEL c) := by
    have := List.mem_range.mp hc
    unfold Selects EVR_CSEL
    omega
  simp only [State.rb, State.rf, h.kept _ hsel]

/-- An edge that joins an event in progress sets MERGE alone (R335). -/
theorem channelEdge_join (n : Nat) (s : State) : channelEdge true n s = setBitOf EVR_MERGE n s := rfl

/-- An edge that makes an event on a channel without a consumer, and on one with a consumer (R333, R335). -/
theorem channelEdge_none {n : Nat} {s : State} (hn : n < 192) (hc : channelConsumer s n = none) : channelEdge false n s = setBitOf EVR_SEEN n s := by
  have hc' := ((spares_seen hn).routes.channelConsumer_eq n).trans hc
  simp [channelEdge, hc']

theorem channelEdge_some {n c : Nat} {s : State} (hn : n < 192) (hp : s.pwr ≤ 1) (hc : channelConsumer s n = some c) :
    channelEdge false n s = consumerActs c (setBitOf EVR_SEEN n s) := by
  have hc' := ((spares_seen hn).routes.channelConsumer_eq n).trans hc
  simp [channelEdge, hc', consumerGets_awake (s := setBitOf EVR_SEEN n s) hp]

theorem marked_merge {n : Nat} (h : n < 192) : Marked (EVR_MERGE (n / 32)) := by
  unfold Marked EVR_MERGE
  omega

theorem routes_channelEdge {n : Nat} {s : State} (joins : Bool) (hn : n < 192) (hp : s.pwr ≤ 1) : Routes s (channelEdge joins n s) := by
  cases joins with
  | true => exact routes_mark (n % 32) (marked_merge hn)
  | false =>
    have hseen := (spares_seen (s := s) hn).routes
    cases hc : channelConsumer s n with
    | none => rw [channelEdge_none hn hc]; exact hseen
    | some c => rw [channelEdge_some hn hp hc]; exact hseen.trans (routes_consumerActs _ (channelConsumer_lt hc))

/-- The latch stays as it is at an edge that triggers nothing. -/
theorem reg_ssc_channelEdge {n : Nat} {s : State} (joins : Bool) (hn : n < 192) (hp : s.pwr ≤ 1)
    (h : joins = false → ∀ c, channelConsumer s n = some c → 56 ≤ c → c < 60 → s.rb SI_TRIGEN (c - 48) = false) :
    (channelEdge joins n s).reg SI_SSC = s.reg SI_SSC := by
  cases joins with
  | true => exact reg_setRb_ne s _ true (by unfold SI_SSC EVR_MERGE; omega)
  | false =>
    have hseen := spares_seen (s := s) hn
    cases hc : channelConsumer s n with
    | none => rw [channelEdge_none hn hc, hseen.latch]
    | some c =>
      rw [channelEdge_some hn hp hc, reg_ssc_consumerActs (channelConsumer_lt hc), hseen.latch]
      intro hl hu
      exact (hseen.routes.trigger _).trans (h rfl c hc hl hu)

/-! ### A producer's edge at all its channels -/

/-- The edge of a producer at the channels `l`, of which it joins an event in progress on those of `joins` (R335). -/
def edgeAt (joins l : List Nat) (s : State) : State := l.foldl (fun t n => channelEdge (joins.contains n) n t) s

theorem routes_edgeAt (joins : List Nat) {l : List Nat} {s : State} (hl : ∀ n ∈ l, n < 192) (hp : s.pwr ≤ 1) : Routes s (edgeAt joins l s) :=
  List.foldlRecOn (motive := Routes s) l _ (.refl s) fun _ ht n hn =>
    ht.trans (routes_channelEdge _ (hl n hn) (ht.pwr.symm ▸ hp))

/-- What a channel's edge has done stays done at the channels after it, as `Routes` says. -/
theorem edgeAt_through (joins : List Nat) {l : List Nat} {s : State} (hl : ∀ n ∈ l, n < 192) (hp : s.pwr ≤ 1) {n : Nat} (hn : n ∈ l) :
    ∃ u, Routes s u ∧ Routes (channelEdge (joins.contains n) n u) (edgeAt joins l s) := by
  obtain ⟨before, after, rfl⟩ := List.append_of_mem hn
  have hbefore : Routes s (edgeAt joins before s) := routes_edgeAt joins (fun m hm => hl m (by simp [hm])) hp
  have hpu : (edgeAt joins before s).pwr ≤ 1 := hbefore.pwr.symm ▸ hp
  have hpe : (channelEdge (joins.contains n) n (edgeAt joins before s)).pwr ≤ 1 := (routes_channelEdge _ (hl n hn) hpu).pwr.symm ▸ hpu
  refine ⟨_, hbefore, ?_⟩
  have hafter := routes_edgeAt joins (l := after) (fun m hm => hl m (by simp [hm])) hpe
  simpa only [edgeAt, List.foldl_append, List.foldl_cons] using hafter

section
variable {joins l : List Nat} {s : State} {n c : Nat}

theorem merged_edgeAt (hl : ∀ n ∈ l, n < 192) (hp : s.pwr ≤ 1) (hn : n ∈ l) (hj : n ∈ joins) :
    (edgeAt joins l s).rb (EVR_MERGE (n / 32)) (n % 32) = true := by
  obtain ⟨u, -, ht⟩ := edgeAt_through joins hl hp hn
  rw [List.contains_iff_mem.mpr hj, channelEdge_join] at ht
  exact ht.marks _ _ (marked_merge (hl n hn)) (rb_setRb_self u _ true (by omega))

/-- The event of a channel whose edge joins none is its consumer's to act on, whatever the channels before it have done. -/
theorem consumer_edgeAt (hl : ∀ n ∈ l, n < 192) (hp : s.pwr ≤ 1) (hn : n ∈ l) (hj : n ∉ joins) (hc : channelConsumer s n = some c) :
    ∃ u, Routes s u ∧ Routes (consumerActs c u) (edgeAt joins l s) := by
  obtain ⟨u, hu, ht⟩ := edgeAt_through joins hl hp hn
  have hfree : joins.contains n = false := by simpa using hj
  rw [hfree, channelEdge_some (hl n hn) (hu.pwr.symm ▸ hp) ((hu.channelConsumer_eq n).trans hc)] at ht
  exact ⟨_, hu.trans (spares_seen (hl n hn)).routes, ht⟩

theorem raised_edgeAt (hl : ∀ n ∈ l, n < 192) (hp : s.pwr ≤ 1) (hn : n ∈ l) (hj : n ∉ joins) (hc : channelConsumer s n = some c) (h : SafetyConsumer c) :
    Raised (edgeAt joins l s) (c - 8) := by
  obtain ⟨u, hu, ht⟩ := consumer_edgeAt hl hp hn hj hc
  exact ht.raised (by omega) (raised_consumerActs h (hu.pwr.symm ▸ hp))

theorem latched_edgeAt (hl : ∀ n ∈ l, n < 192) (hp : s.pwr ≤ 1) (hn : n ∈ l) (hj : n ∉ joins) (hc : channelConsumer s n = some c) (h : SafetyConsumer c)
    (h60 : c < 60) (he : s.rb SI_TRIGEN (c - 48) = true) : Latched (edgeAt joins l s) (c - 48) := by
  obtain ⟨u, hu, ht⟩ := consumer_edgeAt hl hp hn hj hc
  exact ht.latched (latched_consumerActs h h60 ((hu.trigger _).trans he))

theorem reg_ssc_edgeAt (hl : ∀ n ∈ l, n < 192) (hp : s.pwr ≤ 1)
    (h : ∀ n c, n ∈ l → n ∉ joins → channelConsumer s n = some c → 56 ≤ c → c < 60 → s.rb SI_TRIGEN (c - 48) = false) :
    (edgeAt joins l s).reg SI_SSC = s.reg SI_SSC := by
  refine And.right (List.foldlRecOn (motive := fun t => Routes s t ∧ t.reg SI_SSC = s.reg SI_SSC) l _ ⟨.refl s, rfl⟩ fun t ht n hn => ?_)
  obtain ⟨hroutes, hssc⟩ := ht
  have hpt : t.pwr ≤ 1 := hroutes.pwr.symm ▸ hp
  refine ⟨hroutes.trans (routes_channelEdge _ (hl n hn) hpt), (reg_ssc_channelEdge _ (hl n hn) hpt fun hj c hc hlo hhi => ?_).trans hssc⟩
  exact (hroutes.trigger _).trans (h n c hn (by simpa using hj) ((hroutes.channelConsumer_eq n).symm.trans hc) hlo hhi)

end

/-- An edge that is there, of a block's producer or of a placed EVIN pin, goes to the producer's channels (R331). -/
theorem evrEvent_edgeAt {p : Nat} (joins : List Nat) {s : State} (hp : s.pwr ≤ 1)
    (h : (p < 80 ∨ 96 ≤ p) ∧ p ∈ s.edges ∨ 80 ≤ p ∧ p < 96 ∧ fnPlaced s p = true) :
    ∃ s0, Spares s s0 ∧ evrEvent p joins s = edgeAt joins (channelsOf s p) s0 := by
  obtain ⟨hblock, hedge⟩ | ⟨hlo, hhi, hplaced⟩ := h
  · refine ⟨{ s with edges := s.edges.erase p }, .of_regs rfl rfl rfl, ?_⟩
    have hno : ¬ (80 ≤ p ∧ p < 96) := by omega
    simp only [evrEvent, ← Bool.decide_and, hno, decide_false, List.contains_iff_mem.mpr hedge]
    rfl
  · have hpower : s.power ≤ 3 := Nat.le_trans hp (by decide)
    refine ⟨s, .refl s, ?_⟩
    simp only [evrEvent, hlo, hhi, hplaced, hpower]
    rfl

theorem channelsOf_lt {s : State} {p n : Nat} (h : n ∈ channelsOf s p) : n < 192 := List.mem_range.mp (List.mem_filter.mp h).1

/-! ### The statement -/

/-- Settles O53: each edge at a channel keeps what the edges before it have raised, latched and merged (`Routes`), and every consumer but 56 to 63 spares
the SIC sources 48 to 55 and the latch (`spares_consumerActs`). -/
theorem eventRouterReachesSafety : Obligations.EventRouterReachesSafety := by
  unfold Obligations.EventRouterReachesSafety
  intro p joins s hp hedge
  obtain ⟨s0, h0, ht⟩ := evrEvent_edgeAt joins hp hedge
  have hp0 : s0.pwr ≤ 1 := h0.pwr.symm ▸ hp
  have hl : ∀ n ∈ channelsOf s p.toNat, n < 192 := fun n => channelsOf_lt
  have hcons := h0.routes.channelConsumer_eq
  have hroutes := h0.routes.trans (routes_edgeAt joins hl hp0)
  refine ⟨_, congrArg Host.Outcome.next ht, fun n c hn hj hc hlo hhi => ?_, fun n hn hj => merged_edgeAt hl hp0 hn hj, fun hoff => ?_⟩
  · have hc0 := (hcons n).trans hc
    refine ⟨hroutes.overrun c ⟨hlo, hhi⟩, raised_edgeAt hl hp0 hn hj hc0 ⟨hlo, hhi⟩, fun h60 he => ?_⟩
    obtain ⟨-, hcause, hactive⟩ := latched_edgeAt hl hp0 hn hj hc0 ⟨hlo, hhi⟩ h60 ((h0.routes.trigger _).trans he)
    exact ⟨hcause, hactive⟩
  · refine (reg_ssc_edgeAt hl hp0 fun n c hn hj hc hlo hhi => ?_).trans h0.latch
    exact (h0.routes.trigger _).trans (hoff n c hn hj ((hcons n).symm.trans hc) hlo hhi)

end Sys2Proof.SafetyEvents

/-! Which record of the store is selected and where the next write goes (R462, R464). -/
namespace Sys2Proof.StoreRing
open Sys2Proof.Machine Sys2Proof.Stated

/-! ### Serial comparison (R462) -/

theorem serialLater_iff (a b : Nat) :
    serialLater a b = true ↔ 1 ≤ ((a : Int) - b) % 2 ^ 32 ∧ ((a : Int) - b) % 2 ^ 32 ≤ 2 ^ 31 - 1 := by
  simp only [serialLater, Bool.and_eq_true, decide_eq_true_eq]
  omega

/-- No record is later than one that is later than it: the two differences add up to 2^32, and both cannot be below half of that. -/
theorem serialLater_asymm {a b : Nat} (h : serialLater a b = true) : serialLater b a = false := by
  rw [← Bool.not_eq_true, serialLater_iff]
  rw [serialLater_iff] at h
  omega

/-- Slot `n` goes before slot `m` in the selection: its record is later, or neither is and its number is lower (R462). -/
def Precedes (s : State) (n m : Nat) : Prop :=
  serialLater (slotSeq s n) (slotSeq s m) = true ∨
    (serialLater (slotSeq s n) (slotSeq s m) = false ∧ serialLater (slotSeq s m) (slotSeq s n) = false ∧ n < m)

theorem Precedes.not_later {s : State} {n m : Nat} (h : Precedes s n m) : serialLater (slotSeq s m) (slotSeq s n) = false := by
  obtain hlater | ⟨-, hnot, -⟩ := h
  · exact serialLater_asymm hlater
  · exact hnot

theorem Precedes.later_of_lt {s : State} {n m : Nat} (h : Precedes s n m) (hlt : m < n) : serialLater (slotSeq s n) (slotSeq s m) = true := by
  obtain hlater | ⟨-, -, hgt⟩ := h
  · exact hlater
  · omega

/-! ### The latest of some slots -/

@[simp] theorem latestOf_nil (s : State) : latestOf s [] = none := rfl

theorem latestOf_concat_of_none {s : State} {l : List Nat} (h : latestOf s l = none) (n : Nat) : latestOf s (l ++ [n]) = some n := by
  unfold latestOf at h ⊢
  rw [List.foldl_append, h, List.foldl_cons, List.foldl_nil]

theorem latestOf_concat_of_some {s : State} {l : List Nat} {m : Nat} (h : latestOf s l = some m) (n : Nat) :
    latestOf s (l ++ [n]) = some (if serialLater (slotSeq s n) (slotSeq s m) then n else m) := by
  unfold latestOf at h ⊢
  rw [List.foldl_append, h, List.foldl_cons, List.foldl_nil]
  exact (apply_ite some _ _ _).symm

theorem mem_of_latestOf {s : State} {l : List Nat} {m : Nat} (h : latestOf s l = some m) : m ∈ l := by
  refine List.foldlRecOn (motive := fun b => ∀ m, b = some m → m ∈ l) l _ (fun k hk => absurd hk.symm (Option.some_ne_none k)) (fun b hb n hn m hm => ?_) m h
  cases b with
  | none => exact Option.some_inj.mp hm ▸ hn
  | some k =>
    simp only at hm
    split at hm
    · exact Option.some_inj.mp hm ▸ hn
    · exact hb m hm

theorem latestOf_append_of_not_later {s : State} {l l' : List Nat} {n : Nat} (h : latestOf s l = some n)
    (hl : ∀ k ∈ l', serialLater (slotSeq s k) (slotSeq s n) = false) : latestOf s (l ++ l') = some n := by
  induction l' generalizing l with
  | nil => rwa [List.append_nil]
  | cons k l' ih =>
    have hkeep : latestOf s (l ++ [k]) = some n := by
      rw [latestOf_concat_of_some h, hl k List.mem_cons_self, if_neg Bool.false_ne_true]
    rw [List.append_cons]
    exact ih hkeep fun j hj => hl j (List.mem_cons_of_mem k hj)

/-- Of slots in ascending order, the one that goes before every other is the latest. What stands before it in the order has a lower number, so it replaces
that only by being later; nothing after it is later than it. -/
theorem latestOf_of_precedes {s : State} {l : List Nat} {n : Nat} (hl : l.Pairwise (· < ·)) (hn : n ∈ l)
    (h : ∀ m ∈ l, m ≠ n → Precedes s n m) : latestOf s l = some n := by
  obtain ⟨before, after, rfl⟩ := List.append_of_mem hn
  obtain ⟨-, hsorted, hbefore⟩ := List.pairwise_append.mp hl
  obtain ⟨hafter, -⟩ := List.pairwise_cons.mp hsorted
  have hreached : latestOf s (before ++ [n]) = some n := by
    cases hprev : latestOf s before with
    | none => exact latestOf_concat_of_none hprev n
    | some m =>
      have hm : m ∈ before := mem_of_latestOf hprev
      have hmn : m < n := hbefore m hm n List.mem_cons_self
      have hlater := (h m (List.mem_append_left _ hm) (Nat.ne_of_lt hmn)).later_of_lt hmn
      rw [latestOf_concat_of_some hprev, if_pos hlater]
  rw [List.append_cons]
  refine latestOf_append_of_not_later hreached fun k hk => (h k ?_ (Nat.ne_of_gt (hafter k hk))).not_later
  exact List.mem_append_right _ (List.mem_cons_of_mem n hk)

/-- The best of the slots that `p` takes in is the latest of any list that filters out exactly their valid records. -/
theorem latestOf_of_bestOf {s : State} {p : Nat → Prop} {q : Nat → Bool} {n : Nat}
    (hq : ∀ m, q m = true ↔ p m ∧ slotValid s m = true) (h : BestOf s p n) : latestOf s ((List.range 128).filter q) = some n := by
  obtain ⟨⟨hlt, hp, hvalid⟩, hbest⟩ := h
  refine latestOf_of_precedes (List.pairwise_lt_range.filter q) ?_ fun m hm hne => ?_
  · exact List.mem_filter.mpr ⟨List.mem_range.mpr hlt, (hq n).mpr ⟨hp, hvalid⟩⟩
  · obtain ⟨hrange, hqm⟩ := List.mem_filter.mp hm
    obtain ⟨hpm, hvm⟩ := (hq m).mp hqm
    exact hbest m (List.mem_range.mp hrange) hpm hne hvm

/-! ### The selected record and the next write -/

/-- The slots of bank `b` that hold a valid record. -/
def bankSlots (s : State) (b : Nat) : List Nat := (List.range 128).filter fun m => m / 64 == b && slotValid s m

theorem bankSlots_eq_nil {s : State} {b : Nat} (h : ∀ m, m < 128 → m / 64 = b → slotValid s m = false) : bankSlots s b = [] := by
  refine List.filter_eq_nil_iff.mpr fun m hm hv => ?_
  obtain ⟨hb, hvalid⟩ := Bool.and_eq_true_iff.mp hv
  rw [h m (List.mem_range.mp hm) (beq_iff_eq.mp hb)] at hvalid
  exact Bool.false_ne_true hvalid

theorem latestOf_bankSlots {s : State} {b m : Nat} (h : BestOf s (fun k => k / 64 = b) m) : latestOf s (bankSlots s b) = some m :=
  latestOf_of_bestOf (fun k => by rw [Bool.and_eq_true_iff, beq_iff_eq]) h

theorem storeSelected_eq_none {s : State} (h : ∀ n, n < 128 → slotValid s n = false) : storeSelected s = none := by
  have hnil : (List.range 128).filter (slotValid s) = [] :=
    List.filter_eq_nil_iff.mpr fun n hn => Bool.not_eq_true _ ▸ h n (List.mem_range.mp hn)
  rw [storeSelected, hnil, latestOf_nil]

theorem storeSelected_of_bestOf {s : State} {n : Nat} (h : BestOf s (fun _ => True) n) : storeSelected s = some n :=
  latestOf_of_bestOf (fun k => (true_and (slotValid s k = true)).symm.to_iff) h

theorem storeNext_of_none {s : State} (h : storeSelected s = none) : storeNext s = (0, 1) := by
  rw [storeNext, h]

/-- With a selected record, the next write goes to a slot of the other bank that this bank's latest valid record alone gives. -/
theorem storeNext_of_selected {s : State} {n : Nat} (h : storeSelected s = some n) :
    ∃ slot, slot < 64 ∧ storeNext s = (64 * (1 - n / 64) + slot, (slotSeq s n + 1) % 2 ^ 32) ∧
      (latestOf s (bankSlots s (1 - n / 64)) = none → slot = 0) ∧
      (∀ m, latestOf s (bankSlots s (1 - n / 64)) = some m → slot = (m % 64 + 1) % 64) := by
  unfold storeNext bankSlots
  rw [h]
  cases hlatest : latestOf s ((List.range 128).filter fun m => m / 64 == 1 - n / 64 && slotValid s m) with
  | none => exact ⟨0, by decide, by simp only [hlatest], fun _ => rfl, fun m hm => nomatch hm⟩
  | some m =>
    refine ⟨(m % 64 + 1) % 64, Nat.mod_lt _ (by decide), by simp only [hlatest], fun hnone => (nomatch hnone), fun k hk => ?_⟩
    rw [Option.some_inj.mp hk]

/-- The bank that does not hold slot `n` is bank `1 - n / 64`. -/
theorem div_ne_iff_otherBank {n m : Nat} (hn : n < 128) (hm : m < 128) : m / 64 ≠ n / 64 ↔ m / 64 = 1 - n / 64 := by
  omega

theorem bestOf_congr {s : State} {p q : Nat → Prop} {n : Nat} (hpq : ∀ m, m < 128 → (p m ↔ q m)) (h : BestOf s p n) : BestOf s q n := by
  obtain ⟨⟨hlt, hp, hvalid⟩, hbest⟩ := h
  exact ⟨⟨hlt, (hpq n hlt).mp hp, hvalid⟩, fun m hm hq => hbest m hm ((hpq m hm).mpr hq)⟩

/-- Settles O57: the latest of ascending slots is the one that goes before every other (`latestOf_of_precedes`), taken over both banks for the selected record
and over the other bank for the next write's slot. -/
theorem storeSelection : Obligations.StoreSelection := by
  unfold Obligations.StoreSelection
  refine fun s => ⟨serialLater_iff, fun hnone => ?_, fun n hbest => ?_⟩
  · have hsel := storeSelected_eq_none hnone
    exact ⟨hsel, storeNext_of_none hsel⟩
  · have hsel := storeSelected_of_bestOf hbest
    have hn : n < 128 := hbest.1.1
    obtain ⟨slot, hslot, hnext, hempty, hlast⟩ := storeNext_of_selected hsel
    have hmod : (storeNext s).1 % 64 = slot := by rw [hnext]; omega
    refine ⟨hsel, ?_, congrArg Prod.snd hnext, fun hother => ?_, fun m hm => ?_⟩
    · rw [hnext]
      split <;> omega
    · have hnil := bankSlots_eq_nil fun m hlt hb => hother m hlt ((div_ne_iff_otherBank hn hlt).mpr hb)
      exact hmod.trans (hempty (by rw [hnil, latestOf_nil]))
    · have hm' := bestOf_congr (fun k hk => div_ne_iff_otherBank hn hk) hm
      exact hmod.trans (hlast m (latestOf_bankSlots hm'))

end Sys2Proof.StoreRing

/-! The fields of a vector command word and the word they spell (R69): the word is its fields in mixed radix, the lowest field first. -/
namespace Sys2Proof.CommandWord
open Sys2Proof.Machine

/-! ### Numbers in mixed radix -/

/-- The number that digits spell, each given with its width in bits, the lowest first. -/
def spell : List (Nat × Nat) → Nat
  | [] => 0
  | (n, a) :: t => a % 2 ^ n + 2 ^ n * spell t

/-- The digits of `x` of the given widths, the lowest first. -/
def digits (x : Nat) : List Nat → List Nat
  | [] => []
  | n :: t => x % 2 ^ n :: digits (x / 2 ^ n) t

theorem spell_digits : ∀ (ns : List Nat) (x : Nat), x < 2 ^ ns.sum → spell (ns.zip (digits x ns)) = x
  | [], x, h => by simpa [spell, eq_comm] using h
  | n :: t, x, h => by
    have ih : spell (t.zip (digits (x / 2 ^ n) t)) = x / 2 ^ n := spell_digits t _ <| by
      rwa [Nat.div_lt_iff_lt_mul (Nat.two_pow_pos n), Nat.mul_comm, ← Nat.pow_add]
    simp only [digits, List.zip_cons_cons, spell, ih, Nat.mod_mod, Nat.mod_add_div]

theorem digits_spell : ∀ l : List (Nat × Nat), digits (spell l) (l.map (·.1)) = l.map fun e => e.2 % 2 ^ e.1
  | [] => rfl
  | (n, a) :: t => by
    have low : (a % 2 ^ n + 2 ^ n * spell t) % 2 ^ n = a % 2 ^ n := by rw [Nat.add_mul_mod_self_left, Nat.mod_mod]
    have high : (a % 2 ^ n + 2 ^ n * spell t) / 2 ^ n = spell t := by
      rw [Nat.add_mul_div_left _ _ (Nat.two_pow_pos n), Nat.div_eq_of_lt (Nat.mod_lt a (Nat.two_pow_pos n)), Nat.zero_add]
    simp only [spell, List.map_cons, digits, low, high, digits_spell t]

theorem spell_lt : ∀ l : List (Nat × Nat), spell l < 2 ^ (l.map (·.1)).sum
  | [] => Nat.one_pos
  | (n, a) :: t => by
    have hlow : a % 2 ^ n < 2 ^ n := Nat.mod_lt a (Nat.two_pow_pos n)
    have hrest : spell t + 1 ≤ 2 ^ (t.map (·.1)).sum := spell_lt t
    simp only [spell, List.map_cons, List.sum_cons, Nat.pow_add]
    calc a % 2 ^ n + 2 ^ n * spell t < 2 ^ n * (spell t + 1) := by rw [Nat.mul_add]; omega
      _ ≤ 2 ^ n * 2 ^ (t.map (·.1)).sum := Nat.mul_le_mul_left _ hrest

/-! ### The fields of a command -/

/-- The widths of the fields of a command word, from IMM up to OPC (R69). -/
def widths : List Nat := [10, 6, 6, 6, 6, 6, 4, 2, 1, 3, 4, 3, 7]

/-- The fields of a command, from IMM up to OPC. -/
def fields (c : VCmd) : List Nat := [c.imm, c.sa, c.sb, c.sc, c.sd, c.sm, c.lnr, c.grp, b2n c.men, c.ea, c.sub, c.rm, c.opc]

theorem b2n_inj {a b : Bool} (h : b2n a = b2n b) : a = b := by
  revert h
  cases a <;> cases b <;> decide

theorem fields_inj {c d : VCmd} (h : fields c = fields d) : c = d := by
  simp only [fields, List.cons.injEq, and_true] at h
  obtain ⟨himm, hsa, hsb, hsc, hsd, hsm, hlnr, hgrp, hmen, hea, hsub, hrm, hopc⟩ := h
  cases c; cases d
  simp only [VCmd.mk.injEq] at *
  exact ⟨hopc, hrm, hsub, hea, b2n_inj hmen, hgrp, hlnr, hsm, hsd, hsc, hsb, hsa, himm⟩

theorem b2n_mod_two (b : Bool) : b2n b % 2 = b2n b := by cases b <;> rfl

theorem vcmdWord_eq_spell (c : VCmd) : vcmdWord c = BitVec.ofNat 64 (spell (widths.zip (fields c))) := by
  simp only [widths, fields, List.zip_cons_cons, List.zip_nil_left, spell, Nat.reducePow, b2n_mod_two, vcmdWord, Nat.mul_zero, Nat.add_zero]

theorem toNat_vcmdWord (c : VCmd) : (vcmdWord c).toNat = spell (widths.zip (fields c)) := by
  have hlt : spell (widths.zip (fields c)) < 2 ^ 64 := spell_lt (widths.zip (fields c))
  rw [vcmdWord_eq_spell, BitVec.toNat_ofNat, Nat.mod_eq_of_lt hlt]

theorem b2n_beq_one {x : Nat} (h : x < 2) : b2n (x == 1) = x := by
  unfold b2n
  match x, h with
  | 0, _ => rfl
  | 1, _ => rfl

/-- The fields read from a word are its digits. -/
theorem fields_vcmdOf (w : Dword) : fields (vcmdOf w) = digits w.toNat widths := by
  have hmen : b2n (nfld w.toNat 46 46 == 1) = nfld w.toNat 46 46 := b2n_beq_one (Nat.mod_lt _ (by decide))
  simp only [fields, vcmdOf, hmen]
  simp only [widths, digits, nfld, Nat.shiftRight_eq_div_pow, Nat.div_div_eq_div_mul, Nat.reducePow, Nat.reduceMul,
    Nat.reduceAdd, Nat.reduceSub, Nat.div_one]

/-- Spelling the fields of a word gives the word. -/
theorem vcmdWord_vcmdOf (w : Dword) : vcmdWord (vcmdOf w) = w := by
  rw [vcmdWord_eq_spell, fields_vcmdOf, spell_digits widths _ w.isLt, BitVec.ofNat_toNat, BitVec.setWidth_eq]

/-- Fields within their widths are the fields of the word that they spell. -/
theorem vcmdOf_vcmdWord {c : VCmd} (h : (widths.zip (fields c)).map (fun e => e.2 % 2 ^ e.1) = fields c) : vcmdOf (vcmdWord c) = c := by
  refine fields_inj ?_
  rw [fields_vcmdOf, toNat_vcmdWord]
  exact (digits_spell (widths.zip (fields c))).trans h

/-- Settles O34: spelling and reading a word's digits in mixed radix are inverse to each other. -/
theorem commandWordRoundTrip : Obligations.CommandWordRoundTrip := by
  unfold Obligations.CommandWordRoundTrip
  refine ⟨vcmdWord_vcmdOf, fun c hopc hrm hsub hea hgrp hlnr hsm hsd hsc hsb hsa himm => vcmdOf_vcmdWord ?_⟩
  simp only [widths, fields, List.zip_cons_cons, List.zip_nil_left, List.map_cons, List.map_nil, Nat.reducePow, b2n_mod_two, Nat.mod_eq_of_lt, *]

end Sys2Proof.CommandWord

/-! The table searches keep what their reads keep. Their equations are out of the kernel's reach (they compare keys above 2^28 on a stuck read), so the recursion is opened by hand. -/
namespace Sys2Proof.Search
open Sys2Proof.Machine

/-- `Q` holds of the state that a search leaves. -/
structure Leaves {α : Type} (Q : State → Prop) (r : WRes α × State) : Prop where
  holds : Q r.2

/-- What the results of the calls on the rest of a list satisfy. -/
def OfRest {α C : Type} (P : C → Prop) : (l : List α) → List.below (motive := fun _ => C) l → Prop
  | [], _ => True
  | _ :: _, B => P B.1

theorem brecOn_induction {α C : Type} {P : C → Prop} {F : (l : List α) → List.below (motive := fun _ => C) l → C}
    (hF : ∀ l B, OfRest P l B → P (F l B)) : ∀ l, P (List.brecOn l F)
  | [] => hF _ _ trivial
  | _ :: l => hF _ _ (brecOn_induction hF l)

section Arms
variable {α β : Type} {Q : State → Prop}

/-- A search's match of the sizes left, at the end of the list and at a size to probe, with its arms kept closed. -/
theorem search_arms {C : List (Nat × Nat) → Type} {R : ∀ l, C l → Prop} {P : WRes α × State → Prop}
    (m : (l : List (Nat × Nat)) → State → (State → C [] → WRes α × State) →
      ((sz k : Nat) → (t : List (Nat × Nat)) → State → C ((sz, k) :: t) → WRes α × State) → C l → WRes α × State)
    (hnil : ∀ s e p B, m [] s e p B = e s B) (hcons : ∀ sz k t s e p B, m ((sz, k) :: t) s e p B = p sz k t s B)
    {l : List (Nat × Nat)} {B : C l} {s : State} {ends : State → C [] → WRes α × State}
    {probes : (sz k : Nat) → (t : List (Nat × Nat)) → State → C ((sz, k) :: t) → WRes α × State}
    (hB : R l B) (hends : ∀ B, P (ends s B)) (hprobes : ∀ sz k t B, R _ B → P (probes sz k t s B)) : P (m l s ends probes B) := by
  obtain _ | ⟨⟨sz, k⟩, t⟩ := l
  · exact hnil _ _ _ _ ▸ hends _
  · exact hcons _ _ _ _ _ _ _ ▸ hprobes _ _ _ _ hB

/-- A search's match of a walk step's result: it is read, it fails or it waits. -/
theorem result_arms (m : WRes β × State → (β → State → WRes α × State) → (WalkFail → State → WRes α × State) → (State → WRes α × State) → WRes α × State)
    (hmok : ∀ b v o f w, m (.ok b, v) o f w = o b v) (hmfail : ∀ e v o f w, m (.fail e, v) o f w = f e v)
    (hmwait : ∀ v o f w, m (.wait, v) o f w = w v) {r : WRes β × State} {ok : β → State → WRes α × State}
    {fail : WalkFail → State → WRes α × State} {wait : State → WRes α × State} (hr : Q r.2) (hok : ∀ b v, Q v → Leaves Q (ok b v))
    (hfail : ∀ f v, Q v → Leaves Q (fail f v)) (hwait : ∀ v, Q v → Leaves Q (wait v)) : Leaves Q (m r ok fail wait) := by
  obtain ⟨_ | _ | _, v⟩ := r
  · exact hmok _ _ _ _ _ ▸ hok _ _ hr
  · exact hmfail _ _ _ _ _ ▸ hfail _ _ hr
  · exact hmwait _ _ _ _ ▸ hwait _ hr

end Arms

theorem leaves_s2Search {Q : State → Prop} {ag : Nat} {cfg : MmuCfg} {part ipa : Nat}
    (hread : ∀ tmo sz k pa s, Q s → Q (probeRead ag tmo true sz k pa ipa s).2) (l : List (Nat × Nat)) :
    ∀ s, Q s → Leaves Q (s2Search ag cfg part ipa l s) := by
  delta s2Search s2Search._f
  refine brecOn_induction (P := fun r : State → WRes S2Entry × State => ∀ s, Q s → Leaves Q (r s)) (fun l B ih s h => ?_) l
  refine search_arms _ (fun _ _ _ _ => rfl) (fun _ _ _ _ _ _ _ => rfl) (P := Leaves Q) (R := OfRest fun r : State → WRes S2Entry × State => ∀ s, Q s → Leaves Q (r s)) ih (fun _ => ⟨h⟩)
    fun sz k t B ih => ?_
  refine result_arms _ (fun _ _ _ _ _ => rfl) (fun _ _ _ _ _ => rfl) (fun _ _ _ _ => rfl) (hread _ _ _ _ _ h) (fun b v hv => ?_) (fun f v hv => ⟨hv⟩) fun v hv => ⟨hv⟩
  split
  · exact ⟨hv⟩
  · exact ih v hv

/-- What every stage-2 probe keeps, the whole search keeps. -/
theorem s2Search_keeps {Q : State → Prop} {ag : Nat} {cfg : MmuCfg} {part ipa : Nat}
    (hread : ∀ tmo sz k pa s, Q s → Q (probeRead ag tmo true sz k pa ipa s).2) {l : List (Nat × Nat)} {s : State} (h : Q s) :
    Q (s2Search ag cfg part ipa l s).2 :=
  (leaves_s2Search hread l s h).holds

theorem leaves_s1Search {Q : State → Prop} {ag : Nat} {cfg : MmuCfg} {asid part va : Nat} {keep : Bool}
    (htable : ∀ ipa s, Q s → Q (tableAddr ag cfg part ipa keep s).2) (hread : ∀ tmo sz k pa s, Q s → Q (probeRead ag tmo false sz k pa 0 s).2)
    (l : List (Nat × Nat)) : ∀ s, Q s → Leaves Q (s1Search ag cfg asid part va keep l s) := by
  delta s1Search s1Search._f
  refine brecOn_induction (P := fun r : State → WRes S1Found × State => ∀ s, Q s → Leaves Q (r s)) (fun l B ih s h => ?_) l
  refine search_arms _ (fun _ _ _ _ => rfl) (fun _ _ _ _ _ _ _ => rfl) (P := Leaves Q) (R := OfRest fun r : State → WRes S1Found × State => ∀ s, Q s → Leaves Q (r s)) ih (fun _ => ⟨h⟩)
    fun sz k t B ih => ?_
  refine result_arms _ (fun _ _ _ _ _ => rfl) (fun _ _ _ _ _ => rfl) (fun _ _ _ _ => rfl) (htable _ _ h) (fun e v hv => ?_) (fun f v hv => ⟨hv⟩) fun v hv => ⟨hv⟩
  split
  · exact ⟨hv⟩
  · refine result_arms _ (fun _ _ _ _ _ => rfl) (fun _ _ _ _ _ => rfl) (fun _ _ _ _ => rfl) (hread _ _ _ _ _ hv) (fun b w hw => ?_) (fun f w hw => ⟨hw⟩) fun w hw => ⟨hw⟩
    split
    · exact ⟨hw⟩
    · exact ih w hw

/-- What the translation of a table's address and every stage-1 probe keep, the whole search keeps. -/
theorem s1Search_keeps {Q : State → Prop} {ag : Nat} {cfg : MmuCfg} {asid part va : Nat} {keep : Bool}
    (htable : ∀ ipa s, Q s → Q (tableAddr ag cfg part ipa keep s).2) (hread : ∀ tmo sz k pa s, Q s → Q (probeRead ag tmo false sz k pa 0 s).2)
    {l : List (Nat × Nat)} {s : State} (h : Q s) : Q (s1Search ag cfg asid part va keep l s).2 :=
  (leaves_s1Search htable hread l s h).holds

end Sys2Proof.Search

/-! What every operation keeps (R9, R25, R443): the canonical forms of the sparse maps, and fuses that only burn. -/
namespace Sys2Proof.Soundness
open Sys2Proof.Machine Sys2Proof.Stated

/-! ### The relation -/

/-- `p` is `o` with counters that have not fallen and keys that may have been revoked besides. -/
structure Burnt (o p : Otp) : Prop where
  img : o.imgCtr ≤ p.imgCtr
  patch : o.patchCtr ≤ p.patchCtr
  rev : o.keyRev &&& p.keyRev = o.keyRev
  fixed : { p with imgCtr := o.imgCtr, patchCtr := o.patchCtr, keyRev := o.keyRev } = o

theorem Burnt.refl (o : Otp) : Burnt o o := ⟨Nat.le_refl _, Nat.le_refl _, BitVec.and_self, rfl⟩

theorem Burnt.trans {o p q : Otp} (h : Burnt o p) (h' : Burnt p q) : Burnt o q := by
  refine ⟨Nat.le_trans h.img h'.img, Nat.le_trans h.patch h'.patch, ?_, ?_⟩
  · calc o.keyRev &&& q.keyRev = o.keyRev &&& (p.keyRev &&& q.keyRev) := by rw [← BitVec.and_assoc, h.rev]
      _ = o.keyRev := by rw [h'.rev, h.rev]
  · have hf := h.fixed
    have hf' := h'.fixed
    cases o; cases p; cases q
    simp_all

/-- `t` is canonical if `s` is, its fuses are those of `s`, or burnt further, and where `κ` holds every core is as it was in `s`, but that one in WAIT
may have resumed. -/
structure Sound (κ : Prop) (s t : State) : Prop where
  canonical : Canonical s → Canonical t
  burnt : Burnt s.otp t.otp
  cores : κ → ∀ c, SameCore c s t

variable {κ : Prop} {s t u : State}

theorem sameCore_refl (c : CoreId) (s : State) : SameCore c s s := rfl

theorem sameCore_trans {c : CoreId} (h : SameCore c s t) (h' : SameCore c t u) : SameCore c s u := by
  unfold SameCore at *
  rw [h', h]

theorem sameCore_of_cores (h : t.cores = s.cores) (c : CoreId) : SameCore c s t := by
  have hcore : t.core c = s.core c := congrArg (·[c]) h
  unfold SameCore
  rw [hcore]

@[refl] theorem Sound.refl (s : State) : Sound κ s s := ⟨id, .refl _, fun _ c => sameCore_refl c s⟩

theorem Sound.trans (h : Sound κ s t) (h' : Sound κ t u) : Sound κ s u :=
  ⟨fun c => h'.canonical (h.canonical c), h.burnt.trans h'.burnt, fun k c => sameCore_trans (h.cores k c) (h'.cores k c)⟩

/-- Every part of the state but the six and the cores may change. -/
theorem Sound.same (h : Sound κ s t)
    {pending ceWb fresh icuHeld edges tb tbSub adjPend xclk tmAcc evrHeld evoutBusy evoutLvl capDead fillRun ergSlots scrubT0 lapLate vclkStop
      dmcTraining patrol pwrfailN cmNow outst linkTx xacts walkCache walks vseTlb vctx eau stamps pwr pfFilter elgCredit elgStage pfT0 wakeReq bypT0
      boot nvmOp sceBank0 sceBank1 sce c0 mac qciDebt qciLast frer genSeq can uart mvbWait mvbRead mvbSent txSeq retries helloIn ended inHeld mgmtHeld
      helloSent exchSent ft as microWb claimed arb retryReq c1Share chkDirty linkActs stepFrom stepMark dmaHeld held lateTags xspi wtape wtapeN l2Old
      elg pmu si} :
    Sound κ s (State.mk pending t.regs t.cores t.mem t.ecc t.dramErr ceWb fresh icuHeld edges tb tbSub adjPend xclk tmAcc evrHeld evoutBusy evoutLvl
      capDead fillRun ergSlots scrubT0 lapLate vclkStop dmcTraining patrol pwrfailN cmNow outst linkTx xacts walkCache walks vseTlb vctx eau stamps
      pwr pfFilter elgCredit elgStage pfT0 wakeReq bypT0 t.otp t.nvm boot nvmOp sceBank0 sceBank1 sce c0 mac qciDebt qciLast frer genSeq can uart
      mvbWait mvbRead mvbSent txSeq retries helloIn ended inHeld mgmtHeld helloSent exchSent ft as microWb claimed arb retryReq c1Share chkDirty
      linkActs stepFrom stepMark dmaHeld held lateTags xspi wtape wtapeN l2Old elg pmu si) :=
  ⟨h.canonical, h.burnt, fun k c => sameCore_trans (h.cores k c) (sameCore_of_cores rfl c)⟩

/-- Every part of the state but the six may change, the cores too. -/
theorem Sound.sameBut (h : Sound False s t)
    {pending cores ceWb fresh icuHeld edges tb tbSub adjPend xclk tmAcc evrHeld evoutBusy evoutLvl capDead fillRun ergSlots scrubT0 lapLate vclkStop
      dmcTraining patrol pwrfailN cmNow outst linkTx xacts walkCache walks vseTlb vctx eau stamps pwr pfFilter elgCredit elgStage pfT0 wakeReq bypT0
      boot nvmOp sceBank0 sceBank1 sce c0 mac qciDebt qciLast frer genSeq can uart mvbWait mvbRead mvbSent txSeq retries helloIn ended inHeld mgmtHeld
      helloSent exchSent ft as microWb claimed arb retryReq c1Share chkDirty linkActs stepFrom stepMark dmaHeld held lateTags xspi wtape wtapeN l2Old
      elg pmu si} :
    Sound False s (State.mk pending t.regs cores t.mem t.ecc t.dramErr ceWb fresh icuHeld edges tb tbSub adjPend xclk tmAcc evrHeld evoutBusy evoutLvl
      capDead fillRun ergSlots scrubT0 lapLate vclkStop dmcTraining patrol pwrfailN cmNow outst linkTx xacts walkCache walks vseTlb vctx eau stamps
      pwr pfFilter elgCredit elgStage pfT0 wakeReq bypT0 t.otp t.nvm boot nvmOp sceBank0 sceBank1 sce c0 mac qciDebt qciLast frer genSeq can uart
      mvbWait mvbRead mvbSent txSeq retries helloIn ended inHeld mgmtHeld helloSent exchSent ft as microWb claimed arb retryReq c1Share chkDirty
      linkActs stepFrom stepMark dmaHeld held lateTags xspi wtape wtapeN l2Old elg pmu si) :=
  ⟨h.canonical, h.burnt, False.elim⟩

/-! ### States inside results -/

/-- The state that a part of an instruction leaves, whatever its outcome. -/
def accState {α : Type} : Acc α → State
  | .ok _ s => s
  | .exc _ s => s
  | .wait s => s

/-- The state that the frame of an instruction leaves, whether it goes on or stops. -/
def preState : Pre → State
  | .stop s => s
  | .go s => s

/-- The state that an entry leaves, whether it has been made or waits. -/
def entState : EntryRes → State
  | .entered s => s
  | .wait s => s

/-- Every next state of an outcome is one that `s` leads to soundly. -/
def Goes (s : State) (o : Out) : Prop := ∀ t, o = .next t → Sound False s t

theorem Goes.next (h : Sound False s t) : Goes s (.next t) := fun _ e => Host.Outcome.next.inj e ▸ h

theorem Sound.snd {α : Type} {a : α} (h : Sound κ s t) : Sound κ s (a, t).2 := h

theorem Sound.ok {α : Type} {a : α} (h : Sound κ s t) : Sound κ s (accState (.ok a t)) := h

theorem Sound.exc {α : Type} {x : Exc} (h : Sound κ s t) : Sound κ s (accState (.exc x t : Acc α)) := h

theorem Sound.wait {α : Type} (h : Sound κ s t) : Sound κ s (accState (.wait t : Acc α)) := h

theorem Sound.stop (h : Sound κ s t) : Sound κ s (preState (.stop t)) := h

theorem Sound.go (h : Sound κ s t) : Sound κ s (preState (.go t)) := h

theorem Sound.entered (h : Sound κ s t) : Sound κ s (entState (.entered t)) := h

theorem Sound.waits (h : Sound κ s t) : Sound κ s (entState (.wait t)) := h

theorem Sound.of_stop {p : Pre} (h : Sound κ s (preState p)) (e : p = .stop u) : Sound κ s u := by
  subst e; exact h

theorem Sound.of_go {p : Pre} (h : Sound κ s (preState p)) (e : p = .go u) : Sound κ s u := by
  subst e; exact h

theorem Sound.of_entered {p : EntryRes} (h : Sound κ s (entState p)) (e : p = .entered u) : Sound κ s u := by
  subst e; exact h

theorem Sound.of_waits {p : EntryRes} (h : Sound κ s (entState p)) (e : p = .wait u) : Sound κ s u := by
  subst e; exact h

theorem Sound.of_snd_sv {α : Type} {p : α × Sv} {a : α} {v : Sv} (h : Sound κ s p.2.s) (e : p = (a, v)) : Sound κ s v.s := by
  subst e; exact h

theorem Sound.of_snd {α : Type} {p : α × State} {a : α} (h : Sound κ s p.2) (e : p = (a, u)) : Sound κ s u := by
  subst e; exact h

theorem Sound.of_snd2 {α β : Type} {p : α × β × State} {a : α} {b : β} (h : Sound κ s p.2.2) (e : p = (a, b, u)) : Sound κ s u := by
  subst e; exact h

theorem Sound.of_ok {α : Type} {p : Acc α} {a : α} (h : Sound κ s (accState p)) (e : p = .ok a u) : Sound κ s u := by
  subst e; exact h

theorem Sound.of_exc {α : Type} {p : Acc α} {x : Exc} (h : Sound κ s (accState p)) (e : p = .exc x u) : Sound κ s u := by
  subst e; exact h

theorem Sound.of_wait {α : Type} {p : Acc α} (h : Sound κ s (accState p)) (e : p = .wait u) : Sound κ s u := by
  subst e; exact h

theorem Sound.ite {p : Prop} [Decidable p] (h : Sound κ s t) (h' : Sound κ s u) : Sound κ s (if p then t else u) := by
  split <;> assumption

theorem Sound.ite_snd {α : Type} {p : Prop} [Decidable p] {x y : α × State} (h : Sound κ s x.2) (h' : Sound κ s y.2) : Sound κ s (if p then x else y).2 := by
  split <;> assumption

theorem Sound.ite_snd2 {α β : Type} {p : Prop} [Decidable p] {x y : α × β × State} (h : Sound κ s x.2.2) (h' : Sound κ s y.2.2) :
    Sound κ s (if p then x else y).2.2 := by
  split <;> assumption

theorem Sound.ite_acc {α : Type} {p : Prop} [Decidable p] {x y : Acc α} (h : Sound κ s (accState x)) (h' : Sound κ s (accState y)) :
    Sound κ s (accState (if p then x else y)) := by
  split <;> assumption

theorem Sound.ite_sv {p : Prop} [Decidable p] {x y : Sv} (h : Sound κ s x.s) (h' : Sound κ s y.s) : Sound κ s (if p then x else y).s := by
  split <;> assumption

theorem Sound.ite_snd_sv {α : Type} {p : Prop} [Decidable p] {x y : α × Sv} (h : Sound κ s x.2.s) (h' : Sound κ s y.2.s) :
    Sound κ s (if p then x else y).2.s := by
  split <;> assumption

theorem Sound.ite_sp {p : Prop} [Decidable p] {x y : StopPass} (h : Sound κ s x.s) (h' : Sound κ s y.s) : Sound κ s (if p then x else y).s := by
  split <;> assumption

theorem Sound.ite_pre {p : Prop} [Decidable p] {x y : Pre} (h : Sound κ s (preState x)) (h' : Sound κ s (preState y)) :
    Sound κ s (preState (if p then x else y)) := by
  split <;> assumption

theorem Sound.ite_ent {p : Prop} [Decidable p] {x y : EntryRes} (h : Sound κ s (entState x)) (h' : Sound κ s (entState y)) :
    Sound κ s (entState (if p then x else y)) := by
  split <;> assumption

theorem Goes.ite {p : Prop} [Decidable p] {x y : Out} (h : Goes s x) (h' : Goes s y) : Goes s (if p then x else y) := by
  split <;> assumption

theorem Sound.foldl {α : Type} {f : State → α → State} {l : List α} (h : Sound κ s t) (hf : ∀ u, Sound κ s u → ∀ a, Sound κ s (f u a)) :
    Sound κ s (l.foldl f t) :=
  List.foldlRecOn (motive := fun u => Sound κ s u) l f h fun u hu a _ => hf u hu a

theorem Sound.foldl_snd {α β : Type} {f : β × State → α → β × State} {l : List α} {p : β × State} (h : Sound κ s p.2)
    (hf : ∀ q : β × State, Sound κ s q.2 → ∀ a, Sound κ s (f q a).2) : Sound κ s (l.foldl f p).2 :=
  List.foldlRecOn (motive := fun q => Sound κ s q.2) l f h fun q hq a _ => hf q hq a

theorem Sound.foldl_snd2 {α β γ : Type} {f : β × γ × State → α → β × γ × State} {l : List α} {p : β × γ × State} (h : Sound κ s p.2.2)
    (hf : ∀ q : β × γ × State, Sound κ s q.2.2 → ∀ a, Sound κ s (f q a).2.2) : Sound κ s (l.foldl f p).2.2 :=
  List.foldlRecOn (motive := fun q => Sound κ s q.2.2) l f h fun q hq a _ => hf q hq a

theorem Sound.foldl_sv {α : Type} {f : Sv → α → Sv} {l : List α} {v : Sv} (h : Sound κ s v.s) (hf : ∀ w : Sv, Sound κ s w.s → ∀ a, Sound κ s (f w a).s) :
    Sound κ s (l.foldl f v).s :=
  List.foldlRecOn (motive := fun w => Sound κ s w.s) l f h fun w hw a _ => hf w hw a

theorem Sound.foldl_sp {α : Type} {f : StopPass → α → StopPass} {l : List α} {v : StopPass} (h : Sound κ s v.s)
    (hf : ∀ w : StopPass, Sound κ s w.s → ∀ a, Sound κ s (f w a).s) : Sound κ s (l.foldl f v).s :=
  List.foldlRecOn (motive := fun w => Sound κ s w.s) l f h fun w hw a _ => hf w hw a

theorem Sound.foldl_snd_sv {α β : Type} {f : β × Sv → α → β × Sv} {l : List α} {p : β × Sv} (h : Sound κ s p.2.s)
    (hf : ∀ q : β × Sv, Sound κ s q.2.s → ∀ a, Sound κ s (f q a).2.s) : Sound κ s (l.foldl f p).2.s :=
  List.foldlRecOn (motive := fun q => Sound κ s q.2.s) l f h fun q hq a _ => hf q hq a

/-! ### Writes of the sparse maps -/

theorem Sound.setReg (h : Sound κ s t) {a : Nat} {v : Word} : Sound κ s (t.setReg a v) :=
  ⟨fun c => ⟨smWf_smPut regReset t.regs a v (h.canonical c).1, (h.canonical c).2⟩, h.burnt, h.cores⟩

theorem Sound.resetRegs (h : Sound κ s t) {z : Nat → Bool} : Sound κ s (t.resetRegs z) :=
  ⟨fun c => ⟨smWf_smDrop regReset z t.regs (h.canonical c).1, (h.canonical c).2⟩, h.burnt, h.cores⟩

theorem Sound.setByte (h : Sound κ s t) {a : Nat} {v : Byte} : Sound κ s (t.setByte a v) :=
  ⟨fun c => ⟨(h.canonical c).1, setByte_wf t a v (h.canonical c).2.1, (h.canonical c).2.2⟩, h.burnt, h.cores⟩

theorem Sound.setEcc (h : Sound κ s t) {a : Nat} {v : BitVec 13} : Sound κ s (t.setEcc a v) :=
  ⟨fun c => ⟨(h.canonical c).1, setEcc_wf t a v (h.canonical c).2.1, (h.canonical c).2.2⟩, h.burnt, h.cores⟩

/-! ### The state of the device, its fault and refusal reasons, and the state after reset -/

/-- A state made anew with canonical maps, that keeps the fuses. -/
theorem Sound.anew (h : Sound False σ s) (hc : Canonical σ → Canonical u) (e : u.otp = s.otp) : Sound False σ u := ⟨hc, e ▸ h.burnt, False.elim⟩

/-! ### Access to registers, core by core and by physical address, and the one rule of a register write -/

theorem Sound.setRf {a hi lo x : Nat} (h : Sound κ σ s) : Sound κ σ (s.setRf a hi lo x) := h.setReg

theorem Sound.setRb {a b : Nat} {v : Bool} (h : Sound κ σ s) : Sound κ σ (s.setRb a b v) := h.setReg

theorem Sound.logWord {a w : Nat} (h : Sound κ σ s) : Sound κ σ (s.logWord a w) := h.setReg

theorem Sound.countUp {a hi lo n : Nat} (h : Sound κ σ s) : Sound κ σ (s.countUp a hi lo n) := h.setRf

theorem Sound.setReg64 {lo hi x : Nat} (h : Sound κ σ s) : Sound κ σ (s.setReg64 lo hi x) := h.setReg.setReg

theorem Sound.draw (h : Sound κ σ s) : Sound κ σ s.draw.2 := h.same.snd

theorem Sound.setCore {c : CoreId} {k : Core} (h : Sound False σ s) : Sound False σ (s.setCore c k) := h.sameBut

theorem Sound.modCore {c : CoreId} {f : Core → Core} (h : Sound False σ s) : Sound False σ (s.modCore c f) := h.setCore

theorem Sound.setSr {c : CoreId} {n : Nat} {v : Word} (h : Sound False σ s) : Sound False σ (s.setSr c n v) := h.modCore

theorem Sound.setSrf {c : CoreId} {n hi lo x : Nat} (h : Sound False σ s) : Sound False σ (s.setSrf c n hi lo x) := h.setSr

theorem Sound.setG {c : CoreId} {r : GReg} {v : Word} (h : Sound False σ s) : Sound False σ (s.setG c r v) := .ite h (.ite h.modCore h.modCore)

theorem Sound.setF {c : CoreId} {r : FReg} {v : Dword} (h : Sound False σ s) : Sound False σ (s.setF c r v) := h.modCore

theorem Sound.setQ {c : CoreId} {q : QReg} {v : BitVec 128} (h : Sound False σ s) : Sound False σ (s.setQ c q v) := h.setF.setF

theorem Sound.setPc {c : CoreId} {v : Word} (h : Sound False σ s) : Sound False σ (s.setPc c v) := h.modCore

/-! ### Events between blocks: interrupt sources (R313 to R320), the Safety Island's sources (R418, R419), event-router producers (R331), and the safe-state latch -/

theorem Sound.clocked {f : State → State} (hf : ∀ (a : State), Sound False σ a → Sound False σ (f a)) (h : Sound False σ s) : Sound False σ (clocked f s) := .ite (hf _ h) h

theorem Sound.sicEvent {n : Nat} (h : Sound κ σ s) : Sound κ σ (sicEvent n s) := .ite h (.ite h h.setRb)

theorem Sound.mirrorEvent {n : Nat} (h : Sound κ σ s) : Sound κ σ (mirrorEvent n s) := h.foldl (fun _ hu _ => .ite hu.sicEvent hu)

/-- A core in WAIT may resume. -/
theorem Sound.resume {c : CoreId} (h : Sound κ σ s) : Sound κ σ (s.modCore c fun k => { k with waiting := false }) := by
  refine ⟨h.canonical, h.burnt, fun k d => sameCore_trans (h.cores k d) ?_⟩
  unfold SameCore
  by_cases hd : d = c
  · rw [hd, core_modCore_self]
  · rw [core_modCore_ne _ _ hd]

theorem Sound.wakeFor {n : Nat} (h : Sound κ σ s) : Sound κ σ (wakeFor n s) := .ite (h.foldl (fun _ hu _ => .ite hu.resume hu)) h

theorem Sound.icuAccept {n : Nat} (h : Sound κ σ s) : Sound κ σ (icuAccept n s) := .ite h (.ite h.setRb h.setRb.wakeFor)

theorem Sound.icuEvent {n : Nat} (h : Sound κ σ s) : Sound κ σ (icuEvent n s) := .ite h (.ite h.same (.ite h h.mirrorEvent.icuAccept))

theorem Sound.pulse {p : Nat} (h : Sound κ σ s) : Sound κ σ (pulse p s) := h.same

theorem Sound.setEntSrc {c : CoreId} {k n : Nat} (h : Sound False σ s) : Sound False σ (s.setEntSrc c k n) := h.modCore

theorem Sound.takeSource {c k n : Nat} (h : Sound False σ s) : Sound False σ (takeSource c k n s) := h.setReg.same.foldl (fun _ hu _ => .ite hu.setEntSrc hu)

theorem Sound.icuClaim {c k : Nat} (h : Sound False σ s) : Sound False σ (icuClaim c k s).2 :=
  .ite_snd (.ite_snd h.setEntSrc.snd h.setEntSrc.takeSource.snd) (.ite_snd h.setEntSrc.draw.snd
    (.ite_snd h.setEntSrc.draw.snd h.setEntSrc.draw.takeSource.snd))

theorem Sound.icuComplete {c n : Nat} (h : Sound False σ s) : Sound False σ (icuComplete c n s) := .ite (.ite h.same.setRf.wakeFor h.setRf) h.setRb

theorem Sound.sicClaim {k : Nat} (h : Sound False σ s) : Sound False σ (sicClaim k s).2 := .ite_snd h h.setRf.snd

theorem Sound.sicComplete {n : Nat} (h : Sound False σ s) : Sound False σ (sicComplete n s) := .ite (.ite h.same.setRf h.setRf) h

theorem Sound.bypRelease {cause : Nat} (h : Sound False σ s) : Sound False σ (bypRelease cause s) := .ite h.setReg.icuEvent h

theorem Sound.latchClear (h : Sound False σ s) : Sound False σ (latchClear s) := .ite h.same.setReg.icuEvent h.same.setReg

theorem Sound.releaseMeets (h : Sound False σ s) : Sound False σ (releaseMeets s) := .ite (.ite h.draw.same.setRb h.draw.latchClear) h

theorem Sound.safeTrigger {bit : Nat} {s₀ : State} (h : Sound False σ s₀) : Sound False σ (safeTrigger bit s₀) :=
  .ite (.ite (.ite h.same.releaseMeets.setReg h.same.releaseMeets.setReg.icuEvent)
    (.bypRelease (.ite h.same.releaseMeets.setReg h.same.releaseMeets.setReg.icuEvent))) h

theorem Sound.enterLockup {c : CoreId} (h : Sound False σ s) : Sound False σ (enterLockup c s) := .ite h.modCore h.modCore.sicEvent.safeTrigger

theorem Sound.siRefuse {m pa : Nat} (h : Sound False σ s) : Sound False σ (siRefuse m pa s) := .sicEvent (.ite h.setRb h.setReg.setReg)

/-! ### The memories behind targets T0, T1, T2 and T7 and their codes -/

theorem Sound.storeBytes {a : Nat} {l : List Byte} (h : Sound False σ s) : Sound False σ (s.storeBytes a l) := by
  induction l generalizing a s with
  | nil => exact h
  | cons b t ih => exact ih h.setByte.setEcc

theorem Sound.correctByte {a : Nat} (h : Sound False σ s) : Sound False σ (correctByte s a) := h.storeBytes

theorem Sound.countThresh {a src : Nat} (h : Sound κ σ s) : Sound κ σ (countThresh a src s) := .ite h.countUp.icuEvent h.countUp

theorem Sound.miuReport {src wa bytes : Nat} (h : Sound κ σ s) : Sound κ σ (miuReport src wa bytes s) :=
  .icuEvent (.ite h.setRb h.setRb.setReg.setReg.setReg)

theorem Sound.ergWordRead {src wa : Nat} {need : Nat → Bool} (h : Sound κ σ s) : Sound κ σ (ergWordRead src wa need s).2 :=
  .ite (.ite (h.foldl (fun _ hu _ => hu.countThresh.countUp)) (h.foldl (fun _ hu _ => hu.countThresh.countUp)).same)
    (.miuReport (.ite (h.foldl (fun _ hu _ => hu.countThresh.countUp)) (h.foldl (fun _ hu _ => hu.countThresh.countUp)).same))

theorem Sound.ergWordWrite {wa : Nat} {upd : List (Nat × Byte)} (h : Sound κ σ s) : Sound κ σ (ergWordWrite wa upd s) :=
  .ite (.icuEvent (.setRb (.setRb (.foldl (.ite h.same h) (fun _ hu _ => hu.setByte.setEcc)))))
    (.foldl (.ite h.same h) (fun _ hu _ => hu.setByte.setEcc))

theorem Sound.ergRead {src pa len : Nat} (h : Sound κ σ s) : Sound κ σ (ergRead src pa len s).2 := by
  unfold Machine.ergRead
  exact h.foldl_snd (fun _ hq _ => hq.ergWordRead.snd)

theorem Sound.ergWrite {pa : Nat} {bytes : List Byte} {coll : List Nat} (h : Sound κ σ s) : Sound κ σ (ergWrite pa bytes coll s) :=
  h.foldl (fun _ hu _ => .ite hu (.ite hu.countUp hu.ergWordWrite))

theorem Sound.portVLost {pa len : Nat} (h : Sound κ σ s) : Sound κ σ (portVLost pa len s).2 := .ite_snd h h.draw.snd

theorem Sound.chkTouch {wa : Nat} (h : Sound κ σ s) : Sound κ σ (chkTouch wa s) := h.same

theorem Sound.chkFlush (h : Sound False σ s) : Sound False σ (chkFlush s) := h.same

theorem Sound.setDramErr {wa v : Nat} (h : Sound κ σ s) : Sound κ σ { s with dramErr := smPut zeroDefault s.dramErr wa v } :=
  ⟨fun c => have ⟨hregs, hmem, hdram, hnvm⟩ := h.canonical c; ⟨hregs, hmem, smWf_smPut zeroDefault s.dramErr wa v hdram, hnvm⟩, h.burnt, h.cores⟩

theorem Sound.dramWordCheck {src wa : Nat} (h : Sound κ σ s) : Sound κ σ (dramWordCheck src wa s).2 := by
  unfold Machine.dramWordCheck
  split
  · exact h
  · exact h.countThresh.setDramErr.chkTouch.snd
  · exact (Sound.icuEvent (.ite h.setRb h.logWord.setReg.setReg)).snd

theorem Sound.dramRead {src pa len : Nat} (h : Sound κ σ s) : Sound κ σ (dramRead src pa len s).2 := by
  unfold Machine.dramRead
  exact h.foldl_snd (fun _ hq _ => hq.dramWordCheck.snd)

theorem Sound.dramWordWrite {wa : Nat} {upd : List (Nat × Byte)} (h : Sound κ σ s) : Sound κ σ (dramWordWrite wa upd s).2 := by
  have put {v : State} (hv : Sound κ σ v) : Sound κ σ (Machine.chkTouch wa (upd.foldl (fun t e => t.setByte e.1 e.2) v)) :=
    (hv.foldl fun _ hu _ => hu.setByte).chkTouch
  unfold Machine.dramWordWrite
  exact .ite_snd (put h.setDramErr).snd (.ite_snd h.dramWordCheck (put h.dramWordCheck).snd)

theorem Sound.dramWrite {pa : Nat} {bytes : List Byte} (h : Sound κ σ s) : Sound κ σ (dramWrite pa bytes s).2 :=
  h.foldl_snd (fun _ hq _ => hq.dramWordWrite.snd)

theorem Sound.siRead {pa len : Nat} (h : Sound False σ s) : Sound False σ (siRead pa len s).2 := .ite (.ite h h.countUp) (.countUp (.ite h h.countUp))

theorem Sound.localRead {pa len : Nat} (h : Sound κ σ s) : Sound κ σ (localRead pa len s).2 := by
  unfold Machine.localRead
  refine .ite_snd h (.ite_snd (.ite_snd h (.ite_snd h ?_)) (.ite_snd (.ite_snd h ?_) h))
  · split
    · rename_i u1 e
      have hu1 : Sound κ σ u1 := h.ergRead.of_snd e
      exact hu1
    · rename_i u1 e
      have hu1 : Sound κ σ u1 := h.ergRead.of_snd e
      exact hu1
  · split
    · rename_i u1 e
      have hu1 : Sound κ σ u1 := h.dramRead.of_snd e
      exact hu1
    · rename_i u1 e
      have hu1 : Sound κ σ u1 := h.dramRead.of_snd e
      exact hu1

theorem Sound.regionWrite {pa : Nat} {bytes : List Byte} {coll : List Nat} (h : Sound κ σ s) : Sound κ σ (regionWrite pa bytes coll s).2 := by
  unfold Machine.regionWrite
  refine .ite_snd (.ite_snd h (.ite_snd h h.ergWrite.snd)) (.ite_snd (.ite_snd h ?_) h)
  split
  · rename_i u1 e
    have hu1 : Sound κ σ u1 := h.dramWrite.of_snd e
    exact hu1
  · rename_i u1 e
    have hu1 : Sound κ σ u1 := h.dramWrite.of_snd e
    exact hu1

theorem Sound.localWrite {pa : Nat} {bytes : List Byte} {coll : List Nat} (h : Sound κ σ s) : Sound κ σ (localWrite pa bytes coll s).2 := by
  unfold Machine.localWrite
  dsimp only
  refine .ite_snd h.regionWrite ?_
  split
  · rename_i u1 e
    have hu1 : Sound κ σ u1 := h.regionWrite.of_snd e
    exact hu1
  · rename_i u1 _ e
    have hu1 : Sound κ σ u1 := h.regionWrite.of_snd e
    exact hu1

theorem Sound.localAtomic {pa fn : Nat} {v : Word} {coll : Bool} (h : Sound κ σ s) : Sound κ σ (localAtomic pa fn v coll s).2 := by
  unfold Machine.localAtomic
  split
  · rename_i u1 e
    have hu1 : Sound κ σ u1 := h.localRead.of_snd e
    split
    · rename_i u3 e1
      have hu3 : Sound κ σ u3 := hu1.localWrite.of_snd e1
      exact hu3
    · rename_i u3 e1
      have hu3 : Sound κ σ u3 := hu1.localWrite.of_snd e1
      exact hu3
  · exact h.localRead

/-! ### The time base and the timer unit's shared operations -/

theorem Sound.tbAdvance {x : Nat} (h : Sound False σ s) : Sound False σ (tbAdvance x s) := h.same

theorem Sound.refillMarks {ns0 : Nat} (h : Sound False σ s) : Sound False σ (refillMarks ns0 s) := .ite h.same h

theorem Sound.tbCycle (h : Sound False σ s) : Sound False σ (tbCycle s) := h.tbAdvance.same.refillMarks

theorem Sound.tbOffsetBy {d : Int} (h : Sound False σ s) : Sound False σ (tbOffsetBy d s) := h.same

theorem Sound.tbOffset {ns : Int} (h : Sound False σ s) : Sound False σ (tbOffset ns s) := h.tbOffsetBy

theorem Sound.tbSetRate {v : Word} (h : Sound False σ s) : Sound False σ (tbSetRate v s) := h.setReg

theorem Sound.tbUnlockFrom {d : Nat} (h : Sound False σ s) : Sound False σ (tbUnlockFrom d s) := .ite h.setRb.icuEvent.pulse h

theorem Sound.setTmAcc {n v : Nat} (h : Sound False σ s) : Sound False σ (setTmAcc n v s) := h.same

theorem Sound.chanStart {ch : Nat} (h : Sound False σ s) : Sound False σ (chanStart ch s) := .ite h.setRb (.ite h.setRb h)

theorem Sound.chanStop {ch : Nat} (h : Sound False σ s) : Sound False σ (chanStop ch s) := .ite h.setRb (.ite h.setRb h)

theorem Sound.chanReset {ch : Nat} (h : Sound False σ s) : Sound False σ (chanReset ch s) := .ite h.setReg.setTmAcc h

theorem Sound.actSelf {ch self : Nat} (h : Sound False σ s) : Sound False σ (actSelf ch self s) := by
  unfold Machine.actSelf
  split
  · exact h.chanStart
  · exact h.chanStop
  · exact h.chanReset
  · exact h.chanReset.chanStop
  · exact h.chanReset.chanStart
  · exact h

theorem Sound.linkDo {link lnk : Nat} (h : Sound False σ s) : Sound False σ (linkDo link lnk s) := by
  unfold Machine.linkDo
  split
  · exact h.chanStart
  · exact h.chanReset
  · exact h.chanReset.chanStart
  · exact h

theorem Sound.actLink {from_ link lnk : Nat} (h : Sound False σ s) : Sound False σ (actLink from_ link lnk s) := by
  unfold Machine.actLink
  refine .ite h ?_
  split
  · exact h.linkDo
  · exact .ite h.linkDo h.same

theorem Sound.withLinks {f : State → State} (hf : ∀ (a : State), Sound False σ a → Sound False σ (f a)) (h : Sound False σ s) : Sound False σ (withLinks f s) :=
  .ite (hf _ h) ((hf _ h.same).same.foldl (fun _ hu _ => hu.linkDo))

theorem Sound.act {ch byte stat : Nat} (h : Sound False σ s) : Sound False σ (act ch byte stat s) :=
  .ite (.ite (.icuEvent (.setRb (.ite h.actSelf.actLink.pulse h.actSelf.actLink)))
    (.ite (.icuEvent (.ite h.actSelf.actLink.pulse h.actSelf.actLink)) (.sicEvent (.ite h.actSelf.actLink.pulse h.actSelf.actLink))))
    (.ite h.actSelf.actLink.pulse h.actSelf.actLink)

theorem Sound.timerTick1 {n : Nat} (h : Sound False σ s) : Sound False σ (timerTick1 n s).2 :=
  .ite (.act (.ite h.setReg.act h.setReg)) (.ite h.setReg.act h.setReg)

theorem Sound.timerTick {n : Nat} (h : Sound False σ s) : Sound False σ (timerTick n s) := .ite h.timerTick1.timerTick1 h.timerTick1

theorem Sound.timerCycle {n : Nat} (h : Sound False σ s) : Sound False σ (timerCycle n s) := .ite h.setTmAcc.timerTick h.setTmAcc

theorem Sound.timesDo {k : Nat} {f : State → State} (hf : ∀ u, Sound False σ u → Sound False σ (f u)) (h : Sound False σ s) : Sound False σ (timesDo k f s) := by
  induction k generalizing s with
  | zero => exact h
  | succ k ih => exact ih (hf s h)

theorem Sound.forTimers {f : Nat → State → State} (hf : ∀ (a : Nat) (a_1 : State), Sound False σ a_1 → Sound False σ (f a a_1)) (h : Sound False σ s) :
    Sound False σ (forTimers f s) :=
  h.foldl (fun _ hu _ => hf _ _ hu)

theorem Sound.timersTb {ns0 : Nat} (h : Sound False σ s) : Sound False σ (timersTb ns0 s) :=
  .forTimers (fun _ _ ha_1 => .timesDo (fun _ hu => .ite hu.timerTick hu) ha_1) h

theorem Sound.tbStepBy {soft : Bool} {ns : Nat} (h : Sound False σ s) : Sound False σ (tbStepBy soft ns s) := by
  unfold Machine.tbStepBy
  dsimp only
  split
  · exact .same (.withLinks (fun _ ha => ha.foldl (fun _ hu _ => hu.timerTick)) h.draw.same.refillMarks)
  · exact .pulse (.icuEvent (.setRb (.same (.withLinks (fun _ ha => ha.foldl (fun _ hu _ => hu.timerTick)) h.draw.same.refillMarks))))

theorem Sound.timersXclk (h : Sound False σ s) : Sound False σ (timersXclk s) := by
  unfold Machine.timersXclk
  refine .forTimers (fun a a_1 ha_1 => .ite ?_ ha_1) h
  split
  · exact .timesDo (fun _ hu => .ite hu.timerCycle hu) ha_1
  · exact ha_1.timerCycle
  · exact .ite ha_1.timerCycle ha_1
  · exact .timesDo (fun _ hu => .ite hu.timerCycle hu) ha_1
  · exact ha_1

theorem Sound.setCmp {k v : Nat} (h : Sound False σ s) : Sound False σ (setCmp k v s) := h.setReg64.setRf

theorem Sound.cmpFire {k : Nat} (h : Sound False σ s) : Sound False σ (cmpFire k s) :=
  .ite (.ite h.act.setRb.setRb h.act.setRb.setCmp) (.safeTrigger (.ite h.act.setRb.setRb h.act.setRb.setCmp))

theorem Sound.wakeFire {n : Nat} (h : Sound False σ s) : Sound False σ (wakeFire n s) := h.setRb.pulse.icuEvent

theorem Sound.gcmd {op : Nat} (h : Sound False σ s) : Sound False σ (gcmd op s) := by
  unfold Machine.gcmd
  refine h.foldl (fun u hu a => ?_)
  split
  · exact hu.chanStart
  · exact hu.chanStop
  · exact hu.chanReset.chanStart
  · exact hu

theorem Sound.tbRateWrite {v : Word} (h : Sound False σ s) : Sound False σ (tbRateWrite v s) := .ite h.tbSetRate h

theorem Sound.tbAdjWrite {v : Word} (h : Sound False σ s) : Sound False σ (tbAdjWrite v s) := .ite h.tbOffset h

theorem Sound.tbStepWrite {v : Word} (h : Sound False σ s) : Sound False σ (tbStepWrite v s) := h.tbStepBy

theorem Sound.swpWrite {v : Word} (h : Sound False σ s) : Sound False σ (swpWrite v s) := h.foldl (fun _ hu _ => hu.pulse)

theorem Sound.cselWrite {c : Nat} {v : Word} (h : Sound False σ s) : Sound False σ (cselWrite c v s) := .ite (.ite h.setRb h.logWord.icuEvent) h.setReg

/-! ### The Safety Island's register actions: the latch, the watchdog, the comparator test, the mailbox -/

theorem Sound.triggerHere (h : Sound False σ s) : Sound False σ (triggerHere s).2 := .ite_snd h.same.snd h

theorem Sound.latchRelease (h : Sound False σ s) : Sound False σ (latchRelease s) := .ite h.triggerHere.same h.triggerHere.setRb

theorem Sound.sscWrite {v : Word} (h : Sound False σ s) : Sound False σ (sscWrite v s) :=
  .ite (.ite (.setRb (.safeTrigger (.ite h.setRb h))) (.safeTrigger (.ite h.setRb h))) (.ite (.latchRelease (.ite h.setRb h)) (.ite h.setRb h))

theorem Sound.wdctlWrite {v : Word} (h : Sound False σ s) : Sound False σ (wdctlWrite v s) := .ite h (.ite h.setRf.same.setRb.setReg h.setRf)

theorem Sound.wdwinWrite {v : Word} (h : Sound False σ s) : Sound False σ (wdwinWrite v s) := .ite h.setRf h.setRf.setRf

theorem Sound.wdKick {v : Word} (h : Sound False σ s) : Sound False σ (wdKick v s) := .ite h (.ite h.same.setReg h.safeTrigger)

theorem Sound.lockstepTest {v : Word} (h : Sound False σ s) : Sound False σ (lockstepTest v s) := .ite h.setRb h

theorem Sound.a2sDoorbell {v : Word} (h : Sound False σ s) : Sound False σ (a2sDoorbell v s) := h.setReg.sicEvent

theorem Sound.s2aDoorbell {v : Word} (h : Sound False σ s) : Sound False σ (s2aDoorbell v s) := h.setReg.icuEvent

theorem Sound.lockstepMismatch (h : Sound False σ s) : Sound False σ (lockstepMismatch s) := h.setRb.safeTrigger

theorem Sound.siFrameAccept {pa : Nat} {v : Word} (h : Sound False σ s) : Sound False σ (siFrameAccept pa v s) := by
  unfold Machine.siFrameAccept
  refine .ite h.sscWrite (.ite h.wdctlWrite (.ite h.wdwinWrite (.ite h.wdKick
      (.ite h.lockstepTest (.ite h.a2sDoorbell (.ite h.s2aDoorbell (.ite h ?_)))))))
  split
  · exact h.setReg
  · exact h

theorem Sound.siFrameWrite {m pa : Nat} {v : Word} (h : Sound False σ s) : Sound False σ (siFrameWrite m pa v s) := .ite h.siRefuse h.siFrameAccept

/-! ### Which target an address has, which master reaches it, and the log of refused accesses -/

theorem Sound.xbmLog {m id tgt : Nat} {wr tmo : Bool} {resp : Resp} {pa : Nat} (h : Sound κ σ s) : Sound κ σ (xbmLog m id tgt wr tmo resp pa s) :=
  .ite h.setRb h.logWord.setReg.setReg.icuEvent

theorem Sound.xbmLogged {m id : Nat} {wr : Bool} {pa : Nat} {r : BusRes × State} (h : Sound κ σ r.2) : Sound κ σ (xbmLogged m id wr pa r).2 := by
  unfold Machine.xbmLogged
  split
  · exact .ite_snd h.xbmLog.snd h
  · exact h

/-! ### Requests to remote windows and the owning node's service of them -/

theorem Sound.linkSend {port : Nat} {p : Packet} (h : Sound κ σ s) : Sound κ σ (linkSend port p s) := h.same

theorem Sound.tmoLog {x : Xact} (h : Sound κ σ s) : Sound κ σ (tmoLog x s) := h.xbmLog

theorem Sound.tmoGone {x : Xact} (h : Sound κ σ s) : Sound κ σ (tmoGone x s) := .ite h.tmoLog h.tmoLog.same

theorem Sound.busGate {x : Xact} {go : State → BusRes × State} (hgo : ∀ (a : State), Sound κ σ a → Sound κ σ (go a).2) (h : Sound κ σ s) :
    Sound κ σ (busGate x go s).2 := by
  unfold Machine.busGate
  dsimp only
  refine .ite_snd h.same.tmoGone.snd (.ite_snd ?_ h)
  split
  · rename_i u1 e
    have hu1 : Sound κ σ u1 := (hgo _ h.same).of_snd e
    exact .snd (.ite hu1 hu1.same)
  · exact hgo _ h.same

theorem Sound.heldStale (h : Sound False σ s) : Sound False σ (heldStale s) := h.same

theorem Sound.heldClean (h : Sound False σ s) : Sound False σ (heldClean s) := h.same

theorem Sound.outAdd {r : OutReq} (h : Sound κ σ s) : Sound κ σ (outAdd r s) := h.same

theorem Sound.inboundRefused {node cause m addr : Nat} (h : Sound κ σ s) : Sound κ σ (inboundRefused node cause m addr s) :=
  .ite h.setRb h.logWord.setReg.icuEvent

theorem Sound.outLog {node cause m : Nat} (h : Sound κ σ s) : Sound κ σ (outLog node cause m s) := .ite h.setRb h.logWord.icuEvent

theorem Sound.ownerAccess {kind offs pa len fn : Nat} {data : List Byte} {named : List Nat} (h : Sound κ σ s) :
    Sound κ σ (ownerAccess kind offs pa len fn data named s).2 := by
  unfold Machine.ownerAccess
  dsimp only
  refine .xbmLogged (.ite_snd (.snd (.ite_snd h h.portVLost)) ?_)
  split
  · exact .localRead (.ite_snd h h.portVLost)
  · exact .localWrite (.ite_snd h h.portVLost)
  · exact .localAtomic (.ite_snd h h.portVLost)

theorem Sound.ownerPerform {node kind offs len fn : Nat} {data : List Byte} {named : List Nat} (h : Sound κ σ s) :
    Sound κ σ (ownerPerform node kind offs len fn data named s).2 := by
  unfold Machine.ownerPerform
  refine .ite_snd h (.ite_snd h.inboundRefused.snd ?_)
  split
  · exact h
  · split
    · rename_i u1 e1
      have hu1 : Sound κ σ u1 := Sound.of_snd (.busGate (fun _ ha => ha.ownerAccess) h) e1
      exact hu1
    · exact .busGate (fun _ ha => ha.ownerAccess) h

theorem Sound.remoteRequest {m : Nat} {owner : ReqOwner} {cls kind pa len fn : Nat} {data : List Byte} {coll : List Nat} (h : Sound κ σ s) :
    Sound κ σ (remoteRequest m owner cls kind pa len fn data coll s).2 := by
  unfold Machine.remoteRequest
  dsimp only
  refine .ite_snd h (.ite_snd (.ite_snd ?_ (.snd (.ite h.outAdd h))) ?_)
  · split
    · rename_i u1 e
      have hu1 : Sound κ σ u1 := h.ownerPerform.of_snd e
      exact hu1
    · rename_i u1 _ e
      have hu1 : Sound κ σ u1 := h.ownerPerform.of_snd e
      exact hu1.outLog.snd
    · rename_i u1 e
      have hu1 : Sound κ σ u1 := h.ownerPerform.of_snd e
      exact .snd (.ite hu1.outAdd hu1)
  · split
    · exact h.outLog.snd
    · exact .ite_snd h h.outAdd.linkSend.snd

/-! ### The boot and configuration unit's store, its NVM, the release of cores, and the OTP registers -/

theorem Sound.putNvm {a : Nat} {b : Byte} (h : Sound False σ s) : Sound False σ { s with nvm := smPut nvmDefault s.nvm a b } :=
  ⟨fun c => have ⟨hregs, hmem, hdram, hnvm⟩ := h.canonical c; ⟨hregs, hmem, hdram, smWf_smPut nvmDefault s.nvm a b hnvm⟩, h.burnt, h.cores⟩

theorem Sound.nvmPut {a : Nat} {bytes : List Byte} (h : Sound False σ s) : Sound False σ (nvmPut a bytes s) := by
  induction bytes generalizing a s with
  | nil => exact h
  | cons b t ih => exact ih h.putNvm

theorem Sound.nvmErase {lo hi : Nat} (h : Sound False σ s) : Sound False σ (nvmErase lo hi s) :=
  ⟨fun c => have ⟨hregs, hmem, hdram, hnvm⟩ := h.canonical c
    ⟨hregs, hmem, hdram, smWf_smDrop nvmDefault (fun a => decide (lo ≤ a) && decide (a < hi)) s.nvm hnvm⟩, h.burnt, h.cores⟩

theorem Sound.nvmTear {lo hi : Nat} (h : Sound False σ s) : Sound False σ (nvmTear lo hi s) := h.same.nvmPut

theorem Sound.storeReport (h : Sound False σ s) : Sound False σ (storeReport s) := by
  unfold Machine.storeReport
  dsimp only
  refine .setReg ?_
  split
  · exact h.setReg.setReg
  · exact h.setReg.setReg

theorem Sound.stBit {b : Nat} {v : Bool} (h : Sound False σ s) : Sound False σ (stBit b v s) := h.setRb

theorem Sound.stError {code : Nat} (h : Sound False σ s) : Sound False σ (stError code s) := h.stBit.setRf.icuEvent

theorem Sound.stStart {op : NvmOp} (h : Sound False σ s) : Sound False σ (stStart op s) := h.stBit.same

theorem Sound.stRead (h : Sound False σ s) : Sound False σ (stRead s).2 := .busGate (fun _ ha => ha.localRead.xbmLogged) h

theorem Sound.commitStart (h : Sound False σ s) : Sound False σ (commitStart s) := by
  unfold Machine.commitStart
  dsimp only
  refine .ite h.stError (.ite h.stError ?_)
  split
  · rename_i u1 e
    have hu1 : Sound False σ u1 := h.stRead.of_snd e
    exact hu1.stBit.stBit.stStart
  · rename_i u1 _ e
    have hu1 : Sound False σ u1 := h.stRead.of_snd e
    exact hu1.stError
  · rename_i u1 e
    have hu1 : Sound False σ u1 := h.stRead.of_snd e
    exact hu1.setRb

theorem Sound.eraseStart (h : Sound False σ s) : Sound False σ (eraseStart s) := .ite h.stError h.stStart

theorem Sound.programStart (h : Sound False σ s) : Sound False σ (programStart s) := by
  unfold Machine.programStart
  dsimp only
  refine .ite h.stError (.ite h.stError (.ite h.stError ?_))
  split
  · rename_i u1 e
    have hu1 : Sound False σ u1 := h.stRead.of_snd e
    exact hu1.stStart
  · rename_i u1 _ e
    have hu1 : Sound False σ u1 := h.stRead.of_snd e
    exact hu1.stError
  · rename_i u1 e
    have hu1 : Sound False σ u1 := h.stRead.of_snd e
    exact hu1.setRb

theorem Sound.storeReady (h : Sound False σ s) : Sound False σ (storeReady s) := by
  unfold Machine.storeReady
  dsimp only
  split
  · exact h.nvmErase.stBit.same.icuEvent
  · exact h

theorem Sound.stGo {s0 : State} (h : Sound False σ s0) : Sound False σ (stGo s0) := by
  unfold Machine.stGo
  dsimp only
  refine .ite h.setRb.storeReady.stError ?_
  split
  · exact h.setRb.storeReady.commitStart
  · exact h.setRb.storeReady.eraseStart
  · exact h.setRb.storeReady.programStart
  · exact h.setRb.storeReady.stError

theorem Sound.stRetry (h : Sound False σ s) : Sound False σ (stRetry s) := .ite h.stGo h

theorem Sound.stCtlWrite {v : Word} (h : Sound False σ s) : Sound False σ (stCtlWrite v s) := .ite h.setReg.stGo h.setReg

theorem Sound.stIdle (h : Sound False σ s) : Sound False σ (stIdle s) := h.stBit.stBit.same

theorem Sound.commitWell {n : Nat} {seq : Word} {data : List Byte} (h : Sound False σ s) : Sound False σ (commitWell n seq data s) :=
  h.nvmErase.nvmPut.stIdle.stBit.storeReport.same.icuEvent

theorem Sound.nvmDone (h : Sound False σ s) : Sound False σ (nvmDone s) := by
  unfold Machine.nvmDone
  split
  · exact h.nvmErase.stIdle.stBit
  · exact h.nvmPut.stIdle.stBit
  · exact h

theorem Sound.unitsDone {fin : Bool} {n : Nat} (h : Sound False σ s) : Sound False σ (unitsDone fin n s).2 := h.same.snd

theorem Sound.eraseCut {fin : Bool} {lo hi : Nat} (h : Sound False σ s) : Sound False σ (eraseCut fin lo hi s) := by
  unfold Machine.eraseCut
  have hu := h.unitsDone (fin := fin) (n := (hi - lo) / eraseUnit s)
  exact .ite hu.nvmErase hu.nvmErase.nvmTear

theorem Sound.programCut {fin : Bool} {dst : Nat} {data : List Byte} (h : Sound False σ s) : Sound False σ (programCut fin dst data s) := by
  unfold Machine.programCut
  have hu := h.unitsDone (fin := fin) (n := (dst + data.length + 255) / 256 - dst / 256)
  exact .ite hu.nvmPut hu.nvmPut.nvmTear

theorem Sound.nvmPart {fin : Bool} (h : Sound False σ s) : Sound False σ (nvmPart fin s) := by
  unfold Machine.nvmPart
  dsimp only
  split
  · exact h
  · exact h.nvmErase.nvmTear
  · exact h.eraseCut
  · exact h.programCut
  · exact h.eraseCut

theorem Sound.nvmCut (h : Sound False σ s) : Sound False σ (nvmCut s) := h.nvmPart

theorem Sound.commitDone (h : Sound False σ s) : Sound False σ (commitDone s) := by
  unfold Machine.commitDone
  split
  · exact .ite h.same.nvmCut.stIdle.stError h.same.commitWell
  · exact h

theorem Sound.nvmTimeout (h : Sound False σ s) : Sound False σ (nvmTimeout s) := .ite h h.nvmCut.stIdle.stError

theorem Sound.stAbandon (h : Sound False σ s) : Sound False σ (stAbandon s) := .ite h h.nvmCut.stIdle

theorem Sound.stEndAtUnit (h : Sound False σ s) : Sound False σ (stEndAtUnit s) := .ite h h.nvmPart.stIdle

theorem Sound.releaseCore {c : CoreId} {entry : Nat} (h : Sound False σ s) : Sound False σ (releaseCore c entry s) := .ite h h.setCore

theorem Sound.relWrite {v : Word} (h : Sound False σ s) : Sound False σ (relWrite v s) := h.foldl (fun _ hu _ => hu.releaseCore.setRb)

theorem Sound.burn {o : Otp} (h : Sound False σ s) (hb : Burnt s.otp o) : Sound False σ { s with otp := o } := ⟨h.canonical, h.burnt.trans hb, h.cores⟩

theorem Sound.revokeWrite {v : Word} (h : Sound False σ s) : Sound False σ (revokeWrite v s) :=
  h.burn ⟨Nat.le_refl _, Nat.le_refl _, by ext i; simpa using .inl, rfl⟩

/-! ### The energy ledger: credit, verdicts and group estimates -/

theorem Sound.setCredit {x : Int} (h : Sound False σ s) : Sound False σ (setCredit x s) := .ite (.ite h.same h.same.setRb.icuEvent.pulse) h.same.setRb

theorem Sound.creditWrite {v : Word} (h : Sound False σ s) : Sound False σ (creditWrite v s) := h.setCredit

theorem Sound.elgVerdict {e : Nat} (h : Sound False σ s) : Sound False σ (elgVerdict e s).2 :=
  .ite_snd h.setRb.icuEvent.snd (.ite_snd h (.ite_snd h (.ite_snd h.setReg.snd
    (.ite_snd h.setCredit.setReg.snd (.ite_snd h.setCredit.setReg.snd h)))))

theorem Sound.elgRelease {e : Nat} (h : Sound κ σ s) : Sound κ σ (elgRelease e s) := h.setReg

theorem Sound.elgSnapshot (h : Sound False σ s) : Sound False σ (elgSnapshot s) := (h.foldl (fun _ hu _ => hu.setReg.setReg)).setReg64

/-! ### The Idene Link's own operations: ports that rise and fall, requests that end, fabric time, management packets -/

theorem Sound.endRequest {tag resp cause : Nat} {bytes : List Byte} (h : Sound False σ s) : Sound False σ (endRequest tag resp cause bytes s) := by
  unfold Machine.endRequest
  dsimp only
  split
  · exact h
  · exact .ite (.ite h.same h.same) (.same (.ite h.same h.same.outLog))

theorem Sound.lateAnswer {tag : Nat} (h : Sound False σ s) : Sound False σ (lateAnswer tag s) := .ite h.same h.countUp

theorem Sound.ftUnlock (h : Sound False σ s) : Sound False σ (ftUnlock s) := .ite h.same.setRb.tbUnlockFrom h.same

theorem Sound.servoCorrect {first : Bool} {off : Int} (h : Sound False σ s) : Sound False σ (servoCorrect first off s) :=
  .ite h.draw.tbSetRate.tbStepBy h.draw.tbSetRate.tbOffsetBy

theorem Sound.ftExchange {t1 t2 t3 t4 : Time80} (h : Sound False σ s) : Sound False σ (ftExchange t1 t2 t3 t4 s) := by
  unfold Machine.ftExchange
  refine .ite ?_ h
  extract_lets a b x good
  split
  rename_i q1 s1 e1
  have h1 : Sound False σ s1 := h.draw.of_snd e1
  split
  rename_i q2 s2 e2
  have h2 : Sound False σ s2 := h1.draw.of_snd e2
  extract_lets s3 off s4 v s5 s6
  have h4 : Sound False σ s4 := h2.setRf.setRf
  have hv : Sound False σ v := .pulse (.ite h4.servoCorrect h4)
  have h5 : Sound False σ s5 := hv.same
  exact .ite h5.ftUnlock (.ite (h5.same : Sound False σ s6).setRb.icuEvent h5.same)

theorem Sound.ownAnswer {p : Packet} (h : Sound False σ s) : Sound False σ (ownAnswer p s) := .ite (.ite h.endRequest h.endRequest) h.lateAnswer

theorem Sound.sendRouted {p : Packet} (h : Sound False σ s) : Sound False σ (sendRouted p s) := by
  unfold Machine.sendRouted
  refine .ite h.ownAnswer ?_
  split
  · exact h.linkSend
  · exact h

theorem Sound.sendNack {p : Packet} {code : Nat} (h : Sound False σ s) : Sound False σ (sendNack p code s) := h.sendRouted

theorem Sound.portCount {r : Nat → Nat} {p : Nat} (h : Sound False σ s) : Sound False σ (portCount r p s) := h.countUp

theorem Sound.outputPut {q : Nat} {p : Packet} (h : Sound False σ s) : Sound False σ (outputPut q p s) := .ite h.portCount.icuEvent h.linkSend

theorem Sound.mtxEnd {err : Bool} (h : Sound False σ s) : Sound False σ (mtxEnd err s) := .icuEvent (.ite h.setRb.setRb.setRb h.setRb.setRb)

theorem Sound.shareCount {q : Nat} {p : Packet} (h : Sound False σ s) : Sound False σ (shareCount q p s) := h.same

theorem Sound.transmit {q : Nat} (h : Sound False σ s) : Sound False σ (transmit q s) := by
  unfold Machine.transmit
  dsimp only
  refine .ite h ?_
  split
  · exact h
  · split
    · exact h
    · exact .ite h.shareCount.same.mtxEnd h.shareCount.same

theorem Sound.linkTick (h : Sound False σ s) : Sound False σ (linkTick s) := h.foldl (fun _ hu _ => hu.transmit)

theorem Sound.portFall {p : Nat} (h : Sound False σ s) : Sound False σ (portFall p s) :=
  .pulse (.icuEvent (.ite (.ftUnlock (.foldl (.foldl (.portCount (.ite h.setRf.same.mtxEnd h.setRf.same)) (fun _ hu _ => .ite hu.sendNack hu))
    (fun _ hu _ => hu.endRequest))) (.foldl (.foldl (.portCount (.ite h.setRf.same.mtxEnd h.setRf.same)) (fun _ hu _ => .ite hu.sendNack hu))
    (fun _ hu _ => hu.endRequest))))

theorem Sound.portDown {p : Nat} (h : Sound False σ s) : Sound False σ (portDown p s) := .ite h.portFall h.setRf.same

theorem Sound.lpllCheck (h : Sound False σ s) : Sound False σ (lpllCheck s) := .ite h h.setRb

theorem Sound.portCtlWrite {p : Nat} {v : Word} (h : Sound False σ s) : Sound False σ (portCtlWrite p v s) :=
  .ite (.ite h.setReg.portDown h.setReg) (.ite h.setReg.portDown.lpllCheck h.setReg)

theorem Sound.mgmtWrite {x0 : List (List Byte)} (h : Sound False σ s) : Sound False σ (mgmtWrite x0 s) := by
  induction x0 generalizing s with
  | nil => exact h.same
  | cons l l1 ih =>
    conv => arg 3; whnf
    split
    · rename_i u1 e
      have hu1 : Sound False σ u1 := h.portVLost.localWrite.of_snd e
      exact h.same
    · rename_i u1 _ e
      have hu1 : Sound False σ u1 := h.portVLost.localWrite.of_snd e
      exact ih hu1.setRf.icuEvent.pulse

theorem Sound.mgmtDeliver {port : Nat} {pkt : Packet} {at_ : Nat} (h : Sound False σ s) : Sound False σ (mgmtDeliver port pkt at_ s) := .ite h.countUp h.mgmtWrite

theorem Sound.mtxGo (h : Sound False σ s) : Sound False σ (mtxGo s) := by
  unfold Machine.mtxGo
  dsimp only
  refine .ite h.draw.mtxEnd (.ite (.ite h.draw.setRb.setRb.same h.draw.mtxEnd) (.ite (.ite h.draw.mgmtDeliver.mtxEnd ?_) h.draw.mtxEnd))
  split
  · exact h.draw.setRb.setRb.same
  · exact h.draw.mtxEnd

theorem Sound.mtxgoWrite {v : Word} (h : Sound False σ s) : Sound False σ (mtxgoWrite v s) := .ite (.mtxGo (.ite h.setRb h)) (.ite h.setRb h)

theorem Sound.routeWrite {n : Nat} {plain : State → State} (h : Sound False σ s) (hplain : ∀ (a : State), Sound False σ a → Sound False σ (plain a)) :
    Sound False σ (routeWrite n s plain) :=
  .ite ((hplain _ h).foldl (fun _ hu _ => hu.endRequest)) (hplain _ h)

theorem Sound.idlCommonWrite {pa : Nat} {v : Word} {plain : State → State} (h : Sound False σ s) (hplain : ∀ (a : State), Sound False σ a → Sound False σ (plain a)) :
    Sound False σ (idlCommonWrite pa v s plain) :=
  .ite h.mtxgoWrite (.ite (hplain _ h).ftUnlock (hplain _ h))

/-! ### Register actions of the Erg, the memory integrity unit and the DRAM controller -/

/-- The bytes of a range dropped with their codes. -/
theorem Sound.dropBytes {p : Nat → Bool} (h : Sound False σ s) : Sound False σ { s with mem := smDrop p s.mem, ecc := smDrop p s.ecc } :=
  ⟨fun c => have ⟨hregs, hmem, hrest⟩ := h.canonical c; ⟨hregs, drop_wf p s hmem, hrest⟩, h.burnt, h.cores⟩

theorem Sound.rehash {n : Nat} (h : Sound False σ s) : Sound False σ (rehash n s) :=
  (h.dropBytes.foldl fun _ hu _ => hu.setByte).foldl fun _ hu _ => hu.setEcc

theorem Sound.ergHashWrite {v : Word} (h : Sound False σ s) : Sound False σ (ergHashWrite v s) := (h.foldl (fun _ hu _ => .ite hu.rehash hu)).setReg

theorem Sound.ergXqosWrite {v : Word} (h : Sound False σ s) : Sound False σ (ergXqosWrite v s) := h.setReg

theorem Sound.bgctlWrite {v : Word} (h : Sound False σ s) : Sound False σ (bgctlWrite v s) := h.setReg

theorem Sound.ergInitWrite {v : Word} (h : Sound False σ s) : Sound False σ (ergInitWrite v s) := h.foldl (fun _ hu _ => .ite hu.setRb.setRb hu)

theorem Sound.groupLeave {g : Nat} (h : Sound False σ s) : Sound False σ (groupLeave g s) := h.setReg.setRb

theorem Sound.groupZero {g : Nat} (h : Sound False σ s) : Sound False σ (groupZero g s) := h.dropBytes

theorem Sound.injWrite {m : Nat} {v : Word} (h : Sound False σ s) : Sound False σ (injWrite m v s) := .ite h.setRb h

theorem Sound.dmcCapWrite {v : Word} (h : Sound False σ s) : Sound False σ (dmcCapWrite v s) := h.setReg

theorem Sound.dmcCtlWrite {v : Word} (h : Sound False σ s) : Sound False σ (dmcCtlWrite v s) :=
  .ite (.ite h.setReg (.ite h.setReg (.ite h.setReg.setRb h.setReg.setReg.same))) (.ite h.setReg.setRb.setRb.same h.setReg)

theorem Sound.dmcTrained {fail : Nat} (h : Sound False σ s) : Sound False σ (dmcTrained fail s) := .ite (.ite h.same.setRb h.same.setRf.setReg) h

theorem Sound.vclkStops (h : Sound False σ s) : Sound False σ (vclkStops s) := .ite h h.same

theorem Sound.vclkRuns (h : Sound False σ s) : Sound False σ (vclkRuns s) := by
  unfold Machine.vclkRuns
  split
  · exact h.same
  · exact h

theorem Sound.wordWriteBack {wa : Nat} (h : Sound False σ s) : Sound False σ (wordWriteBack wa s) := h.foldl (fun _ hu _ => .ite hu hu.correctByte)

theorem Sound.scrubWord {wa : Nat} (h : Sound False σ s) : Sound False σ (scrubWord wa s) := .ite h (.ite h.ergWordRead.wordWriteBack h.ergWordRead)

theorem Sound.scrubRowWords (h : Sound False σ s) : Sound False σ (scrubRowWords s) := h.foldl (fun _ hu _ => hu.scrubWord)

theorem Sound.scrubRow (h : Sound False σ s) : Sound False σ (scrubRow s) := .ite h.scrubRowWords.setRf h

theorem Sound.lapSlow (h : Sound False σ s) : Sound False σ (lapSlow s) := .ite h.same.setRb.icuEvent.pulse h

theorem Sound.scrubLapEnd (h : Sound False σ s) : Sound False σ (scrubLapEnd s) := .ite h.scrubRowWords.lapSlow.setReg.setRf.same h

theorem Sound.ceWriteback {b : Nat} (h : Sound False σ s) : Sound False σ (ceWriteback b s) := by
  unfold Machine.ceWriteback
  split
  · exact h
  · exact h.same.wordWriteBack

theorem Sound.patrolRead {n : Nat} (h : Sound False σ s) : Sound False σ (patrolRead n s) := .ite (h.foldl (fun _ hu _ => hu.dramWordCheck)).same h

/-! ### The pin control unit and the levels of the pads -/

theorem Sound.pinRefused {n f cause : Nat} (h : Sound False σ s) : Sound False σ (pinRefused n f cause s) := .ite h.setRb h.logWord.icuEvent

theorem Sound.pinWrite {plain : Word → State → State} {n : Nat} {v : Word} (hplain : ∀ (a : Word) (a_1 : State), Sound False σ a_1 → Sound False σ (plain a a_1))
    (h : Sound False σ s) :
    Sound False σ (pinWrite plain n v s) :=
  .ite (hplain _ _ h.pinRefused) (.ite (hplain _ _ h) (.ite (.ite (hplain _ _ h) (hplain _ _ h).setReg)
    (.setReg (.ite (hplain _ _ h) (hplain _ _ h).setReg))))

/-! ### Sleep requests and the bypass relays: what a register write does -/

theorem Sound.sleepRefused {cond : Nat} (h : Sound False σ s) : Sound False σ (sleepRefused cond s) := h.setRf.setRb.same.icuEvent

theorem Sound.sameXclk {at_ : Option Nat} (h : Sound False σ s) : Sound False σ (sameXclk at_ s).2 := .ite_snd h.same.snd h

theorem Sound.sleepGo (h : Sound False σ s) : Sound False σ (sleepGo s) :=
  .ite h.sleepRefused (.ite h.sleepRefused (.ite h.sameXclk.sleepRefused h.sameXclk.setRb.same))

theorem Sound.bypWrite {v : Word} (h : Sound False σ s) : Sound False σ (bypWrite v s) :=
  .ite (.ite (.bypRelease (.ite h h.setRb.same)) (.ite (.bypRelease (.ite h h.setRb.same)) (.ite h h.setRb.same))) h.bypRelease

/-! ### The schedule engine: its banks, its boundaries and the swap -/

theorem Sound.shadowWrite {i : Nat} {v : Word} (h : Sound False σ s) : Sound False σ (shadowWrite i v s) := .ite (.same (.ite h.same h.same)) (.ite h.same h.same)

theorem Sound.swapRefused {cause : Nat} (h : Sound False σ s) : Sound False σ (swapRefused cause s) := h.setReg.icuEvent

theorem Sound.swapWrite {v : Word} (h : Sound False σ s) : Sound False σ (swapWrite v s) := .ite h (.ite h.swapRefused h.setRb.setRb.same)

theorem Sound.swapDecide (h : Sound False σ s) : Sound False σ (swapDecide s) := .ite h.setRb.swapRefused (.ite h.setRb.setRf.setReg.icuEvent h.setRb.swapRefused)

theorem Sound.sceCtlWrite {v : Word} (h : Sound False σ s) : Sound False σ (sceCtlWrite v s) :=
  .ite h.setReg.same (.ite (.ite h.setReg.same.swapDecide h.setReg.same) h.setReg)

theorem Sound.checkDone (h : Sound False σ s) : Sound False σ (checkDone s) := .ite (.ite h.setRb.same h.setRb.same.swapDecide) h

theorem Sound.sceBoundary (h : Sound False σ s) : Sound False σ (sceBoundary s) := .ite (.same (.setReg (.ite h.setReg.swapDecide h.setReg))) h

/-! ### The state of a vector context, the engine's accesses to memory, and completion records -/

theorem Sound.setVc {x : CtxId} {v : VCtx} (h : Sound κ σ s) : Sound κ σ (s.setVc x v) := h.same

theorem Sound.modVc {x : CtxId} {f : VCtx → VCtx} (h : Sound κ σ s) : Sound κ σ (s.modVc x f) := h.setVc

theorem Sound.setEa {n : Nat} {a : EauAcc} (h : Sound κ σ s) : Sound κ σ (s.setEa n a) := h.same

theorem Sound.m2Logged {wr : Bool} {pa : Nat} {r : BusRes × State} (h : Sound κ σ r.2) : Sound κ σ (m2Logged wr pa r).2 := h.xbmLogged

theorem Sound.m2Read {own : ReqOwner} {cls pa len : Nat} (h : Sound κ σ s) : Sound κ σ (m2Read own cls pa len s).2 :=
  .m2Logged (.ite_snd h.remoteRequest (.ite_snd h.localRead h))

theorem Sound.m2Write {own : ReqOwner} {cls pa : Nat} {bytes : List Byte} (h : Sound κ σ s) : Sound κ σ (m2Write own cls pa bytes s).2 :=
  .m2Logged (.ite_snd h.remoteRequest (.ite_snd h.localWrite h))

theorem Sound.vseRead {x : CtxId} {cls pa len occ : Nat} (h : Sound κ σ s) : Sound κ σ (vseRead x cls pa len occ s).2 := by
  unfold Machine.vseRead
  dsimp only
  refine .ite_snd ?_ ?_
  · split
    · rename_i u1 e
      have hu1 : Sound κ σ u1 := h.ergRead.of_snd e
      exact hu1
    · rename_i u1 e
      have hu1 : Sound κ σ u1 := h.ergRead.of_snd e
      exact hu1
  · split
    · exact h
    · refine .ite_snd h ?_
      split
      · rename_i u1 e1
        have hu1 : Sound κ σ u1 := Sound.of_snd (.busGate (fun _ ha => ha.m2Read) h) e1
        exact hu1
      · rename_i u1 e1
        have hu1 : Sound κ σ u1 := Sound.of_snd (.busGate (fun _ ha => ha.m2Read) h) e1
        exact hu1

theorem Sound.vseWrite {own : ReqOwner} {cls pa : Nat} {bytes : List Byte} (h : Sound κ σ s) : Sound κ σ (vseWrite own cls pa bytes s).2 := by
  unfold Machine.vseWrite
  refine .ite_snd h.ergWrite.snd ?_
  split
  · rename_i u1 e
    have hu1 : Sound κ σ u1 := Sound.of_snd (.busGate (fun _ ha => ha.m2Write) h) e
    exact hu1
  · rename_i u1 e
    have hu1 : Sound κ σ u1 := Sound.of_snd (.busGate (fun _ ha => ha.m2Write) h) e
    exact hu1

theorem Sound.recAfter {x : CtxId} {r : CRec} (h : Sound κ σ s) : Sound κ σ (recAfter x r s) :=
  .ite (h.setReg.foldl (fun _ hu _ => hu.icuEvent)).pulse (h.setReg.foldl (fun _ hu _ => hu.icuEvent))

theorem Sound.headNext {x : CtxId} (h : Sound κ σ s) : Sound κ σ (headNext x s) := .ite h.setReg.modVc h.setReg

theorem Sound.recRefused {x : CtxId} (h : Sound κ σ s) : Sound κ σ (recRefused x s) := h.setReg.setRb.icuEvent

theorem Sound.recHeld {x : CtxId} {l : List CRec} (h : Sound κ σ s) : Sound κ σ (recHeld x l s) :=
  .ite (.ite h.modVc h.modVc.setRb.icuEvent) h.modVc.setRb

theorem Sound.recFlush {x : CtxId} {x1 : List CRec} (h : Sound κ σ s) : Sound κ σ (recFlush x x1 s) := by
  induction x1 generalizing s with
  | nil => exact h.recHeld
  | cons a l ih =>
    refine .ite (ih h.recAfter) (.ite h.recHeld ?_)
    dsimp only
    split
    · rename_i u1 e
      have hu1 : Sound κ σ u1 := Sound.of_snd (.ite_snd h h.vseWrite) e
      exact .ite hu1.recHeld (ih hu1.headNext.recAfter)
    · rename_i u1 e
      have hu1 : Sound κ σ u1 := Sound.of_snd (.ite_snd h h.vseWrite) e
      exact hu1.recHeld
    · rename_i u1 _ _ e
      have hu1 : Sound κ σ u1 := Sound.of_snd (.ite_snd h h.vseWrite) e
      exact ih hu1.recRefused.recAfter

theorem Sound.recsGo {x : CtxId} (h : Sound False σ s) : Sound False σ (recsGo x s) := .ite h h.recFlush

theorem Sound.recGive {x : CtxId} {r : CRec} (h : Sound κ σ s) : Sound κ σ (recGive x r s) := h.recFlush

theorem Sound.recAnswered {x : CtxId} {ok : Bool} (h : Sound False σ s) : Sound False σ (recAnswered x ok s) := by
  unfold Machine.recAnswered
  split
  · exact .ite (.recFlush (.recAfter (.ite h.headNext h.recRefused))) h
  · exact h

theorem Sound.crtailWrite {x : CtxId} {v : Word} (h : Sound False σ s) : Sound False σ (crtailWrite x v s) := h.setReg.recsGo

theorem Sound.crbaseLoWrite {x : CtxId} {v : Word} (h : Sound False σ s) : Sound False σ (crbaseLoWrite x v s) := h.setReg.setReg.setReg.modVc.recsGo

theorem Sound.crsizeWrite {x : CtxId} {v : Word} (h : Sound False σ s) : Sound False σ (crsizeWrite x v s) := h.setReg.recsGo

theorem Sound.headArrives {x : CtxId} (h : Sound κ σ s) : Sound κ σ (headArrives x s) := h.modVc

theorem Sound.trigChanged {x : CtxId} (h : Sound False σ s) : Sound False σ (trigChanged x s) := .ite h.modVc h

theorem Sound.vseTrigger {x : CtxId} (h : Sound False σ s) : Sound False σ (vseTrigger x s).2 := .ite_snd h.modVc.snd h

theorem Sound.vmsLock {enabled : Bool} (h : Sound False σ s) : Sound False σ (vmsLock enabled s) := h.setRb.setRb.setRb

theorem Sound.vmsLockWrite {m : Nat} {v : Word} (h : Sound False σ s) : Sound False σ (vmsLockWrite m v s) := .ite h.vmsLock h

theorem Sound.vmsWindowWrite {m pa : Nat} {v : Word} (h : Sound False σ s) : Sound False σ (vmsWindowWrite m pa v s) := .ite h.setReg h

/-! ### One read and one write of a register, whoever asks -/

theorem Sound.ctlRead {m c pa : Nat} (h : Sound False σ s) : Sound False σ (ctlRead m c pa s).2 := by
  unfold Machine.ctlRead
  dsimp only
  split
  · exact .ite_snd h.icuClaim.snd h
  · exact .ite_snd h.icuClaim.snd h
  · exact .ite_snd h.icuClaim.snd h
  · exact .ite_snd h.icuClaim.snd h
  · exact .ite_snd h.setRb.snd h
  · exact .ite_snd h.draw.snd h
  · exact .ite_snd h.draw.snd h
  · exact h

theorem Sound.plainWrite {m pa : Nat} {v : Word} (h : Sound False σ s) : Sound False σ (plainWrite m pa v s) := by
  unfold Machine.plainWrite
  dsimp only
  split
  · exact h
  · exact .setReg (.ite h.siRefuse h)

theorem Sound.evrFrameWrite {m pa : Nat} {v : Word} (h : Sound False σ s) : Sound False σ (evrFrameWrite m pa v s) :=
  .ite h.cselWrite (.ite h.swpWrite (.ite h.setReg h.plainWrite))

theorem Sound.tbFrameWrite {m pa : Nat} {v : Word} (h : Sound False σ s) : Sound False σ (tbFrameWrite m pa v s) :=
  .ite h.tbRateWrite (.ite h.tbAdjWrite (.ite h.tbStepWrite h.plainWrite))

theorem Sound.tmuFrameWrite {m pa : Nat} {v : Word} (h : Sound False σ s) : Sound False σ (tmuFrameWrite m pa v s) :=
  .ite h.gcmd (.ite h.plainWrite.setTmAcc h.plainWrite)

theorem Sound.mcFrameWrite {m : Nat} {lvl : Level} {pa : Nat} {v : Word} (h : Sound False σ s) : Sound False σ (mcFrameWrite m lvl pa v s) :=
  .ite h.setRb (.ite h h.plainWrite)

theorem Sound.icuFrameWrite {m pa : Nat} {v : Word} (h : Sound False σ s) : Sound False σ (icuFrameWrite m pa v s) :=
  .ite (h.foldl (fun _ hu _ => hu.icuEvent)) (.ite h.plainWrite.wakeFor h.plainWrite)

theorem Sound.icuCoreFrameWrite {m c f pa : Nat} {v : Word} (h : Sound False σ s) : Sound False σ (icuCoreFrameWrite m c f pa v s) :=
  .ite (.ite h.icuComplete h) h.plainWrite

theorem Sound.ergFrameWrite {m pa : Nat} {v : Word} (h : Sound False σ s) : Sound False σ (ergFrameWrite m pa v s) :=
  .ite h.ergHashWrite (.ite h.ergXqosWrite (.ite h.bgctlWrite (.ite h.ergInitWrite h.plainWrite)))

theorem Sound.dmcFrameWrite {m pa : Nat} {v : Word} (h : Sound False σ s) : Sound False σ (dmcFrameWrite m pa v s) :=
  .ite h.dmcCtlWrite (.ite h.dmcCapWrite h.plainWrite)

theorem Sound.vcFrameWrite {m pa : Nat} {v : Word} (h : Sound False σ s) : Sound False σ (vcFrameWrite m pa v s) :=
  .ite h.crtailWrite (.ite h.crbaseLoWrite (.ite h.crsizeWrite (.ite h.plainWrite.trigChanged h.plainWrite)))

theorem Sound.vmsFrameWrite {m pa : Nat} {v : Word} (h : Sound False σ s) : Sound False σ (vmsFrameWrite m pa v s) :=
  .ite h.vmsLockWrite (.ite h.vmsWindowWrite h.plainWrite)

theorem Sound.elgFrameWrite {m pa : Nat} {v : Word} (h : Sound False σ s) : Sound False σ (elgFrameWrite m pa v s) :=
  .ite h.creditWrite (.ite h.same (.ite (.ite h.elgSnapshot h) (.ite h.plainWrite.setCredit h.plainWrite)))

theorem Sound.tncFrameWrite {m pa : Nat} {v : Word} (h : Sound False σ s) : Sound False σ (tncFrameWrite m pa v s) :=
  .ite h.bypWrite (.ite h.plainWrite.same h.plainWrite)

theorem Sound.macFrameWrite {m pa : Nat} {v : Word} (h : Sound False σ s) : Sound False σ (macFrameWrite m pa v s) := h.plainWrite.lpllCheck

theorem Sound.sceFrameWrite {m pa : Nat} {v : Word} (h : Sound False σ s) : Sound False σ (sceFrameWrite m pa v s) :=
  .ite h.sceCtlWrite (.ite h.swapWrite h.plainWrite)

theorem Sound.bcuFrameWrite {m pa : Nat} {v : Word} (h : Sound False σ s) : Sound False σ (bcuFrameWrite m pa v s) :=
  .ite h.stCtlWrite (.ite h.relWrite h.plainWrite)

theorem Sound.ksuFrameWrite {m pa : Nat} {v : Word} (h : Sound False σ s) : Sound False σ (ksuFrameWrite m pa v s) :=
  .ite (.ite h.revokeWrite h.siRefuse) h.plainWrite

theorem Sound.pmuFrameWrite {m : Nat} {lvl : Level} {pa : Nat} {v : Word} (h : Sound False σ s) : Sound False σ (pmuFrameWrite m lvl pa v s) :=
  .ite (.ite h.plainWrite.sleepGo h.plainWrite) h.plainWrite

theorem Sound.pcuFrameWrite {m pa : Nat} {v : Word} (h : Sound False σ s) : Sound False σ (pcuFrameWrite m pa v s) :=
  .ite (.pinWrite (fun _ _ ha_1 => ha_1.plainWrite) h) h.plainWrite

/-- One arm of a match on numerals: the state where the discriminant is that numeral, and the one of the arms behind it. -/
theorem Sound.arm {k l : Nat} {x : State} {b : ¬k = l → State} (ha : Sound κ s x) (hb : ∀ e, Sound κ s (b e)) :
    Sound κ s (if e : k = l then Eq.ndrec_symm (motive := fun _ => State) x e else b e) := by
  split
  next e => cases e; exact ha
  next => exact hb _

theorem Sound.ctlWrite {m c : Nat} {lvl : Level} {pa : Nat} {v : Word} (h : Sound False σ s) : Sound False σ (ctlWrite m c lvl pa v s) := by
  delta Machine.ctlWrite
  generalize pa / 0x10000 = k
  set_option smartUnfolding false in
  refine .arm (k := k) (l := 0x2011) ?_ (fun _ => ?_)
  · exact h.vcFrameWrite
  refine .arm ?_ (fun _ => ?_)
  · exact h.vcFrameWrite
  refine .arm ?_ (fun _ => ?_)
  · exact h.vcFrameWrite
  refine .arm ?_ (fun _ => ?_)
  · exact h.vcFrameWrite
  refine .arm ?_ (fun _ => ?_)
  · exact h.vcFrameWrite
  refine .arm ?_ (fun _ => ?_)
  · exact h.vcFrameWrite
  refine .arm ?_ (fun _ => ?_)
  · exact h.vcFrameWrite
  refine .arm ?_ (fun _ => ?_)
  · exact h.vcFrameWrite
  refine .arm ?_ (fun _ => ?_)
  · exact h.vmsFrameWrite
  refine .arm ?_ (fun _ => ?_)
  · exact h.ergFrameWrite
  refine .arm ?_ (fun _ => ?_)
  · exact .ite h.injWrite h.plainWrite
  refine .arm ?_ (fun _ => ?_)
  · exact h.dmcFrameWrite
  refine .arm ?_ (fun _ => ?_)
  · exact .ite h h.plainWrite
  refine .arm ?_ (fun _ => ?_)
  · exact h.icuFrameWrite
  refine .arm ?_ (fun _ => ?_)
  · exact h.icuCoreFrameWrite
  refine .arm ?_ (fun _ => ?_)
  · exact h.icuCoreFrameWrite
  refine .arm ?_ (fun _ => ?_)
  · exact h.icuCoreFrameWrite
  refine .arm ?_ (fun _ => ?_)
  · exact h.icuCoreFrameWrite
  refine .arm ?_ (fun _ => ?_)
  · exact h.evrFrameWrite
  refine .arm ?_ (fun _ => ?_)
  · exact h.tbFrameWrite
  refine .arm ?_ (fun _ => ?_)
  · exact h.tmuFrameWrite
  refine .arm ?_ (fun _ => ?_)
  · exact h.tmuFrameWrite
  refine .arm ?_ (fun _ => ?_)
  · exact h.tmuFrameWrite
  refine .arm ?_ (fun _ => ?_)
  · exact h.tmuFrameWrite
  refine .arm ?_ (fun _ => ?_)
  · exact h.tmuFrameWrite
  refine .arm ?_ (fun _ => ?_)
  · exact h.tmuFrameWrite
  refine .arm ?_ (fun _ => ?_)
  · exact h.mcFrameWrite
  refine .arm ?_ (fun _ => ?_)
  · exact h.idlCommonWrite (fun _ ha => ha.plainWrite)
  refine .arm ?_ (fun _ => ?_)
  · exact h.routeWrite (fun _ ha => ha.plainWrite)
  refine .arm ?_ (fun _ => ?_)
  · exact .ite h.portCtlWrite h.plainWrite
  refine .arm ?_ (fun _ => ?_)
  · exact .ite h.portCtlWrite h.plainWrite
  refine .arm ?_ (fun _ => ?_)
  · exact .ite h.portCtlWrite h.plainWrite
  refine .arm ?_ (fun _ => ?_)
  · exact .ite h.portCtlWrite h.plainWrite
  refine .arm ?_ (fun _ => ?_)
  · exact .ite h.portCtlWrite h.plainWrite
  refine .arm ?_ (fun _ => ?_)
  · exact .ite h.portCtlWrite h.plainWrite
  refine .arm ?_ (fun _ => ?_)
  · exact h.tncFrameWrite
  refine .arm ?_ (fun _ => ?_)
  · exact h.macFrameWrite
  refine .arm ?_ (fun _ => ?_)
  · exact h.macFrameWrite
  refine .arm ?_ (fun _ => ?_)
  · exact h.macFrameWrite
  refine .arm ?_ (fun _ => ?_)
  · exact h.macFrameWrite
  refine .arm ?_ (fun _ => ?_)
  · exact h.setReg
  refine .arm ?_ (fun _ => ?_)
  · exact h.sceFrameWrite
  refine .arm ?_ (fun _ => ?_)
  · exact h.shadowWrite
  refine .arm ?_ (fun _ => ?_)
  · exact h.shadowWrite
  refine .arm ?_ (fun _ => ?_)
  · exact h.shadowWrite
  refine .arm ?_ (fun _ => ?_)
  · exact h.shadowWrite
  refine .arm ?_ (fun _ => ?_)
  · exact h.shadowWrite
  refine .arm ?_ (fun _ => ?_)
  · exact h.shadowWrite
  refine .arm ?_ (fun _ => ?_)
  · exact h.shadowWrite
  refine .arm ?_ (fun _ => ?_)
  · exact h.shadowWrite
  refine .arm ?_ (fun _ => ?_)
  · exact h.bcuFrameWrite
  refine .arm ?_ (fun _ => ?_)
  · exact h.ksuFrameWrite
  refine .arm ?_ (fun _ => ?_)
  · exact h.pmuFrameWrite
  refine .arm ?_ (fun _ => ?_)
  · exact h.elgFrameWrite
  refine .arm ?_ (fun _ => ?_)
  · exact h.pcuFrameWrite
  refine .arm ?_ (fun _ => ?_)
  · exact h.siFrameWrite
  exact h.plainWrite

/-! ### Bus-matrix transactions: decode, reach, enables and responses -/

theorem Sound.farRequest {m : Nat} {own : ReqOwner} {kind pa len fn : Nat} {data : List Byte} {coll : List Nat} (h : Sound False σ s) :
    Sound False σ (farRequest m own kind pa len fn data coll s).2 :=
  .ite_snd h.same.remoteRequest h.remoteRequest

theorem Sound.frameRead {m c pa len : Nat} (h : Sound False σ s) : Sound False σ (frameRead m c pa len s).2 := .ite_snd h.ctlRead.snd h

theorem Sound.frameWrite {m c : Nat} {lvl : Level} {pa : Nat} {bytes : List Byte} (h : Sound False σ s) : Sound False σ (frameWrite m c lvl pa bytes s).2 :=
  .ite_snd h.ctlWrite.snd h

theorem Sound.targetRead {m c : Nat} {own : ReqOwner} {pa len : Nat} (h : Sound False σ s) : Sound False σ (targetRead m c own pa len s).2 := by
  unfold Machine.targetRead
  refine .ite_snd h ?_
  split
  · exact h.localRead
  · exact h.localRead
  · exact h
  · exact h.farRequest
  · refine .ite_snd (.ite_snd h ?_) h.frameRead
    split
    · rename_i u1 e1
      have hu1 : Sound False σ u1 := h.siRead.of_snd e1
      exact hu1
    · rename_i u1 e1
      have hu1 : Sound False σ u1 := h.siRead.of_snd e1
      exact hu1
  · exact h.frameRead

theorem Sound.readIssued {m c : Nat} {own : ReqOwner} {id pa len : Nat} (h : Sound False σ s) : Sound False σ (readIssued m c own id pa len s).2 :=
  h.targetRead.xbmLogged

theorem Sound.busRead {m c : Nat} {own : ReqOwner} {id pa len : Nat} (h : Sound False σ s) : Sound False σ (busRead m c own id pa len s).2 :=
  .busGate (fun _ ha => ha.readIssued) h

theorem Sound.targetWrite {m c : Nat} {lvl : Level} {own : ReqOwner} {pa : Nat} {bytes : List Byte} {coll : List Nat} (h : Sound False σ s) :
    Sound False σ (targetWrite m c lvl own pa bytes coll s).2 := by
  unfold Machine.targetWrite
  refine .ite_snd h ?_
  split
  · exact h.localWrite
  · exact h.localWrite
  · exact h.farRequest
  · exact .ite_snd (.ite_snd h h.storeBytes.snd) h.frameWrite
  · exact h.frameWrite

theorem Sound.busWrite {m c : Nat} {lvl : Level} {own : ReqOwner} {id pa : Nat} {bytes : List Byte} {coll : List Nat} (h : Sound False σ s) :
    Sound False σ (busWrite m c lvl own id pa bytes coll s).2 :=
  .busGate (fun _ ha => ha.targetWrite.xbmLogged) h

theorem Sound.writeIssued {m c : Nat} {lvl : Level} {own : ReqOwner} {id pa : Nat} {bytes : List Byte} (h : Sound False σ s) :
    Sound False σ (writeIssued m c lvl own id pa bytes s).2 := by
  unfold Machine.writeIssued
  split
  · rename_i u1 e
    have hu1 : Sound False σ u1 := h.portVLost.of_snd e
    exact hu1.targetWrite.xbmLogged

theorem Sound.busWriteV {m c : Nat} {lvl : Level} {own : ReqOwner} {id pa : Nat} {bytes : List Byte} (h : Sound False σ s) :
    Sound False σ (busWriteV m c lvl own id pa bytes s).2 :=
  .busGate (fun _ ha => ha.writeIssued) h

theorem Sound.targetAtomic {m : Nat} {own : ReqOwner} {pa fn : Nat} {v : Word} {coll : Bool} (h : Sound False σ s) :
    Sound False σ (targetAtomic m own pa fn v coll s).2 := by
  unfold Machine.targetAtomic
  refine .ite_snd h ?_
  split
  · exact h.localAtomic
  · exact h.localAtomic
  · exact h.farRequest
  · refine .ite_snd ?_ h
    split
    · rename_i u1 e1
      have hu1 : Sound False σ u1 := h.siRead.of_snd e1
      exact hu1.storeBytes.snd
    · rename_i u1 e1
      have hu1 : Sound False σ u1 := h.siRead.of_snd e1
      exact hu1
  · exact h

theorem Sound.atomicIssued {m : Nat} {own : ReqOwner} {id pa fn : Nat} {v : Word} (h : Sound False σ s) : Sound False σ (atomicIssued m own id pa fn v s).2 := by
  unfold Machine.atomicIssued
  split
  · rename_i u1 e
    have hu1 : Sound False σ u1 := h.portVLost.of_snd e
    exact hu1.targetAtomic.xbmLogged

theorem Sound.busAtomicV {m : Nat} {own : ReqOwner} {id pa fn : Nat} {v : Word} (h : Sound False σ s) : Sound False σ (busAtomicV m own id pa fn v s).2 :=
  .busGate (fun _ ha => ha.atomicIssued) h

theorem Sound.xactPart {x : Xact} {pa : Nat} {bytes : List Byte} (h : Sound False σ s) : Sound False σ (xactPart x pa bytes s).2 := by
  unfold Machine.xactPart
  dsimp only
  refine .ite_snd h (.ite_snd (.snd ?_) ?_)
  · split
    · exact .targetRead (.ite_snd h h.portVLost)
    · exact .targetWrite (.ite_snd h h.portVLost)
    · exact .targetAtomic (.ite_snd h h.portVLost)
  · split
    · exact .targetRead (.ite_snd h h.portVLost)
    · exact .targetWrite (.ite_snd h h.portVLost)
    · exact .targetAtomic (.ite_snd h h.portVLost)

theorem Sound.xactEnd {x : Xact} (h : Sound False σ s) : Sound False σ (xactEnd x s).2 := .ite_snd h h.xbmLogged.snd

theorem Sound.xactRun {x0 : List (Nat × List Byte)} {x1 : Xact} (h : Sound False σ s) : Sound False σ (xactRun x0 x1 s).2 := by
  induction x0 generalizing x1 s with
  | nil => exact h.xactEnd
  | cons a l ih =>
    conv => arg 3; arg 1; whnf
    split
    · rename_i u1 e
      have hu1 : Sound False σ u1 := h.xactPart.of_snd e
      exact ih hu1
    · rename_i u1 e
      have hu1 : Sound False σ u1 := h.xactPart.of_snd e
      exact hu1

theorem Sound.grantXact {x : Xact} (h : Sound False σ s) : Sound False σ (grantXact x s).2 := by
  unfold Machine.grantXact
  dsimp only
  split
  · exact h.same.xactRun
  · exact h.same.xactEnd

theorem Sound.xactsClean (h : Sound False σ s) : Sound False σ (xactsClean s) := h.same

theorem Sound.issueXact {x : Xact} (h : Sound False σ s) : Sound False σ (issueXact x s) := .ite h.grantXact.same.xactsClean h.same

theorem Sound.onXact {f : Xact → State → Xact × State} {i : Nat} (hf : ∀ (a : Xact) (a_1 : State), Sound False σ a_1 → Sound False σ (f a a_1).2) (h : Sound False σ s)
    :
    Sound False σ (onXact f i s) := by
  unfold Machine.onXact
  dsimp only
  split
  · exact (hf _ _ h).same
  · exact h

theorem Sound.retryXact {i : Nat} (h : Sound False σ s) : Sound False σ (retryXact i s) := by
  unfold Machine.retryXact
  split
  · exact .ite (.onXact (fun _ _ ha_1 => ha_1.xactRun) h) h
  · exact h

theorem Sound.orRegs {l : List (Nat × Word)} (h : Sound False σ s) : Sound False σ (orRegs l s) := h.foldl (fun _ hu _ => hu.setReg)

theorem Sound.staying {s0 : State} {f : State → State} (hf : ∀ (a : State), Sound False σ a → Sound False σ (f a)) (hs : Sound False σ s) : Sound False σ (staying s0 f s) :=
  (hf _ hs).orRegs

theorem Sound.xbmTick {s0 : State} (hs : Sound False σ s) : Sound False σ (xbmTick s0 s) := by
  unfold Machine.xbmTick
  dsimp only
  refine .xactsClean ((hs.foldl (fun _ hu _ => .staying (fun _ ha1 => ha1.retryXact) hu)).foldl (fun u hu a => ?_))
  split
  · exact .staying (fun _ ha1 => .onXact (fun _ _ ha_1 => ha_1.grantXact) ha1) hu
  · exact hu

theorem Sound.posted {x : Xact} {go : State → BusRes × State} (hgo : ∀ (a : State), Sound False σ a → Sound False σ (go a).2) (h : Sound False σ s) :
    Sound False σ (posted x go s) := by
  unfold Machine.posted
  refine .ite ?_ h.same
  split
  · rename_i u1 e
    have hu1 : Sound False σ u1 := (hgo _ h).of_snd e
    exact hu1
  · rename_i u1 e
    have hu1 : Sound False σ u1 := (hgo _ h).of_snd e
    exact .ite hu1 hu1.same

theorem Sound.postWrite {m c : Nat} {lvl : Level} {pa : Nat} {bytes : List Byte} (h : Sound False σ s) : Sound False σ (postWrite m c lvl pa bytes s) :=
  .posted (fun _ ha => ha.writeIssued) h

theorem Sound.postRead {m c pa len : Nat} (h : Sound False σ s) : Sound False σ (postRead m c pa len s) := .posted (fun _ ha => ha.readIssued) h

theorem Sound.xactAnswered {m id pa len : Nat} {resp : Resp} {bytes : List Byte} (h : Sound False σ s) :
    Sound False σ (xactAnswered m id pa len resp bytes s) := by
  unfold Machine.xactAnswered
  dsimp only
  split
  · exact .onXact (fun _ _ ha_1 => .ite_snd ha_1.xactEnd ha_1) h
  · exact h

/-! ### Two-stage translation: tables, walks, copies and their removal -/

theorem Sound.walkErr {ag : Nat} {s2 : Bool} {pa : Nat} (h : Sound False σ s) : Sound False σ (walkErr ag s2 pa s) :=
  .icuEvent (.ite h.setRb h.logWord.setReg.setReg)

theorem Sound.walkAccess {pa len : Nat} {go : State → BusRes × State} (hgo : ∀ (a : State), Sound False σ a → Sound False σ (go a).2) (h : Sound False σ s) :
    Sound False σ (walkAccess pa len go s).2 := by
  unfold Machine.walkAccess
  dsimp only
  split
  · refine .ite_snd h.same.snd ?_
    split
    · rename_i u1 e1
      have hu1 : Sound False σ u1 := (hgo _ h.same).of_snd e1
      exact hu1
    · rename_i u1 e1
      have hu1 : Sound False σ u1 := (hgo _ h.same).of_snd e1
      exact hu1.same.snd
  · split
    · rename_i u1 e1
      have hu1 : Sound False σ u1 := (hgo _ h).of_snd e1
      exact hu1
    · rename_i u1 e1
      have hu1 : Sound False σ u1 := (hgo _ h).of_snd e1
      exact hu1.same.snd

theorem Sound.probeRead {ag : Nat} {tmo s2 : Bool} {sz k pa ipa : Nat} (h : Sound False σ s) : Sound False σ (probeRead ag tmo s2 sz k pa ipa s).2 := by
  unfold Machine.probeRead
  refine .ite_snd h ?_
  split
  · rename_i u1 e
    have hu1 : Sound False σ u1 := Sound.of_snd (.walkAccess (fun _ ha => ha.busRead) h) e
    exact .ite_snd hu1.xbmLog.walkErr.snd hu1
  · rename_i u1 e
    have hu1 : Sound False σ u1 := Sound.of_snd (.walkAccess (fun _ ha => ha.busRead) h) e
    exact .ite_snd hu1 hu1.walkErr.snd

theorem Sound.of_snd3 {α β γ : Type} {p : α × β × γ × State} {a : α} {b : β} {c : γ} (h : Sound False s p.2.2.2) (e : p = (a, b, c, u)) : Sound False s u := by
  subst e; exact h

theorem Sound.s2Search {ag : Nat} {cfg : MmuCfg} {part ipa : Nat} {l : List (Nat × Nat)} (h : Sound False σ s) :
    Sound False σ (s2Search ag cfg part ipa l s).2 :=
  Search.s2Search_keeps (Q := Sound False σ) (fun _ _ _ _ _ h => h.probeRead) h

theorem Sound.s2Cached {part ipa : Nat} {k : AccKind} (h : Sound False σ s) : Sound False σ (s2Cached part ipa k s).2 := by
  unfold Machine.s2Cached
  dsimp only
  split
  · exact h
  · exact .ite_snd h.same.snd h.same.snd

theorem Sound.s2From {ag : Nat} {cfg : MmuCfg} {part ipa : Nat} {k : AccKind} {l : List (Nat × Nat)} (h : Sound False σ s) :
    Sound False σ (s2From ag cfg part ipa k l s).2 := by
  unfold Machine.s2From
  split
  · rename_i u1 e
    have hu1 : Sound False σ u1 := h.s2Search.of_snd e
    split
    · exact hu1
    · exact hu1
  · rename_i u1 e
    have hu1 : Sound False σ u1 := h.s2Search.of_snd e
    exact hu1
  · rename_i u1 e
    have hu1 : Sound False σ u1 := h.s2Search.of_snd e
    exact hu1

theorem Sound.s2Find {ag : Nat} {cfg : MmuCfg} {part ipa : Nat} {k : AccKind} (h : Sound False σ s) : Sound False σ (s2Find ag cfg part ipa k s).2 := by
  unfold Machine.s2Find
  refine .ite_snd h ?_
  split
  · rename_i u1 e
    have hu1 : Sound False σ u1 := h.s2Cached.of_snd e
    exact hu1
  · rename_i u1 e
    have hu1 : Sound False σ u1 := h.s2Cached.of_snd e
    exact hu1.s2From

theorem Sound.walkOr {pa : Nat} {bits : Word} (h : Sound False σ s) : Sound False σ (walkOr pa bits s).2 := by
  unfold Machine.walkOr
  split
  · rename_i u1 e
    have hu1 : Sound False σ u1 := h.busAtomicV.of_snd e
    exact .ite_snd hu1 hu1
  · exact h.busAtomicV

theorem Sound.adCheck {cfg : MmuCfg} {k : AccKind} {a d : Bool} {pa : Nat} {still : Word → Bool} {fault : Nat → WalkFail} (h : Sound False σ s) :
    Sound False σ (adCheck cfg k a d pa still fault s).2 := by
  unfold Machine.adCheck
  dsimp only
  refine .ite_snd h (.ite_snd h ?_)
  split
  · rename_i u1 e
    have hu1 : Sound False σ u1 := Sound.of_snd (.walkAccess (fun _ ha1 => ha1.walkOr) h) e
    exact .ite_snd hu1.xbmLog.snd hu1
  · rename_i u1 e
    have hu1 : Sound False σ u1 := Sound.of_snd (.walkAccess (fun _ ha1 => ha1.walkOr) h) e
    refine .ite_snd hu1 ?_
    split
    · rename_i u3 e1
      have hu3 : Sound False σ u3 := Sound.of_snd (.walkAccess (fun _ ha1 => ha1.busRead) hu1) e1
      exact hu3
    · rename_i u3 e1
      have hu3 : Sound False σ u3 := Sound.of_snd (.walkAccess (fun _ ha1 => ha1.busRead) hu1) e1
      exact .ite_snd hu3 hu3

theorem Sound.s2Keep {e : S2Entry} (h : Sound False σ s) : Sound False σ (s2Keep e s) := .ite h.same h

theorem Sound.s2Finish {ag : Nat} {cfg : MmuCfg} {part : Nat} {k : AccKind} {keep : Bool} {ipa x6 : Nat} {x7 : S2Entry × Bool} (h : Sound False σ s) :
    Sound False σ (s2Finish ag cfg part k keep ipa x6 x7 s).2 := by
  induction x6 generalizing x7 s with
  | zero => exact h
  | succ k1 ih =>
    refine .ite_snd h ?_
    split
    · rename_i u1 e
      have hu1 : Sound False σ u1 := h.adCheck.of_snd e
      split
      · rename_i u3 e1
        have hu3 : Sound False σ u3 := hu1.s2From.of_snd e1
        exact ih hu3
      · rename_i u3 e1
        have hu3 : Sound False σ u3 := hu1.s2From.of_snd e1
        exact hu3
      · rename_i u3 e1
        have hu3 : Sound False σ u3 := hu1.s2From.of_snd e1
        exact hu3
    · rename_i u1 _ e
      have hu1 : Sound False σ u1 := h.adCheck.of_snd e
      exact .snd (.ite hu1.s2Keep hu1)
    · rename_i u1 e
      have hu1 : Sound False σ u1 := h.adCheck.of_snd e
      exact hu1
    · rename_i u1 e
      have hu1 : Sound False σ u1 := h.adCheck.of_snd e
      exact hu1

theorem Sound.tableAddr {ag : Nat} {cfg : MmuCfg} {part ipa : Nat} {keep : Bool} (h : Sound False σ s) : Sound False σ (tableAddr ag cfg part ipa keep s).2 := by
  unfold Machine.tableAddr
  dsimp only
  split
  · rename_i u1 e
    have hu1 : Sound False σ u1 := by
      refine Sound.of_snd ?_ e
      split
      · rename_i u3 e1
        have hu3 : Sound False σ u3 := h.s2Find.of_snd e1
        exact hu3.s2Finish
      · rename_i u3 e1
        have hu3 : Sound False σ u3 := h.s2Find.of_snd e1
        exact hu3
      · rename_i u3 e1
        have hu3 : Sound False σ u3 := h.s2Find.of_snd e1
        exact hu3
    exact hu1
  · split
    · rename_i u2 e
      have hu2 : Sound False σ u2 := h.s2Find.of_snd e
      exact hu2.s2Finish
    · rename_i u2 e
      have hu2 : Sound False σ u2 := h.s2Find.of_snd e
      exact hu2
    · rename_i u2 e
      have hu2 : Sound False σ u2 := h.s2Find.of_snd e
      exact hu2

theorem Sound.s1Search {ag : Nat} {cfg : MmuCfg} {asid part va : Nat} {keep : Bool} {l : List (Nat × Nat)} (h : Sound False σ s) :
    Sound False σ (s1Search ag cfg asid part va keep l s).2 :=
  Search.s1Search_keeps (Q := Sound False σ) (fun _ _ h => h.tableAddr) (fun _ _ _ _ _ h => h.probeRead) h

theorem Sound.s1Find {ag : Nat} {cfg : MmuCfg} {asid part va : Nat} {k : AccKind} {user keep : Bool} {l : List (Nat × Nat)} (h : Sound False σ s) :
    Sound False σ (s1Find ag cfg asid part va k user keep l s).2 := by
  unfold Machine.s1Find
  dsimp only
  refine .ite_snd h ?_
  split
  · rename_i u1 e
    have hu1 : Sound False σ u1 := h.s1Search.of_snd e
    split
    · exact hu1
    · split
      · exact hu1
      · exact hu1
  · rename_i u1 e
    have hu1 : Sound False σ u1 := h.s1Search.of_snd e
    exact hu1
  · rename_i u1 e
    have hu1 : Sound False σ u1 := h.s1Search.of_snd e
    exact hu1

theorem Sound.walkFrom {ag : Nat} {cfg : MmuCfg} {asid part va : Nat} {k : AccKind} {user misal keep : Bool} {n : Nat} {l : List (Nat × Nat)}
    (h : Sound False σ s) : Sound False σ (walkFrom ag cfg asid part va k user misal keep n l s).2 := by
  induction n generalizing l s with
  | zero => exact h
  | succ n ih =>
    conv => arg 3; arg 1; whnf
    split
    · rename_i f s1 e
      exact h.s1Find.of_snd e
    · rename_i s1 e
      exact h.s1Find.of_snd e
    · rename_i e1 tab1 s1 e
      have h1 : Sound False σ s1 := h.s1Find.of_snd e
      extract_lets ipa again ad1
      have hagain {t : State} (ht : Sound False σ t) : Sound False σ (again t).2 := ih ht
      have had1 {t : State} (ht : Sound False σ t) : Sound False σ (ad1 t).2 := .ite_snd ht ht.adCheck
      split
      · rename_i s2 e
        exact h1.s2Find.of_snd e
      · rename_i f s2 e
        have h2 : Sound False σ s2 := h1.s2Find.of_snd e
        refine .ite_snd ?_ h2
        split
        · rename_i s3 e
          exact (had1 h2).of_snd e
        · rename_i s3 e
          exact (had1 h2).of_snd e
        · rename_i s3 e
          exact hagain ((had1 h2).of_snd e)
        · rename_i s3 _ e
          exact (had1 h2).of_snd e
      · rename_i e2 tab2 s2 e
        have h2 : Sound False σ s2 := h1.s2Find.of_snd e
        refine .ite_snd h2 ?_
        split
        · rename_i s3 e
          exact (had1 h2).of_snd e
        · rename_i s3 e
          exact (had1 h2).of_snd e
        · rename_i s3 e
          exact hagain ((had1 h2).of_snd e)
        · rename_i s3 _ e
          have h3 : Sound False σ s3 := (had1 h2).of_snd e
          dsimp only
          split
          · rename_i s4 e
            exact h3.s2Finish.of_snd e
          · rename_i s4 e
            exact h3.s2Finish.of_snd e
          · rename_i s4 e
            exact h3.s2Finish.of_snd e

theorem Sound.walk {ag : Nat} {cfg : MmuCfg} {asid part va : Nat} {k : AccKind} {user misal keep : Bool} (h : Sound False σ s) :
    Sound False σ (walk ag cfg asid part va k user misal keep s).2 :=
  h.walkFrom

theorem Sound.keepCopy {ag : Nat} {k : AccKind} {e : TlbEntry} (h : Sound False σ s) : Sound False σ (keepCopy ag k e s) := .ite h.same h.modCore

theorem Sound.thinCopies {ag : Nat} {p : TlbEntry → Bool} (h : Sound False σ s) : Sound False σ (thinCopies ag p s) := .ite h.same h.modCore

theorem Sound.copyLookup {ag asid part va : Nat} {k : AccKind} {user : Bool} (h : Sound False σ s) : Sound False σ (copyLookup ag asid part va k user s).2 := by
  unfold Machine.copyLookup
  split
  · exact h
  · exact .ite_snd (.snd (.ite h.thinCopies h.modCore)) (.ite_snd h.same.snd h.modCore.snd)

theorem Sound.walkEnd {ag : Nat} {k : AccKind} {keep : Bool} {r : WRes (Except Nat (TlbEntry × Bool)) × State} (h : Sound False σ r.2) :
    Sound False σ (walkEnd ag k keep r).2 := by
  unfold Machine.walkEnd
  split
  · exact h
  · exact h
  · exact h
  · exact .snd (.ite h.keepCopy h)

theorem Sound.walkRun {w : WalkRec} (h : Sound False σ s) : Sound False σ (walkRun w s).2.2 := by
  unfold Machine.walkRun
  split
  · rename_i u1 e
    have hu1 : Sound False σ u1 := h.same.walk.walkEnd.of_snd e
    exact hu1.same.snd
  · rename_i u1 _ e
    have hu1 : Sound False σ u1 := h.same.walk.walkEnd.of_snd e
    exact hu1.same.snd

theorem Sound.walkStart {ag asid part va : Nat} {k : AccKind} {user misal : Bool} (h : Sound False σ s) :
    Sound False σ (walkStart ag asid part va k user misal s).2 := by
  unfold Machine.walkStart
  dsimp only
  refine .ite_snd h.same.snd ?_
  split
  · rename_i u1 e
    have hu1 : Sound False σ u1 := h.walkRun.of_snd2 e
    exact hu1.same.snd
  · rename_i u1 _ e
    have hu1 : Sound False σ u1 := h.walkRun.of_snd2 e
    exact hu1

theorem Sound.translate {ag asid part va : Nat} {k : AccKind} {user misal : Bool} (h : Sound False σ s) :
    Sound False σ (Machine.translate ag asid part va k user misal s).2 := by
  unfold Machine.translate
  dsimp only
  split
  · rename_i u1 e
    have hu1 : Sound False σ u1 := h.copyLookup.of_snd e
    exact hu1.same.snd
  · rename_i u1 e
    have hu1 : Sound False σ u1 := h.copyLookup.of_snd e
    split
    · split
      · exact hu1
      · exact hu1.same.snd
    · exact hu1.walkStart

theorem Sound.walkOn {i : Nat} {w : WalkRec} (h : Sound False σ s) : Sound False σ (walkOn i w s) := by
  unfold Machine.walkOn
  dsimp only
  refine .ite h ?_
  split
  · rename_i u1 e
    have hu1 : Sound False σ u1 := h.walkRun.of_snd2 e
    exact hu1.same
  · rename_i u1 _ e
    have hu1 : Sound False σ u1 := h.walkRun.of_snd2 e
    exact .ite hu1.same hu1.same

theorem Sound.walkDone {i : Nat} (h : Sound False σ s) : Sound False σ (walkDone i s) := by
  unfold Machine.walkDone
  split
  · exact h
  · exact h.walkOn

theorem Sound.walkTimeout {i : Nat} (h : Sound False σ s) : Sound False σ (walkTimeout i s) := by
  unfold Machine.walkTimeout
  dsimp only
  split
  · exact h
  · exact h.walkOn

theorem Sound.walksAbandon {ag : Nat} (h : Sound κ σ s) : Sound κ σ (walksAbandon ag s) := h.same

theorem Sound.invalidate {by_ : Option Nat} {ty asid part addr : Nat} (h : Sound False σ s) : Sound False σ (invalidate by_ ty asid part addr s) :=
  .same (.ite h.thinCopies (h.foldl (fun _ hu _ => hu.thinCopies)))

/-! ### What every AQ32 instruction shares: accesses to memory, the store buffer, taking an exception and returning from one, hold windows, the hardware loop, and the frame in which an instruction runs -/

theorem Sound.bind {α β : Type} {x : Machine.Acc α} {f : α → State → Machine.Acc β} (h : Sound False σ (accState x))
    (hf : ∀ (a : α) (a_1 : State), Sound False σ a_1 → Sound False σ (accState (f a a_1))) :
    Sound False σ (accState (x.bind f)) := by
  unfold Machine.Acc.bind
  split
  · exact hf _ _ h
  · exact h
  · exact h

theorem Sound.forAll {α β : Type} {f : α → State → Machine.Acc β} {l : List α} (hf : ∀ a u, Sound False σ u → Sound False σ (accState (f a u))) (h : Sound False σ s) :
    Sound False σ (accState (Machine.Acc.forAll f l s)) := by
  induction l generalizing s with
  | nil => exact h
  | cons a t ih => exact .bind (hf a s h) fun _ _ h1 => .bind (ih h1) fun _ _ h2 => h2

theorem Sound.transPage {c : CoreId} {va : Nat} {k : AccKind} {misal : Bool} (h : Sound False σ s) : Sound False σ (transPage c va k misal s).2 := by
  unfold Machine.transPage
  dsimp only
  split
  · rename_i u1 e
    have hu1 : Sound False σ u1 := h.translate.of_snd e
    exact hu1
  · rename_i u1 e
    have hu1 : Sound False σ u1 := h.translate.of_snd e
    exact hu1
  · rename_i u1 e
    have hu1 : Sound False σ u1 := h.translate.of_snd e
    exact hu1
  · rename_i u1 e
    have hu1 : Sound False σ u1 := h.translate.of_snd e
    exact hu1

theorem Sound.transFresh {c : CoreId} {va len : Nat} {k : AccKind} {misal : Bool} (h : Sound False σ s) :
    Sound False σ (accState (transFresh c va len k misal s)) := by
  unfold Machine.transFresh
  dsimp only
  refine .ite_acc (.ite_acc h h) ?_
  split
  · rename_i u1 e
    have hu1 : Sound False σ u1 := h.transPage.of_snd e
    exact hu1
  · rename_i u1 e
    have hu1 : Sound False σ u1 := h.transPage.of_snd e
    exact hu1
  · rename_i u1 e
    have hu1 : Sound False σ u1 := h.transPage.of_snd e
    refine .ite_acc hu1 ?_
    split
    · rename_i u3 e1
      have hu3 : Sound False σ u3 := hu1.transPage.of_snd e1
      exact .ite_acc hu3 hu1
    · rename_i u3 e1
      have hu3 : Sound False σ u3 := hu1.transPage.of_snd e1
      exact hu3
    · rename_i u3 e1
      have hu3 : Sound False σ u3 := hu1.transPage.of_snd e1
      exact hu1
  · rename_i u1 e
    have hu1 : Sound False σ u1 := h.transPage.of_snd e
    refine .ite_acc hu1 ?_
    split
    · rename_i u3 e1
      have hu3 : Sound False σ u3 := hu1.transPage.of_snd e1
      exact hu3
    · rename_i u3 e1
      have hu3 : Sound False σ u3 := hu1.transPage.of_snd e1
      exact hu3
    · rename_i u3 e1
      have hu3 : Sound False σ u3 := hu1.transPage.of_snd e1
      exact hu3

theorem Sound.transPieces {c : CoreId} {va len : Nat} {k : AccKind} {misal : Bool} (h : Sound False σ s) :
    Sound False σ (accState (transPieces c va len k misal s)) := by
  unfold Machine.transPieces
  dsimp only
  split
  · exact h
  · exact h.transFresh.bind (fun _ _ ha_1 => ha_1.modCore.ok)

theorem Sound.both {α β : Type} {x : Machine.Acc α} {f : State → Machine.Acc β} (h : Sound False σ (accState x))
    (hf : ∀ (a : State), Sound False σ a → Sound False σ (accState (f a))) :
    Sound False σ (accState (x.both f)) := by
  unfold Machine.Acc.both
  split
  · exact (hf _ h).bind (fun _ _ ha_1 => ha_1)
  · exact h
  · split
    · rename_i u3 e
      have hu3 : Sound False σ u3 := (hf _ h).of_exc e
      exact .ite_acc hu3 h
    · rename_i u3 e
      have hu3 : Sound False σ u3 := (hf _ h).of_wait e
      exact hu3
    · rename_i u3 e
      have hu3 : Sound False σ u3 := (hf _ h).of_ok e
      exact h

theorem Sound.siSramUe {c : CoreId} {pa : Nat} {r : Resp} (h : Sound False σ s) : Sound False σ (siSramUe c pa r s) := .ite h.safeTrigger h

theorem Sound.access {c : CoreId} {pa len : Nat} {go : State → BusRes × State} (hgo : ∀ (a : State), Sound False σ a → Sound False σ (go a).2) (h : Sound False σ s) :
    Sound False σ (access c pa len go s).2 := by
  unfold Machine.access
  dsimp only
  split
  · refine .ite_snd h.modCore.snd (.ite_snd h.modCore.snd (.ite_snd h.modCore.modCore.snd ?_))
    split
    · rename_i u1 e1
      have hu1 : Sound False σ u1 := (hgo _ h.modCore).of_snd e1
      exact hu1
    · rename_i u1 e1
      have hu1 : Sound False σ u1 := (hgo _ h.modCore).of_snd e1
      exact hu1.modCore.snd
  · refine .ite_snd h (.ite_snd h.modCore.snd ?_)
    split
    · rename_i u1 e1
      have hu1 : Sound False σ u1 := (hgo _ h).of_snd e1
      exact hu1
    · rename_i u1 e1
      have hu1 : Sound False σ u1 := (hgo _ h).of_snd e1
      exact hu1.modCore.snd

theorem Sound.coreGate {c : CoreId} {x : Xact} {go : State → BusRes × State} (hgo : ∀ (a : State), Sound False σ a → Sound False σ (go a).2) (h : Sound False σ s) :
    Sound False σ (coreGate c x go s).2 := by
  unfold Machine.coreGate
  dsimp only
  refine .ite_snd ?_ h
  split
  · rename_i u1 e
    have hu1 : Sound False σ u1 := (hgo _ h.modCore).of_snd e
    exact .snd (.ite hu1 hu1.modCore)
  · exact hgo _ h.modCore

theorem Sound.l2Past {pa len : Nat} {r : BusRes × State} (h : Sound False σ r.2) : Sound False σ (l2Past pa len r).2 := by
  unfold Machine.l2Past
  dsimp only
  split
  · exact .ite_snd h.draw.same.snd h
  · exact h

theorem Sound.l2Stored {pa : Nat} {bytes : List Byte} {s0 s1 : State} (hs1 : Sound False σ s1) : Sound False σ (l2Stored pa bytes s0 s1) := .ite hs1.same hs1

theorem Sound.coreRead {c : CoreId} {m pa len : Nat} (h : Sound False σ s) : Sound False σ (coreRead c m pa len s).2 :=
  .ite_snd (.l2Past (.coreGate (fun _ ha => ha.readIssued) h)) (.coreGate (fun _ ha => ha.readIssued) h)

theorem Sound.ofBus {c : CoreId} {k : AccKind} {pa va : Nat} {okColl : Bool} {r : BusRes × State} (h : Sound False σ r.2) :
    Sound False σ (accState (Acc.ofBus c k pa va okColl r)) := by
  unfold Machine.Acc.ofBus
  split
  · exact h
  · exact .ite_acc h h.siSramUe.exc

theorem Sound.storeError {c : CoreId} {pa size lvl : Nat} {r : Resp} (h : Sound False σ s) : Sound False σ (storeError c pa size lvl r s) := by
  unfold Machine.storeError
  exact .modCore (.ite h.setSr h.setSr.setSr.setSr)

theorem Sound.drainOne {c : CoreId} (h : Sound False σ s) : Sound False σ (drainOne c s).2 := by
  unfold Machine.drainOne
  dsimp only
  split
  · exact h
  · refine .ite_snd ?_ h
    split
    · rename_i u1 e1
      have hu1 : Sound False σ u1 := h.modCore.writeIssued.of_snd e1
      exact .snd (.ite (.modCore (.ite hu1.l2Stored hu1)) (.storeError (.modCore (.ite hu1.l2Stored hu1))))
    · rename_i u1 e1
      have hu1 : Sound False σ u1 := h.modCore.writeIssued.of_snd e1
      exact .ite_snd hu1.modCore.snd (.snd (.ite hu1 hu1.modCore))

theorem Sound.drainUpTo {n : Nat} {c : CoreId} (h : Sound False σ s) : Sound False σ (drainUpTo n c s) := by
  induction n generalizing s with
  | zero => exact h
  | succ n ih => exact .ite (ih h.drainOne) h.drainOne

theorem Sound.drain {c : CoreId} (h : Sound False σ s) : Sound False σ (drain c s) := h.drainUpTo

theorem Sound.loopKeep {c : CoreId} {pa len : Nat} (h : Sound False σ s) : Sound False σ (loopKeep c pa len s) := .ite h.modCore h

theorem Sound.pushStore {c : CoreId} {b : BufStore} (h : Sound False σ s) : Sound False σ (pushStore c b s).2 :=
  .ite_snd h.drain.loopKeep.modCore.drain.snd h.drain.snd

theorem Sound.pushBytes {c : CoreId} {w lvl m n pa : Nat} {b : List Byte} (h : Sound False σ s) : Sound False σ (accState (pushBytes c w lvl m n pa b s)) := by
  induction n generalizing pa b s with
  | zero => exact h
  | succ n ih =>
    cases b with
    | nil => exact h
    | cons a b =>
      have ha := h.access (c := c) (pa := pa) (len := Nat.min w (a :: b).length) (go := Machine.pushStore c ⟨pa, (a :: b).take w, lvl, m, false⟩)
        fun _ hu => hu.pushStore
      conv => arg 3; arg 1; whnf
      split
      · rename_i v e
        exact ha.of_snd e
      · rename_i r x v e
        exact ih (ha.of_snd e)

theorem Sound.coreWrite {c : CoreId} {p : Piece} {bytes : List Byte} (h : Sound False σ s) : Sound False σ (coreWrite c p bytes s).2 :=
  .coreGate (fun _ ha => ha.writeIssued) h.loopKeep

theorem Sound.writeAll {c : CoreId} {x1 : List (Piece × List Byte)} (h : Sound False σ s) : Sound False σ (writeAll c x1 s).2 := by
  induction x1 generalizing s with
  | nil => exact h
  | cons a l ih =>
    conv => arg 3; arg 1; whnf
    split
    · rename_i u1 e
      have hu1 : Sound False σ u1 := h.coreWrite.of_snd e
      exact hu1
    · rename_i u1 e
      have hu1 : Sound False σ u1 := h.coreWrite.of_snd e
      refine .ite_snd hu1 ?_
      split
      · rename_i u3 e1
        have hu3 : Sound False σ u3 := (ih hu1).of_snd e1
        exact hu3
      · exact ih hu1

theorem Sound.writeTogether {c : CoreId} {l : List (Piece × List Byte)} (h : Sound False σ s) : Sound False σ (accState (writeTogether c l s)) := by
  have hw : Sound False σ (Machine.writeAll c l s).2 := h.writeAll
  unfold Machine.writeTogether
  split
  · exact h.modCore.wait
  · rename_i r v e
    have hv : Sound False σ v := hw.of_snd e
    refine Sound.ok (.ite ⟨fun k => ?_, hv.burnt, hv.cores⟩ hv)
    obtain ⟨hregs, _, _, hnvm⟩ := hv.canonical k
    obtain ⟨_, hmem, hdram, _⟩ := h.canonical k
    exact ⟨hregs, hmem, hdram, hnvm⟩

theorem Sound.writeNear {c : CoreId} {ps : List (Piece × List Byte)} (h : Sound False σ s) : Sound False σ (accState (writeNear c ps s)) := by
  unfold Machine.writeNear
  dsimp only
  split
  · exact h
  · split
    · rename_i u1 e
      have hu1 : Sound False σ u1 := by
        refine Sound.of_snd (.access (fun a ha => ?_) h) e
        split
        · rename_i u3 e1
          have hu3 : Sound False σ u3 := ha.writeTogether.of_ok e1
          exact hu3
        · rename_i u3 e1
          have hu3 : Sound False σ u3 := ha.writeTogether.of_ok e1
          exact hu3
        · rename_i u3 e1
          have hu3 : Sound False σ u3 := ha.writeTogether.of_exc e1
          exact hu3
        · rename_i u3 e1
          have hu3 : Sound False σ u3 := ha.writeTogether.of_wait e1
          exact hu3
      exact hu1
    · rename_i u1 e
      have hu1 : Sound False σ u1 := by
        refine Sound.of_snd (.access (fun a ha => ?_) h) e
        split
        · rename_i u3 e1
          have hu3 : Sound False σ u3 := ha.writeTogether.of_ok e1
          exact hu3
        · rename_i u3 e1
          have hu3 : Sound False σ u3 := ha.writeTogether.of_ok e1
          exact hu3
        · rename_i u3 e1
          have hu3 : Sound False σ u3 := ha.writeTogether.of_exc e1
          exact hu3
        · rename_i u3 e1
          have hu3 : Sound False σ u3 := ha.writeTogether.of_wait e1
          exact hu3
      exact .ite_acc hu1 hu1

theorem Sound.writeRemote {c : CoreId} {x1 : List (Piece × List Byte)} (h : Sound False σ s) : Sound False σ (accState (writeRemote c x1 s)) := by
  induction x1 generalizing s with
  | nil => exact h
  | cons a l ih =>
    conv => arg 3; arg 1; whnf
    split
    · rename_i u1 e
      have hu1 : Sound False σ u1 := Sound.of_snd (.access (fun _ ha1 => ha1.coreWrite) h) e
      exact hu1
    · rename_i u1 e
      have hu1 : Sound False σ u1 := Sound.of_snd (.access (fun _ ha1 => ha1.coreWrite) h) e
      exact .ite_acc hu1 ((ih hu1).bind (fun _ _ ha_1 => ha_1))

theorem Sound.storeEnds {c : CoreId} {l : List (Piece × Resp)} (h : Sound False σ s) : Sound False σ (accState (storeEnds c l s)) := by
  unfold Machine.storeEnds
  split
  · exact h
  · exact h
  · exact .ite_acc (h.foldl (fun _ hu _ => hu.storeError)).ok h

theorem Sound.storeNow {c : CoreId} {ps : List (Piece × List Byte)} (h : Sound False σ s) : Sound False σ (accState (storeNow c ps s)) := by
  unfold Machine.storeNow
  dsimp only
  refine .ite_acc h.drain.wait ?_
  split
  · exact .bind (.ite_acc h.drain.writeRemote h.drain.writeNear) (fun _ _ ha_1 => ha_1.storeEnds)
  · exact h.drain.writeRemote.bind (fun _ _ ha_1 => .ite_acc ha_1.storeEnds (ha_1.writeNear.bind (fun _ _ ha_11 => ha_11.storeEnds)))

theorem Sound.pushPieces {c : CoreId} {w : Nat} {x2 : List (Piece × List Byte)} (h : Sound False σ s) : Sound False σ (accState (pushPieces c w x2 s)) := by
  induction x2 generalizing s with
  | nil => exact h
  | cons a l ih =>
    exact h.pushBytes.bind (fun _ _ ha_1 => ih ha_1)

theorem Sound.storePieces {c : CoreId} {ps : List Piece} {bytes : List Byte} (h : Sound False σ s) : Sound False σ (accState (storePieces c ps bytes s)) :=
  .ite_acc h.storeNow h.pushPieces

theorem Sound.forwarded {c : CoreId} {pa len : Nat} {go : State → BusRes × State} (hgo : ∀ (a : State), Sound False σ a → Sound False σ (go a).2) (h : Sound False σ s)
    :
    Sound False σ (forwarded c pa len go s).2 := by
  unfold Machine.forwarded
  dsimp only
  split
  · exact h.drain.snd
  · exact .ite_snd h.drain.snd (hgo _ h.drain)

theorem Sound.pieceFill {c : CoreId} {p : Piece} (h : Sound False σ s) : Sound False σ (pieceFill c p s).2 := by
  unfold Machine.pieceFill
  dsimp only
  split
  · rename_i u1 e
    have hu1 : Sound False σ u1 := h.coreRead.of_snd e
    exact hu1
  · exact h.coreRead

theorem Sound.pieceLoad {c : CoreId} {p : Piece} (h : Sound False σ s) : Sound False σ (accState (pieceLoad c p s)) := by
  unfold Machine.pieceLoad
  split
  · rename_i u1 e
    have hu1 : Sound False σ u1 := Sound.of_snd (.access (fun _ ha => .forwarded (fun _ ha1 => ha1.pieceFill) ha) h) e
    exact hu1
  · rename_i u1 e
    have hu1 : Sound False σ u1 := Sound.of_snd (.access (fun _ ha => .forwarded (fun _ ha1 => ha1.pieceFill) ha) h) e
    exact hu1

theorem Sound.loadPieces {c : CoreId} {ps : List Piece} (h : Sound False σ s) : Sound False σ (accState (loadPieces c ps s)) := by
  unfold Machine.loadPieces
  refine .bind (.forAll (fun _ _ hu => hu.pieceLoad) h) (fun a a_1 ha_1 => ?_)
  split
  · exact ha_1.siSramUe.exc
  · exact ha_1

theorem Sound.loadAt {c : CoreId} {va : Word} {len : Nat} (h : Sound False σ s) : Sound False σ (accState (loadAt c va len s)) :=
  h.transPieces.bind (fun _ _ ha_1 => ha_1.loadPieces)

theorem Sound.storeAt {c : CoreId} {va : Word} {bytes : List Byte} (h : Sound False σ s) : Sound False σ (accState (storeAt c va bytes s)) :=
  h.transPieces.bind (fun _ _ ha_1 => ha_1.storePieces)

theorem Sound.openWindow {c : CoreId} {n : Nat} (h : Sound False σ s) : Sound False σ (openWindow c n s) := h.modCore

theorem Sound.entryWindow {c : CoreId} {n : Nat} (h : Sound False σ s) : Sound False σ (entryWindow c n s) := h.modCore

theorem Sound.windowStarts {c : CoreId} (h : Sound False σ s) : Sound False σ (windowStarts c s) := h.modCore

theorem Sound.setPrev {c : CoreId} {t : Level} {plvl : Nat} {psw : Bool} (h : Sound False σ s) : Sound False σ (setPrev c t plvl psw s) := h.setSr

theorem Sound.bankEnter {c : CoreId} {t : Level} (h : Sound False σ s) : Sound False σ (bankEnter c t s) := h.setSr

theorem Sound.bankLeave {c : CoreId} {t : Level} (h : Sound False σ s) : Sound False σ (bankLeave c t s) := .ite h.setSr h

theorem Sound.abandonStall {c : CoreId} (h : Sound False σ s) : Sound False σ (abandonStall c s) := h.same.modCore.walksAbandon

theorem Sound.commitEntry {c : CoreId} {t : Level} {code info : Nat} {fval : Option Word} {rpc handler : Word} {hold : Nat} (h : Sound False σ s) :
    Sound False σ (commitEntry c t code info fval rpc handler hold s) := by
  unfold Machine.commitEntry
  dsimp only
  refine .setPc (.entryWindow (.abandonStall (.modCore (.ite (.bankEnter (.setPrev (.setSr (.setSr (.setSr ?_)))))
      (.setPrev (.setSr (.setSr (.setSr ?_))))))))
  · split
    · exact h
    · exact h.draw.snd
  · split
    · exact h
    · exact h.draw.snd

theorem Sound.readPhys {c : CoreId} {pa len : Nat} (h : Sound False σ s) : Sound False σ (readPhys c pa len s).2 := by
  unfold Machine.readPhys
  split
  · rename_i u1 e
    have hu1 : Sound False σ u1 := Sound.of_snd (.access (fun _ ha => ha.coreRead) h) e
    exact hu1.siSramUe.snd
  · exact .access (fun _ ha => ha.coreRead) h

theorem Sound.vecEntry {c : CoreId} {t : Level} {code : Nat} (h : Sound False σ s) : Sound False σ (vecEntry c t code s).2 := by
  unfold Machine.vecEntry
  dsimp only
  refine .ite_snd h (.ite_snd h ?_)
  split
  · rename_i u1 e
    have hu1 : Sound False σ u1 := h.readPhys.of_snd e
    exact hu1
  · rename_i u1 e
    have hu1 : Sound False σ u1 := h.readPhys.of_snd e
    exact hu1

theorem Sound.enterM {c : CoreId} {code info : Nat} {fval : Option Word} {ipa : Option Nat} {rpc errRpc : Word} (h : Sound False σ s) :
    Sound False σ (entState (enterM c code info fval ipa rpc errRpc s)) := by
  unfold Machine.enterM
  dsimp only
  refine .ite_ent h.drain.waits ?_
  split
  · rename_i u1 e
    have hu1 : Sound False σ u1 := h.drain.vecEntry.of_snd e
    exact hu1
  · rename_i u1 e
    have hu1 : Sound False σ u1 := h.drain.vecEntry.of_snd e
    refine .ite_ent hu1.abandonStall.enterLockup.entered (.ite_ent hu1.modCore.commitEntry.entered (.entered (.commitEntry ?_)))
    split
    · exact hu1.setSr
    · exact hu1

theorem Sound.enterS {c : CoreId} {code info : Nat} {fval : Option Word} {rpc errRpc : Word} (h : Sound False σ s) :
    Sound False σ (entState (enterS c code info fval rpc errRpc s)) := by
  unfold Machine.enterS
  split
  · rename_i u1 e
    have hu1 : Sound False σ u1 := h.vecEntry.of_snd e
    exact hu1
  · rename_i u1 e
    have hu1 : Sound False σ u1 := h.vecEntry.of_snd e
    exact .ite_ent hu1.enterM hu1.commitEntry.entered

theorem Sound.enter {c : CoreId} {e : Exc} {rpc errRpc : Word} (h : Sound False σ s) : Sound False σ (entState (enter c e rpc errRpc s)) :=
  .ite_ent h.enterS h.enterM

theorem Sound.enterFptrap {c : CoreId} (h : Sound False σ s) : Sound False σ (entState (enterFptrap c s)) := by
  unfold Machine.enterFptrap
  dsimp only
  split
  · exact h
  · split
    · rename_i u1 e1
      have hu1 : Sound False σ u1 := h.setSr.setSrf.modCore.enter.of_waits e1
      exact hu1.setSr.setSr.modCore.waits
    · rename_i u1 e1
      have hu1 : Sound False σ u1 := h.setSr.setSrf.modCore.enter.of_entered e1
      exact .ite_ent hu1 hu1.setSr.setSr.modCore.entered

theorem Sound.returnFrom {c : CoreId} {t : Level} (h : Sound False σ s) : Sound False σ (returnFrom c t s) :=
  .setPrev (.setPc (.bankLeave (.modCore (.ite h.setG h))))

theorem Sound.loopForget {c : CoreId} (h : Sound False σ s) : Sound False σ (loopForget c s) := h.modCore

theorem Sound.loopEnd {c : CoreId} (h : Sound False σ s) : Sound False σ (loopEnd c s) := h.setSr.loopForget

theorem Sound.loopSettle {c : CoreId} (h : Sound False σ s) : Sound False σ (loopSettle c s) := .ite h.loopEnd.modCore h

theorem Sound.loopCapture {c : CoreId} (h : Sound False σ s) : Sound False σ (loopCapture c s) := h.modCore

theorem Sound.loopBack {c : CoreId} (h : Sound False σ s) : Sound False σ (loopBack c s) := .ite h.setG.setPc.loopCapture h.setG.setPc.modCore

theorem Sound.retire {c : CoreId} {f : Machine.Flow} (h : Sound False σ s) : Sound False σ (retire c f s) := by
  unfold Machine.retire
  split
  · exact h
  · exact h
  · exact .ite h.loopBack h.setPc
  · exact .ite h.loopEnd.setPc (.ite h.loopBack h.setPc)

theorem Sound.stallOn {c : CoreId} {i : Instr} (h : Sound False σ s) : Sound False σ (stallOn c i s) := h.modCore

theorem Sound.unstall {c : CoreId} (h : Sound False σ s) : Sound False σ (unstall c s) := h.modCore

theorem Sound.entryState {c : CoreId} {i : Instr} {r : EntryRes} (h : Sound False σ (entState r)) : Sound False σ (entryState c i r) := by
  unfold Machine.entryState
  split
  · exact h
  · exact h.stallOn

theorem Sound.enterInt {c : CoreId} {k : Nat} (h : Sound False σ s) : Sound False σ (entState (enterInt c k s)) := by
  unfold Machine.enterInt
  dsimp only
  split
  · rename_i u1 e
    have hu1 : Sound False σ u1 := h.enter.of_entered e
    exact .entered (.ite hu1.setEntSrc hu1)
  · rename_i u1 e
    have hu1 : Sound False σ u1 := h.enter.of_waits e
    exact hu1

theorem Sound.boundary {c : CoreId} {r : EntryRes} (h : Sound False σ s) (e : boundary c s = some r) : Sound False σ (entState r) := by
  unfold Machine.boundary at e
  split at e
  · exact Option.some.inj e ▸ h.enterM
  · split at e
    · exact Option.some.inj e ▸ h.enterFptrap
    · split at e
      · exact Option.some.inj e ▸ h.enterInt
      · split at e
        · exact Option.some.inj e ▸ h.enterInt
        · exact nomatch e

theorem Sound.takeExc {c : CoreId} {i : Instr} {e : Exc} (h : Sound False σ s) : Sound False σ (takeExc c i e s) :=
  .entryState (.ite_ent h.enterM (.ite_ent h.enterFptrap h.enter))

theorem Sound.fetchPiece {c : CoreId} {p : Piece} (h : Sound False σ s) : Sound False σ (accState (fetchPiece c p s)) := by
  unfold Machine.fetchPiece
  dsimp only
  refine .ite_acc ?_ (.bind (.ofBus (.access (fun _ ha => ha.pieceFill) h)) (fun _ _ ha_1 => ha_1))
  split
  · exact h
  · exact .bind (.ofBus (.access (fun _ ha => ha.coreRead) h)) (fun _ _ ha_1 => ha_1.modCore.ok)

theorem Sound.fetchWord {c : CoreId} (h : Sound False σ s) : Sound False σ (accState (fetchWord c s)) := by
  unfold Machine.fetchWord
  split
  · exact h
  · exact h.transPieces.bind (fun _ _ ha_1 => .bind (.forAll (fun _ _ hu => hu.fetchPiece.bind (fun _ _ ha_11 => ha_11)) ha_1)
        (fun _ _ ha_11 => ha_11))

theorem Sound.fetchDone {c : CoreId} {w : Word} (h : Sound False σ s) : Sound False σ (fetchDone c w s) := h.modCore.windowStarts

theorem Sound.fetched {c : CoreId} {i : Instr} (h : Sound False σ s) : Sound False σ (preState (fetched c i s)) := by
  unfold Machine.fetched
  refine .ite_pre h ?_
  split
  · rename_i u1 e
    have hu1 : Sound False σ u1 := h.fetchWord.of_ok e
    exact .ite_pre hu1.takeExc.stop hu1.fetchDone.go
  · rename_i u1 e
    have hu1 : Sound False σ u1 := h.fetchWord.of_exc e
    exact hu1.takeExc.stop
  · rename_i u1 e
    have hu1 : Sound False σ u1 := h.fetchWord.of_wait e
    exact hu1.stallOn.stop

theorem Sound.attempt {c : CoreId} (h : Sound False σ s) : Sound False σ (attempt c s) := h.loopSettle.drain.modCore

theorem Sound.prelude_ {c : CoreId} {i : Instr} {y : SyncKind} (h : Sound False σ s) : Sound False σ (preState (prelude_ c i y s)) := by
  unfold Machine.prelude_
  refine .ite_pre h (.ite_pre h ?_)
  extract_lets s0
  have h0 : Sound False σ s0 := h.attempt
  split
  · rename_i r e
    split at e
    · exact (h0.boundary e).entryState
    · exact nomatch e
  · exact .ite_pre h0.stallOn h0.fetched

theorem Sound.repeatGoes {c : CoreId} {i : Instr} (h : Sound False σ s) : Sound False σ (repeatGoes c i s) := h.modCore

theorem Sound.conclude {c : CoreId} {i : Instr} {r : Machine.Acc Machine.Flow} (h : Sound False σ (accState r)) : Sound False σ (conclude c i r) := by
  unfold Machine.conclude
  split
  · exact h.repeatGoes
  · exact h.unstall.retire
  · exact h.takeExc
  · exact h.stallOn

theorem Sound.run {c : CoreId} {i : Instr} {sync : SyncKind} {body : State → Machine.Acc Machine.Flow}
    (hbody : ∀ (a : State), Sound False σ a → Sound False σ (accState (body a))) (h : Sound False σ s) :
    Sound False σ (run c i sync body s) := by
  unfold Machine.run
  split
  · rename_i u1 e
    have hu1 : Sound False σ u1 := h.prelude_.of_stop e
    exact hu1
  · rename_i u1 e
    have hu1 : Sound False σ u1 := h.prelude_.of_go e
    exact (hbody _ hu1).conclude

theorem Sound.putG {c : CoreId} {d : GReg} {v : Word} (h : Sound False σ s) : Sound False σ (accState (putG c d v s)) := h.setG.ok

theorem Sound.putF {c : CoreId} {d : FReg} {v : Dword} (h : Sound False σ s) : Sound False σ (accState (putF c d v s)) := h.setF.ok

/-! ### Integer instructions -/

theorem Sound.alu3 {c : CoreId} {i : Instr} {f : Word → Word → Word} {d a b : GReg} (h : Sound False σ s) : Sound False σ (alu3 c i f d a b s) :=
  .run (fun _ ha1 => ha1.putG) h

theorem Sound.alu2 {c : CoreId} {i : Instr} {f : Word → Word} {d a : GReg} (h : Sound False σ s) : Sound False σ (alu2 c i f d a s) :=
  .run (fun _ ha1 => ha1.putG) h

theorem Sound.execAdd {c : CoreId} {d a b : GReg} (h : Sound False σ s) : Goes σ (execAdd c d a b s) := .next h.alu3

theorem Sound.execSub {c : CoreId} {d a b : GReg} (h : Sound False σ s) : Goes σ (execSub c d a b s) := .next h.alu3

theorem Sound.execAnd {c : CoreId} {d a b : GReg} (h : Sound False σ s) : Goes σ (execAnd c d a b s) := .next h.alu3

theorem Sound.execOr {c : CoreId} {d a b : GReg} (h : Sound False σ s) : Goes σ (execOr c d a b s) := .next h.alu3

theorem Sound.execXor {c : CoreId} {d a b : GReg} (h : Sound False σ s) : Goes σ (execXor c d a b s) := .next h.alu3

theorem Sound.execAndn {c : CoreId} {d a b : GReg} (h : Sound False σ s) : Goes σ (execAndn c d a b s) := .next h.alu3

theorem Sound.execSlt {c : CoreId} {d a b : GReg} (h : Sound False σ s) : Goes σ (execSlt c d a b s) := .next h.alu3

theorem Sound.execSltu {c : CoreId} {d a b : GReg} (h : Sound False σ s) : Goes σ (execSltu c d a b s) := .next h.alu3

theorem Sound.execShl {c : CoreId} {d a b : GReg} (h : Sound False σ s) : Goes σ (execShl c d a b s) := .next h.alu3

theorem Sound.execShr {c : CoreId} {d a b : GReg} (h : Sound False σ s) : Goes σ (execShr c d a b s) := .next h.alu3

theorem Sound.execSra {c : CoreId} {d a b : GReg} (h : Sound False σ s) : Goes σ (execSra c d a b s) := .next h.alu3

theorem Sound.execRor {c : CoreId} {d a b : GReg} (h : Sound False σ s) : Goes σ (execRor c d a b s) := .next h.alu3

theorem Sound.execMin {c : CoreId} {d a b : GReg} (h : Sound False σ s) : Goes σ (execMin c d a b s) := .next h.alu3

theorem Sound.execMax {c : CoreId} {d a b : GReg} (h : Sound False σ s) : Goes σ (execMax c d a b s) := .next h.alu3

theorem Sound.execMinu {c : CoreId} {d a b : GReg} (h : Sound False σ s) : Goes σ (execMinu c d a b s) := .next h.alu3

theorem Sound.execMaxu {c : CoreId} {d a b : GReg} (h : Sound False σ s) : Goes σ (execMaxu c d a b s) := .next h.alu3

theorem Sound.execMul {c : CoreId} {d a b : GReg} (h : Sound False σ s) : Goes σ (execMul c d a b s) := .next h.alu3

theorem Sound.execMulh {c : CoreId} {d a b : GReg} (h : Sound False σ s) : Goes σ (execMulh c d a b s) := .next h.alu3

theorem Sound.execMulhu {c : CoreId} {d a b : GReg} (h : Sound False σ s) : Goes σ (execMulhu c d a b s) := .next h.alu3

theorem Sound.execDiv {c : CoreId} {d a b : GReg} (h : Sound False σ s) : Goes σ (execDiv c d a b s) := .next h.alu3

theorem Sound.execDivu {c : CoreId} {d a b : GReg} (h : Sound False σ s) : Goes σ (execDivu c d a b s) := .next h.alu3

theorem Sound.execRem {c : CoreId} {d a b : GReg} (h : Sound False σ s) : Goes σ (execRem c d a b s) := .next h.alu3

theorem Sound.execRemu {c : CoreId} {d a b : GReg} (h : Sound False σ s) : Goes σ (execRemu c d a b s) := .next h.alu3

theorem Sound.execClz {c : CoreId} {d a : GReg} (h : Sound False σ s) : Goes σ (execClz c d a s) := .next h.alu2

theorem Sound.execPopc {c : CoreId} {d a : GReg} (h : Sound False σ s) : Goes σ (execPopc c d a s) := .next h.alu2

theorem Sound.execSexb {c : CoreId} {d a : GReg} (h : Sound False σ s) : Goes σ (execSexb c d a s) := .next h.alu2

theorem Sound.execSexh {c : CoreId} {d a : GReg} (h : Sound False σ s) : Goes σ (execSexh c d a s) := .next h.alu2

theorem Sound.execAddi {c : CoreId} {d a : GReg} {imm : BitVec 16} (h : Sound False σ s) : Goes σ (execAddi c d a imm s) := .next h.alu2

theorem Sound.execAndi {c : CoreId} {d a : GReg} {imm : BitVec 16} (h : Sound False σ s) : Goes σ (execAndi c d a imm s) := .next h.alu2

theorem Sound.execOri {c : CoreId} {d a : GReg} {imm : BitVec 16} (h : Sound False σ s) : Goes σ (execOri c d a imm s) := .next h.alu2

theorem Sound.execXori {c : CoreId} {d a : GReg} {imm : BitVec 16} (h : Sound False σ s) : Goes σ (execXori c d a imm s) := .next h.alu2

theorem Sound.execSlti {c : CoreId} {d a : GReg} {imm : BitVec 16} (h : Sound False σ s) : Goes σ (execSlti c d a imm s) := .next h.alu2

theorem Sound.execSltiu {c : CoreId} {d a : GReg} {imm : BitVec 16} (h : Sound False σ s) : Goes σ (execSltiu c d a imm s) := .next h.alu2

theorem Sound.execLui {c : CoreId} {d : GReg} {imm : BitVec 16} (h : Sound False σ s) : Goes σ (execLui c d imm s) := .next (.run (fun _ ha => ha.putG) h)

theorem Sound.execShi {c : CoreId} {d a : GReg} {op : BitVec 2} {cnt : BitVec 5} (h : Sound False σ s) : Goes σ (execShi c d a op cnt s) := .next h.alu2

/-! ### Transactions that a master issues at the bus matrix, their responses and timers -/

theorem Sound.dropXact {i : Nat} (h : Sound False σ s) : Sound False σ (dropXact i s) := h.same

theorem Sound.xactRespond {m id : Nat} {det : Bool} (h : Sound False σ s) : Sound False σ (xactRespond m id det s) := by
  unfold Machine.xactRespond
  dsimp only
  split
  · exact h
  · split
    · exact .ite h.retryXact.dropXact h.retryXact
    · exact h.retryXact

theorem Sound.xactAge {m id : Nat} (h : Sound False σ s) : Sound False σ (xactAge m id s) := by
  unfold Machine.xactAge
  refine .ite h ?_
  split
  · exact h
  · exact .onXact (fun _ _ ha_1 => ha_1) h

theorem Sound.execRegWrite {m : Master} {core : AppCore} {pa : Nat} {v : Word} (h : Sound False σ s) : Goes σ (execRegWrite m core pa v s) :=
  .next h.postWrite

theorem Sound.execXbmRead {m : Master} {core : AppCore} {pa len : Nat} {id : BitVec 6} (h : Sound False σ s) : Goes σ (execXbmRead m core pa len id s) :=
  .next (.clocked (fun _ ha => ha.issueXact) h)

theorem Sound.execXbmWrite {m : Master} {core : AppCore} {pa : Nat} {data : List (Option Byte)} {id : BitVec 6} {coll : List Nat} (h : Sound False σ s) :
    Goes σ (execXbmWrite m core pa data id coll s) :=
  .next (.clocked (fun _ ha => ha.issueXact) h)

theorem Sound.execXbmAtomic {m : Master} {core : AppCore} {pa : Nat} {fn : BitVec 2} {v : Word} {id : BitVec 6} {coll : Bool} (h : Sound False σ s) :
    Goes σ (execXbmAtomic m core pa fn v id coll s) :=
  .next (.clocked (fun _ ha => ha.issueXact) h)

theorem Sound.execXbmResponse {m : Master} {id : BitVec 6} (h : Sound False σ s) : Goes σ (execXbmResponse m id s) :=
  .next (.clocked (fun _ ha => ha.xactRespond) h)

theorem Sound.execXbmAgeExpiry {m : Master} {id : BitVec 6} (h : Sound False σ s) : Goes σ (execXbmAgeExpiry m id s) :=
  .next (.clocked (fun _ ha => ha.xactAge) h)

theorem Sound.execDetResponseRelease {m : Master} {id : BitVec 6} (h : Sound False σ s) : Goes σ (execDetResponseRelease m id s) :=
  .next (.clocked (fun _ ha => ha.xactRespond) h)

/-! ### Scalar floating point -/

theorem Sound.fpRaise {c : CoreId} {f : FFlags} (h : Sound False σ s) : Sound False σ (fpRaise c f s) := .ite h.setSr h.setSr.modCore

theorem Sound.fpRun {c : CoreId} {i : Instr} {w : Word} {rm : BitVec 3} {body : Rm → State → State}
    (hbody : ∀ (a : Rm) (a_1 : State), Sound False σ a_1 → Sound False σ (body a a_1)) (h : Sound False σ s) :
    Sound False σ (fpRun c i w rm body s) := by
  unfold Machine.fpRun
  refine .run (fun a ha => ?_) h
  split
  · exact ha
  · exact (hbody _ _ ha).ok

theorem Sound.fpPut {c : CoreId} {d : FReg} {r : Res} (h : Sound False σ s) : Sound False σ (fpPut c d r s) := h.fpRaise.setF

theorem Sound.fpPutG {c : CoreId} {d : GReg} {r : Res} (h : Sound False σ s) : Sound False σ (fpPutG c d r s) := h.fpRaise.setG

theorem Sound.fp2 {c : CoreId} {i : Instr} {fn : Nat} {op : Ty → Rm → Nat → Nat → Res} {d a b : FReg} {rm : BitVec 3} {p : Bool} (h : Sound False σ s) :
    Sound False σ (fp2 c i fn op d a b rm p s) :=
  .fpRun (fun _ _ ha_1 => ha_1.fpPut) h

theorem Sound.fp1 {c : CoreId} {i : Instr} {fn : Nat} {op : Ty → Rm → Nat → Res} {d a : FReg} {rm : BitVec 3} {p : Bool} (h : Sound False σ s) :
    Sound False σ (fp1 c i fn op d a rm p s) :=
  .fpRun (fun _ _ ha_1 => ha_1.fpPut) h

theorem Sound.fpG1 {c : CoreId} {i : Instr} {fn : Nat} {op : Ty → Rm → Nat → Res} {d : GReg} {a : FReg} {rm : BitVec 3} {p : Bool} (h : Sound False σ s) :
    Sound False σ (fpG1 c i fn op d a rm p s) :=
  .fpRun (fun _ _ ha_1 => ha_1.fpPutG) h

theorem Sound.fpFromG {c : CoreId} {i : Instr} {fn : Nat} {src : Ty} {d : FReg} {a : GReg} {rm : BitVec 3} {p : Bool} (h : Sound False σ s) :
    Sound False σ (fpFromG c i fn src d a rm p s) :=
  .fpRun (fun _ _ ha_1 => ha_1.fpPut) h

theorem Sound.fpCmp {c : CoreId} {i : Instr} {fn code : Nat} {d : GReg} {a b : FReg} {rm : BitVec 3} {p : Bool} (h : Sound False σ s) :
    Sound False σ (fpCmp c i fn code d a b rm p s) :=
  .fpRun (fun _ _ ha_1 => ha_1.fpPutG) h

theorem Sound.fpFma {c : CoreId} {i : Instr} {op : Nat} {np nc : Bool} {d a b e : FReg} {rm : BitVec 3} {p : Bool} (h : Sound False σ s) :
    Sound False σ (fpFma c i op np nc d a b e rm p s) :=
  .fpRun (fun _ _ ha_1 => ha_1.fpPut) h

theorem Sound.execFadd {c : CoreId} {d a b : FReg} {rm : BitVec 3} {p : Bool} (h : Sound False σ s) : Goes σ (execFadd c d a b rm p s) := .next h.fp2

theorem Sound.execFsub {c : CoreId} {d a b : FReg} {rm : BitVec 3} {p : Bool} (h : Sound False σ s) : Goes σ (execFsub c d a b rm p s) := .next h.fp2

theorem Sound.execFmul {c : CoreId} {d a b : FReg} {rm : BitVec 3} {p : Bool} (h : Sound False σ s) : Goes σ (execFmul c d a b rm p s) := .next h.fp2

theorem Sound.execFdiv {c : CoreId} {d a b : FReg} {rm : BitVec 3} {p : Bool} (h : Sound False σ s) : Goes σ (execFdiv c d a b rm p s) := .next h.fp2

theorem Sound.execFmin {c : CoreId} {d a b : FReg} {rm : BitVec 3} {p : Bool} (h : Sound False σ s) : Goes σ (execFmin c d a b rm p s) := .next h.fp2

theorem Sound.execFmax {c : CoreId} {d a b : FReg} {rm : BitVec 3} {p : Bool} (h : Sound False σ s) : Goes σ (execFmax c d a b rm p s) := .next h.fp2

theorem Sound.execFsqrt {c : CoreId} {d a : FReg} {rm : BitVec 3} {p : Bool} (h : Sound False σ s) : Goes σ (execFsqrt c d a rm p s) := .next h.fp1

theorem Sound.execFcvt {c : CoreId} {d a : FReg} {rm : BitVec 3} {p : Bool} (h : Sound False σ s) : Goes σ (execFcvt c d a rm p s) := .next h.fp1

theorem Sound.execFcvts {c : CoreId} {d : GReg} {a : FReg} {rm : BitVec 3} {p : Bool} (h : Sound False σ s) : Goes σ (execFcvts c d a rm p s) :=
  .next h.fpG1

theorem Sound.execFcvtu {c : CoreId} {d : GReg} {a : FReg} {rm : BitVec 3} {p : Bool} (h : Sound False σ s) : Goes σ (execFcvtu c d a rm p s) :=
  .next h.fpG1

theorem Sound.execFclass {c : CoreId} {d : GReg} {a : FReg} {rm : BitVec 3} {p : Bool} (h : Sound False σ s) : Goes σ (execFclass c d a rm p s) :=
  .next h.fpG1

theorem Sound.execFmvfg {c : CoreId} {d : GReg} {a : FReg} {rm : BitVec 3} {p : Bool} (h : Sound False σ s) : Goes σ (execFmvfg c d a rm p s) :=
  .next h.fpG1

theorem Sound.execFcvtfs {c : CoreId} {d : FReg} {a : GReg} {rm : BitVec 3} {p : Bool} (h : Sound False σ s) : Goes σ (execFcvtfs c d a rm p s) :=
  .next h.fpFromG

theorem Sound.execFcvtfu {c : CoreId} {d : FReg} {a : GReg} {rm : BitVec 3} {p : Bool} (h : Sound False σ s) : Goes σ (execFcvtfu c d a rm p s) :=
  .next h.fpFromG

theorem Sound.execFcmpeq {c : CoreId} {d : GReg} {a b : FReg} {rm : BitVec 3} {p : Bool} (h : Sound False σ s) : Goes σ (execFcmpeq c d a b rm p s) :=
  .next h.fpCmp

theorem Sound.execFcmplt {c : CoreId} {d : GReg} {a b : FReg} {rm : BitVec 3} {p : Bool} (h : Sound False σ s) : Goes σ (execFcmplt c d a b rm p s) :=
  .next h.fpCmp

theorem Sound.execFcmple {c : CoreId} {d : GReg} {a b : FReg} {rm : BitVec 3} {p : Bool} (h : Sound False σ s) : Goes σ (execFcmple c d a b rm p s) :=
  .next h.fpCmp

theorem Sound.execFmvgf {c : CoreId} {d : FReg} {a : GReg} {rm : BitVec 3} {p : Bool} (h : Sound False σ s) : Goes σ (execFmvgf c d a rm p s) :=
  .next (.fpRun (fun _ _ ha_1 => ha_1.setF) h)

theorem Sound.execFma {c : CoreId} {d a b e : FReg} {rm : BitVec 3} {p : Bool} (h : Sound False σ s) : Goes σ (execFma c d a b e rm p s) := .next h.fpFma

theorem Sound.execFms {c : CoreId} {d a b e : FReg} {rm : BitVec 3} {p : Bool} (h : Sound False σ s) : Goes σ (execFms c d a b e rm p s) := .next h.fpFma

theorem Sound.execFnma {c : CoreId} {d a b e : FReg} {rm : BitVec 3} {p : Bool} (h : Sound False σ s) : Goes σ (execFnma c d a b e rm p s) := .next h.fpFma

theorem Sound.execFnms {c : CoreId} {d a b e : FReg} {rm : BitVec 3} {p : Bool} (h : Sound False σ s) : Goes σ (execFnms c d a b e rm p s) := .next h.fpFma

/-! ### The system class: system registers, synchronisation, gates, returns and waits -/

theorem Sound.claim {c : CoreId} {k : Nat} (h : Sound False σ s) : Sound False σ (claim c k s).2 := .ite_snd h.sicClaim h.icuClaim

theorem Sound.complete {c : CoreId} {n : Nat} (h : Sound False σ s) : Sound False σ (complete c n s) := .ite h.sicComplete h.icuComplete

theorem Sound.srrBody {c : CoreId} {d : GReg} {n : Nat} (h : Sound False σ s) : Sound False σ (accState (srrBody c d n s)) := by
  unfold Machine.srrBody
  dsimp only
  split
  · exact h
  · exact .ite_acc h.claim.putG (.ite_acc h.claim.putG h.putG)

theorem Sound.captureEntry {c : CoreId} {t : Level} {code : Nat} (h : Sound False σ s) : Sound False σ (accState (captureEntry c t code s)) := by
  unfold Machine.captureEntry
  dsimp only
  split
  · rename_i u1 e
    have hu1 : Sound False σ u1 := h.readPhys.of_snd e
    exact hu1
  · rename_i u1 e
    have hu1 : Sound False σ u1 := h.readPhys.of_snd e
    exact .ite_acc hu1 hu1

theorem Sound.refetch {c : CoreId} (h : Sound False σ s) : Sound False σ (refetch c s) := h.modCore

theorem Sound.vbaseSet {c : CoreId} {t : Level} {v : Word} (h : Sound False σ s) : Sound False σ (accState (vbaseSet c t v s)) :=
  h.setSr.captureEntry.bind (fun _ _ ha_1 => ha_1.captureEntry.bind (fun _ _ ha_11 => ha_11.refetch.modCore.ok))

theorem Sound.srwBody {c : CoreId} {n : Nat} {a : GReg} (h : Sound False σ s) : Sound False σ (accState (srwBody c n a s)) := by
  unfold Machine.srwBody
  dsimp only
  split
  · exact h
  · refine .ite_acc h.vbaseSet (.ite_acc h.vbaseSet (.ite_acc h.complete.ok ?_))
    split
    · exact h
    · exact .ok (.ite h.setSr.loopForget (.ite h.setSr.refetch h.setSr))

theorem Sound.srwRun {c : CoreId} {i : Instr} {n : Nat} {a : GReg} (h : Sound False σ s) : Sound False σ (srwRun c i n a s) := .run (fun _ ha1 => ha1.srwBody) h

theorem Sound.execSrr {c : CoreId} {d : GReg} {sr : BitVec 12} (h : Sound False σ s) : Goes σ (execSrr c d sr s) := .next (.run (fun _ ha => ha.srrBody) h)

theorem Sound.execSrw {c : CoreId} {sr : BitVec 12} {a : GReg} (h : Sound False σ s) : Goes σ (execSrw c sr a s) := .next h.srwRun

theorem Sound.execFcsrWrite {c : CoreId} {a : GReg} (h : Sound False σ s) : Goes σ (execFcsrWrite c a s) := .next h.srwRun

theorem Sound.execVbaseWrite {c : CoreId} {sup : Bool} {a : GReg} (h : Sound False σ s) : Goes σ (execVbaseWrite c sup a s) := .next h.srwRun

theorem Sound.execLctlWrite {c : CoreId} {a : GReg} (h : Sound False σ s) : Goes σ (execLctlWrite c a s) := .next h.srwRun

theorem Sound.execCtxModeWrite {c : CoreId} {a : GReg} (h : Sound False σ s) : Goes σ (execCtxModeWrite c a s) := .next h.srwRun

theorem Sound.execIclaimn {c : CoreId} {d : GReg} (h : Sound False σ s) : Goes σ (execIclaimn c d s) := .next (.run (fun _ ha => ha.srrBody) h)

theorem Sound.execIclaimf {c : CoreId} {d : GReg} (h : Sound False σ s) : Goes σ (execIclaimf c d s) := .next (.run (fun _ ha => ha.srrBody) h)

theorem Sound.execIcomplete {c : CoreId} {a : GReg} (h : Sound False σ s) : Goes σ (execIcomplete c a s) := .next h.srwRun

theorem Sound.execFsync {c : CoreId} (h : Sound False σ s) : Goes σ (execFsync c s) := .next (.run (fun _ ha => ha) h)

theorem Sound.execVsync {c : CoreId} (h : Sound False σ s) : Goes σ (execVsync c s) := .next (.run (fun _ ha => ha) h)

theorem Sound.mretBody {c : CoreId} (h : Sound False σ s) : Sound False σ (accState (mretBody c s)) := .ite_acc h (.ite_acc h h.refetch.returnFrom.ok)

theorem Sound.execMret {c : CoreId} (h : Sound False σ s) : Goes σ (execMret c s) := .next (.run (fun _ ha => ha.mretBody) h)

theorem Sound.sretBody {c : CoreId} (h : Sound False σ s) : Sound False σ (accState (sretBody c s)) := .ite_acc h (.ite_acc h h.refetch.returnFrom.ok)

theorem Sound.execSret {c : CoreId} (h : Sound False σ s) : Goes σ (execSret c s) := .next (.run (fun _ ha => ha.sretBody) h)

theorem Sound.waitBody {c : CoreId} (h : Sound False σ s) : Sound False σ (accState (waitBody c s)) := h.modCore.ok

theorem Sound.execWait {c : CoreId} (h : Sound False σ s) : Goes σ (execWait c s) := .next (.run (fun _ ha => ha.waitBody) h)

theorem Sound.execBrk {c : CoreId} (h : Sound False σ s) : Goes σ (execBrk c s) := .next (.run (fun _ ha => ha) h)

theorem Sound.holdiBody {c : CoreId} {k : Nat} (h : Sound False σ s) : Sound False σ (accState (holdiBody c k s)) := .ite_acc h h.refetch.openWindow.ok

theorem Sound.execHoldi {c : CoreId} {k : BitVec 10} (h : Sound False σ s) : Goes σ (execHoldi c k s) := .next (.run (fun _ ha => ha.holdiBody) h)

theorem Sound.probePages {c : CoreId} {n i : Nat} {k : AccKind} {tmo : Bool} {x5 x6 x7 : Nat} (h : Sound False σ s) :
    Sound False σ (accState (probePages c n i k tmo x5 x6 x7 s)) := by
  induction x5 generalizing x6 x7 s with
  | zero => exact h
  | succ k1 ih =>
    refine .ite_acc h (.ite_acc h (.ite_acc h ?_))
    dsimp only
    split
    · rename_i u1 e
      have hu1 : Sound False σ u1 := h.translate.of_snd e
      exact ih hu1
    · rename_i u1 e
      have hu1 : Sound False σ u1 := h.translate.of_snd e
      exact hu1
    · rename_i u1 e
      have hu1 : Sound False σ u1 := h.translate.of_snd e
      exact .ite_acc hu1 hu1
    · rename_i u1 e
      have hu1 : Sound False σ u1 := h.translate.of_snd e
      exact .ite_acc hu1 hu1

theorem Sound.probeArgs {c : CoreId} {n : Nat} {tmo : Bool} {x3 : List (Nat × GateArg)} (h : Sound False σ s) :
    Sound False σ (accState (probeArgs c n tmo x3 s)) := by
  induction x3 generalizing s with
  | nil => exact h
  | cons a l ih =>
    exact .ite_acc (ih h) (.ite_acc h (h.probePages.bind (fun _ _ ha_1 => ih ha_1)))

theorem Sound.gateEnter {c : CoreId} {n : Nat} {e : GateEnt} (h : Sound False σ s) : Sound False σ (gateEnter c n e s) :=
  .ite h.commitEntry h.commitEntry.setSr.setG.setSr

theorem Sound.gateBody {c : CoreId} {n : Nat} {tmo : Bool} (h : Sound False σ s) : Sound False σ (accState (gateBody c n tmo s)) := by
  unfold Machine.gateBody
  dsimp only
  refine .ite_acc h (.ite_acc h ?_)
  split
  · rename_i u1 e
    have hu1 : Sound False σ u1 := h.readPhys.of_snd e
    exact hu1
  · rename_i u1 e
    have hu1 : Sound False σ u1 := h.readPhys.of_snd e
    exact .ite_acc hu1 (.ite_acc hu1 (.ite_acc hu1 (hu1.probeArgs.bind
        (fun _ _ ha_1 => .ite_acc (.ite_acc ha_1.drain.wait (.ite_acc ha_1.drain.exc ha_1.drain.gateEnter.ok)) ha_1.gateEnter.ok))))

theorem Sound.execGate {c : CoreId} {n : BitVec 12} (h : Sound False σ s) : Goes σ (execGate c n s) := .next (.run (fun _ ha => ha.gateBody) h)

theorem Sound.tlbiBody {c : CoreId} {ga gb : GReg} {ty : Nat} (h : Sound False σ s) : Sound False σ (accState (tlbiBody c ga gb ty s)) := by
  unfold Machine.tlbiBody
  dsimp only
  split
  · exact h
  · exact .ite_acc h (.ite_acc (.wait (.ite h h.invalidate.modCore)) (.ok (.refetch (.ite h h.invalidate.modCore))))

theorem Sound.execTlbi {c : CoreId} {ga gb : GReg} {ty : BitVec 4} (h : Sound False σ s) : Goes σ (execTlbi c ga gb ty s) :=
  .next (.run (fun _ ha => ha.tlbiBody) h)

theorem Sound.execTableWalkDone {w : Nat} (h : Sound False σ s) : Goes σ (execTableWalkDone w s) := .next (.clocked (fun _ ha => ha.walkDone) h)

/-! ### The survey of a chain group and the end of a group -/

theorem Sound.start {run : Run} (h : Sound False σ s) : Sound False σ (Sv.start s run).s := h

theorem Sound.reach {v : Sv} {f : Found} (h : Sound False σ v.s) : Sound False σ (v.reach f).s := .ite_sv h h

theorem Sound.svXlate {x : CtxId} {run : Run} {k : AccKind} {va : Nat} {v : Sv} (h : Sound False σ v.s) : Sound False σ (svXlate x run k va v).2.s := by
  unfold Machine.svXlate
  dsimp only
  split
  · exact h.reach
  · split
    · exact h.translate
    · have hr : Sound False σ (Machine.translate (8 + x.val) run.asid run.part va k false false v.s).2 := h.translate
      exact hr.same.reach

theorem Sound.hashHint {x : CtxId} {d : Desc} {pa : Nat} (h : Sound False σ s) : Sound False σ (hashHint x d pa s) := .ite h.setRb h

theorem Sound.visitPart {x : CtxId} {run : Run} {k : AccKind} {d : Desc} {align mis : Bool} {base : Cond} {elemVa va : Nat} {v : Sv}
    (h : Sound False σ v.s) : Sound False σ (visitPart x run k d align mis base elemVa va v).2.s := by
  have hr : Sound False σ (Machine.svXlate x run k va v).2.s := h.svXlate
  unfold Machine.visitPart
  refine .ite_snd_sv h ?_
  dsimp only
  split
  · exact .ite_sv hr hr
  · exact .ite_snd_sv (.ite_sv hr.hashHint hr.hashHint) (.ite_snd_sv (.ite_sv hr.hashHint hr.hashHint) (.ite_snd_sv hr.hashHint hr.hashHint))
  · exact hr

theorem Sound.visitElem {x : CtxId} {run : Run} {k : AccKind} {d : Desc} {align : Bool} {base : Cond} {parts : List (Nat × Nat)} {v : Sv}
    (h : Sound False σ v.s) : Sound False σ (visitElem x run k d align base parts v).2.s := by
  unfold Machine.visitElem
  dsimp only
  exact .foldl_snd_sv h fun _ hq _ => .ite_sv hq.visitPart hq.visitPart.visitPart

theorem Sound.readIndex {x : CtxId} {d : Desc} {pa n : Nat} {v : Sv} (h : Sound False σ v.s) : Sound False σ (readIndex x d pa n v).2.s := by
  unfold Machine.readIndex
  refine .ite_snd_sv ?_ ?_
  · exact Sound.ergWordRead (need := (((List.range n).map (indexBytes d pa)).filter fun l => (l.headD 0) % d.size == 0).flatten.contains) h
  · dsimp only
    split
    · rename_i w e
      exact h.vseRead.of_snd e
    · rename_i b w e
      exact h.vseRead.of_snd e
    · rename_i r w _ _ e
      exact h.vseRead.of_snd e

theorem Sound.visitIndex {x : CtxId} {run : Run} {instr role : Nat} {d : Desc} {read : Bool} {n i : Nat} {buf acc : List (Option Nat)} {v : Sv}
    (h : Sound False σ v.s) : Sound False σ (visitIndex x run instr role d read n i buf v acc).2.s := by
  induction n generalizing i buf v acc with
  | zero => exact h
  | succ n ih =>
    refine .ite_snd_sv h ?_
    extract_lets parts here base r fails
    have hr : Sound False σ r.2.s := h.visitElem
    split
    · exact ih hr
    · exact hr
    · rename_i pa _ _
      refine .ite_snd_sv ?_ (ih hr)
      extract_lets q
      have hq : Sound False σ q.2.s := hr.readIndex
      split
      · exact ih hq
      · exact hq
      · exact hq
    · exact ih hr

theorem Sound.visitStream {x : CtxId} {run : Run} {instr role : Nat} {d : Desc} {cx : Bool} {ix : List (Option Nat)} {n i : Nat} {v : Sv}
    (h : Sound False σ v.s) : Sound False σ (visitStream x run instr role d cx ix n i v).s := by
  induction n generalizing i v with
  | zero => exact h
  | succ n ih =>
    exact .ite_sv h (ih h.visitElem)

theorem Sound.visitRoleIndex {x : CtxId} {run : Run} {instr : Nat} {i : SInstr} {read : Bool} {role : Nat} {v : Sv} (h : Sound False σ v.s) :
    Sound False σ (visitRoleIndex x run instr i read role v).s := by
  unfold Machine.visitRoleIndex
  dsimp only
  split
  · exact .ite_sv h.visitIndex h
  · exact h

theorem Sound.visitRole {x : CtxId} {run : Run} {instr : Nat} {i : SInstr} {role : Nat} {v : Sv} (h : Sound False σ v.s) :
    Sound False σ (visitRole x run instr i role v).s := by
  unfold Machine.visitRole
  split
  · refine .ite_sv h (.ite_sv ?_ h.visitStream)
    split
    · exact h.visitStream
    · exact h
  · exact h

theorem Sound.step3 {x : CtxId} {run : Run} {read : Bool} {v : Sv} (h : Sound False σ v.s) : Sound False σ (step3 x run read v).s :=
  h.foldl_sv (fun _ hw _ => (hw.foldl_sv (fun _ hw1 _ => hw1.visitRoleIndex)).foldl_sv (fun _ hw1 _ => hw1.visitRole))

theorem Sound.faultRegs {x : CtxId} {c : Cond} (h : Sound κ σ s) : Sound κ σ (faultRegs x c s) := by
  unfold Machine.faultRegs
  dsimp only
  split
  · refine .setReg64 ?_
    split
    · refine .setReg64 ?_
      split
      · exact h.setReg.setReg.setReg
      · exact h.setReg.setReg
    · split
      · exact h.setReg.setReg.setReg
      · exact h.setReg.setReg
  · split
    · refine .setReg64 ?_
      split
      · exact h.setReg.setReg.setReg
      · exact h.setReg.setReg
    · split
      · exact h.setReg.setReg.setReg
      · exact h.setReg.setReg

theorem Sound.abandonRequests {x : CtxId} (h : Sound κ σ s) : Sound κ σ (abandonRequests x s) := h.same

theorem Sound.headLeaves {x : CtxId} {ok retain : Bool} (h : Sound κ σ s) : Sound κ σ (headLeaves x ok retain s) := by
  unfold Machine.headLeaves
  dsimp only
  split
  · exact h
  · exact .ite h.setVc h.setVc.headArrives

theorem Sound.groupEnd {x : CtxId} {c : Cond} {retain : Bool} {flags energy : Nat} (h : Sound κ σ s) : Sound κ σ (groupEnd x c retain flags energy s) :=
  .ite (.icuEvent (.recGive (.ite (.setReg (.ite h.abandonRequests.walksAbandon.headLeaves h.abandonRequests.walksAbandon.headLeaves.setRb.faultRegs))
    (.ite h.abandonRequests.walksAbandon.headLeaves h.abandonRequests.walksAbandon.headLeaves.setRb.faultRegs))))
    (.recGive (.ite (.setReg (.ite h.abandonRequests.walksAbandon.headLeaves h.abandonRequests.walksAbandon.headLeaves.setRb.faultRegs))
    (.ite h.abandonRequests.walksAbandon.headLeaves h.abandonRequests.walksAbandon.headLeaves.setRb.faultRegs)))

theorem Sound.surveyFails {x : CtxId} {c : Cond} {energy : Nat} (h : Sound False σ s) : Sound False σ (surveyFails x c energy s) := h.groupEnd

theorem Sound.surveyVerdict {x : CtxId} {run : Run} (h : Sound False σ s) : Sound False σ (surveyVerdict x run s) := by
  unfold Machine.surveyVerdict
  dsimp only
  split
  · rename_i u1 e
    have hu1 : Sound False σ u1 := h.elgVerdict.of_snd e
    exact hu1.modVc
  · rename_i u1 e
    have hu1 : Sound False σ u1 := h.elgVerdict.of_snd e
    exact hu1.surveyFails
  · rename_i u1 _ _ e
    have hu1 : Sound False σ u1 := h.elgVerdict.of_snd e
    exact .same (.modVc (.ite hu1.setReg hu1))

theorem Sound.surveyFull {x : CtxId} {run : Run} (h : Sound False σ s) : Sound False σ (surveyFull x run s) := by
  unfold Machine.surveyFull
  dsimp only
  split
  · exact h.surveyFails
  · refine .ite h.start.step3.modVc ?_
    split
    · exact h.start.step3.surveyFails
    · split
      · exact h.start.step3.surveyFails
      · exact h.start.step3.surveyVerdict

theorem Sound.surveyAhead {x : CtxId} {run : Run} (h : Sound False σ s) : Sound False σ (surveyAhead x run s) := .ite h.modVc h.start.step3.modVc

theorem Sound.surveyRun {x : CtxId} {run : Run} (h : Sound False σ s) : Sound False σ (surveyRun x run s) := .ite h.surveyAhead h.surveyFull

theorem Sound.surveyGo {x : CtxId} (h : Sound False σ s) : Sound False σ (surveyGo x s) := by
  unfold Machine.surveyGo
  split
  · exact .ite h.surveyRun h
  · split
    · exact h.surveyRun
    · exact h

theorem Sound.surveyResumed {x : CtxId} (h : Sound False σ s) : Sound False σ (surveyResumed x s) := by
  unfold Machine.surveyResumed
  split
  · exact .ite h.surveyFull h
  · exact h

theorem Sound.surveyInflight {x : CtxId} (h : Sound False σ s) : Sound False σ (surveyInflight x s) := by
  unfold Machine.surveyInflight
  split
  · exact .ite h.surveyVerdict h
  · exact h

theorem Sound.abandonIdx {x : CtxId} {t : State} (h : Sound False σ t) : Sound False σ (surveyAbandon.abandonIdx x t) := .ite h.abandonRequests h

theorem Sound.surveyAbandon {x : CtxId} (h : Sound False σ s) : Sound False σ (surveyAbandon x s) := .ite h.modVc.abandonIdx.walksAbandon h

theorem Sound.tableClaim {x : CtxId} (h : Sound False σ s) : Sound False σ (tableClaim x s) := by
  unfold Machine.tableClaim
  dsimp only
  split
  · exact .ite h.modVc.same h
  · exact h

theorem Sound.slotClaim {x : CtxId} (h : Sound False σ s) : Sound False σ (slotClaim x s) := by
  unfold Machine.slotClaim
  dsimp only
  split
  · exact .ite (.modVc (.ite h.setRb h)) h
  · exact h

/-! ### The streaming of one instruction of an admitted group: its reads and its writes, and the end of a stopped group -/

theorem Sound.readChunk {x : CtxId} {cls : Nat} {c : Chunk} (h : Sound κ σ s) : Sound κ σ (readChunk x cls c s).2 := .ite_snd h.ergWordRead.snd h.vseRead

theorem Sound.touchRole {x : CtxId} {cls : Nat} {reach : Nat → Bool} {l : List Chunk} (h : Sound κ σ s) : Sound κ σ (touchRole x cls reach l s) :=
  h.foldl (fun _ hu _ => .ite hu.readChunk hu)

theorem Sound.sendReads {x : CtxId} {cls : Nat} {l : List Chunk} (h : Sound κ σ s) : Sound κ σ (sendReads x cls l s) :=
  h.foldl (fun _ hu _ => .ite hu.vseRead hu)

theorem Sound.roleSend {x : CtxId} {cls : Nat} {l : List Chunk} (h : Sound κ σ s) : Sound κ σ (roleSend x cls l s).2 := h.sendReads

theorem Sound.peekSrcs {x : CtxId} {run : Run} {k : Nat} {i : SInstr} {q : Nat} (h : Sound κ σ s) : Sound κ σ (peekSrcs x run k i q s).2 :=
  .ite_snd h.roleSend.snd (.ite_snd (h.roleSend.snd.foldl_snd (fun _ hq1 _ => hq1.roleSend.snd)).snd
    (h.roleSend.snd.foldl_snd (fun _ hq1 _ => hq1.roleSend.snd)).snd)

theorem Sound.touchSrcs {x : CtxId} {i : SInstr} {src : Srcs} {reach : Nat → Nat → Bool} (h : Sound κ σ s) : Sound κ σ (touchSrcs x i src reach s) :=
  h.foldl (fun _ hu _ => hu.touchRole)

theorem Sound.writeChunk {x : CtxId} {cls : Nat} {c : Chunk} {b : List Byte} (h : Sound κ σ s) : Sound κ σ (writeChunk x cls c b s).2 :=
  .ite_snd h.ergWordWrite.snd h.vseWrite

theorem Sound.writeChunks {x : CtxId} {k cls : Nat} {ahead : Nat → Bool} {x4 : List (Chunk × List Byte)} {x5 : Option Fail} (h : Sound κ σ s) :
    Sound κ σ (writeChunks x k cls ahead x4 x5 s).2 := by
  induction x4 generalizing x5 s with
  | nil => exact h
  | cons a l ih =>
    conv => arg 3; arg 1; whnf
    split
    · exact ih (.ite h.writeChunk h)
    · split
      · rename_i u1 e
        have hu1 : Sound κ σ u1 := h.writeChunk.of_snd e
        exact ih hu1
      · rename_i u1 e
        have hu1 : Sound κ σ u1 := h.writeChunk.of_snd e
        exact ih hu1.modVc
      · rename_i u1 _ _ e
        have hu1 : Sound κ σ u1 := h.writeChunk.of_snd e
        exact ih hu1

theorem Sound.writeOuts {x : CtxId} {run : Run} {k : Nat} {i : SInstr} {d : Desc} {q : Nat} {outs : List (Nat × Res)} (h : Sound κ σ s) :
    Sound κ σ (writeOuts x run k i d q outs s).2 :=
  h.writeChunks

theorem Sound.admittedEnd {x : CtxId} {run : Run} {c : Cond} (h : Sound κ σ s) : Sound κ σ (admittedEnd x run c s) :=
  (h.foldl (fun _ hu _ => hu.setReg)).elgRelease.groupEnd

theorem Sound.eauLost {ins : List SInstr} (h : Sound κ σ s) : Sound κ σ (eauLost ins s) := .ite (h.foldl (fun _ hu _ => hu.same.setEa)) h

theorem Sound.remoteSettle {x : CtxId} (h : Sound κ σ s) : Sound κ σ (remoteSettle x s) := by
  unfold Machine.remoteSettle
  split
  · split
    · exact .ite h.admittedEnd h
    · exact h
  · exact h

theorem Sound.groupStops {x : CtxId} {run : Run} {c : Cond} (h : Sound κ σ s) : Sound κ σ (groupStops x run c s) := h.eauLost.modVc.remoteSettle

theorem Sound.eardUndo {run : Run} {k : Nat} (h : Sound κ σ s) : Sound κ σ (eardUndo run k s) := .ite h (h.foldl (fun _ hu _ => hu.setEa))

theorem Sound.writeRefused {x : CtxId} {f : WrRefused} (h : Sound κ σ s) : Sound κ σ (writeRefused x f s) := by
  unfold Machine.writeRefused
  dsimp only
  split
  · exact .ite h.eardUndo.modVc.modVc h.eardUndo.modVc.groupStops
  · exact h

theorem Sound.remoteWriteFails {x : CtxId} {pa cause : Nat} (h : Sound False σ s) : Sound False σ (remoteWriteFails x pa cause s) := by
  unfold Machine.remoteWriteFails
  dsimp only
  split
  · exact h.writeRefused
  · exact h

theorem Sound.flushUnsent {x : CtxId} {x1 : List PendWrite} (h : Sound κ σ s) : Sound κ σ (flushUnsent x x1 s) := by
  induction x1 generalizing s with
  | nil => exact h.modVc.remoteSettle
  | cons a l ih =>
    refine .ite (ih h) ?_
    split
    · rename_i u1 e
      have hu1 : Sound κ σ u1 := h.vseWrite.of_snd e
      exact hu1.modVc
    · rename_i u1 e
      have hu1 : Sound κ σ u1 := h.vseWrite.of_snd e
      exact ih hu1.writeRefused
    · rename_i u1 _ _ e
      have hu1 : Sound κ σ u1 := h.vseWrite.of_snd e
      exact ih hu1

/-! ### The run of one instruction of a streaming group, and what the group leaves when a failure stops it -/

theorem Sound.putBack {o : OldByte} (h : Sound κ σ s) : Sound κ σ (putBack o s) := by
  unfold Machine.putBack
  exact .ite h.setByte.setEcc h.setByte.setEcc.setDramErr

theorem Sound.putBackAll {kept : OldByte → Bool} {l : List OldByte} {held : List Nat} (h : Sound κ σ s) : Sound κ σ (putBackAll kept l held s) := by
  induction l generalizing held s with
  | nil => exact h
  | cons o t ih =>
    exact .ite (ih h) (ih (.ite h h.putBack))

theorem Sound.push {g : StopPass} {whole : Bool} {lim w : Nat} {vals : List Nat} {fl : FFlags} (hs : Sound κ σ s) :
    Sound κ σ (g.push whole lim w vals fl s).s :=
  hs

theorem Sound.unstarted {g : StopPass} {i : SInstr} (h : Sound κ σ g.s) : Sound κ σ (g.unstarted i).s := h.push

theorem Sound.earlierStop {run : Run} {from_ kf : Nat} {w : Nat × Nat} {q : Nat} (h : Sound κ σ s) : Sound κ σ (earlierStop run from_ kf w q s).s := by
  unfold Machine.earlierStop
  dsimp only
  refine .putBackAll (h.foldl_sp (fun w1 hw1 a => ?_))
  split
  · exact .ite hw1.eardUndo hw1
  · exact hw1

theorem Sound.accsCorrected {l : List Nat} (h : Sound κ σ s) : Sound κ σ (accsCorrected l s) := h.foldl (fun _ hu _ => .ite hu.setEa.countUp hu)

theorem Sound.laterStop {x : CtxId} {from_ m : Nat} {w : Nat × Nat} {q : Nat} {i : SInstr} {g : StopPass} (h : Sound κ σ g.s) :
    Sound κ σ (laterStop x from_ m w q i g).s := by
  unfold Machine.laterStop
  dsimp only
  refine .ite_sp h.unstarted ?_
  split
  · exact .ite_sp h.touchSrcs.push (.push (.ite (h.touchSrcs.writeOuts.foldl (fun _ hu _ => hu.setEa)) h.touchSrcs.writeOuts))
  · exact .push (.ite (h.touchSrcs.foldl (fun _ hu _ => hu.setEa)) h.touchSrcs)

theorem Sound.stopGroup {x : CtxId} {run : Run} {from_ kf : Nat} {w : Nat × Nat} {c : Nat → Cond} (h : Sound κ σ s) :
    Sound κ σ (stopGroup x run from_ kf w c s) := by
  unfold Machine.stopGroup
  dsimp only
  refine .groupStops (h.same.earlierStop.foldl_sp (fun w1 hw1 a => .ite_sp ?_ hw1))
  split
  · exact hw1.laterStop
  · exact hw1

theorem Sound.runFails {x : CtxId} {run : Run} {k : Nat} {i : SInstr} {mask : List Bool} {f : SrcFail} {q : Nat} (h : Sound κ σ s) :
    Sound κ σ (runFails x run k i mask f q s) :=
  h.stopGroup

theorem Sound.accFails {x : CtxId} {run : Run} {k m : Nat} (h : Sound κ σ s) : Sound κ σ (accFails x run k m s) := by
  unfold Machine.accFails
  exact h.setRb.setRf.stopGroup

theorem Sound.runDone {x : CtxId} {run : Run} {k : Nat} {i : SInstr} {mask : List Bool} {out : VOut} (h : Sound κ σ s) :
    Sound κ σ (runDone x run k i mask out s) := by
  unfold Machine.runDone
  dsimp only
  split
  · refine .stopGroup ?_
    split
    · exact h.draw.writeOuts
    · exact h.draw.snd
  · refine .modVc (.foldl ?_ (fun _ hu _ => hu.setEa))
    split
    · exact h.draw.writeOuts
    · exact h.draw.snd

theorem Sound.flushed {x : CtxId} (h : Sound κ σ s) : Sound κ σ (flushed x s) := .ite h h.flushUnsent

theorem Sound.vectorRun {x : CtxId} {opc : Nat} {f : VEnv → VIn → VOut} {s0 : State} (h : Sound κ σ s0) : Sound κ σ (vectorRun x opc f s0) := by
  unfold Machine.vectorRun
  dsimp only
  split
  · exact h.flushed
  · refine .ite h.flushed (.ite h.flushed.accsCorrected.peekSrcs ?_)
    split
    · exact h.flushed.accsCorrected.peekSrcs.same.accFails
    · split
      · exact h.flushed.accsCorrected.peekSrcs.same.runFails
      · exact h.flushed.accsCorrected.peekSrcs.same.touchSrcs.runDone

theorem Sound.groupCompletes {x : CtxId} {s0 : State} (h : Sound False σ s0) : Sound False σ (groupCompletes x s0) := by
  unfold Machine.groupCompletes
  dsimp only
  split
  · exact .ite h.flushed.admittedEnd h.flushed
  · exact h.flushed

theorem Sound.groupMchkEnds {x : CtxId} {s0 : State} (h : Sound False σ s0) : Sound False σ (groupMchkEnds x s0) := by
  unfold Machine.groupMchkEnds
  dsimp only
  split
  · split
    · exact .ite h.flushed.admittedEnd h.flushed
    · exact h.flushed
  · exact h.flushed

/-! ### The vector-class instructions of a core: descriptors, commands, contexts, fences, images and suspension -/

theorem Sound.unbind {c : CoreId} (h : Sound False σ s) : Sound False σ (unbind c s) := h.foldl (fun _ hu _ => hu.setRb)

theorem Sound.vecAllowed {c : CoreId} {w : Word} {k : State → Machine.Acc Machine.Flow} (hk : ∀ (a : State), Sound False σ a → Sound False σ (accState (k a)))
    (h : Sound False σ s) :
    Sound False σ (accState (vecAllowed c w k s)) :=
  .ite_acc h (hk _ h)

theorem Sound.withCtx {c : CoreId} {w : Word} {k : CtxId → State → Machine.Acc Machine.Flow}
    (hk : ∀ (a : CtxId) (a_1 : State), Sound False σ a_1 → Sound False σ (accState (k a a_1))) (h : Sound False σ s) :
    Sound False σ (accState (withCtx c w k s)) := by
  unfold Machine.withCtx
  split
  · exact hk _ _ h
  · exact h

theorem Sound.ctxInstr {c : CoreId} {w : Word} {k : State → Machine.Acc Machine.Flow} (hk : ∀ (a : State), Sound False σ a → Sound False σ (accState (k a)))
    (h : Sound False σ s) :
    Sound False σ (accState (ctxInstr c w k s)) :=
  .vecAllowed (fun _ ha => .ite_acc ha (hk _ ha)) h

theorem Sound.markGroups {c : CoreId} {x : CtxId} {p : Nat → Grp → Bool} (h : Sound False σ s) : Sound False σ (markGroups c x p s) := by
  unfold Machine.markGroups
  exact h.same.modVc

theorem Sound.awaitGroups {c : CoreId} {x : CtxId} {p : Nat → Grp → Bool} {k : State → Machine.Acc Machine.Flow}
    (hk : ∀ (a : State), Sound False σ a → Sound False σ (accState (k a))) (h : Sound False σ s) :
    Sound False σ (accState (awaitGroups c x p k s)) :=
  .ite_acc (.wait (.ite h h.markGroups.modCore)) (hk _ (.ite h h.markGroups.modCore))

theorem Sound.setSd {x : CtxId} {d w : Nat} {v : Word} (h : Sound False σ s) : Sound False σ (setSd x d w v s) := h.setReg

theorem Sound.setLn {x : CtxId} {k : Nat} {v : Word} (h : Sound False σ s) : Sound False σ (setLn x k v s) := h.setReg

theorem Sound.vsdWrite {x : CtxId} {d w : Nat} {gs gt : Word} (h : Sound False σ s) : Sound False σ (vsdWrite x d w gs gt s) := by
  unfold Machine.vsdWrite
  split
  · exact h.setSd.setSd
  · exact h.setLn
  · exact h.setSd

theorem Sound.descWrite {c : CoreId} {w : Word} {x : CtxId} {ln : Bool} {d n : Nat} {k : State → Machine.Acc Machine.Flow}
    (hk : ∀ (a : State), Sound False σ a → Sound False σ (accState (k a))) (h : Sound False σ s) :
    Sound False σ (accState (descWrite c w x ln d n k s)) :=
  .ite_acc h (.awaitGroups (fun _ ha => hk _ ha) h)

theorem Sound.vsdBody {c : CoreId} {gs gt : GReg} {sd w : Nat} (h : Sound False σ s) : Sound False σ (accState (vsdBody c gs gt sd w s)) := by
  unfold Machine.vsdBody
  exact .vecAllowed (fun _ ha => .ite_acc ha (.withCtx (fun _ _ ha_1 => .descWrite (fun _ ha2 => ha2.vsdWrite.ok) ha_1) ha)) h

theorem Sound.rangePieces {c : CoreId} {k : AccKind} {x2 x3 x4 : Nat} (h : Sound False σ s) : Sound False σ (accState (rangePieces c k x2 x3 x4 s)) := by
  induction x2 generalizing x3 x4 s with
  | zero => exact h
  | succ k1 ih =>
    refine .ite_acc h ?_
    dsimp only
    split
    · rename_i u1 e
      have hu1 : Sound False σ u1 := h.transPieces.of_wait e
      exact hu1
    · rename_i u1 e
      have hu1 : Sound False σ u1 := h.transPieces.of_ok e
      exact (ih hu1).bind (fun _ _ ha_1 => ha_1)
    · rename_i u1 e
      have hu1 : Sound False σ u1 := h.transPieces.of_exc e
      split
      · rename_i u3 e1
        have hu3 : Sound False σ u3 := (ih hu1).of_wait e1
        exact hu3
      · rename_i u3 e1
        have hu3 : Sound False σ u3 := (ih hu1).of_exc e1
        exact .ite_acc hu3 hu1
      · rename_i u3 e1
        have hu3 : Sound False σ u3 := (ih hu1).of_ok e1
        exact hu1

theorem Sound.loadRange {c : CoreId} {va len : Nat} (h : Sound False σ s) : Sound False σ (accState (loadRange c va len s)) :=
  h.rangePieces.bind (fun _ _ ha_1 => ha_1.loadPieces)

theorem Sound.loadDescs {x : CtxId} {d n : Nat} {b : List Byte} (h : Sound False σ s) : Sound False σ (loadDescs x d n b s) := h.foldl (fun _ hu _ => hu.setSd)

theorem Sound.vlddBody {c : CoreId} {gs : GReg} {sd n1 : Nat} (h : Sound False σ s) : Sound False σ (accState (vlddBody c gs sd n1 s)) := by
  unfold Machine.vlddBody
  exact .vecAllowed (fun _ ha => .ite_acc ha (.withCtx (fun _ _ ha_1 => .descWrite
      (fun _ ha2 => .ite_acc ha2 (ha2.loadRange.bind (fun _ _ ha_11 => ha_11.loadDescs.ok))) ha_1) ha)) h

theorem Sound.queueGroup {x : CtxId} {g : Grp} (h : Sound False σ s) : Sound False σ (queueGroup x g s) := .ite h.modVc.headArrives h.modVc

theorem Sound.queueCmd {x : CtxId} {q : QCmd} (h : Sound False σ s) : Sound False σ (queueCmd x q s) := .ite h.modVc h.modVc.queueGroup

theorem Sound.vissueBody {c : CoreId} {gd gs gt : GReg} (h : Sound False σ s) : Sound False σ (accState (vissueBody c gd gs gt s)) :=
  .vecAllowed (fun _ ha => .withCtx (fun _ _ ha_1 => .ite_acc ha_1 (.ite_acc ha_1 (.ite_acc ha_1 (.ite_acc ha_1 ha_1.setRf.queueCmd.putG)))) ha) h

theorem Sound.vfenceBody {c : CoreId} {gs : GReg} (h : Sound False σ s) : Sound False σ (accState (vfenceBody c gs s)) :=
  .vecAllowed (fun _ ha => .withCtx (fun _ _ ha_1 => .awaitGroups (fun _ ha2 => ha2) ha_1) ha) h

theorem Sound.vinvBody {c : CoreId} {ga gb : GReg} {ty : Nat} (h : Sound False σ s) : Sound False σ (accState (vinvBody c ga gb ty s)) := by
  unfold Machine.vinvBody
  dsimp only
  split
  · exact h
  · exact .ite_acc h (.ite_acc (.wait (.ite h h.invalidate.modCore.same)) (.ok (.ite h h.invalidate.modCore.same)))

theorem Sound.ctxFresh {x : CtxId} (h : Sound False σ s) : Sound False σ (ctxFresh x s) := h.resetRegs.setVc.setRb

theorem Sound.vctxAllocBody {c : CoreId} {gd : GReg} (h : Sound False σ s) : Sound False σ (accState (vctxAllocBody c gd s)) := by
  unfold Machine.vctxAllocBody
  dsimp only
  refine .ctxInstr (fun a ha => ?_) h
  split
  · exact ha.putG
  · exact ha.ctxFresh.setReg.putG

theorem Sound.clearAccs {l : List Nat} (h : Sound False σ s) : Sound False σ (clearAccs l s) := h.foldl (fun _ hu _ => hu.setEa)

theorem Sound.vctxFreeBody {c : CoreId} {gd gs : GReg} (h : Sound False σ s) : Sound False σ (accState (vctxFreeBody c gd gs s)) :=
  .ctxInstr (fun _ ha => .ite_acc ha.putG (.ite_acc ha.putG ha.setVc.clearAccs.setReg.setReg.setReg.setRb.putG)) h

theorem Sound.vbindBody {c : CoreId} {gd gs : GReg} (h : Sound False σ s) : Sound False σ (accState (vbindBody c gd gs s)) :=
  .ctxInstr (fun _ ha => .ite_acc ha.unbind.putG (.ite_acc ha.putG ha.unbind.setRb.putG)) h

theorem Sound.eaownWrite {x : CtxId} {v : Word} (h : Sound False σ s) : Sound False σ (eaownWrite x v s) :=
  ((h.foldl (fun _ hu _ => hu.setRb)).clearAccs.foldl (fun _ hu _ => hu.setRb)).clearAccs

theorem Sound.veaownBody {c : CoreId} {gd gs : GReg} (h : Sound False σ s) : Sound False σ (accState (veaownBody c gd gs s)) :=
  .ctxInstr (fun _ ha => .withCtx (fun _ _ ha_1 => ha_1.eaownWrite.putG) ha) h

theorem Sound.vcsaveBody {c : CoreId} {gd gs gt : GReg} (h : Sound False σ s) : Sound False σ (accState (vcsaveBody c gd gs gt s)) :=
  .ctxInstr (fun _ ha => .ite_acc ha (.ite_acc ha.putG (.ite_acc ha.putG
    (ha.rangePieces.bind (fun _ _ ha_1 => ha_1.storePieces.bind (fun _ _ ha_11 => ha_11.putG)))))) h

theorem Sound.imageRestore {x : CtxId} {b accs : List Byte} (h : Sound False σ s) : Sound False σ (imageRestore x b accs s) :=
  (((h.ctxFresh.foldl (fun _ hu _ => hu.setReg)).foldl (fun _ hu _ => hu.setLn)).loadDescs.setRf.setReg.foldl
    (fun _ hu _ => hu.setEa)).draw.modVc.headArrives

theorem Sound.vcrstBody {c : CoreId} {gd gs : GReg} (h : Sound False σ s) : Sound False σ (accState (vcrstBody c gd gs s)) := by
  unfold Machine.vcrstBody
  dsimp only
  refine .ctxInstr (fun a ha => .ite_acc ha (ha.loadRange.bind (fun a1 a_1 ha_1 => .ite_acc ha_1.putG ?_))) h
  split
  · exact ha_1.putG
  · exact .ite_acc ha_1.putG (ha_1.loadRange.bind (fun _ _ ha_11 => ha_11.imageRestore.putG))

theorem Sound.vsuspBody {c : CoreId} {gd gs : GReg} (h : Sound False σ s) : Sound False σ (accState (vsuspBody c gd gs s)) :=
  .ctxInstr (fun _ ha => .ite_acc ha.putG ha.modVc.putG) h

theorem Sound.discardHead {x : CtxId} (h : Sound False σ s) : Sound False σ (discardHead x s) := h.modVc.headArrives

theorem Sound.resumeCtx {x : CtxId} {discard : Bool} (h : Sound False σ s) : Sound False σ (resumeCtx x discard s) :=
  .ite h (.setRb (.setRb (.setRb (.modVc (.ite h.discardHead h)))))

theorem Sound.vresumeBody {c : CoreId} {gd gs gt : GReg} (h : Sound False σ s) : Sound False σ (accState (vresumeBody c gd gs gt s)) :=
  .ctxInstr (fun _ ha => .ite_acc ha.putG ha.resumeCtx.putG) h

theorem Sound.execVsd {c : CoreId} {gs gt : GReg} {sd : BitVec 6} {w : BitVec 3} (h : Sound False σ s) : Goes σ (execVsd c gs gt sd w s) :=
  .next (.run (fun _ ha => ha.vsdBody) h)

theorem Sound.execVldd {c : CoreId} {gs : GReg} {sd n1 : BitVec 6} (h : Sound False σ s) : Goes σ (execVldd c gs sd n1 s) :=
  .next (.run (fun _ ha => ha.vlddBody) h)

theorem Sound.execVissue {c : CoreId} {gd gs gt : GReg} (h : Sound False σ s) : Goes σ (execVissue c gd gs gt s) :=
  .next (.run (fun _ ha => ha.vissueBody) h)

theorem Sound.execVctxAlloc {c : CoreId} {gd : GReg} (h : Sound False σ s) : Goes σ (execVctxAlloc c gd s) := .next (.run (fun _ ha => ha.vctxAllocBody) h)

theorem Sound.execVctxFree {c : CoreId} {gd gs : GReg} (h : Sound False σ s) : Goes σ (execVctxFree c gd gs s) :=
  .next (.run (fun _ ha => ha.vctxFreeBody) h)

theorem Sound.execVbind {c : CoreId} {gd gs : GReg} (h : Sound False σ s) : Goes σ (execVbind c gd gs s) := .next (.run (fun _ ha => ha.vbindBody) h)

theorem Sound.execVfence {c : CoreId} {gs : GReg} (h : Sound False σ s) : Goes σ (execVfence c gs s) := .next (.run (fun _ ha => ha.vfenceBody) h)

theorem Sound.execVeaown {c : CoreId} {gd gs : GReg} (h : Sound False σ s) : Goes σ (execVeaown c gd gs s) := .next (.run (fun _ ha => ha.veaownBody) h)

theorem Sound.execVcsave {c : CoreId} {gd gs gt : GReg} (h : Sound False σ s) : Goes σ (execVcsave c gd gs gt s) :=
  .next (.run (fun _ ha => ha.vcsaveBody) h)

theorem Sound.execVcrst {c : CoreId} {gd gs : GReg} (h : Sound False σ s) : Goes σ (execVcrst c gd gs s) := .next (.run (fun _ ha => ha.vcrstBody) h)

theorem Sound.execVsusp {c : CoreId} {gd gs : GReg} (h : Sound False σ s) : Goes σ (execVsusp c gd gs s) := .next (.run (fun _ ha => ha.vsuspBody) h)

theorem Sound.execVresume {c : CoreId} {gd gs gt : GReg} (h : Sound False σ s) : Goes σ (execVresume c gd gs gt s) :=
  .next (.run (fun _ ha => ha.vresumeBody) h)

theorem Sound.execVinv {c : CoreId} {ga gb : GReg} {ty : BitVec 4} (h : Sound False σ s) : Goes σ (execVinv c ga gb ty s) :=
  .next (.run (fun _ ha => ha.vinvBody) h)

/-- What ends a wait carries the stalled instruction on, whichever it is, or finds none of its own and leaves the state. -/
theorem Sound.resumes {c : CoreId} (h : Sound False σ s) :
    Goes σ (execDescWriteRelease c s) ∧ Goes σ (execVissueQueueRoom c s) ∧ Goes σ (execVfenceRelease c s) ∧ Goes σ (execVinvRelease c s) ∧
      Goes σ (execTlbiWalksDone c s) ∧ Goes σ (execGateProbeTimeout c s) := by
  delta Machine.execDescWriteRelease Machine.execVissueQueueRoom Machine.execVfenceRelease Machine.execVinvRelease Machine.execTlbiWalksDone
    Machine.execGateProbeTimeout
  generalize (s.core c).stall = o
  have hn : Goes σ (.next s) := .next h
  cases o with
  | none => exact ⟨hn, hn, hn, hn, hn, hn⟩
  | some i =>
    have hstay : Goes σ (.next s) ∧ Goes σ (.next s) ∧ Goes σ (.next s) ∧ Goes σ (.next s) ∧ Goes σ (.next s) ∧ Goes σ (.next s) :=
      ⟨hn, hn, hn, hn, hn, hn⟩
    cases i with
    | vsd => exact ⟨.next (.run (fun _ ha => ha.vsdBody) h), hn, hn, hn, hn, hn⟩
    | vldd => exact ⟨.next (.run (fun _ ha => ha.vlddBody) h), hn, hn, hn, hn, hn⟩
    | vissue => exact ⟨hn, .next (.run (fun _ ha => ha.vissueBody) h), hn, hn, hn, hn⟩
    | vfence => exact ⟨hn, hn, .next (.run (fun _ ha => ha.vfenceBody) h), hn, hn, hn⟩
    | vinv => exact ⟨hn, hn, hn, .next (.run (fun _ ha => ha.vinvBody) h), hn, hn⟩
    | tlbi => exact ⟨hn, hn, hn, hn, .next (.run (fun _ ha => ha.tlbiBody) h), hn⟩
    | gate => exact ⟨hn, hn, hn, hn, hn, .next (.ite (.run (fun _ ha => ha.gateBody) h) h)⟩
    | _ => exact hstay

theorem Sound.execDescWriteRelease {c : CoreId} (h : Sound False σ s) : Goes σ (execDescWriteRelease c s) := h.resumes.1

theorem Sound.execVissueQueueRoom {c : CoreId} (h : Sound False σ s) : Goes σ (execVissueQueueRoom c s) := h.resumes.2.1

theorem Sound.execVfenceRelease {c : CoreId} (h : Sound False σ s) : Goes σ (execVfenceRelease c s) := h.resumes.2.2.1

theorem Sound.execVinvRelease {c : CoreId} (h : Sound False σ s) : Goes σ (execVinvRelease c s) := h.resumes.2.2.2.1

theorem Sound.execTlbiWalksDone {c : CoreId} (h : Sound False σ s) : Goes σ (execTlbiWalksDone c s) := h.resumes.2.2.2.2.1

theorem Sound.execGateProbeTimeout {c : CoreId} (h : Sound False σ s) : Goes σ (execGateProbeTimeout c s) := h.resumes.2.2.2.2.2

/-! ### Events of the vector engine: the survey's steps, the ends of groups, suspension, completion rings and the microsequencer -/

theorem Sound.masterWrite {m : Master} {pa : Nat} {v : Word} (h : Sound False σ s) : Sound False σ (masterWrite m pa v s) := h.postWrite

theorem Sound.execGroupSurvey {x : CtxId} (h : Sound False σ s) : Goes σ (execGroupSurvey x s) := .next (.clocked (fun _ ha => ha.surveyGo) h)

theorem Sound.execSurveyResume {x : CtxId} (h : Sound False σ s) : Goes σ (execSurveyResume x s) := .next (.clocked (fun _ ha => ha.surveyResumed) h)

theorem Sound.execElgInflightWaitEnd {x : CtxId} (h : Sound False σ s) : Goes σ (execElgInflightWaitEnd x s) :=
  .next (.clocked (fun _ ha => ha.surveyInflight) h)

theorem Sound.execSurveyTableClaim {x : CtxId} (h : Sound False σ s) : Goes σ (execSurveyTableClaim x s) := .next (.clocked (fun _ ha => ha.tableClaim) h)

theorem Sound.execCaravanSlotClaim {x : CtxId} (h : Sound False σ s) : Goes σ (execCaravanSlotClaim x s) := .next (.clocked (fun _ ha => ha.slotClaim) h)

theorem Sound.execGroupComplete {x : CtxId} (h : Sound False σ s) : Goes σ (execGroupComplete x s) := .next (.clocked (fun _ ha => ha.groupCompletes) h)

theorem Sound.execGroupMchk {x : CtxId} (h : Sound False σ s) : Goes σ (execGroupMchk x s) := .next (.clocked (fun _ ha => ha.groupMchkEnds) h)

theorem Sound.chainFullReport {x : CtxId} (h : Sound False σ s) : Sound False σ (chainFullReport x s) := by
  unfold Machine.chainFullReport
  dsimp only
  split
  · split
    · exact .ite h.groupEnd h
    · exact h
  · exact h

theorem Sound.execChainFullReport {x : CtxId} (h : Sound False σ s) : Goes σ (execChainFullReport x s) :=
  .next (.clocked (fun _ ha => ha.chainFullReport) h)

theorem Sound.suspendEffect {x : CtxId} (h : Sound False σ s) : Sound False σ (suspendEffect x s) := .ite h.modVc.setRb.setRb.recGive h

theorem Sound.execSuspendEffect {x : CtxId} (h : Sound False σ s) : Goes σ (execSuspendEffect x s) := .next (.clocked (fun _ ha => ha.suspendEffect) h)

theorem Sound.execVcCrtailWrite {m : Master} {x : CtxId} {v : Word} (h : Sound False σ s) : Goes σ (execVcCrtailWrite m x v s) := .next h.masterWrite

theorem Sound.execVcCrbaseLoWrite {m : Master} {x : CtxId} {v : Word} (h : Sound False σ s) : Goes σ (execVcCrbaseLoWrite m x v s) := .next h.masterWrite

theorem Sound.pollPoint {x : CtxId} {forced : Bool} (h : Sound False σ s) : Sound False σ (pollPoint x forced s) :=
  .ite (.surveyAbandon (.modVc (.setRf (.ite h.countUp h)))) (.modVc (.setRf (.ite h.countUp h)))

theorem Sound.forcedPoll {x : CtxId} (h : Sound False σ s) : Sound False σ (forcedPoll x s) := .ite h.modVc.pollPoint h

theorem Sound.execForcedPoll {x : CtxId} (h : Sound False σ s) : Goes σ (execForcedPoll x s) := .next (.clocked (fun _ ha => ha.forcedPoll) h)

theorem Sound.cserrCtx {x : CtxId} (h : Sound False σ s) : Sound False σ (cserrCtx x s) := by
  unfold Machine.cserrCtx
  dsimp only
  split
  · exact .ite h.surveyAbandon.remoteSettle h.surveyAbandon.groupStops
  · exact h.surveyAbandon

theorem Sound.vmsCserr {uaddr : BitVec 13} (h : Sound False σ s) : Sound False σ (vmsCserr uaddr s) := (h.setReg.foldl (fun _ hu _ => hu.cserrCtx)).icuEvent

theorem Sound.execVmsCserr {uaddr : BitVec 13} (h : Sound False σ s) : Goes σ (execVmsCserr uaddr s) := .next (.clocked (fun _ ha => ha.vmsCserr) h)

theorem Sound.execVmsLockSet {m : Master} (h : Sound False σ s) : Goes σ (execVmsLockSet m s) := .next h.masterWrite

theorem Sound.abandonRun {x : CtxId} (h : Sound False σ s) : Sound False σ (abandonRun x s) := by
  unfold Machine.abandonRun
  split
  · exact h.eauLost.same.foldl (fun _ hu _ => hu.storeBytes)
  · exact h

theorem Sound.abandonGroups (h : Sound False σ s) : Sound False σ (abandonGroups s) := h.foldl (fun _ hu _ => hu.abandonRun.surveyAbandon.abandonRequests)

/-! ### Events of the Idene Link: ports, packets, remote requests, class-0 slots and fabric time -/

theorem Sound.remoteLogged {e : OutReq × Nat × List Byte} (h : Sound False σ s) : Sound False σ (remoteLogged e s) := .ite h h.xbmLogged

theorem Sound.deliverOne {e : OutReq × Nat × List Byte} {s₀ : State} (h : Sound False σ s₀) : Sound False σ (deliverOne e s₀) := by
  unfold Machine.deliverOne
  dsimp only
  split
  · exact h.remoteLogged.modCore
  · exact .ite h.remoteLogged h.remoteLogged.storeError
  · exact h.remoteLogged.xactAnswered
  · exact .ite h.remoteLogged.modVc (.ite h.remoteLogged.remoteSettle h.remoteLogged.remoteWriteFails.remoteSettle)
  · exact h.remoteLogged.recAnswered
  · exact h.remoteLogged

theorem Sound.deliverEnded (h : Sound False σ s) : Sound False σ (deliverEnded s) := h.foldl (fun _ hu _ => hu.same.deliverOne)

theorem Sound.serveOwnList {x0 : List OutReq} (h : Sound False σ s) : Sound False σ (serveOwnList x0 s) := by
  induction x0 generalizing s with
  | nil => exact h
  | cons a l ih =>
    conv => arg 3; whnf
    split
    · rename_i u1 e
      have hu1 : Sound False σ u1 := h.ownerPerform.of_snd e
      exact ih hu1.endRequest
    · rename_i u1 e
      have hu1 : Sound False σ u1 := h.ownerPerform.of_snd e
      exact hu1

theorem Sound.serveOwn (h : Sound False σ s) : Sound False σ (serveOwn s) := h.serveOwnList

theorem Sound.crcCount {p : Nat} (h : Sound False σ s) : Sound False σ (crcCount p s) := .ite h.portCount.icuEvent h.portCount

theorem Sound.linkCrcError {p : Nat} (h : Sound False σ s) : Sound False σ (linkCrcError p s) := .ite h.crcCount.same h

theorem Sound.arrival {p : Nat} {k : Packet} {body : State → State} (hbody : ∀ (a : State), Sound False σ a → Sound False σ (body a)) (h : Sound False σ s) :
    Sound False σ (arrival p k body s) :=
  .ite h (.ite h.portCount (.ite (.ite h.crcCount h.linkCrcError) (hbody _ h.same)))

theorem Sound.answer {k : Packet} {ty code : Nat} {bytes : List Byte} (h : Sound False σ s) : Sound False σ (answer k ty code bytes s) := h.sendRouted

theorem Sound.serveIn {p : Nat} {k : Packet} (h : Sound False σ s) : Sound False σ (serveIn p k s).2 := by
  unfold Machine.serveIn
  dsimp only
  split
  · rename_i u1 e
    have hu1 : Sound False σ u1 := h.ownerPerform.of_snd e
    exact hu1
  · rename_i u1 e
    have hu1 : Sound False σ u1 := h.ownerPerform.of_snd e
    refine .snd ?_
    split
    · exact .ite hu1.portCount hu1
    · exact hu1.answer
    · exact hu1.answer

theorem Sound.serveInList {x0 : List (Nat × Packet)} (h : Sound False σ s) : Sound False σ (serveInList x0 s) := by
  induction x0 generalizing s with
  | nil => exact h.same
  | cons a l ih =>
    conv => arg 3; whnf
    split
    · rename_i u1 e
      have hu1 : Sound False σ u1 := h.serveIn.of_snd e
      exact ih hu1
    · rename_i u1 e
      have hu1 : Sound False σ u1 := h.serveIn.of_snd e
      exact hu1.same

theorem Sound.serveHeldIn (h : Sound False σ s) : Sound False σ (serveHeldIn s) := h.serveInList.mgmtWrite

theorem Sound.takeIn {p : Nat} {k : Packet} (h : Sound False σ s) : Sound False σ (takeIn p k s) := h.serveInList

theorem Sound.inbound {p ty : Nat} {k : Packet} (h : Sound False σ s) : Sound False σ (inbound p ty k s) := .ite (.arrival (fun _ ha => .ite ha.takeIn ha) h) h

theorem Sound.execRead {p : Fin 6} {pkt : Packet} (h : Sound False σ s) : Goes σ (execRead p pkt s) := .next (.clocked (fun _ ha => ha.inbound) h)

theorem Sound.execWrite {p : Fin 6} {pkt : Packet} (h : Sound False σ s) : Goes σ (execWrite p pkt s) := .next (.clocked (fun _ ha => ha.inbound) h)

theorem Sound.execAtomic {p : Fin 6} {pkt : Packet} (h : Sound False σ s) : Goes σ (execAtomic p pkt s) := .next (.clocked (fun _ ha => ha.inbound) h)

theorem Sound.execC0write {p : Fin 6} {pkt : Packet} (h : Sound False σ s) : Goes σ (execC0write p pkt s) := .next (.clocked (fun _ ha => ha.inbound) h)

theorem Sound.responseEnds {ty : Nat} {k : Packet} (h : Sound False σ s) : Sound False σ (responseEnds ty k s) :=
  .ite (.ite (.ite (.ite h.endRequest.deliverEnded h) (.ite h.endRequest.deliverEnded h)) h.lateAnswer) h

theorem Sound.responseIn {p ty : Nat} {k : Packet} (h : Sound False σ s) : Sound False σ (responseIn p ty k s) :=
  .ite (.arrival (fun _ ha => ha.responseEnds) h) h

theorem Sound.execRdresp {p : Fin 6} {pkt : Packet} (h : Sound False σ s) : Goes σ (execRdresp p pkt s) := .next (.clocked (fun _ ha => ha.responseIn) h)

theorem Sound.execWrack {p : Fin 6} {pkt : Packet} (h : Sound False σ s) : Goes σ (execWrack p pkt s) := .next (.clocked (fun _ ha => ha.responseIn) h)

theorem Sound.execNack {p : Fin 6} {pkt : Packet} (h : Sound False σ s) : Goes σ (execNack p pkt s) := .next (.clocked (fun _ ha => ha.responseIn) h)

theorem Sound.execRemoteRequestTimeout {tag : BitVec 10} (h : Sound False σ s) : Goes σ (execRemoteRequestTimeout tag s) :=
  .next (.clocked (fun _ ha => ha.endRequest.deliverEnded) h)

theorem Sound.execReservedPacket {p : Fin 6} {pkt : Packet} (h : Sound False σ s) : Goes σ (execReservedPacket p pkt s) :=
  .next (.clocked (fun _ ha => .ite ha (.arrival (fun _ ha1 => ha1.portCount) ha)) h)

theorem Sound.forward {p : Nat} {k : Packet} (h : Sound False σ s) : Sound False σ (forward p k s) := by
  unfold Machine.forward
  dsimp only
  refine .ite h (.ite (.ite h.portCount.sendNack h.portCount) ?_)
  split
  · exact .ite h.portCount.sendNack h.portCount
  · exact h.outputPut

theorem Sound.headForwarded {k : Packet} (h : Sound False σ s) : Sound False σ (headForwarded k s) := by
  unfold Machine.headForwarded
  refine .ite ?_ h
  dsimp only
  split
  · exact .ite h.draw.outputPut h.draw
  · exact h.draw

theorem Sound.transitIn {p : Nat} {k : Packet} (h : Sound False σ s) : Sound False σ (transitIn p k s) :=
  .ite (.headForwarded (.arrival (fun _ hu => hu) h)) (.arrival (fun _ hu => hu.forward) h)

theorem Sound.execPacketForward {p : Fin 6} {k : Packet} (h : Sound False σ s) : Goes σ (execPacketForward p k s) :=
  .next (.clocked (fun _ hu => hu.transitIn) h)

theorem Sound.execMgmt {p : Fin 6} {pkt : Packet} (h : Sound False σ s) : Goes σ (execMgmt p pkt s) :=
  .next (.clocked (fun _ ha => .ite (.arrival (fun _ ha1 => .ite ha1.mgmtDeliver ha1) ha) ha) h)

theorem Sound.directed {p : Nat} {k : Packet} (h : Sound False σ s) : Sound False σ (directed p k s) := .ite h.mgmtDeliver (.ite h.portCount h.outputPut)

theorem Sound.execMgmtdir {p : Fin 6} {pkt : Packet} (h : Sound False σ s) : Goes σ (execMgmtdir p pkt s) :=
  .next (.clocked (fun _ ha => .ite (.arrival (fun _ ha1 => ha1.directed) ha) ha) h)

theorem Sound.linkAck {p : Nat} {seq : BitVec 8} (h : Sound False σ s) : Sound False σ (linkAck p seq s) := .ite h.same h

theorem Sound.execLinkAck {p : Fin 6} {seq : BitVec 8} (h : Sound False σ s) : Goes σ (execLinkAck p seq s) := .next (.clocked (fun _ ha => ha.linkAck) h)

theorem Sound.linkRetry {p : Nat} {seq : BitVec 8} (h : Sound False σ s) : Sound False σ (linkRetry p seq s) :=
  .ite (.ite h.portFall.deliverEnded h.portCount.same) h

theorem Sound.execLinkRetry {p : Fin 6} {seq : BitVec 8} (h : Sound False σ s) : Goes σ (execLinkRetry p seq s) :=
  .next (.clocked (fun _ ha => ha.linkRetry) h)

theorem Sound.execLinkCrcError {p : Fin 6} (h : Sound False σ s) : Goes σ (execLinkCrcError p s) := .next (.clocked (fun _ ha => ha.linkCrcError) h)

theorem Sound.execIdlPortEnable {m : Master} {p : Fin 6} {v : Word} (h : Sound False σ s) : Goes σ (execIdlPortEnable m p v s) :=
  .next h.masterWrite.deliverEnded

theorem Sound.execRetrain {m : Master} {p : Fin 6} (h : Sound False σ s) : Goes σ (execRetrain m p s) := .next h.masterWrite.deliverEnded

theorem Sound.portRise {p : Nat} (h : Sound False σ s) : Sound False σ (portRise p s) := h.setRf.icuEvent.pulse

theorem Sound.portAdvance {p : Nat} (h : Sound False σ s) : Sound False σ (portAdvance p s) := .ite (.ite h.setRf (.ite h.portRise h)) h

theorem Sound.execPortStateAdvance {p : Fin 6} (h : Sound False σ s) : Goes σ (execPortStateAdvance p s) := .next (.clocked (fun _ ha => ha.portAdvance) h)

theorem Sound.execPortStateTimeout {p : Fin 6} (h : Sound False σ s) : Goes σ (execPortStateTimeout p s) :=
  .next (.clocked (fun _ ha => .ite ha.portDown ha) h)

theorem Sound.execBlockLockLoss {p : Fin 6} (h : Sound False σ s) : Goes σ (execBlockLockLoss p s) :=
  .next (.clocked (fun _ ha => .ite ha.portFall.deliverEnded ha) h)

theorem Sound.execHelloSilence {p : Fin 6} (h : Sound False σ s) : Goes σ (execHelloSilence p s) :=
  .next (.clocked (fun _ ha => .ite ha.portFall.deliverEnded ha) h)

theorem Sound.execHelloSend {p : Fin 6} (h : Sound False σ s) : Goes σ (execHelloSend p s) := .next (.clocked (fun _ ha => .ite ha.same ha) h)

theorem Sound.helloTake {p : Nat} {h : Hello} (hs : Sound False σ s) : Sound False σ (helloTake p h s) :=
  .ite (.ite hs.setReg.setReg64.same.ftUnlock hs.setReg.setReg64.same) hs

theorem Sound.execHello {p : Fin 6} {h : Hello} (hs : Sound False σ s) : Goes σ (execHello p h s) := .next (.clocked (fun _ ha => ha.helloTake) hs)

theorem Sound.execIdlMtxgo {m : Master} (h : Sound False σ s) : Goes σ (execIdlMtxgo m s) := .next h.masterWrite

theorem Sound.execIdlNodeidWrite {m : Master} {v : Word} (h : Sound False σ s) : Goes σ (execIdlNodeidWrite m v s) := .next h.masterWrite

theorem Sound.c0Send {k : Nat} {data : Option (List Byte)} (h : Sound False σ s) : Sound False σ (c0Send k data s) := by
  unfold Machine.c0Send
  dsimp only
  refine .ite h ?_
  split
  · exact h.outputPut
  · exact h.countUp

theorem Sound.c0Launch {k : Nat} (h : Sound False σ s) : Sound False σ (c0Launch k s) := by
  unfold Machine.c0Launch
  split
  · exact .ite h.same.c0Send h
  · exact h

theorem Sound.execC0Launch {k : Fin 32} (h : Sound False σ s) : Goes σ (execC0Launch k s) := .next (.clocked (fun _ ha => ha.c0Launch) h)

theorem Sound.execTimeExchange {t1 t2 t3 t4 : BitVec 80} (h : Sound False σ s) : Goes σ (execTimeExchange t1 t2 t3 t4 s) :=
  .next (.clocked (fun _ ha => ha.ftExchange) h)

theorem Sound.exchangeReply {p : Fin 6} (h : Sound False σ s) : Sound False σ (exchangeReply p s) := .ite h.same.same h

theorem Sound.execTimeExchangeReply {p : Fin 6} (h : Sound False σ s) : Goes σ (execTimeExchangeReply p s) :=
  .next (.clocked (fun _ ha => ha.exchangeReply) h)

/-! ### Events of the Erg, the memory integrity unit and the DRAM controller -/

theorem Sound.bankGroupLeave {g : Nat} (h : Sound False σ s) : Sound False σ (bankGroupLeave g s) := .ite h.groupLeave.same h

theorem Sound.zeroFillStart {g : Nat} (h : Sound False σ s) : Sound False σ (zeroFillStart g s) := .ite h.same h

theorem Sound.zeroFillDone {g : Nat} (h : Sound False σ s) : Sound False σ (zeroFillDone g s) := .ite h.groupZero.setRb.setRb.same h

theorem Sound.selftestDone {erg : BitVec 128} {si : Bool} {dmc : BitVec 2} (h : Sound False σ s) : Sound False σ (selftestDone erg si dmc s) :=
  .ite h (.ite (h.foldl (fun _ hu _ => hu.groupLeave.setRb.setRb)).setReg (h.foldl (fun _ hu _ => hu.groupLeave.setRb.setRb)).setReg.setRb.setReg)

theorem Sound.execCeWriteback {bank : Fin 128} (h : Sound False σ s) : Goes σ (execCeWriteback bank s) := .next (.clocked (fun _ ha => ha.ceWriteback) h)

theorem Sound.execScrubRow (h : Sound False σ s) : Goes σ (execScrubRow s) := .next (.clocked (fun _ ha => ha.scrubRow) h)

theorem Sound.execScrubLapEnd (h : Sound False σ s) : Goes σ (execScrubLapEnd s) := .next (.clocked (fun _ ha => ha.scrubLapEnd) h)

theorem Sound.execLapslow (h : Sound False σ s) : Goes σ (execLapslow s) := .next (.clocked (fun _ ha => ha.lapSlow) h)

theorem Sound.execErgBgctlOos {m : Master} {mask : BitVec 8} (h : Sound False σ s) : Goes σ (execErgBgctlOos m mask s) := .next h.masterWrite

theorem Sound.execBankGroupLeaveService {g : Fin 8} (h : Sound False σ s) : Goes σ (execBankGroupLeaveService g s) :=
  .next (.clocked (fun _ ha => ha.bankGroupLeave) h)

theorem Sound.execErgInitFill {m : Master} {mask : BitVec 8} (h : Sound False σ s) : Goes σ (execErgInitFill m mask s) := .next h.masterWrite

theorem Sound.execZeroFillStart {g : Fin 8} (h : Sound False σ s) : Goes σ (execZeroFillStart g s) := .next (.clocked (fun _ ha => ha.zeroFillStart) h)

theorem Sound.execErgHashWrite {m : Master} {v : Word} (h : Sound False σ s) : Goes σ (execErgHashWrite m v s) := .next h.masterWrite

theorem Sound.execErgXqosWrite {m : Master} {v : Word} (h : Sound False σ s) : Goes σ (execErgXqosWrite m v s) := .next h.masterWrite

theorem Sound.execMiuInjArm {m : Master} (h : Sound False σ s) : Goes σ (execMiuInjArm m s) := .next h.masterWrite

theorem Sound.execDmcEnable {m : Master} {v : Word} (h : Sound False σ s) : Goes σ (execDmcEnable m v s) := .next h.masterWrite

theorem Sound.execDmcTrainingDone {fail : BitVec 2} (h : Sound False σ s) : Goes σ (execDmcTrainingDone fail s) :=
  .next (.clocked (fun _ ha => ha.dmcTrained) h)

theorem Sound.execDmcCapWrite {m : Master} {v : Word} (h : Sound False σ s) : Goes σ (execDmcCapWrite m v s) := .next h.masterWrite

theorem Sound.execDmcPatrolRead {ch : Fin 2} (h : Sound False σ s) : Goes σ (execDmcPatrolRead ch s) := .next (.clocked (fun _ ha => ha.patrolRead) h)

/-! ### The train networks' shared operations: frame releases, CAN requests, MVB master frames and port buffers, UART starts -/

theorem Sound.modMac {n : Nat} {f : MacSt → MacSt} (h : Sound False σ s) : Sound False σ (s.modMac n f) := h.same

theorem Sound.modCan {c : Nat} {f : CanSt → CanSt} (h : Sound False σ s) : Sound False σ (s.modCan c f) := h.same

theorem Sound.modUart {u : Nat} {f : UartSt → UartSt} (h : Sound False σ s) : Sound False σ (s.modUart u f) := h.same

theorem Sound.countWrap {a : Nat} (h : Sound False σ s) : Sound False σ (s.countWrap a) := h.setReg

theorem Sound.macRelease {n q : Nat} (h : Sound False σ s) : Sound False σ (macRelease n q s) := .ite h.modMac h

theorem Sound.canRequest {c b : Nat} (h : Sound False σ s) : Sound False σ (canRequest c b s) := .ite h.same.modCan h.same.countWrap

theorem Sound.uartStart {u : Nat} (h : Sound False σ s) : Sound False σ (uartStart u s) := h.modUart

theorem Sound.mvbLine (h : Sound False σ s) : Sound False σ (mvbLine s) := h.same.setRb

theorem Sound.mvbFresh {a : Nat} (h : Sound False σ s) : Sound False σ (mvbFresh a s) := h.setReg

theorem Sound.mvbAnswer {w : Nat} (h : Sound False σ s) : Sound False σ (mvbAnswer w s) := by
  unfold Machine.mvbAnswer
  split
  · rename_i u1 e
    have hu1 : Sound False σ u1 := h.busRead.of_snd e
    exact hu1.same
  · rename_i u1 e
    have hu1 : Sound False σ u1 := h.busRead.of_snd e
    exact hu1.same
  · rename_i u1 _ _ e
    have hu1 : Sound False σ u1 := h.busRead.of_snd e
    exact hu1.same

theorem Sound.mvbRetry (h : Sound False σ s) : Sound False σ (mvbRetry s) := by
  unfold Machine.mvbRetry
  split
  · exact h.mvbAnswer
  · exact h

theorem Sound.mvbFrame {w : Nat} (h : Sound False σ s) : Sound False σ (mvbFrame w s) := .ite h.mvbAnswer h.same

theorem Sound.mvbMaster {w : Nat} (h : Sound False σ s) : Sound False σ (mvbMaster w s) := .ite h.mvbFrame h

theorem Sound.mvbStore {a : Nat} {data : List Byte} (h : Sound False σ s) : Sound False σ (mvbStore a data s).2 := by
  unfold Machine.mvbStore
  dsimp only
  split
  · rename_i u1 e
    have hu1 : Sound False σ u1 := h.busWriteV.of_snd e
    exact hu1
  · rename_i u1 e
    have hu1 : Sound False σ u1 := h.busWriteV.of_snd e
    exact hu1.mvbFresh.setRf.icuEvent.pulse.snd
  · rename_i u1 _ _ e
    have hu1 : Sound False σ u1 := h.busWriteV.of_snd e
    exact hu1.countWrap.snd

theorem Sound.canStore {c t : Nat} {f : List Byte} (h : Sound False σ s) : Sound False σ (canStore c t f s).2 := .ite_snd h.modCan.icuEvent.pulse.snd h

theorem Sound.uartStore {u : Nat} {ch : BitVec 9} (h : Sound False σ s) : Sound False σ (uartStore u ch s).2 := .ite_snd h.modUart.snd h

theorem Sound.mvbStep {d : Dma} (h : Sound False σ s) : Sound False σ (mvbStep d s).2 := by
  unfold Machine.mvbStep
  split
  · rename_i u1 e
    have hu1 : Sound False σ u1 := by
      refine Sound.of_snd ?_ e
      split
      · exact h.mvbStore
      · exact h.canStore
      · exact h.uartStore
      · exact h
      · exact h
    exact hu1

theorem Sound.dmaStart {step : Dma → State → Option Dma × State} {d : Dma} (hstep : ∀ (a : Dma) (a_1 : State), Sound False σ a_1 → Sound False σ (step a a_1).2)
    (h : Sound False σ s) :
    Sound False σ (dmaStart step d s) := by
  unfold Machine.dmaStart
  refine .ite h.same ?_
  split
  · rename_i u1 e
    have hu1 : Sound False σ u1 := (hstep _ _ h).of_snd e
    exact hu1
  · rename_i u1 e
    have hu1 : Sound False σ u1 := (hstep _ _ h).of_snd e
    exact hu1.same

theorem Sound.mvbDisagree {disagree : Bool} (h : Sound False σ s) : Sound False σ (mvbDisagree disagree s) := .ite h.setRb.icuEvent h

theorem Sound.mvbSlave {data : List Byte} {disagree : Bool} (h : Sound False σ s) : Sound False σ (mvbSlave data disagree s) := by
  unfold Machine.mvbSlave
  dsimp only
  refine .ite h ?_
  split
  · exact h.mvbLine.mvbDisagree
  · exact .ite (.dmaStart (fun _ _ ha_1 => ha_1.mvbStep) h.mvbLine.mvbDisagree.same) h.mvbLine.mvbDisagree.same

theorem Sound.mvbMasterIn {w : Nat} {disagree : Bool} (h : Sound False σ s) : Sound False σ (mvbMasterIn w disagree s) :=
  .ite h (.mvbFrame (.ite h.mvbLine.mvbDisagree.same.icuEvent h.mvbLine.mvbDisagree.same))

theorem Sound.mvbUnanswered (h : Sound False σ s) : Sound False σ (mvbUnanswered s) := by
  unfold Machine.mvbUnanswered
  split
  · exact h.same.icuEvent.pulse
  · exact h

/-! ### Events: interrupt sources, the event router, the time base, timers and capture inputs -/

theorem Sound.execIcuEvent {n : Nat} (h : Sound False σ s) : Goes σ (execIcuEvent n s) := .next (.ite h.icuEvent h)

theorem Sound.execIcuSwi {m : Master} {v : Word} (h : Sound False σ s) : Goes σ (execIcuSwi m v s) := .next h.masterWrite

theorem Sound.execSicEvent {n : Nat} (h : Sound False σ s) : Goes σ (execSicEvent n s) := .next h.sicEvent

theorem Sound.capStamp {n : Nat} {rising : Bool} (h : Sound False σ s) : Sound False σ (capStamp n rising s) :=
  .same (.ite h.draw.setReg.setReg.setReg64.icuEvent h.draw.setReg.setReg.setReg64)

theorem Sound.capEdge {n : Nat} {rising : Bool} (h : Sound False σ s) : Sound False σ (capEdge n rising s) := .ite (.ite h.pulse.setRb h.pulse.capStamp) h.pulse

theorem Sound.captureEdge {n : Nat} {rising : Bool} (h : Sound False σ s) : Sound False σ (captureEdge n rising s) := .ite h.capEdge h

theorem Sound.execCaptureEdge {n : Fin 16} {rising : Bool} (h : Sound False σ s) : Goes σ (execCaptureEdge n rising s) := .next h.captureEdge

theorem Sound.execCaptureDeadTimeEnd {n : Fin 16} (h : Sound False σ s) : Goes σ (execCaptureDeadTimeEnd n s) := .next h.same

theorem Sound.execCapNsHiRead {m : Master} {n : Fin 16} (h : Sound False σ s) : Goes σ (execCapNsHiRead m n s) := .next h.postRead

theorem Sound.setBitOf {reg : Nat → Nat} {n : Nat} (h : Sound False σ s) : Sound False σ (setBitOf reg n s) := h.setRb

theorem Sound.timerEvent {n : Nat} (h : Sound False σ s) : Sound False σ (timerEvent n s) := .act (.ite h.timerCycle h)

theorem Sound.evoutEvent {n : Nat} (h : Sound False σ s) : Sound False σ (evoutEvent n s) := .ite h.same (.ite h.setBitOf h.same)

theorem Sound.wakeInput {k : Nat} (h : Sound False σ s) : Sound False σ (wakeInput k s) := .ite (.ite h.same h.same) h

theorem Sound.captureEvent {n : Nat} (h : Sound False σ s) : Sound False σ (captureEvent n s) :=
  .ite (.ite h.setBitOf (.ite (.capEdge (.ite h.capEdge h)) (.ite h.capEdge h))) h

theorem Sound.consumerActs {c : Nat} (h : Sound False σ s) : Sound False σ (consumerActs c s) :=
  .ite (.ite h.vseTrigger h.vseTrigger.setBitOf) (.ite h.timerEvent (.ite (.ite h.sicEvent.safeTrigger h.sicEvent)
    (.ite h.macRelease (.ite h.canRequest (.ite h.uartStart (.ite (.ite h.setBitOf h.mvbMaster)
    (.ite h.icuEvent (.ite h.wakeInput (.ite h.evoutEvent (.ite h.captureEvent h))))))))))

theorem Sound.consumerGets {c : Nat} (h : Sound False σ s) : Sound False σ (consumerGets c s) :=
  .ite h.consumerActs (.ite h.consumerActs (.ite (.ite h.setBitOf h.same) h))

theorem Sound.releaseHeld (h : Sound False σ s) : Sound False σ (releaseHeld s) := h.same.foldl (fun _ hu _ => hu.consumerActs)

theorem Sound.channelEdge {joins : Bool} {n : Nat} (h : Sound False σ s) : Sound False σ (channelEdge joins n s) := by
  unfold Machine.channelEdge
  dsimp only
  refine .ite h.setBitOf ?_
  split
  · exact h.setBitOf.consumerGets
  · exact h.setBitOf

theorem Sound.evrEvent {p : Nat} {joins : List Nat} (h : Sound False σ s) : Sound False σ (evrEvent p joins s) :=
  .ite (.ite (h.foldl (fun _ hu _ => hu.channelEdge)) h) (.ite (h.same.foldl (fun _ hu _ => hu.channelEdge)) h)

theorem Sound.execEvrEvent {p : BitVec 8} {joins : List Nat} (h : Sound False σ s) : Goes σ (execEvrEvent p joins s) := .next h.evrEvent

theorem Sound.execEvrCselWrite {m : Master} {cons : BitVec 8} {v : Word} (h : Sound False σ s) : Goes σ (execEvrCselWrite m cons v s) := .next h.masterWrite

theorem Sound.execEvrSwp {m : Master} {v : Word} (h : Sound False σ s) : Goes σ (execEvrSwp m v s) := .next h.masterWrite

theorem Sound.execEvoutPulseEnd {n : Fin 16} (h : Sound False σ s) : Goes σ (execEvoutPulseEnd n s) := .next (.ite h.same h)

theorem Sound.execMothclkCalWindow {period : Word} (h : Sound False σ s) : Goes σ (execMothclkCalWindow period s) := .next (.ite h.setReg.setRb h)

theorem Sound.execTbRateWrite {m : Master} {v : Word} (h : Sound False σ s) : Goes σ (execTbRateWrite m v s) := .next h.masterWrite

theorem Sound.execTbAdjWrite {m : Master} {v : Word} (h : Sound False σ s) : Goes σ (execTbAdjWrite m v s) := .next h.masterWrite

theorem Sound.execTbStep {m : Master} {v : Word} (h : Sound False σ s) : Goes σ (execTbStep m v s) := .next h.masterWrite

theorem Sound.execWakeCompareFire {n : Fin 2} (h : Sound False σ s) : Goes σ (execWakeCompareFire n s) := .next (.ite h.wakeFire h)

theorem Sound.execTimerWrap {n : Fin 48} (h : Sound False σ s) : Goes σ (execTimerWrap n s) := .next (.ite h.timerTick h)

theorem Sound.execTimerMatch {n : Fin 48} (h : Sound False σ s) : Goes σ (execTimerMatch n s) := .next (.ite h.timerTick h)

theorem Sound.execTmuGcmdStart {m : Master} (h : Sound False σ s) : Goes σ (execTmuGcmdStart m s) := .next h.masterWrite

theorem Sound.execTmuGcmdStop {m : Master} (h : Sound False σ s) : Goes σ (execTmuGcmdStop m s) := .next h.masterWrite

theorem Sound.execTmuGcmdResetStart {m : Master} (h : Sound False σ s) : Goes σ (execTmuGcmdResetStart m s) := .next h.masterWrite

theorem Sound.execMcFire {k : Fin 4} (h : Sound False σ s) : Goes σ (execMcFire k s) := .next (.ite h.cmpFire h)

theorem Sound.execScFire {k : Fin 4} (h : Sound False σ s) : Goes σ (execScFire k s) := .next (.ite h.cmpFire h)

/-! ### The Safety Island's commands and events, and a write that places a function on a pin -/

theorem Sound.execLockstepMismatch (h : Sound False σ s) : Goes σ (execLockstepMismatch s) := .next (.ite h.lockstepMismatch h)

theorem Sound.execSiLsctlTest {m : Master} (h : Sound False σ s) : Goes σ (execSiLsctlTest m s) := .next h.masterWrite

theorem Sound.execSiSscForce {m : Master} {v : Word} (h : Sound False σ s) : Goes σ (execSiSscForce m v s) := .next h.masterWrite

theorem Sound.execSiSscRelease {m : Master} {v : Word} (h : Sound False σ s) : Goes σ (execSiSscRelease m v s) := .next h.masterWrite

theorem Sound.execSiWdctlEn {m : Master} {v : Word} (h : Sound False σ s) : Goes σ (execSiWdctlEn m v s) := .next h.masterWrite

theorem Sound.execSiWdkick {m : Master} {v : Word} (h : Sound False σ s) : Goes σ (execSiWdkick m v s) := .next h.masterWrite

theorem Sound.execWdwarn (h : Sound False σ s) : Goes σ (execWdwarn s) := .next (.ite h.sicEvent h)

theorem Sound.execWdExpiry (h : Sound False σ s) : Goes σ (execWdExpiry s) := .next (.ite h.safeTrigger h)

theorem Sound.oscMeasured {w : ClockWindow} (h : Sound False σ s) : Sound False σ (oscMeasured w s) := by
  unfold Machine.oscMeasured
  dsimp only
  split
  · exact .ite h h.same
  · exact h

theorem Sound.clockWindow {w : ClockWindow} (h : Sound False σ s) : Sound False σ (clockWindow w s) :=
  .ite (.ite h.setReg.same.oscMeasured h.setReg.same.oscMeasured.sicEvent.safeTrigger) h

theorem Sound.execClkmonWindow {w : ClockWindow} (h : Sound False σ s) : Goes σ (execClkmonWindow w s) := .next h.clockWindow

theorem Sound.execSiA2sdbWrite {m : Master} {v : Word} (h : Sound False σ s) : Goes σ (execSiA2sdbWrite m v s) := .next h.masterWrite

theorem Sound.execSiS2adbWrite {m : Master} {v : Word} (h : Sound False σ s) : Goes σ (execSiS2adbWrite m v s) := .next h.masterWrite

theorem Sound.execPcuFuncWrite {m : Master} {n : Nat} {v : Word} (h : Sound False σ s) : Goes σ (execPcuFuncWrite m n v s) := .next (.ite h.masterWrite h)

/-! ### Events of the schedule engine and of the train networks -/

theorem Sound.sceNextEntry (h : Sound False σ s) : Sound False σ (sceNextEntry s) := .ite h.setReg.same.countWrap.setRb.icuEvent h.setReg.same

theorem Sound.sceDo {act : Nat → Bool} {f : SceEntry → State → State} (hf : ∀ (a : SceEntry) (a_1 : State), Sound False σ a_1 → Sound False σ (f a a_1))
    (h : Sound False σ s) :
    Sound False σ (sceDo act f s) :=
  .ite (hf _ _ h.sceNextEntry) h

theorem Sound.sceWriteOut {x0 : List (Nat × Word)} (h : Sound False σ s) : Sound False σ (sceWriteOut x0 s) := by
  induction x0 generalizing s with
  | nil => exact h.same
  | cons a l ih =>
    conv => arg 3; whnf
    split
    · rename_i u1 e
      have hu1 : Sound False σ u1 := h.busWriteV.of_snd e
      exact hu1.same
    · rename_i u1 e
      have hu1 : Sound False σ u1 := h.busWriteV.of_snd e
      exact ih (.ite hu1 hu1.same)

theorem Sound.sceFlush (h : Sound False σ s) : Sound False σ (sceFlush s) := h.sceWriteOut

theorem Sound.sceGateDo {e : SceEntry} (h : Sound False σ s) : Sound False σ (sceGateDo e s) := h.modMac

theorem Sound.c0Read {e : C0Slot} (h : Sound False σ s) : Sound False σ (c0Read e s).2 := by
  unfold Machine.c0Read
  dsimp only
  refine .ite_snd h ?_
  split
  · rename_i u1 e1
    have hu1 : Sound False σ u1 := Sound.of_snd (.busGate (fun _ ha => ha.localRead.xbmLogged) h) e1
    exact hu1
  · rename_i u1 _ e1
    have hu1 : Sound False σ u1 := Sound.of_snd (.busGate (fun _ ha => ha.localRead.xbmLogged) h) e1
    exact hu1
  · rename_i u1 e1
    have hu1 : Sound False σ u1 := Sound.of_snd (.busGate (fun _ ha => ha.localRead.xbmLogged) h) e1
    exact hu1

theorem Sound.c0Start {e : SceEntry} {start : Nat} (h : Sound False σ s) : Sound False σ (c0Start e start s) := h.c0Read.same

theorem Sound.c0Retry (h : Sound False σ s) : Sound False σ (c0Retry s) := h.same.foldl (fun _ hu _ => .same (.ite_snd hu.c0Read hu))

theorem Sound.sgateDo {e : SceEntry} (h : Sound False σ s) : Sound False σ (sgateDo e s) := h.setReg

theorem Sound.execSceEnable {m : Master} (h : Sound False σ s) : Goes σ (execSceEnable m s) := .next h.masterWrite

theorem Sound.execSceBoundary (h : Sound False σ s) : Goes σ (execSceBoundary s) := .next (.clocked (fun _ ha => ha.sceBoundary) h)

theorem Sound.execSceSwapReq {m : Master} (h : Sound False σ s) : Goes σ (execSceSwapReq m s) := .next h.masterWrite

theorem Sound.execSceCheckDone (h : Sound False σ s) : Goes σ (execSceCheckDone s) := .next (.clocked (fun _ ha => ha.checkDone) h)

theorem Sound.execNop (h : Sound False σ s) : Goes σ (execNop s) := .next (.clocked (fun _ ha => .sceDo (fun _ _ ha_1 => ha_1) ha) h)

theorem Sound.execSceGate (h : Sound False σ s) : Goes σ (execSceGate s) := .next (.clocked (fun _ ha => .sceDo (fun _ _ ha_1 => ha_1.sceGateDo) ha) h)

theorem Sound.execTxtrig (h : Sound False σ s) : Goes σ (execTxtrig s) := .next (.clocked (fun _ ha => .sceDo (fun _ _ ha_1 => ha_1.macRelease) ha) h)

theorem Sound.execC0slot (h : Sound False σ s) : Goes σ (execC0slot s) := .next (.clocked (fun _ ha => .sceDo (fun _ _ ha_1 => ha_1.c0Start) ha) h)

theorem Sound.execSceEvent (h : Sound False σ s) : Goes σ (execSceEvent s) := .next (.clocked (fun _ ha => .sceDo (fun _ _ ha_1 => ha_1.pulse) ha) h)

theorem Sound.execSceWrite (h : Sound False σ s) : Goes σ (execSceWrite s) := .next (.clocked (fun _ ha => .sceDo (fun _ _ ha_1 => ha_1.sceWriteOut) ha) h)

theorem Sound.sceWrerr {pa resp : Nat} (h : Sound False σ s) : Sound False σ (sceWrerr pa resp s) :=
  .ite (.icuEvent (.setRb (.ite h.same h.same.setReg.setReg))) h

theorem Sound.execSceWrerr {pa : Word} {resp : BitVec 3} (h : Sound False σ s) : Goes σ (execSceWrerr pa resp s) :=
  .next (.clocked (fun _ ha => ha.sceWrerr) h)

theorem Sound.execMvbmf (h : Sound False σ s) : Goes σ (execMvbmf s) := .next (.clocked (fun _ ha => .sceDo (fun _ _ ha_1 => ha_1.mvbMaster) ha) h)

theorem Sound.execCantx (h : Sound False σ s) : Goes σ (execCantx s) := .next (.clocked (fun _ ha => .sceDo (fun _ _ ha_1 => ha_1.canRequest) ha) h)

theorem Sound.execSgate (h : Sound False σ s) : Goes σ (execSgate s) := .next (.clocked (fun _ ha => .sceDo (fun _ _ ha_1 => ha_1.sgateDo) ha) h)

theorem Sound.execSceBadact (h : Sound False σ s) : Goes σ (execSceBadact s) := .next (.clocked (fun _ ha => .sceDo (fun _ _ ha_1 => ha_1.countWrap) ha) h)

theorem Sound.meterTake {k len : Nat} (h : Sound False σ s) (e : meterTake k len s = some u) : Sound False σ u := by
  unfold Machine.meterTake at e
  dsimp only at e
  split at e
  · exact Option.some.inj e ▸ h
  · split at e
    · cases e
    · exact Option.some.inj e ▸ h.same

theorem Sound.qciDrop {r : Nat} (h : Sound False σ s) : Sound False σ (qciDrop r s) := h.countWrap.icuEvent

theorem Sound.filterPass {k : Nat} {f : List Byte} (h : Sound False σ s) : Sound False σ (filterPass k f s).2 := by
  unfold Machine.filterPass
  refine .ite_snd h.qciDrop.snd (.ite_snd h.qciDrop.snd ?_)
  split
  · exact h.qciDrop
  · rename_i v e
    exact h.meterTake e

theorem Sound.frerPass {k : Nat} {f : List Byte} (h : Sound False σ s) : Sound False σ (frerPass k f s).2 := by
  unfold Machine.frerPass
  dsimp only
  split
  · exact h
  · exact h.foldl_snd (fun _ hq _ => hq.same.snd)

theorem Sound.frerCheck {k : Nat} {f : List Byte} (h : Sound False σ s) : Sound False σ (frerCheck k f s) := .ite (.ite h.same.icuEvent h.same) h

theorem Sound.ringRead {pa : Nat} (h : Sound False σ s) : Sound False σ (ringRead pa s).2 := by
  unfold Machine.ringRead
  split
  · rename_i u1 e
    have hu1 : Sound False σ u1 := h.busRead.of_snd e
    exact hu1
  · rename_i u1 e
    have hu1 : Sound False σ u1 := h.busRead.of_snd e
    exact hu1
  · rename_i u1 _ _ e
    have hu1 : Sound False σ u1 := h.busRead.of_snd e
    exact hu1

theorem Sound.ringWrite {pa : Nat} {w2 : Word} {stamp : Option Nat} (h : Sound False σ s) : Sound False σ (ringWrite pa w2 stamp s).2 := by
  unfold Machine.ringWrite
  dsimp only
  split
  · rename_i u1 e
    have hu1 : Sound False σ u1 := h.busWriteV.of_snd e
    exact hu1
  · rename_i u1 _ e
    have hu1 : Sound False σ u1 := h.busWriteV.of_snd e
    exact hu1

theorem Sound.rxBack {n q : Nat} {at_ : Time80} {pa : Nat} {w2 : Word} (h : Sound False σ s) : Sound False σ (rxBack n q at_ pa w2 s).2 := by
  unfold Machine.rxBack
  dsimp only
  split
  · rename_i u1 e
    have hu1 : Sound False σ u1 := h.ringWrite.of_snd e
    exact hu1
  · rename_i u1 e
    have hu1 : Sound False σ u1 := h.ringWrite.of_snd e
    exact .snd (.ite hu1.setRf.icuEvent hu1.setRf.icuEvent.icuEvent)

theorem Sound.rxBody {d : RingDesc} {f : List Byte} (h : Sound False σ s) : Sound False σ (rxBody d f s).2 := h.same.snd

theorem Sound.rxFill {n q : Nat} {f : List Byte} {crcOk : Bool} {at_ : Time80} {pa : Nat} {d : RingDesc} (h : Sound False σ s) :
    Sound False σ (rxFill n q f crcOk at_ pa d s).2 := by
  unfold Machine.rxFill
  dsimp only
  refine .ite_snd h ?_
  split
  · rename_i u1 e
    have hu1 : Sound False σ u1 := Sound.of_snd (.ite_snd h.rxBody.snd h.rxBody.busWriteV) e
    exact hu1
  · rename_i u1 e
    have hu1 : Sound False σ u1 := Sound.of_snd (.ite_snd h.rxBody.snd h.rxBody.busWriteV) e
    split
    · rename_i u3 e1
      have hu3 : Sound False σ u3 := hu1.rxBack.of_snd e1
      exact hu3
    · rename_i u3 e1
      have hu3 : Sound False σ u3 := hu1.rxBack.of_snd e1
      exact hu3

theorem Sound.rxStore {n q : Nat} {f : List Byte} {crcOk : Bool} {at_ : Time80} {got : Option RingDesc} {fin : Option Word} (h : Sound False σ s) :
    Sound False σ (rxStore n q f crcOk at_ got fin s).2 := by
  unfold Machine.rxStore
  dsimp only
  split
  · split
    · rename_i u1 e
      have hu1 : Sound False σ u1 := h.rxBack.of_snd e
      exact hu1
    · rename_i u1 e
      have hu1 : Sound False σ u1 := h.rxBack.of_snd e
      exact hu1
  · exact h.rxFill
  · refine .ite_snd h ?_
    split
    · rename_i u1 e
      have hu1 : Sound False σ u1 := h.ringRead.of_snd e
      exact hu1
    · rename_i u1 e
      have hu1 : Sound False σ u1 := h.ringRead.of_snd e
      exact hu1
    · rename_i u1 e
      have hu1 : Sound False σ u1 := h.ringRead.of_snd e
      exact hu1.rxFill

theorem Sound.txOver {n : Nat} {t : TxFrame} (h : Sound False σ s) : Sound False σ (txOver n t s) :=
  .ite (.pulse (.ite h.icuEvent h.icuEvent.icuEvent)) (.ite h.icuEvent h.icuEvent.icuEvent)

theorem Sound.txBack {n : Nat} {t : TxFrame} {h : Nat} {x3 : List RingDesc} {x4 : Nat} (hx5 : Sound False σ s) : Sound False σ (txBack n t h x3 x4 s).2 := by
  induction x3 generalizing x4 s with
  | nil => exact hx5.txOver.snd
  | cons a l ih =>
    conv => arg 3; arg 1; whnf
    split
    · rename_i u1 e
      have hu1 : Sound False σ u1 := hx5.ringWrite.of_snd e
      exact ih hu1
    · rename_i u1 e
      have hu1 : Sound False σ u1 := hx5.ringWrite.of_snd e
      exact hu1

theorem Sound.dmaStep {d : Dma} (h : Sound False σ s) : Sound False σ (dmaStep d s).2 := by
  unfold Machine.dmaStep
  split
  · exact h.rxStore
  · exact h.txBack
  · exact h.mvbStep

theorem Sound.dmaRetry (h : Sound False σ s) : Sound False σ (dmaRetry s) := h.same.foldl (fun _ hu _ => .dmaStart (fun _ _ ha_1 => ha_1.dmaStep) hu)

theorem Sound.ethReceive {n : Nat} {f : List Byte} {crcOk : Bool} (h : Sound False σ s) : Sound False σ (ethReceive n f crcOk s) := by
  unfold Machine.ethReceive
  dsimp only
  refine .ite h ?_
  split
  · exact .dmaStart (fun _ _ ha_1 => ha_1.dmaStep) (.ite (.icuEvent (.ite h.pulse h)) (.ite h.pulse h))
  · split
    · rename_i u1 e1
      have hu1 : Sound False σ u1 := Sound.of_snd (.filterPass (.ite (.icuEvent (.ite h.pulse h)) (.ite h.pulse h))) e1
      exact hu1
    · rename_i u1 e1
      have hu1 : Sound False σ u1 := Sound.of_snd (.filterPass (.ite (.icuEvent (.ite h.pulse h)) (.ite h.pulse h))) e1
      exact .ite (.dmaStart (fun _ _ ha_1 => ha_1.dmaStep) hu1.frerCheck.frerPass) hu1.frerCheck.frerPass

theorem Sound.execEthFrameReceive {n : Fin 4} {frame : List Byte} {crcOk : Bool} (h : Sound False σ s) : Goes σ (execEthFrameReceive n frame crcOk s) :=
  .next (.clocked (fun _ ha => ha.ethReceive) h)

theorem Sound.txDescs {n q x2 : Nat} {x3 : List RingDesc} (h : Sound False σ s) : Sound False σ (txDescs n q x2 x3 s).2.2 := by
  induction x2 generalizing x3 s with
  | zero => exact h
  | succ k ih =>
    conv => arg 3; arg 1; arg 1; whnf
    split
    · rename_i u1 e
      have hu1 : Sound False σ u1 := h.ringRead.of_snd e
      exact hu1
    · rename_i u1 e
      have hu1 : Sound False σ u1 := h.ringRead.of_snd e
      exact hu1
    · rename_i u1 e
      have hu1 : Sound False σ u1 := h.ringRead.of_snd e
      exact .ite_snd2 hu1 (.ite_snd2 hu1 (ih hu1))

theorem Sound.ite_snd3 {α β γ : Type} {p : Prop} [Decidable p] {x y : α × β × γ × State} (h : Sound False σ x.2.2.2) (h' : Sound False σ y.2.2.2) :
    Sound False σ (if p then x else y).2.2.2 := by
  split <;> assumption

theorem Sound.txBytes {l : List RingDesc} {i : Nat} {b : List Byte} (h : Sound False σ s) : Sound False σ (txBytes l i b s).2.2.2 := by
  induction l generalizing i b s with
  | nil => exact h
  | cons d l ih =>
    conv => arg 3; arg 1; arg 1; arg 1; whnf
    split
    · rename_i v e
      exact h.busRead.of_snd e
    · rename_i c x v e
      have hv : Sound False σ v := h.busRead.of_snd e
      exact .ite_snd3 hv (ih hv)

theorem Sound.macSend {n q : Nat} {descs : List RingDesc} {st : Nat × Nat} {f : List Byte} (h : Sound False σ s) : Sound False σ (macSend n q descs st f s) :=
  h.modMac

theorem Sound.frerTag {n : Nat} {w : Word} {b : List Byte} (h : Sound False σ s) : Sound False σ (frerTag n w b s).2 := by
  unfold Machine.frerTag
  dsimp only
  refine .ite_snd (.snd ?_) h
  split
  · exact .ite h.same.draw.modMac h.same.draw
  · exact h.same.draw



theorem Sound.txGo {n : Nat} {t : TxFetch} (h : Sound False σ s) : Sound False σ (txGo n t s) := by
  unfold Machine.txGo
  dsimp only
  have hd : Sound False σ (if t.whole then (some true, t.descs, s) else Machine.txDescs n t.q (txReady s n t.q - t.descs.length) t.descs s).2.2 :=
    .ite_snd2 h h.txDescs
  split
  · exact hd.modMac
  · exact hd.modMac
  · split
    · exact hd.txBytes.modMac
    · exact .ite hd.txBytes.modMac.frerTag.macSend hd.txBytes.modMac

theorem Sound.txRetry (h : Sound False σ s) : Sound False σ (txRetry s) := by
  unfold Machine.txRetry
  refine h.foldl (fun u hu a => ?_)
  split
  · exact hu.txGo
  · exact hu

theorem Sound.ethStart {n q : Nat} (h : Sound False σ s) : Sound False σ (ethStart n q s) := by
  unfold Machine.ethStart
  dsimp only
  refine .ite h ?_
  split
  · exact h.modMac.macSend
  · exact h.txGo

theorem Sound.execEthFrameTransmit {n : Fin 4} {q : Fin 8} (h : Sound False σ s) : Goes σ (execEthFrameTransmit n q s) :=
  .next (.clocked (fun _ ha => ha.ethStart) h)

theorem Sound.ethFinish {n q : Nat} (h : Sound False σ s) : Sound False σ (ethFinish n q s) := by
  unfold Machine.ethFinish
  dsimp only
  split
  · exact .ite (.ite h.modMac (.dmaStart (fun _ _ ha_1 => ha_1.dmaStep) (.setRf (.ite h.modMac.icuEvent h.modMac)))) h
  · exact h

theorem Sound.execEthFrameTransmitDone {n : Fin 4} {q : Fin 8} (h : Sound False σ s) : Goes σ (execEthFrameTransmitDone n q s) :=
  .next (.clocked (fun _ ha => ha.ethFinish) h)

theorem Sound.asUnlock (h : Sound False σ s) : Sound False σ (asUnlock s) := .ite h.same.setRb.icuEvent.tbUnlockFrom h.same

theorem Sound.asServo {off : Int} {rate : Word} (h : Sound False σ s) : Sound False σ (asServo off rate s) :=
  .ite (.ite (.asUnlock (.same (.ite (.ite h.draw.setRf.tbSetRate.tbStepBy h.draw.setRf.tbSetRate.tbOffsetBy) h.draw.setRf)))
    (.ite (.icuEvent (.setRb (.same (.ite (.ite h.draw.setRf.tbSetRate.tbStepBy h.draw.setRf.tbSetRate.tbOffsetBy) h.draw.setRf))))
    (.same (.ite (.ite h.draw.setRf.tbSetRate.tbStepBy h.draw.setRf.tbSetRate.tbOffsetBy) h.draw.setRf)))) h

theorem Sound.asSync {off : Int} {rate : Word} (h : Sound False σ s) : Sound False σ (asSync off rate s) := .ite h.pulse.asServo h

theorem Sound.execAsSync {offset : BitVec 64} {rate : Word} (h : Sound False σ s) : Goes σ (execAsSync offset rate s) :=
  .next (.clocked (fun _ ha => ha.asSync) h)

theorem Sound.execAsSyncTimeout (h : Sound False σ s) : Goes σ (execAsSyncTimeout s) := .next (.clocked (fun _ ha => .ite ha.asUnlock ha) h)

theorem Sound.execTtdp {n : Fin 2} (h : Sound False σ s) : Goes σ (execTtdp n s) := .next (.clocked (fun _ ha => .ite ha ha.icuEvent.pulse) h)

theorem Sound.pdelayRequest {n : Nat} (h : Sound False σ s) : Sound False σ (pdelayRequest n s) := .ite h.draw.modMac.icuEvent h

theorem Sound.execAsPdelayRequest {n : Fin 4} (h : Sound False σ s) : Goes σ (execAsPdelayRequest n s) := .next (.clocked (fun _ ha => ha.pdelayRequest) h)

theorem Sound.execFrerResetTimeout {r : BitVec 8} (h : Sound False σ s) : Goes σ (execFrerResetTimeout r s) :=
  .next (.clocked (fun _ ha => .ite ha.same ha) h)

theorem Sound.linkChange {n : Nat} {up : Bool} (h : Sound False σ s) : Sound False σ (linkChange n up s) :=
  .ite h (.ite h.modMac.icuEvent.asUnlock h.modMac.icuEvent)

theorem Sound.execEthLinkChange {n : Fin 4} {up : Bool} (h : Sound False σ s) : Goes σ (execEthLinkChange n up s) :=
  .next (.clocked (fun _ ha => ha.linkChange) h)

theorem Sound.execMvbMasterFrame {fcode : BitVec 4} {addr : MvbAddr} (h : Sound False σ s) : Goes σ (execMvbMasterFrame fcode addr s) :=
  .next (.clocked (fun _ ha => ha.mvbMasterIn) h)

theorem Sound.execMvbSlaveFrame {data : List Byte} {disagree : Bool} (h : Sound False σ s) : Goes σ (execMvbSlaveFrame data disagree s) :=
  .next (.clocked (fun _ ha => ha.mvbSlave) h)

theorem Sound.execMvbReplyTimeout (h : Sound False σ s) : Goes σ (execMvbReplyTimeout s) := .next (.clocked (fun _ ha => ha.mvbUnanswered) h)

theorem Sound.canAlive {c : Nat} (h : Sound False σ s) : Sound False σ (canAlive c s).2 := .ite_snd h (.ite_snd h (.ite_snd h.same.modCan.snd h.same.snd))

theorem Sound.canReceive {c : Nat} {f : Option (List Byte)} (h : Sound False σ s) : Sound False σ (canReceive c f s) := by
  unfold Machine.canReceive
  split
  · rename_i u1 e
    have hu1 : Sound False σ u1 := h.canAlive.of_snd e
    refine .ite hu1 ?_
    split
    · exact hu1.icuEvent
    · exact .ite (.dmaStart (fun _ _ ha_1 => ha_1.dmaStep) hu1) hu1

theorem Sound.execCanFrameReceive {c : Fin 4} {frame : Option (List Byte)} (h : Sound False σ s) : Goes σ (execCanFrameReceive c frame s) :=
  .next (.clocked (fun _ ha => ha.canReceive) h)

theorem Sound.canAsked {c b : Nat} (h : Sound False σ s) : Sound False σ (canAsked c b s).2 := .ite_snd h h.same.snd

theorem Sound.canSend {c b : Nat} {ok : Bool} (h : Sound False σ s) : Sound False σ (canSend c b ok s) := by
  unfold Machine.canSend
  split
  · rename_i u1 e
    have hu1 : Sound False σ u1 := h.canAlive.of_snd e
    refine .ite hu1 ?_
    split
    · rename_i u3 e1
      have hu3 : Sound False σ u3 := hu1.canAsked.of_snd e1
      exact .ite hu3 (.ite hu3.modCan.icuEvent hu3.modCan.icuEvent)

theorem Sound.execCanFrameTransmit {c : Fin 4} {b : CanTx} (h : Sound False σ s) : Goes σ (execCanFrameTransmit c b s) :=
  .next (.clocked (fun _ ha => ha.canSend) h)

theorem Sound.uartReceive {u : Nat} {ch : BitVec 9} {bad : Bool} (h : Sound False σ s) : Sound False σ (uartReceive u ch bad s) :=
  .ite (.ite h.modUart.countWrap.icuEvent (.dmaStart (fun _ _ ha_1 => ha_1.dmaStep) h.modUart)) h

theorem Sound.execUartReceive {u : Fin 4} {ch : BitVec 9} {bad : Bool} (h : Sound False σ s) : Goes σ (execUartReceive u ch bad s) :=
  .next (.clocked (fun _ ha => ha.uartReceive) h)

theorem Sound.execUartIdleTimeout {u : Fin 4} (h : Sound False σ s) : Goes σ (execUartIdleTimeout u s) :=
  .next (.clocked (fun _ ha => .ite ha.modUart.icuEvent.pulse ha) h)

theorem Sound.uartAsked {u : Nat} (h : Sound False σ s) : Sound False σ (uartAsked u s).2 := .ite_snd h h.same.snd

theorem Sound.uartTransmit {u : Nat} (h : Sound False σ s) : Sound False σ (uartTransmit u s) := by
  unfold Machine.uartTransmit
  refine .ite ?_ h
  split
  · rename_i u2 e
    have hu2 : Sound False σ u2 := h.uartAsked.of_snd e
    exact .ite hu2.modUart hu2

theorem Sound.execUartTransmit {u : Fin 4} (h : Sound False σ s) : Goes σ (execUartTransmit u s) := .next (.clocked (fun _ ha => ha.uartTransmit) h)

theorem Sound.execUartTransmitDone {u : Fin 4} (h : Sound False σ s) : Goes σ (execUartTransmitDone u s) :=
  .next (.clocked (fun _ ha => .ite ha.modUart.icuEvent ha) h)

theorem Sound.execTncBypHold {m : Master} {v : Word} (h : Sound False σ s) : Goes σ (execTncBypHold m v s) := .next h.masterWrite

theorem Sound.execBypwdKick {m : Master} (h : Sound False σ s) : Goes σ (execBypwdKick m s) := .next h.masterWrite

theorem Sound.execBypwdPeriodWrite {m : Master} {v : Word} (h : Sound False σ s) : Goes σ (execBypwdPeriodWrite m v s) := .next h.masterWrite

theorem Sound.execBypWatchdogExpiry (h : Sound False σ s) : Goes σ (execBypWatchdogExpiry s) := .next (.clocked (fun _ ha => .ite ha.bypRelease ha) h)

/-! ### Power states, the energy ledger's instants and the power-failure sequence -/

theorem Sound.pmuState {v : Nat} (h : Sound False σ s) : Sound False σ (pmuState v s) := h.setRf

theorem Sound.dozeEntry (h : Sound False σ s) : Sound False σ (dozeEntry s) := .ite h.same.pmuState h

theorem Sound.dozeExit (h : Sound False σ s) : Sound False σ (dozeExit s) := .ite h.same.pmuState h

theorem Sound.execDozeEntry (h : Sound False σ s) : Goes σ (execDozeEntry s) := .next h.dozeEntry

theorem Sound.execDozeExit (h : Sound False σ s) : Goes σ (execDozeExit s) := .next h.dozeExit

theorem Sound.sleepWrite {m : Master} {core : AppCore} {t : Nat} (h : Sound False σ s) : Sound False σ (sleepWrite m core t s) := h.postWrite

theorem Sound.execPmuSleepCocoon {m : Master} {core : AppCore} (h : Sound False σ s) : Goes σ (execPmuSleepCocoon m core s) := .next h.sleepWrite

theorem Sound.execPmuSleepDormant {m : Master} {core : AppCore} (h : Sound False σ s) : Goes σ (execPmuSleepDormant m core s) := .next h.sleepWrite

theorem Sound.execPmuSleepInvalid {m : Master} {core : AppCore} {t : BitVec 2} (h : Sound False σ s) : Goes σ (execPmuSleepInvalid m core t s) :=
  .next (.ite h.sleepWrite h)

theorem Sound.execSleepWaitTimeout (h : Sound False σ s) : Goes σ (execSleepWaitTimeout s) := .next (.ite h.sleepRefused h)

theorem Sound.serdesOff (h : Sound False σ s) : Sound False σ (serdesOff s) := (h.foldl (fun _ hu _ => hu.portDown)).deliverEnded.linkChange.linkChange

theorem Sound.ergSleeps (h : Sound False σ s) : Sound False σ (ergSleeps s) := (h.foldl (fun _ hu _ => .ite hu hu.groupZero)).setRf.same

theorem Sound.sleepEnter (h : Sound False σ s) : Sound False σ (sleepEnter s) :=
  .ite h.setRb.chkFlush.serdesOff.setReg.vclkStops.pmuState.same h.setRb.chkFlush.serdesOff.setReg.vclkStops.pmuState.ergSleeps.draw.same

theorem Sound.sleepEntry (h : Sound False σ s) : Sound False σ (sleepEntry s) := .ite (.ite h.sleepEnter h.sleepRefused) h

theorem Sound.execSleepEntry (h : Sound False σ s) : Goes σ (execSleepEntry s) := .next h.sleepEntry

theorem Sound.cocoonWake {src : Option (Fin 8)} (h : Sound False σ s) : Sound False σ (cocoonWake src s) := h.same.setRf.pmuState

theorem Sound.cocoonRun (h : Sound False σ s) : Sound False σ (cocoonRun s) := (h.same.vclkRuns.setReg.pmuState.foldl (fun _ hu _ => hu.icuEvent)).releaseHeld

theorem Sound.groupSlotEnds {g : Nat} (h : Sound False σ s) : Sound False σ (groupSlotEnds g s) := .ite h (.ite (.ite h h.setRb) h.same)

theorem Sound.bankGroupReady {g : Nat} (h : Sound False σ s) : Sound False σ (bankGroupReady g s) :=
  .ite (.ite h.same.groupSlotEnds.cocoonRun h.same.groupSlotEnds) h

theorem Sound.execBankGroupReady {g : Fin 8} (h : Sound False σ s) : Goes σ (execBankGroupReady g s) := .next h.bankGroupReady

theorem Sound.wakeEvent {src : Option (Fin 8)} (h : Sound False σ s) : Sound False σ (wakeEvent src s) :=
  .ite h (.ite (.ite h.sameXclk.sleepRefused h.sameXclk.setRb.same) (.ite h.cocoonWake h))

theorem Sound.execWakeEvent {src : Option (Fin 8)} (h : Sound False σ s) : Goes σ (execWakeEvent src s) := .next h.wakeEvent

theorem Sound.addTo64 {lo hi x : Nat} (h : Sound False σ s) : Sound False σ (addTo64 lo hi x s) := h.setReg64

theorem Sound.elgSample {d x : Nat} (h : Sound False σ s) : Sound False σ (elgSample d x s) := .ite (.ite h.addTo64 h.addTo64.addTo64) h

theorem Sound.elgCreditRefill (h : Sound False σ s) : Sound False σ (elgCreditRefill s) := .ite h.setCredit h

theorem Sound.elgRefill {e : List Nat} (h : Sound False σ s) : Sound False σ (elgRefill e s) := .ite (h.elgCreditRefill.foldl (fun _ hu _ => hu.elgSample)).same h

theorem Sound.execElgRefill {e : List Nat} (h : Sound False σ s) : Goes σ (execElgRefill e s) := .next h.elgRefill

theorem Sound.execElgDormantSample {e : Nat} (h : Sound False σ s) : Goes σ (execElgDormantSample e s) := .next (.ite h.elgSample h)

theorem Sound.elgPlim {nj : Nat} (h : Sound False σ s) : Sound False σ (elgPlim nj s) := .ite h (.ite (.ite h h.setRb.icuEvent.pulse) h.setRb)

theorem Sound.elgWindow (h : Sound False σ s) : Sound False σ (elgWindow s) := .ite h.same.elgPlim h

theorem Sound.execElgPlimWindow {e : List Nat} (h : Sound False σ s) : Goes σ (execElgPlimWindow e s) := .next h.elgRefill.elgWindow

theorem Sound.execElgSnap {m : Master} (h : Sound False σ s) : Goes σ (execElgSnap m s) := .next h.masterWrite

theorem Sound.execElgCreditWrite {m : Master} {v : Word} (h : Sound False σ s) : Goes σ (execElgCreditWrite m v s) := .next h.masterWrite

theorem Sound.setPfStep {n : Nat} (h : Sound False σ s) : Sound False σ (setPfStep n s) := h.setRf

theorem Sound.execPwrfailNFall (h : Sound False σ s) : Goes σ (execPwrfailNFall s) := .next (.ite h.same h)

theorem Sound.execPwrfailNRise (h : Sound False σ s) : Goes σ (execPwrfailNRise s) := .next h.same

theorem Sound.pfStore (h : Sound False σ s) : Sound False σ (pfStore s) := by
  unfold Machine.pfStore
  dsimp only
  split
  · exact h
  · exact .ite h.stEndAtUnit.commitStart h.stEndAtUnit

theorem Sound.pwrfailT0 (h : Sound False σ s) : Sound False σ (pwrfailT0 s) :=
  .ite (.ite (.pfStore (.ite h.same.setReg64.setPfStep.icuEvent.pulse.sicEvent.chkFlush.setRb.same
    h.same.setReg64.setPfStep.icuEvent.pulse.sicEvent.chkFlush.setRb)) h.same.setReg64.setPfStep.icuEvent.pulse.sicEvent) h

theorem Sound.execPwrfailT0 (h : Sound False σ s) : Goes σ (execPwrfailT0 s) := .next h.pwrfailT0

theorem Sound.execPfSafeSignal (h : Sound False σ s) : Goes σ (execPfSafeSignal s) := .next (.ite h.setPfStep.stAbandon.safeTrigger h)

theorem Sound.execPfBypassRelease (h : Sound False σ s) : Goes σ (execPfBypassRelease s) := .next (.ite h.setPfStep.bypRelease h)

theorem Sound.vseAbandoned (h : Sound False σ s) : Sound False σ (vseAbandoned s) := h.abandonGroups.setReg

theorem Sound.pfShutdown (h : Sound False σ s) : Sound False σ (pfShutdown s) :=
  .ite (.same (.setRb (.setReg (.setPfStep (.vclkStops (.stAbandon (.ite h.vseAbandoned h))))))) h

theorem Sound.execPfShutdown (h : Sound False σ s) : Goes σ (execPfShutdown s) := .next h.pfShutdown

/-! ### The boot image, the patch image and the start-up sequence -/

theorem Sound.bootStage {n : Nat} (h : Sound False σ s) : Sound False σ (bootStage n s) := h.setRf

theorem Sound.bootUnsafe (h : Sound False σ s) : Sound False σ (bootUnsafe s) := .bypRelease (.ite h.same h.same.setReg.icuEvent)

theorem Sound.bootFail {result : Nat} (h : Sound False σ s) : Sound False σ (bootFail result s) := h.bootUnsafe.bootStage.setRf.setReg.same

theorem Sound.patchWord {a : Nat} {m : List Byte} (h : Sound False σ s) : Sound False σ (patchWord a m s) := h.foldl (fun _ hu _ => hu.setReg)

theorem Sound.patchLoad {b : Nat} (h : Sound False σ s) : Sound False σ (patchLoad b s) :=
  ((h.foldl (fun _ hu _ => hu.setReg)).foldl (fun _ hu _ => hu.patchWord)).setReg.setReg

theorem Sound.patchProcess (h : Sound False σ s) : Sound False σ (patchProcess s) := by
  unfold Machine.patchProcess
  dsimp only
  split
  · exact h.draw.patchLoad.vmsLock
  · exact h.draw.setRf.setRf.vmsLock

theorem Sound.patchBurn (h : Sound False σ s) : Sound False σ (patchBurn s) :=
  (h.burn (o := { s.otp with patchCtr := s.otp.patchCtr + 1 }) ⟨Nat.le_refl _, Nat.le_succ _, BitVec.and_self, rfl⟩).setReg

theorem Sound.bcuWrite {pa : Nat} {bytes : List Byte} (h : Sound False σ s) : Sound False σ (bcuWrite pa bytes s).2 := h.busWrite

theorem Sound.bcuRead {pa : Nat} (h : Sound False σ s) : Sound False σ (bcuRead pa s).2 := h.busRead

theorem Sound.storeCopy (h : Sound False σ s) : Sound False σ (storeCopy s).2 := by
  unfold Machine.storeCopy
  dsimp only
  split
  · refine .ite_snd h ?_
    split
    · rename_i u1 e1
      have hu1 : Sound False σ u1 := h.bcuWrite.of_snd e1
      exact hu1
    · rename_i u1 _ e1
      have hu1 : Sound False σ u1 := h.bcuWrite.of_snd e1
      exact hu1
  · exact h

theorem Sound.imgBurn (h : Sound False σ s) : Sound False σ (imgBurn s) := h.burn ⟨Nat.le_succ _, Nat.le_refl _, BitVec.and_self, rfl⟩

theorem Sound.masterEnable {m : Nat} (h : Sound False σ s) : Sound False σ (masterEnable m s) := h.setRb

theorem Sound.siRelease (h : Sound False σ s) : Sound False σ (siRelease s) := .ite h.masterEnable.releaseCore h

theorem Sound.coresRelease (h : Sound False σ s) : Sound False σ (coresRelease s) :=
  (h.foldl (fun _ hu _ => hu.masterEnable)).foldl (fun _ hu _ => hu.releaseCore)

theorem Sound.bootPhase {p : BootPhase} (h : Sound False σ s) : Sound False σ (bootPhase p s) := h.same

theorem Sound.bootSi (h : Sound False σ s) : Sound False σ (bootSi s) := h.siRelease.bootPhase

theorem Sound.bootCores (h : Sound False σ s) : Sound False σ (bootCores s) := h.coresRelease.bootStage.same

theorem Sound.bootCounter (h : Sound False σ s) : Sound False σ (bootCounter s) := by
  unfold Machine.bootCounter
  dsimp only
  split
  · exact h.bootSi
  · exact .ite h.patchBurn.bootSi h.patchBurn

theorem Sound.bootPatch (h : Sound False σ s) : Sound False σ (bootPatch s) := .ite h.patchProcess.bootPhase h.patchProcess.bootSi

theorem Sound.bootImgCounter (h : Sound False σ s) : Sound False σ (bootImgCounter s) := .ite (.ite h.imgBurn h.imgBurn.bootStage.bootPhase) h.bootStage.bootPhase

theorem Sound.bootFinish (h : Sound False σ s) : Sound False σ (bootFinish s) := by
  unfold Machine.bootFinish
  dsimp only
  refine .ite h.bootFail ?_
  split
  · rename_i u1 e
    have hu1 : Sound False σ u1 := h.storeCopy.of_snd e
    exact hu1.same
  · rename_i u1 e
    have hu1 : Sound False σ u1 := h.storeCopy.of_snd e
    exact .ite hu1.same hu1.same.bootStage.bootPhase

theorem Sound.loadItem {i : BootItem} (h : Sound False σ s) : Sound False σ (loadItem i s).2 := .ite_snd h h.bcuWrite

theorem Sound.bootItems {x0 : List BootItem} (h : Sound False σ s) : Sound False σ (bootItems x0 s) := by
  induction x0 generalizing s with
  | nil => exact h.bootFinish
  | cons a l ih =>
    conv => arg 3; whnf
    split
    · split
      · exact ih h
      · exact h.same
    · split
      · rename_i u1 e1
        have hu1 : Sound False σ u1 := h.loadItem.of_snd e1
        exact ih hu1
      · rename_i u1 _ e1
        have hu1 : Sound False σ u1 := h.loadItem.of_snd e1
        exact hu1.bootFail
      · rename_i u1 e1
        have hu1 : Sound False σ u1 := h.loadItem.of_snd e1
        exact hu1.same
    · exact ih h

theorem Sound.recordsEnd (h : Sound False σ s) : Sound False σ (recordsEnd s) := h.same.bootItems

theorem Sound.siZero (h : Sound False σ s) : Sound False σ (siZero s) := h.dropBytes

theorem Sound.bootPass2 (h : Sound False σ s) : Sound False σ (bootPass2 s) := .ite h.bootItems h

theorem Sound.bootSelftest (h : Sound False σ s) : Sound False σ (bootSelftest s) :=
  .ite (.bootPass2 (.bootStage (.same (.ite h.setRb.setRb h.setRb.setRb.siZero)))) h

theorem Sound.bootChosen {k first c0 c1 : Nat} (h : Sound False σ s) : Sound False σ (bootChosen k first c0 c1 s) := h.setReg.setReg.setRb.setRb.same.bootSelftest

theorem Sound.xspiSwitch (h : Sound False σ s) : Sound False σ (xspiSwitch s) := h.same

theorem Sound.bootScan (h : Sound False σ s) : Sound False σ (bootScan s) := by
  unfold Machine.bootScan
  dsimp only
  split
  · exact h.bootFail
  · exact .ite h.xspiSwitch.storeReport.bootChosen (.ite h.xspiSwitch.storeReport.bootChosen h.xspiSwitch.storeReport.setReg.setRb.bootFail)

theorem Sound.bootAdvance (h : Sound False σ s) : Sound False σ (bootAdvance s) := by
  unfold Machine.bootAdvance
  split
  · exact .ite h.bootScan h
  · exact h.bootSelftest
  · exact h.bootPass2
  · exact h.bootImgCounter
  · exact h.bootPatch
  · exact h.bootCounter
  · exact h.bootCores
  · exact h

/-- Writes of listed keys keep the canonical form. -/
theorem smWf_foldl_smPut {α β : Type} [DecidableEq α] (d : Nat → α) (k : β → Nat) (v : β → α) (l : List β) (m : List (Nat × α)) (h : smWf d m = true) :
    smWf d (l.foldl (fun m e => smPut d m (k e) (v e)) m) = true :=
  List.foldlRecOn (motive := fun m => smWf d m = true) l _ h fun m hm e _ => smWf_smPut d m (k e) (v e) hm

/-- The registers replaced by a canonical map. -/
theorem Sound.withRegs {r : List (Nat × Word)} (h : Sound False σ s) (hr : smWf regReset s.regs = true → smWf regReset r = true) :
    Sound False σ { s with regs := r } :=
  ⟨fun c => ⟨hr (h.canonical c).1, (h.canonical c).2⟩, h.burnt, h.cores⟩

theorem Sound.resetKeeping {r : List (Nat × Word)} (h : Sound False σ s) (hr : smWf regReset s.regs = true → smWf regReset r = true) :
    Sound False σ (resetKeeping r s) := (h.withRegs hr).sameBut

theorem Sound.startStep2 (h : Sound False σ s) : Sound False σ (startStep2 s) :=
  .ite (.same (.ite h.setReg.bootStage h.setReg.bootStage.masterEnable)) (.ite h.setReg.bootStage h.setReg.bootStage.masterEnable)

theorem srstRegs_wf (h : smWf regReset s.regs = true) : smWf regReset (srstRegs s) = true :=
  smWf_foldl_smPut _ _ _ _ _ (smWf_smDrop _ _ _ h)

theorem Sound.softReset (h : Sound False σ s) : Sound False σ (softReset s) := by
  unfold Machine.softReset
  exact (h.vseAbandoned.stAbandon.resetKeeping srstRegs_wf).pmuState

theorem Sound.dramOverDormant (h : Sound False σ s) : Sound False σ (dramOverDormant s) := by
  unfold Machine.dramOverDormant
  refine .ite h.draw ⟨fun c => ?_, h.burnt, h.cores⟩
  obtain ⟨hr, ⟨hm, he⟩, hd, hn⟩ := h.draw.canonical c
  exact ⟨hr, ⟨smWf_smDrop _ _ _ hm, he⟩, smWf_smDrop _ _ _ hd, hn⟩

theorem Sound.dormantStart {src : Nat} (h : Sound False σ s) : Sound False σ (dormantStart src s) := by
  unfold Machine.dormantStart
  exact (h.resetKeeping (smWf_smDrop _ _ _)).dramOverDormant.setRb.pmuState.setRf.setPfStep.startStep2

/-! ### Resets and starts, configuration records, PLLs, and the store unit's commands and events -/

theorem Sound.prstRelease {nvm : List (Nat × Byte)} (h : Sound False σ s) : Sound False σ (prstRelease nvm s) := by
  unfold Machine.prstRelease
  exact .startStep2 (h.anew (fun _ => ⟨rfl, ⟨rfl, rfl⟩, rfl, smWf_foldl_smPut _ _ _ _ _ rfl⟩) rfl)

theorem Sound.execPrstNRelease {nvm : List (Nat × Byte)} (h : Sound False σ s) : Goes σ (execPrstNRelease nvm s) := .next h.prstRelease

theorem Sound.execPrstNAssert (h : Sound False σ s) : Goes σ (execPrstNAssert s) :=
  .next (h.anew (fun c => ⟨rfl, ⟨rfl, rfl⟩, rfl, (h.stAbandon.canonical c).2.2.2⟩) rfl)

theorem Sound.srst (h : Sound False σ s) : Sound False σ (srst s) := .ite h.softReset.startStep2 h

theorem Sound.execSrstN (h : Sound False σ s) : Goes σ (execSrstN s) := .next h.srst

theorem Sound.bootRetry (h : Sound False σ s) : Sound False σ (bootRetry s) := .ite h.softReset.setRf.startStep2 h

theorem Sound.execBootRetry (h : Sound False σ s) : Goes σ (execBootRetry s) := .next h.bootRetry

theorem Sound.dormantWake {k : Nat} (h : Sound False σ s) : Sound False σ (dormantWake k s) := .ite h.dormantStart h

theorem Sound.execDormantWake {k : Fin 8} (h : Sound False σ s) : Goes σ (execDormantWake k s) := .next h.dormantWake

theorem Sound.execPfRestart (h : Sound False σ s) : Goes σ (execPfRestart s) := .next (.ite h.dormantStart h)

theorem Sound.execPllLock {p : Fin 5} (h : Sound False σ s) : Goes σ (execPllLock p s) := .next (.ite h.setRb.bootAdvance h)

theorem Sound.execZeroFillDone {g : Fin 8} (h : Sound False σ s) : Goes σ (execZeroFillDone g s) := .next h.zeroFillDone.bootAdvance

theorem Sound.execMiuSelftestDone {erg : BitVec 128} {si : Bool} {dmc : BitVec 2} (h : Sound False σ s) : Goes σ (execMiuSelftestDone erg si dmc s) :=
  .next (.clocked (fun _ ha => ha.selftestDone.bootAdvance) h)

theorem Sound.recordDone {skip : Nat} (h : Sound False σ s) : Sound False σ (recordDone skip s) := .ite h.setRf.same.recordsEnd h.setRf.same

theorem Sound.withRecord {op : Nat → Bool} {f : CfgRec → State → State} (hf : ∀ (a : CfgRec) (a_1 : State), Sound False σ a_1 → Sound False σ (f a a_1))
    (h : Sound False σ s) :
    Sound False σ (withRecord op f s) := by
  unfold Machine.withRecord
  split
  · exact .ite (hf _ _ h) h
  · exact h

theorem Sound.recordRead {r : CfgRec} {f : Word → State → State} (hf : ∀ (a : Word) (a_1 : State), Sound False σ a_1 → Sound False σ (f a a_1)) (h : Sound False σ s) :
    Sound False σ (recordRead r f s) := by
  unfold Machine.recordRead
  split
  · rename_i u1 e
    have hu1 : Sound False σ u1 := h.bcuRead.of_snd e
    exact hf _ _ hu1
  · rename_i u1 _ e
    have hu1 : Sound False σ u1 := h.bcuRead.of_snd e
    exact hu1.bootFail
  · rename_i u1 e
    have hu1 : Sound False σ u1 := h.bcuRead.of_snd e
    exact hu1

theorem Sound.recordWrite {r : CfgRec} {v : Word} (h : Sound False σ s) : Sound False σ (recordWrite r v s) := by
  unfold Machine.recordWrite
  split
  · rename_i u1 e
    have hu1 : Sound False σ u1 := h.bcuWrite.of_snd e
    exact hu1.recordDone
  · rename_i u1 _ e
    have hu1 : Sound False σ u1 := h.bcuWrite.of_snd e
    exact hu1.bootFail
  · rename_i u1 e
    have hu1 : Sound False σ u1 := h.bcuWrite.of_snd e
    exact hu1

theorem Sound.execCfgEnd (h : Sound False σ s) : Goes σ (execCfgEnd s) :=
  .next (.clocked (fun _ ha => .withRecord (fun _ _ ha_1 => ha_1.setRf.recordsEnd) ha) h)

theorem Sound.execCfgWrite (h : Sound False σ s) : Goes σ (execCfgWrite s) :=
  .next (.clocked (fun _ ha => .withRecord (fun _ _ ha_1 => .ite ha_1.recordWrite (.recordRead (fun _ _ ha_11 => ha_11.recordWrite) ha_1)) ha) h)

theorem Sound.execCfgWait (h : Sound False σ s) : Goes σ (execCfgWait s) :=
  .next (.clocked (fun _ ha => .withRecord (fun _ _ ha_1 => .recordRead (fun _ _ ha_11 => .ite ha_11.recordDone ha_11) ha_1) ha) h)

theorem Sound.execCfgWaitTimeout (h : Sound False σ s) : Goes σ (execCfgWaitTimeout s) :=
  .next (.clocked (fun _ ha => .withRecord (fun _ _ ha_1 => .recordRead
    (fun _ _ ha_11 => .ite ha_11.recordDone (.ite ha_11.bootFail ha_11.setRb.recordDone)) ha_1) ha) h)

theorem Sound.execCfgDelay (h : Sound False σ s) : Goes σ (execCfgDelay s) := .next (.clocked (fun _ ha => .withRecord (fun _ _ ha_1 => ha_1.same) ha) h)

theorem Sound.execCfgDelayExpiry (h : Sound False σ s) : Goes σ (execCfgDelayExpiry s) := .next (.clocked (fun _ ha => .ite ha.recordDone ha) h)

theorem Sound.execCfgSkip (h : Sound False σ s) : Goes σ (execCfgSkip s) :=
  .next (.clocked (fun _ ha => .withRecord (fun _ _ ha_1 => .recordRead (fun _ _ ha_11 => ha_11.recordDone) ha_1) ha) h)

theorem Sound.execCfgop (h : Sound False σ s) : Goes σ (execCfgop s) := .next (.clocked (fun _ ha => .withRecord (fun _ _ ha_1 => ha_1.bootFail) ha) h)

theorem Sound.stWrite {m : Master} {op : Nat} (h : Sound False σ s) : Sound False σ (stWrite m op s) := h.masterWrite

theorem Sound.execBcuCommit {m : Master} (h : Sound False σ s) : Goes σ (execBcuCommit m s) := .next h.stWrite

theorem Sound.execBcuErase {m : Master} (h : Sound False σ s) : Goes σ (execBcuErase m s) := .next h.stWrite

theorem Sound.execBcuProgram {m : Master} (h : Sound False σ s) : Goes σ (execBcuProgram m s) := .next h.stWrite

theorem Sound.execBcuOpInvalid {m : Master} (h : Sound False σ s) : Goes σ (execBcuOpInvalid m s) := .next h.stWrite

theorem Sound.execBcuStdone (h : Sound False σ s) : Goes σ (execBcuStdone s) := .next (.clocked (fun _ ha => ha.commitDone) h)

theorem Sound.execBcuReady (h : Sound False σ s) : Goes σ (execBcuReady s) := .next (.clocked (fun _ ha => ha.storeReady) h)

theorem Sound.execNvmOpDone (h : Sound False σ s) : Goes σ (execNvmOpDone s) := .next (.clocked (fun _ ha => ha.nvmDone) h)

theorem Sound.execNvmtmo (h : Sound False σ s) : Goes σ (execNvmtmo s) := .next (.clocked (fun _ ha => ha.nvmTimeout) h)

theorem Sound.execBcuRel {m : Master} {v : Word} (h : Sound False σ s) : Goes σ (execBcuRel m v s) := .next h.masterWrite

theorem Sound.execKsuRevoke {m : Master} {v : Word} (h : Sound False σ s) : Goes σ (execKsuRevoke m v s) := .next h.masterWrite

/-! ### Branches, calls with saved registers, and the hardware loop -/

theorem Sound.notAtLend {c : CoreId} {w : Word} {body : State → Machine.Acc Machine.Flow}
    (hbody : ∀ (a : State), Sound False σ a → Sound False σ (accState (body a))) (h : Sound False σ s) :
    Sound False σ (accState (notAtLend c w body s)) :=
  .ite_acc h (hbody _ h)

theorem Sound.execBr {c : CoreId} {off : BitVec 26} (h : Sound False σ s) : Goes σ (execBr c off s) :=
  .next (.run (fun _ ha => .notAtLend (fun _ ha1 => ha1) ha) h)

theorem Sound.execCall {c : CoreId} {off : BitVec 26} (h : Sound False σ s) : Goes σ (execCall c off s) :=
  .next (.run (fun _ ha => .notAtLend (fun _ ha1 => ha1.setG.ok) ha) h)

theorem Sound.branchIf {c : CoreId} {i : Instr} {cond : Word → Word → Bool} {a b : GReg} {off : BitVec 16} (h : Sound False σ s) :
    Sound False σ (branchIf c i cond a b off s) :=
  .run (fun _ ha1 => ha1) h

theorem Sound.execBeq {c : CoreId} {a b : GReg} {off : BitVec 16} (h : Sound False σ s) : Goes σ (execBeq c a b off s) := .next h.branchIf

theorem Sound.execBne {c : CoreId} {a b : GReg} {off : BitVec 16} (h : Sound False σ s) : Goes σ (execBne c a b off s) := .next h.branchIf

theorem Sound.execBlt {c : CoreId} {a b : GReg} {off : BitVec 16} (h : Sound False σ s) : Goes σ (execBlt c a b off s) := .next h.branchIf

theorem Sound.execBge {c : CoreId} {a b : GReg} {off : BitVec 16} (h : Sound False σ s) : Goes σ (execBge c a b off s) := .next h.branchIf

theorem Sound.execBltu {c : CoreId} {a b : GReg} {off : BitVec 16} (h : Sound False σ s) : Goes σ (execBltu c a b off s) := .next h.branchIf

theorem Sound.execBgeu {c : CoreId} {a b : GReg} {off : BitVec 16} (h : Sound False σ s) : Goes σ (execBgeu c a b off s) := .next h.branchIf

theorem Sound.execJmpr {c : CoreId} {d a : GReg} {imm : BitVec 16} (h : Sound False σ s) : Goes σ (execJmpr c d a imm s) :=
  .next (.run (fun _ ha1 => .notAtLend (fun _ ha2 => ha2.setG.ok) ha1) h)

theorem Sound.storeFrame {c : CoreId} {ps : List Piece} {ws : List Word} (h : Sound False σ s) : Sound False σ (accState (storeFrame c ps ws s)) :=
  .ite_acc h.storeNow h.pushPieces

theorem Sound.loadWords {c : CoreId} {va : Word} {n : Nat} (h : Sound False σ s) : Sound False σ (accState (loadWords c va n s)) :=
  .forAll (fun _ _ hu => hu.loadAt.bind (fun _ _ ha_1 => ha_1)) h

theorem Sound.callmBody {c : CoreId} {a : GReg} {mask : Nat} (h : Sound False σ s) : Sound False σ (accState (callmBody c a mask s)) :=
  .ite_acc h (h.transPieces.bind (fun _ _ ha_1 => ha_1.storeFrame.bind (fun _ _ ha_11 => ha_11.setG.setG.ok)))

theorem Sound.execCallm {c : CoreId} {a : GReg} {mask : BitVec 16} (h : Sound False σ s) : Goes σ (execCallm c a mask s) :=
  .next (.run (fun _ ha1 => .notAtLend (fun _ ha2 => ha2.callmBody) ha1) h)

theorem Sound.setGs {c : CoreId} {l : List (GReg × Word)} (h : Sound False σ s) : Sound False σ (setGs c l s) := h.foldl (fun _ hu _ => hu.setG)

theorem Sound.retmBody {c : CoreId} {w : Word} (h : Sound False σ s) : Sound False σ (accState (retmBody c w s)) :=
  .ite_acc h (h.loadAt.bind (fun _ _ ha_1 => .ite_acc ha_1 (ha_1.transPieces.bind
    (fun _ _ ha_11 => ha_11.loadWords.bind (fun _ _ ha_12 => ha_12.setGs.setG.setG.ok)))))

theorem Sound.execRetm {c : CoreId} (h : Sound False σ s) : Goes σ (execRetm c s) := .next (.run (fun _ ha => .notAtLend (fun _ ha1 => ha1.retmBody) ha) h)

theorem Sound.loopBody {c : CoreId} {gc : GReg} {n1 : Nat} (h : Sound False σ s) : Sound False σ (accState (loopBody c gc n1 s)) :=
  .ite_acc h (.ite_acc h h.setSr.setSr.setSr.setPc.loopForget.loopCapture.ok)

theorem Sound.execLoop {c : CoreId} {gc : GReg} {n1 : BitVec 6} (h : Sound False σ s) : Goes σ (execLoop c gc n1 s) :=
  .next (.run (fun _ ha => ha.loopBody) h)

theorem Sound.execLoopCountExpiry {c : CoreId} (h : Sound False σ s) : Goes σ (execLoopCountExpiry c s) := .next h.loopSettle

/-! ### What happens to a core at an instruction boundary: interrupts, store errors, floating-point traps, and the end of hold windows and of the short-vector unit's waits -/

theorem Sound.atBoundaryTake {c : CoreId} {p : State → Bool} (h : Sound False σ s) : Sound False σ (atBoundaryTake c p s) := by
  unfold Machine.atBoundaryTake
  dsimp only
  refine .ite ?_ h
  split
  · rename_i v e
    exact h.attempt.boundary e
  · rename_i v e
    exact h.attempt.boundary e
  · exact h

theorem Sound.execIntN {c : CoreId} (h : Sound False σ s) : Goes σ (execIntN c s) := .next h.atBoundaryTake

theorem Sound.execIntF {c : CoreId} (h : Sound False σ s) : Goes σ (execIntF c s) := .next h.atBoundaryTake

theorem Sound.execStoreErr {c : CoreId} (h : Sound False σ s) : Goes σ (execStoreErr c s) := .next h.atBoundaryTake

theorem Sound.execFptrap {c : CoreId} (h : Sound False σ s) : Goes σ (execFptrap c s) := .next h.atBoundaryTake

theorem Sound.execHoldWindowEnd {c : CoreId} (h : Sound False σ s) : Goes σ (execHoldWindowEnd c s) := .next (.clocked (fun _ ha => ha.modCore) h)

theorem Sound.execSvuPowerDown {c : CoreId} (h : Sound False σ s) : Goes σ (execSvuPowerDown c s) := .next (.clocked (fun _ ha => .ite ha.setSr ha) h)

theorem Sound.execSvuWakeDone {c : CoreId} (h : Sound False σ s) : Goes σ (execSvuWakeDone c s) := .next (.clocked (fun _ ha => .ite ha.setSr.modCore ha) h)

/-! ### Loads, stores and atomics of general and floating-point registers -/

theorem Sound.loadG {c : CoreId} {i : Instr} {n : Nat} {ext : Nat → Word} {d a : GReg} {imm : BitVec 16} (h : Sound False σ s) :
    Sound False σ (loadG c i n ext d a imm s) :=
  .run (fun _ ha1 => ha1.loadAt.bind (fun _ _ ha_1 => ha_1.putG)) h

theorem Sound.storeG {c : CoreId} {i : Instr} {n : Nat} {d a : GReg} {imm : BitVec 16} (h : Sound False σ s) : Sound False σ (storeG c i n d a imm s) :=
  .run (fun _ ha1 => ha1.storeAt.bind (fun _ _ ha_1 => ha_1)) h

theorem Sound.loadF {c : CoreId} {i : Instr} {n : Nat} {d : FReg} {a : GReg} {imm : BitVec 16} (h : Sound False σ s) : Sound False σ (loadF c i n d a imm s) :=
  .run (fun _ ha1 => ha1.loadAt.bind (fun _ _ ha_1 => ha_1.putF)) h

theorem Sound.storeF {c : CoreId} {i : Instr} {n : Nat} {d : FReg} {a : GReg} {imm : BitVec 16} (h : Sound False σ s) : Sound False σ (storeF c i n d a imm s) :=
  .run (fun _ ha1 => ha1.storeAt.bind (fun _ _ ha_1 => ha_1)) h

theorem Sound.coreAtomic {c : CoreId} {fn : Nat} {v : Word} {p : Piece} (h : Sound False σ s) : Sound False σ (coreAtomic c fn v p s).2 :=
  .ite_snd h.drain.snd (.coreGate (fun _ ha => ha.atomicIssued) h.drain.loopKeep)

theorem Sound.atomPiece {c : CoreId} {fn : Nat} {v : Word} {p : Piece} (h : Sound False σ s) : Sound False σ (accState (atomPiece c fn v p s)) :=
  .ofBus (.access (fun _ ha => ha.coreAtomic) h)

theorem Sound.atomBody {c : CoreId} {fn : Nat} {d a b : GReg} (h : Sound False σ s) : Sound False σ (accState (atomBody c fn d a b s)) := by
  unfold Machine.atomBody
  dsimp only
  refine .ite_acc h (h.transPieces.bind (fun a1 a_1 ha_1 => ?_))
  split
  · exact ha_1
  · exact ha_1.atomPiece.bind (fun _ _ ha_11 => .putG (.ite ha_11.storeError ha_11))

theorem Sound.execLdb {c : CoreId} {d a : GReg} {imm : BitVec 16} (h : Sound False σ s) : Goes σ (execLdb c d a imm s) := .next h.loadG

theorem Sound.execLdbu {c : CoreId} {d a : GReg} {imm : BitVec 16} (h : Sound False σ s) : Goes σ (execLdbu c d a imm s) := .next h.loadG

theorem Sound.execLdh {c : CoreId} {d a : GReg} {imm : BitVec 16} (h : Sound False σ s) : Goes σ (execLdh c d a imm s) := .next h.loadG

theorem Sound.execLdhu {c : CoreId} {d a : GReg} {imm : BitVec 16} (h : Sound False σ s) : Goes σ (execLdhu c d a imm s) := .next h.loadG

theorem Sound.execLdw {c : CoreId} {d a : GReg} {imm : BitVec 16} (h : Sound False σ s) : Goes σ (execLdw c d a imm s) := .next h.loadG

theorem Sound.execStb {c : CoreId} {d a : GReg} {imm : BitVec 16} (h : Sound False σ s) : Goes σ (execStb c d a imm s) := .next h.storeG

theorem Sound.execSth {c : CoreId} {d a : GReg} {imm : BitVec 16} (h : Sound False σ s) : Goes σ (execSth c d a imm s) := .next h.storeG

theorem Sound.execStw {c : CoreId} {d a : GReg} {imm : BitVec 16} (h : Sound False σ s) : Goes σ (execStw c d a imm s) := .next h.storeG

theorem Sound.execFlds {c : CoreId} {d : FReg} {a : GReg} {imm : BitVec 16} (h : Sound False σ s) : Goes σ (execFlds c d a imm s) := .next h.loadF

theorem Sound.execFldd {c : CoreId} {d : FReg} {a : GReg} {imm : BitVec 16} (h : Sound False σ s) : Goes σ (execFldd c d a imm s) := .next h.loadF

theorem Sound.execFsts {c : CoreId} {d : FReg} {a : GReg} {imm : BitVec 16} (h : Sound False σ s) : Goes σ (execFsts c d a imm s) := .next h.storeF

theorem Sound.execFstd {c : CoreId} {d : FReg} {a : GReg} {imm : BitVec 16} (h : Sound False σ s) : Goes σ (execFstd c d a imm s) := .next h.storeF

theorem Sound.execAtomSwap {c : CoreId} {d a b : GReg} (h : Sound False σ s) : Goes σ (execAtomSwap c d a b s) := .next (.run (fun _ ha1 => ha1.atomBody) h)

theorem Sound.execAtomAdd {c : CoreId} {d a b : GReg} (h : Sound False σ s) : Goes σ (execAtomAdd c d a b s) := .next (.run (fun _ ha1 => ha1.atomBody) h)

theorem Sound.execAtomAnd {c : CoreId} {d a b : GReg} (h : Sound False σ s) : Goes σ (execAtomAnd c d a b s) := .next (.run (fun _ ha1 => ha1.atomBody) h)

theorem Sound.execAtomOr {c : CoreId} {d a b : GReg} (h : Sound False σ s) : Goes σ (execAtomOr c d a b s) := .next (.run (fun _ ha1 => ha1.atomBody) h)

/-! ### The VSE microsequencer: the control store, microwords, sequencing and POLL points -/

theorem Sound.microFetch {a : Nat} (h : Sound False σ s) : Sound False σ (microFetch s a).2 := by
  unfold Machine.microFetch
  dsimp only
  refine .ite_snd h ?_
  split
  · exact h
  · exact .ite_snd h (.snd (.ite h.countUp h.countUp.same))

theorem Sound.microStored {a : Nat} {w : BitVec 176} (h : Sound False σ s) : Sound False σ (microStored a w s) := h.foldl (fun _ hu _ => hu.setReg)

theorem Sound.microWriteback {a : Nat} (h : Sound False σ s) : Sound False σ (microWriteback a s) := by
  unfold Machine.microWriteback
  dsimp only
  split
  · exact .ite h.same (.microStored (.ite h.same h.same.countUp))
  · exact h.same

theorem Sound.writebacksGo (h : Sound False σ s) : Sound False σ (writebacksGo s) := h.foldl (fun _ hu _ => hu.microWriteback)

theorem Sound.execPatchRamWriteback {a : BitVec 10} (h : Sound False σ s) : Goes σ (execPatchRamWriteback a s) :=
  .next (.clocked (fun _ ha1 => ha1.microWriteback) h)

theorem Sound.setUseq {x : CtxId} {u : USeq} (h : Sound False σ s) : Sound False σ (setUseq x u s) := h.modVc

theorem Sound.microEnd {x : CtxId} {w : BitVec 176} {hold : Bool} (h : Sound False σ s) : Sound False σ (microEnd x w hold s) := by
  unfold Machine.microEnd
  dsimp only
  split
  · exact h.setUseq
  · exact h.vmsCserr

theorem Sound.controlEnd {x : CtxId} {w : BitVec 176} (h : Sound False σ s) : Sound False σ (controlEnd x w s) := h.draw.setUseq.microEnd

theorem Sound.microWord {x : CtxId} {w : BitVec 176} (h : Sound False σ s) : Sound False σ (microWord x w s) :=
  .ite (.setUseq (.ite h.draw.pollPoint h.draw)) (.ite (.setUseq (.ite h.draw.pollPoint h.draw))
    (.ite (.microEnd (.setUseq (.ite h.draw.pollPoint h.draw))) (.ite (.controlEnd (.setUseq (.ite h.draw.pollPoint h.draw)))
    (.setUseq (.ite h.draw.pollPoint h.draw)))))

theorem Sound.microStep {x : CtxId} (h : Sound False σ s) : Sound False σ (microStep x s).2 := by
  unfold Machine.microStep
  dsimp only
  refine .ite_snd (.snd (.ite h.setUseq h)) (.ite_snd (.snd (.ite h.setUseq.controlEnd h.setUseq)) (.ite_snd h.microWord.snd ?_))
  split
  · rename_i u1 e
    have hu1 : Sound False σ u1 := h.setUseq.microFetch.of_snd e
    exact hu1.vmsCserr.snd
  · rename_i u1 e
    have hu1 : Sound False σ u1 := h.setUseq.microFetch.of_snd e
    exact hu1.microWord.snd

theorem Sound.microClk (h : Sound False σ s) : Sound False σ (microClk s) :=
  .ite (h.foldl_snd (fun _ hq _ => .ite_snd hq.microStep.snd hq)) (h.foldl_snd (fun _ hq _ => .ite_snd hq.microStep.snd hq)).writebacksGo

theorem Sound.microGo (h : Sound False σ s) : Sound False σ (microGo s) := .ite (.ite h.microClk h.microClk.microClk) h

/-! ### Block-repeat instructions -/

theorem Sound.repNext {c : CoreId} {ss ds : Word} {last : State → State} (hlast : ∀ (a : State), Sound False σ a → Sound False σ (last a)) (h : Sound False σ s) :
    Sound False σ (accState (repNext c ss ds last s)) :=
  .ite_acc (hlast _ h.setG.setG.setG).ok h.setG.setG.setG.ok

theorem Sound.repBody {c : CoreId} {w : Word} {sz : BitVec 2} {last : State → State} {elem : Nat → State → Machine.Acc Machine.Flow}
    (hlast : ∀ (a : State), Sound False σ a → Sound False σ (last a)) (helem : ∀ (a : Nat) (a_1 : State), Sound False σ a_1 → Sound False σ (accState (elem a a_1)))
    (h : Sound False σ s) :
    Sound False σ (accState (repBody c w sz last elem s)) := by
  unfold Machine.repBody
  split
  · exact h
  · exact .ite_acc (hlast _ h).ok (helem _ _ h)

theorem Sound.fillsElem {c : CoreId} {d : BitVec 4} {n : Nat} (h : Sound False σ s) : Sound False σ (accState (fillsElem c d n s)) := by
  unfold Machine.fillsElem
  exact h.storeAt.bind fun _ _ hu => .repNext (fun _ hv => hv) hu

theorem Sound.execFills {c : CoreId} {z : BitVec 2} {d : BitVec 4} (h : Sound False σ s) : Goes σ (execFills c z d s) :=
  .next (.run (fun _ hu => .repBody (fun _ hv => hv) (fun _ _ hv => hv.fillsElem) hu) h)

theorem Sound.twoOperands {c : CoreId} {n : Nat} {k : AccKind} (h : Sound False σ s) : Sound False σ (accState (twoOperands c n k s)) :=
  h.transPieces.both (fun _ ha => ha.transPieces)

theorem Sound.movsElem {c : CoreId} {a d : BitVec 4} {n : Nat} (h : Sound False σ s) : Sound False σ (accState (movsElem c a d n s)) := by
  unfold Machine.movsElem
  exact h.twoOperands.bind fun _ _ h1 => h1.loadPieces.bind fun _ _ h2 => h2.storePieces.bind fun _ _ h3 => .repNext (fun _ hv => hv) h3

theorem Sound.execMovs {c : CoreId} {z : BitVec 2} {a d : BitVec 4} (h : Sound False σ s) : Goes σ (execMovs c z a d s) :=
  .next (.run (fun _ hu => .repBody (fun _ hv => hv) (fun _ _ hv => hv.movsElem) hu) h)

theorem Sound.scansElem {c : CoreId} {a : BitVec 4} {k : BitVec 2} {n : Nat} (h : Sound False σ s) : Sound False σ (accState (scansElem c a k n s)) := by
  unfold Machine.scansElem
  exact h.loadAt.bind fun _ _ h1 => .ite_acc h1 (.repNext (fun _ hv => hv) h1)

theorem Sound.execScans {c : CoreId} {z k : BitVec 2} {a : BitVec 4} (h : Sound False σ s) : Goes σ (execScans c z a k s) :=
  .next (.run (fun _ hu => .repBody (fun _ hv => hv) (fun _ _ hv => hv.scansElem) hu) h)

theorem Sound.cmpsEqual {c : CoreId} (h : Sound False σ s) : Sound False σ (cmpsEqual c s) := h.setG

theorem Sound.cmpsElem {c : CoreId} {sstep dstep : BitVec 4} {n : Nat} (h : Sound False σ s) : Sound False σ (accState (cmpsElem c sstep dstep n s)) :=
  h.twoOperands.bind (fun _ _ ha_1 => ha_1.loadPieces.bind (fun _ _ ha_11 => .ite_acc ha_11.setG.ok (.repNext (fun _ ha2 => ha2.cmpsEqual) ha_11)))

theorem Sound.execCmps {c : CoreId} {sz : BitVec 2} {sstep dstep : BitVec 4} (h : Sound False σ s) : Goes σ (execCmps c sz sstep dstep s) :=
  .next (.run (fun _ ha => .repBody (fun _ ha1 => ha1.cmpsEqual) (fun _ _ ha_1 => ha_1.cmpsElem) ha) h)

/-! ### The short-vector unit -/

theorem Sound.svuAwake {c : CoreId} (h : Sound False σ s) : Sound False σ (accState (svuAwake c s)) := .ite_acc h.setSr.ok h.modCore.wait

theorem Sound.svuBody {c : CoreId} {fn : Nat} {d a b : QReg} {ty : BitVec 4} {rm : BitVec 3} {types : Ty → Bool}
    {f : Ty → Rm → Nat → Nat → Nat → Nat × FFlags} (h : Sound False σ s) :
    Sound False σ (accState (svuBody c fn d a b ty rm types f s)) := by
  unfold Machine.svuBody
  dsimp only
  refine .ite_acc h ?_
  split
  · exact .ite_acc (h.svuAwake.bind (fun _ _ ha_1 => ha_1.fpRaise.setQ.ok)) h
  · exact h

theorem Sound.execQadd {c : CoreId} {d a b : QReg} {ty : BitVec 4} {rm : BitVec 3} (h : Sound False σ s) : Goes σ (execQadd c d a b ty rm s) :=
  .next (.run (fun _ ha1 => ha1.svuBody) h)

theorem Sound.execQsub {c : CoreId} {d a b : QReg} {ty : BitVec 4} {rm : BitVec 3} (h : Sound False σ s) : Goes σ (execQsub c d a b ty rm s) :=
  .next (.run (fun _ ha1 => ha1.svuBody) h)

theorem Sound.execQmul {c : CoreId} {d a b : QReg} {ty : BitVec 4} {rm : BitVec 3} (h : Sound False σ s) : Goes σ (execQmul c d a b ty rm s) :=
  .next (.run (fun _ ha1 => ha1.svuBody) h)

theorem Sound.execQmin {c : CoreId} {d a b : QReg} {ty : BitVec 4} {rm : BitVec 3} (h : Sound False σ s) : Goes σ (execQmin c d a b ty rm s) :=
  .next (.run (fun _ ha1 => ha1.svuBody) h)

theorem Sound.execQmax {c : CoreId} {d a b : QReg} {ty : BitVec 4} {rm : BitVec 3} (h : Sound False σ s) : Goes σ (execQmax c d a b ty rm s) :=
  .next (.run (fun _ ha1 => ha1.svuBody) h)

theorem Sound.execQabs {c : CoreId} {d a b : QReg} {ty : BitVec 4} {rm : BitVec 3} (h : Sound False σ s) : Goes σ (execQabs c d a b ty rm s) :=
  .next (.run (fun _ ha1 => ha1.svuBody) h)

theorem Sound.execQneg {c : CoreId} {d a b : QReg} {ty : BitVec 4} {rm : BitVec 3} (h : Sound False σ s) : Goes σ (execQneg c d a b ty rm s) :=
  .next (.run (fun _ ha1 => ha1.svuBody) h)

theorem Sound.execQabsd {c : CoreId} {d a b : QReg} {ty : BitVec 4} {rm : BitVec 3} (h : Sound False σ s) : Goes σ (execQabsd c d a b ty rm s) :=
  .next (.run (fun _ ha1 => ha1.svuBody) h)

theorem Sound.execQfma {c : CoreId} {d a b : QReg} {ty : BitVec 4} {rm : BitVec 3} (h : Sound False σ s) : Goes σ (execQfma c d a b ty rm s) :=
  .next (.run (fun _ ha1 => ha1.svuBody) h)

theorem Sound.execQfms {c : CoreId} {d a b : QReg} {ty : BitVec 4} {rm : BitVec 3} (h : Sound False σ s) : Goes σ (execQfms c d a b ty rm s) :=
  .next (.run (fun _ ha1 => ha1.svuBody) h)

theorem Sound.execQmacs {c : CoreId} {d a b : QReg} {ty : BitVec 4} {rm : BitVec 3} (h : Sound False σ s) : Goes σ (execQmacs c d a b ty rm s) :=
  .next (.run (fun _ ha1 => ha1.svuBody) h)

theorem Sound.execQmsubs {c : CoreId} {d a b : QReg} {ty : BitVec 4} {rm : BitVec 3} (h : Sound False σ s) : Goes σ (execQmsubs c d a b ty rm s) :=
  .next (.run (fun _ ha1 => ha1.svuBody) h)

theorem Sound.execQadds {c : CoreId} {d a b : QReg} {ty : BitVec 4} {rm : BitVec 3} (h : Sound False σ s) : Goes σ (execQadds c d a b ty rm s) :=
  .next (.run (fun _ ha1 => ha1.svuBody) h)

theorem Sound.execQsubs {c : CoreId} {d a b : QReg} {ty : BitVec 4} {rm : BitVec 3} (h : Sound False σ s) : Goes σ (execQsubs c d a b ty rm s) :=
  .next (.run (fun _ ha1 => ha1.svuBody) h)

theorem Sound.execQmuls {c : CoreId} {d a b : QReg} {ty : BitVec 4} {rm : BitVec 3} (h : Sound False σ s) : Goes σ (execQmuls c d a b ty rm s) :=
  .next (.run (fun _ ha1 => ha1.svuBody) h)

theorem Sound.execQrshr {c : CoreId} {d a b : QReg} {ty : BitVec 4} {rm : BitVec 3} (h : Sound False σ s) : Goes σ (execQrshr c d a b ty rm s) :=
  .next (.run (fun _ ha1 => ha1.svuBody) h)

theorem Sound.execQand {c : CoreId} {d a b : QReg} {ty : BitVec 4} {rm : BitVec 3} (h : Sound False σ s) : Goes σ (execQand c d a b ty rm s) :=
  .next (.run (fun _ ha1 => ha1.svuBody) h)

theorem Sound.execQor {c : CoreId} {d a b : QReg} {ty : BitVec 4} {rm : BitVec 3} (h : Sound False σ s) : Goes σ (execQor c d a b ty rm s) :=
  .next (.run (fun _ ha1 => ha1.svuBody) h)

theorem Sound.execQxor {c : CoreId} {d a b : QReg} {ty : BitVec 4} {rm : BitVec 3} (h : Sound False σ s) : Goes σ (execQxor c d a b ty rm s) :=
  .next (.run (fun _ ha1 => ha1.svuBody) h)

theorem Sound.execQandn {c : CoreId} {d a b : QReg} {ty : BitVec 4} {rm : BitVec 3} (h : Sound False σ s) : Goes σ (execQandn c d a b ty rm s) :=
  .next (.run (fun _ ha1 => ha1.svuBody) h)

theorem Sound.execQshl {c : CoreId} {d a b : QReg} {ty : BitVec 4} {rm : BitVec 3} (h : Sound False σ s) : Goes σ (execQshl c d a b ty rm s) :=
  .next (.run (fun _ ha1 => ha1.svuBody) h)

theorem Sound.execQshr {c : CoreId} {d a b : QReg} {ty : BitVec 4} {rm : BitVec 3} (h : Sound False σ s) : Goes σ (execQshr c d a b ty rm s) :=
  .next (.run (fun _ ha1 => ha1.svuBody) h)

theorem Sound.execQsra {c : CoreId} {d a b : QReg} {ty : BitVec 4} {rm : BitVec 3} (h : Sound False σ s) : Goes σ (execQsra c d a b ty rm s) :=
  .next (.run (fun _ ha1 => ha1.svuBody) h)

theorem Sound.execQrol {c : CoreId} {d a b : QReg} {ty : BitVec 4} {rm : BitVec 3} (h : Sound False σ s) : Goes σ (execQrol c d a b ty rm s) :=
  .next (.run (fun _ ha1 => ha1.svuBody) h)

theorem Sound.execQcmpeq {c : CoreId} {d a b : QReg} {ty : BitVec 4} {rm : BitVec 3} (h : Sound False σ s) : Goes σ (execQcmpeq c d a b ty rm s) :=
  .next (.run (fun _ ha1 => ha1.svuBody) h)

theorem Sound.execQcmpne {c : CoreId} {d a b : QReg} {ty : BitVec 4} {rm : BitVec 3} (h : Sound False σ s) : Goes σ (execQcmpne c d a b ty rm s) :=
  .next (.run (fun _ ha1 => ha1.svuBody) h)

theorem Sound.execQcmplt {c : CoreId} {d a b : QReg} {ty : BitVec 4} {rm : BitVec 3} (h : Sound False σ s) : Goes σ (execQcmplt c d a b ty rm s) :=
  .next (.run (fun _ ha1 => ha1.svuBody) h)

theorem Sound.execQcmple {c : CoreId} {d a b : QReg} {ty : BitVec 4} {rm : BitVec 3} (h : Sound False σ s) : Goes σ (execQcmple c d a b ty rm s) :=
  .next (.run (fun _ ha1 => ha1.svuBody) h)

theorem Sound.execQcmpgt {c : CoreId} {d a b : QReg} {ty : BitVec 4} {rm : BitVec 3} (h : Sound False σ s) : Goes σ (execQcmpgt c d a b ty rm s) :=
  .next (.run (fun _ ha1 => ha1.svuBody) h)

theorem Sound.execQcmpge {c : CoreId} {d a b : QReg} {ty : BitVec 4} {rm : BitVec 3} (h : Sound False σ s) : Goes σ (execQcmpge c d a b ty rm s) :=
  .next (.run (fun _ ha1 => ha1.svuBody) h)

theorem Sound.execQsel {c : CoreId} {d a b : QReg} {ty : BitVec 4} {rm : BitVec 3} (h : Sound False σ s) : Goes σ (execQsel c d a b ty rm s) :=
  .next (.run (fun _ ha1 => ha1.svuBody) h)

theorem Sound.execQzipl {c : CoreId} {d a b : QReg} {ty : BitVec 4} {rm : BitVec 3} (h : Sound False σ s) : Goes σ (execQzipl c d a b ty rm s) :=
  .next (.run (fun _ ha1 => ha1.svuBody) h)

theorem Sound.execQziph {c : CoreId} {d a b : QReg} {ty : BitVec 4} {rm : BitVec 3} (h : Sound False σ s) : Goes σ (execQziph c d a b ty rm s) :=
  .next (.run (fun _ ha1 => ha1.svuBody) h)

theorem Sound.execQuzpe {c : CoreId} {d a b : QReg} {ty : BitVec 4} {rm : BitVec 3} (h : Sound False σ s) : Goes σ (execQuzpe c d a b ty rm s) :=
  .next (.run (fun _ ha1 => ha1.svuBody) h)

theorem Sound.execQuzpo {c : CoreId} {d a b : QReg} {ty : BitVec 4} {rm : BitVec 3} (h : Sound False σ s) : Goes σ (execQuzpo c d a b ty rm s) :=
  .next (.run (fun _ ha1 => ha1.svuBody) h)

theorem Sound.execQdup {c : CoreId} {d a b : QReg} {ty : BitVec 4} {rm : BitVec 3} (h : Sound False σ s) : Goes σ (execQdup c d a b ty rm s) :=
  .next (.run (fun _ ha1 => ha1.svuBody) h)

theorem Sound.execQcvt {c : CoreId} {d a b : QReg} {ty : BitVec 4} {rm : BitVec 3} (h : Sound False σ s) : Goes σ (execQcvt c d a b ty rm s) :=
  .next (.run (fun _ ha1 => ha1.svuBody) h)

theorem Sound.execQcvtn {c : CoreId} {d a b : QReg} {ty : BitVec 4} {rm : BitVec 3} (h : Sound False σ s) : Goes σ (execQcvtn c d a b ty rm s) :=
  .next (.run (fun _ ha1 => ha1.svuBody) h)

theorem Sound.execQmulwl {c : CoreId} {d a b : QReg} {ty : BitVec 4} {rm : BitVec 3} (h : Sound False σ s) : Goes σ (execQmulwl c d a b ty rm s) :=
  .next (.run (fun _ ha1 => ha1.svuBody) h)

theorem Sound.execQmulwh {c : CoreId} {d a b : QReg} {ty : BitVec 4} {rm : BitVec 3} (h : Sound False σ s) : Goes σ (execQmulwh c d a b ty rm s) :=
  .next (.run (fun _ ha1 => ha1.svuBody) h)

theorem Sound.execQmacwl {c : CoreId} {d a b : QReg} {ty : BitVec 4} {rm : BitVec 3} (h : Sound False σ s) : Goes σ (execQmacwl c d a b ty rm s) :=
  .next (.run (fun _ ha1 => ha1.svuBody) h)

theorem Sound.execQmacwh {c : CoreId} {d a b : QReg} {ty : BitVec 4} {rm : BitVec 3} (h : Sound False σ s) : Goes σ (execQmacwh c d a b ty rm s) :=
  .next (.run (fun _ ha1 => ha1.svuBody) h)

theorem Sound.execQdot {c : CoreId} {d a b : QReg} {ty : BitVec 4} {rm : BitVec 3} (h : Sound False σ s) : Goes σ (execQdot c d a b ty rm s) :=
  .next (.run (fun _ ha1 => ha1.svuBody) h)

theorem Sound.execQdotsu {c : CoreId} {d a b : QReg} {ty : BitVec 4} {rm : BitVec 3} (h : Sound False σ s) : Goes σ (execQdotsu c d a b ty rm s) :=
  .next (.run (fun _ ha1 => ha1.svuBody) h)

theorem Sound.qmLoad {c : CoreId} {k : Nat} {d : QReg} {a : GReg} {esz : Nat} {off : BitVec 12} (h : Sound False σ s) :
    Sound False σ (accState (qmLoad c k d a esz off s)) :=
  .ite_acc h (h.svuAwake.bind (fun _ _ ha_1 => ha_1.transPieces.bind
    (fun _ _ ha_11 => ha_11.loadPieces.bind (fun _ _ ha_12 => (ha_12.foldl (fun _ hu _ => hu.setQ)).ok))))

theorem Sound.qmStore {c : CoreId} {k : Nat} {d : QReg} {a : GReg} {esz : Nat} {off : BitVec 12} (h : Sound False σ s) :
    Sound False σ (accState (qmStore c k d a esz off s)) :=
  .ite_acc h (h.svuAwake.bind (fun _ _ ha_1 => ha_1.transPieces.bind (fun _ _ ha_11 => ha_11.storePieces.bind (fun _ _ ha_12 => ha_12))))

theorem Sound.execLdq {c : CoreId} {d : QReg} {a : GReg} {off : BitVec 12} (h : Sound False σ s) : Goes σ (execLdq c d a off s) :=
  .next (.run (fun _ ha1 => ha1.qmLoad) h)

theorem Sound.execStq {c : CoreId} {d : QReg} {a : GReg} {off : BitVec 12} (h : Sound False σ s) : Goes σ (execStq c d a off s) :=
  .next (.run (fun _ ha1 => ha1.qmStore) h)

theorem Sound.execLds2 {c : CoreId} {d : QReg} {a : GReg} {esz : BitVec 2} {off : BitVec 12} (h : Sound False σ s) : Goes σ (execLds2 c d a esz off s) :=
  .next (.run (fun _ ha1 => ha1.qmLoad) h)

theorem Sound.execSts2 {c : CoreId} {d : QReg} {a : GReg} {esz : BitVec 2} {off : BitVec 12} (h : Sound False σ s) : Goes σ (execSts2 c d a esz off s) :=
  .next (.run (fun _ ha1 => ha1.qmStore) h)

theorem Sound.execLds3 {c : CoreId} {d : QReg} {a : GReg} {esz : BitVec 2} {off : BitVec 12} (h : Sound False σ s) : Goes σ (execLds3 c d a esz off s) :=
  .next (.run (fun _ ha1 => ha1.qmLoad) h)

theorem Sound.execSts3 {c : CoreId} {d : QReg} {a : GReg} {esz : BitVec 2} {off : BitVec 12} (h : Sound False σ s) : Goes σ (execSts3 c d a esz off s) :=
  .next (.run (fun _ ha1 => ha1.qmStore) h)

theorem Sound.execLds4 {c : CoreId} {d : QReg} {a : GReg} {esz : BitVec 2} {off : BitVec 12} (h : Sound False σ s) : Goes σ (execLds4 c d a esz off s) :=
  .next (.run (fun _ ha1 => ha1.qmLoad) h)

theorem Sound.execSts4 {c : CoreId} {d : QReg} {a : GReg} {esz : BitVec 2} {off : BitVec 12} (h : Sound False σ s) : Goes σ (execSts4 c d a esz off s) :=
  .next (.run (fun _ ha1 => ha1.qmStore) h)

/-! ### The response timers of the targets (R310): what a granted access that has waited too long becomes, by the master that waits -/

theorem Sound.xactTimeout {i : Nat} (h : Sound False σ s) : Sound False σ (xactTimeout i s) := by
  unfold Machine.xactTimeout
  dsimp only
  split
  · exact h.tmoLog.same
  · exact h

theorem Sound.coreTimeout {m : Nat} {c : CoreId} (h : Sound False σ s) : Sound False σ (coreTimeout m c s) := by
  unfold Machine.coreTimeout
  dsimp only
  split
  · exact h.modCore.tmoGone
  · split
    · exact h
    · exact .ite h.modCore.tmoGone.storeError h

theorem Sound.walkExpires (h : Sound False σ s) : Sound False σ (walkExpires s) := by
  unfold Machine.walkExpires
  split
  · exact h.walkTimeout
  · exact h

theorem Sound.engineGo {m : Nat} (h : Sound False σ s) : Sound False σ (engineGo m s) := by
  unfold Machine.engineGo
  split
  · exact h.serveOwn.serveHeldIn.deliverEnded.c0Retry
  · exact h.dmaRetry.txRetry.mvbRetry
  · exact h.dmaRetry.txRetry.mvbRetry
  · exact h.stRetry.bootAdvance
  · exact h.sceFlush
  · exact h

theorem Sound.engineTimeout {m : Nat} (h : Sound False σ s) : Sound False σ (engineTimeout m s) := by
  unfold Machine.engineTimeout
  split
  · exact h.same.engineGo
  · exact h

theorem Sound.masterTimeout {m id : Nat} (h : Sound False σ s) : Sound False σ (masterTimeout m id s) := by
  unfold Machine.masterTimeout
  refine .ite h ?_
  split
  · exact h.xactTimeout
  · exact .ite (.ite h.coreTimeout h) (.ite h.walkExpires h.engineTimeout)

theorem Sound.execXbmTimeout {m : Master} {id : BitVec 6} (h : Sound False σ s) : Goes σ (execXbmTimeout m id s) :=
  .next (.clocked (fun _ ha => ha.masterTimeout) h)

/-! ### The vector commands -/

theorem Sound.execVnop {x : CtxId} (h : Sound False σ s) : Goes σ (execVnop x s) := .next h.vectorRun

theorem Sound.execVadd {x : CtxId} (h : Sound False σ s) : Goes σ (execVadd x s) := .next h.vectorRun

theorem Sound.execVsub {x : CtxId} (h : Sound False σ s) : Goes σ (execVsub x s) := .next h.vectorRun

theorem Sound.execVmul {x : CtxId} (h : Sound False σ s) : Goes σ (execVmul x s) := .next h.vectorRun

theorem Sound.execVfma {x : CtxId} (h : Sound False σ s) : Goes σ (execVfma x s) := .next h.vectorRun

theorem Sound.execVfms {x : CtxId} (h : Sound False σ s) : Goes σ (execVfms x s) := .next h.vectorRun

theorem Sound.execVfnma {x : CtxId} (h : Sound False σ s) : Goes σ (execVfnma x s) := .next h.vectorRun

theorem Sound.execVfnms {x : CtxId} (h : Sound False σ s) : Goes σ (execVfnms x s) := .next h.vectorRun

theorem Sound.execVmin {x : CtxId} (h : Sound False σ s) : Goes σ (execVmin x s) := .next h.vectorRun

theorem Sound.execVmax {x : CtxId} (h : Sound False σ s) : Goes σ (execVmax x s) := .next h.vectorRun

theorem Sound.execVabs {x : CtxId} (h : Sound False σ s) : Goes σ (execVabs x s) := .next h.vectorRun

theorem Sound.execVneg {x : CtxId} (h : Sound False σ s) : Goes σ (execVneg x s) := .next h.vectorRun

theorem Sound.execVabsd {x : CtxId} (h : Sound False σ s) : Goes σ (execVabsd x s) := .next h.vectorRun

theorem Sound.execVcpy {x : CtxId} (h : Sound False σ s) : Goes σ (execVcpy x s) := .next h.vectorRun

theorem Sound.execVcpsgn {x : CtxId} (h : Sound False σ s) : Goes σ (execVcpsgn x s) := .next h.vectorRun

theorem Sound.execVclamp {x : CtxId} (h : Sound False σ s) : Goes σ (execVclamp x s) := .next h.vectorRun

theorem Sound.execVand {x : CtxId} (h : Sound False σ s) : Goes σ (execVand x s) := .next h.vectorRun

theorem Sound.execVor {x : CtxId} (h : Sound False σ s) : Goes σ (execVor x s) := .next h.vectorRun

theorem Sound.execVxor {x : CtxId} (h : Sound False σ s) : Goes σ (execVxor x s) := .next h.vectorRun

theorem Sound.execVandn {x : CtxId} (h : Sound False σ s) : Goes σ (execVandn x s) := .next h.vectorRun

theorem Sound.execVnot {x : CtxId} (h : Sound False σ s) : Goes σ (execVnot x s) := .next h.vectorRun

theorem Sound.execVshl {x : CtxId} (h : Sound False σ s) : Goes σ (execVshl x s) := .next h.vectorRun

theorem Sound.execVshr {x : CtxId} (h : Sound False σ s) : Goes σ (execVshr x s) := .next h.vectorRun

theorem Sound.execVsra {x : CtxId} (h : Sound False σ s) : Goes σ (execVsra x s) := .next h.vectorRun

theorem Sound.execVrol {x : CtxId} (h : Sound False σ s) : Goes σ (execVrol x s) := .next h.vectorRun

theorem Sound.execVror {x : CtxId} (h : Sound False σ s) : Goes σ (execVror x s) := .next h.vectorRun

theorem Sound.execVclz {x : CtxId} (h : Sound False σ s) : Goes σ (execVclz x s) := .next h.vectorRun

theorem Sound.execVpopc {x : CtxId} (h : Sound False σ s) : Goes σ (execVpopc x s) := .next h.vectorRun

theorem Sound.execVavg {x : CtxId} (h : Sound False σ s) : Goes σ (execVavg x s) := .next h.vectorRun

theorem Sound.execVmulh {x : CtxId} (h : Sound False σ s) : Goes σ (execVmulh x s) := .next h.vectorRun

theorem Sound.execVbswap {x : CtxId} (h : Sound False σ s) : Goes σ (execVbswap x s) := .next h.vectorRun

theorem Sound.execVbrev {x : CtxId} (h : Sound False σ s) : Goes σ (execVbrev x s) := .next h.vectorRun

theorem Sound.execVcmpeq {x : CtxId} (h : Sound False σ s) : Goes σ (execVcmpeq x s) := .next h.vectorRun

theorem Sound.execVcmpne {x : CtxId} (h : Sound False σ s) : Goes σ (execVcmpne x s) := .next h.vectorRun

theorem Sound.execVcmplt {x : CtxId} (h : Sound False σ s) : Goes σ (execVcmplt x s) := .next h.vectorRun

theorem Sound.execVcmple {x : CtxId} (h : Sound False σ s) : Goes σ (execVcmple x s) := .next h.vectorRun

theorem Sound.execVcmpgt {x : CtxId} (h : Sound False σ s) : Goes σ (execVcmpgt x s) := .next h.vectorRun

theorem Sound.execVcmpge {x : CtxId} (h : Sound False σ s) : Goes σ (execVcmpge x s) := .next h.vectorRun

theorem Sound.execVcmpun {x : CtxId} (h : Sound False σ s) : Goes σ (execVcmpun x s) := .next h.vectorRun

theorem Sound.execVcmpor {x : CtxId} (h : Sound False σ s) : Goes σ (execVcmpor x s) := .next h.vectorRun

theorem Sound.execVsel {x : CtxId} (h : Sound False σ s) : Goes σ (execVsel x s) := .next h.vectorRun

theorem Sound.execVcomp {x : CtxId} (h : Sound False σ s) : Goes σ (execVcomp x s) := .next h.vectorRun

theorem Sound.execVexpd {x : CtxId} (h : Sound False σ s) : Goes σ (execVexpd x s) := .next h.vectorRun

theorem Sound.execVmcnt {x : CtxId} (h : Sound False σ s) : Goes σ (execVmcnt x s) := .next h.vectorRun

theorem Sound.execVmfirst {x : CtxId} (h : Sound False σ s) : Goes σ (execVmfirst x s) := .next h.vectorRun

theorem Sound.execViota {x : CtxId} (h : Sound False σ s) : Goes σ (execViota x s) := .next h.vectorRun

theorem Sound.execVclass {x : CtxId} (h : Sound False σ s) : Goes σ (execVclass x s) := .next h.vectorRun

theorem Sound.execVzcross {x : CtxId} (h : Sound False σ s) : Goes σ (execVzcross x s) := .next h.vectorRun

theorem Sound.execVcvt {x : CtxId} (h : Sound False σ s) : Goes σ (execVcvt x s) := .next h.vectorRun

theorem Sound.execVcvtx {x : CtxId} (h : Sound False σ s) : Goes σ (execVcvtx x s) := .next h.vectorRun

theorem Sound.execVrint {x : CtxId} (h : Sound False σ s) : Goes σ (execVrint x s) := .next h.vectorRun

theorem Sound.execVscale {x : CtxId} (h : Sound False σ s) : Goes σ (execVscale x s) := .next h.vectorRun

theorem Sound.execVlogb {x : CtxId} (h : Sound False σ s) : Goes σ (execVlogb x s) := .next h.vectorRun

theorem Sound.execVmsbf {x : CtxId} (h : Sound False σ s) : Goes σ (execVmsbf x s) := .next h.vectorRun

theorem Sound.execVmsif {x : CtxId} (h : Sound False σ s) : Goes σ (execVmsif x s) := .next h.vectorRun

theorem Sound.execVmulw {x : CtxId} (h : Sound False σ s) : Goes σ (execVmulw x s) := .next h.vectorRun

theorem Sound.execVmacw {x : CtxId} (h : Sound False σ s) : Goes σ (execVmacw x s) := .next h.vectorRun

theorem Sound.execVmulwsu {x : CtxId} (h : Sound False σ s) : Goes σ (execVmulwsu x s) := .next h.vectorRun

theorem Sound.execVsqrw {x : CtxId} (h : Sound False σ s) : Goes σ (execVsqrw x s) := .next h.vectorRun

theorem Sound.execVdotw {x : CtxId} (h : Sound False σ s) : Goes σ (execVdotw x s) := .next h.vectorRun

theorem Sound.execVdotwa {x : CtxId} (h : Sound False σ s) : Goes σ (execVdotwa x s) := .next h.vectorRun

theorem Sound.execVdotwsu {x : CtxId} (h : Sound False σ s) : Goes σ (execVdotwsu x s) := .next h.vectorRun

theorem Sound.execVsumw {x : CtxId} (h : Sound False σ s) : Goes σ (execVsumw x s) := .next h.vectorRun

theorem Sound.execVexdot {x : CtxId} (h : Sound False σ s) : Goes σ (execVexdot x s) := .next h.vectorRun

theorem Sound.execVexdotn {x : CtxId} (h : Sound False σ s) : Goes σ (execVexdotn x s) := .next h.vectorRun

theorem Sound.execVexsum {x : CtxId} (h : Sound False σ s) : Goes σ (execVexsum x s) := .next h.vectorRun

theorem Sound.execVexssq {x : CtxId} (h : Sound False σ s) : Goes σ (execVexssq x s) := .next h.vectorRun

theorem Sound.execVexcdot {x : CtxId} (h : Sound False σ s) : Goes σ (execVexcdot x s) := .next h.vectorRun

theorem Sound.execVeaclr {x : CtxId} (h : Sound False σ s) : Goes σ (execVeaclr x s) := .next h.vectorRun

theorem Sound.execVeard {x : CtxId} (h : Sound False σ s) : Goes σ (execVeard x s) := .next h.vectorRun

theorem Sound.execVeawr {x : CtxId} (h : Sound False σ s) : Goes σ (execVeawr x s) := .next h.vectorRun

theorem Sound.execVeaadd {x : CtxId} (h : Sound False σ s) : Goes σ (execVeaadd x s) := .next h.vectorRun

theorem Sound.execVexsuma {x : CtxId} (h : Sound False σ s) : Goes σ (execVexsuma x s) := .next h.vectorRun

theorem Sound.execVexdiff2 {x : CtxId} (h : Sound False σ s) : Goes σ (execVexdiff2 x s) := .next h.vectorRun

theorem Sound.execVscanadd {x : CtxId} (h : Sound False σ s) : Goes σ (execVscanadd x s) := .next h.vectorRun

theorem Sound.execVscanmin {x : CtxId} (h : Sound False σ s) : Goes σ (execVscanmin x s) := .next h.vectorRun

theorem Sound.execVscanmax {x : CtxId} (h : Sound False σ s) : Goes σ (execVscanmax x s) := .next h.vectorRun

theorem Sound.execVscanxor {x : CtxId} (h : Sound False σ s) : Goes σ (execVscanxor x s) := .next h.vectorRun

theorem Sound.execVredmin {x : CtxId} (h : Sound False σ s) : Goes σ (execVredmin x s) := .next h.vectorRun

theorem Sound.execVredmax {x : CtxId} (h : Sound False σ s) : Goes σ (execVredmax x s) := .next h.vectorRun

theorem Sound.execVredor {x : CtxId} (h : Sound False σ s) : Goes σ (execVredor x s) := .next h.vectorRun

theorem Sound.execVredand {x : CtxId} (h : Sound False σ s) : Goes σ (execVredand x s) := .next h.vectorRun

theorem Sound.execVargmin {x : CtxId} (h : Sound False σ s) : Goes σ (execVargmin x s) := .next h.vectorRun

theorem Sound.execVargmax {x : CtxId} (h : Sound False σ s) : Goes σ (execVargmax x s) := .next h.vectorRun

theorem Sound.execVredxor {x : CtxId} (h : Sound False σ s) : Goes σ (execVredxor x s) := .next h.vectorRun

theorem Sound.execVredsum {x : CtxId} (h : Sound False σ s) : Goes σ (execVredsum x s) := .next h.vectorRun

theorem Sound.execVfir {x : CtxId} (h : Sound False σ s) : Goes σ (execVfir x s) := .next h.vectorRun

theorem Sound.execVfird {x : CtxId} (h : Sound False σ s) : Goes σ (execVfird x s) := .next h.vectorRun

theorem Sound.execVcmul {x : CtxId} (h : Sound False σ s) : Goes σ (execVcmul x s) := .next h.vectorRun

theorem Sound.execVcmulc {x : CtxId} (h : Sound False σ s) : Goes σ (execVcmulc x s) := .next h.vectorRun

theorem Sound.execVcmac {x : CtxId} (h : Sound False σ s) : Goes σ (execVcmac x s) := .next h.vectorRun

theorem Sound.execVcabs2 {x : CtxId} (h : Sound False σ s) : Goes σ (execVcabs2 x s) := .next h.vectorRun

theorem Sound.execVfft4 {x : CtxId} (h : Sound False σ s) : Goes σ (execVfft4 x s) := .next h.vectorRun

theorem Sound.execVifft4 {x : CtxId} (h : Sound False σ s) : Goes σ (execVifft4 x s) := .next h.vectorRun

theorem Sound.execVfft2 {x : CtxId} (h : Sound False σ s) : Goes σ (execVfft2 x s) := .next h.vectorRun

theorem Sound.execVconj {x : CtxId} (h : Sound False σ s) : Goes σ (execVconj x s) := .next h.vectorRun

theorem Sound.execVlerp {x : CtxId} (h : Sound False σ s) : Goes σ (execVlerp x s) := .next h.vectorRun

theorem Sound.execVdiff {x : CtxId} (h : Sound False σ s) : Goes σ (execVdiff x s) := .next h.vectorRun

theorem Sound.execVcmag {x : CtxId} (h : Sound False σ s) : Goes σ (execVcmag x s) := .next h.vectorRun

theorem Sound.execVdiv {x : CtxId} (h : Sound False σ s) : Goes σ (execVdiv x s) := .next h.vectorRun

theorem Sound.execVsqrt {x : CtxId} (h : Sound False σ s) : Goes σ (execVsqrt x s) := .next h.vectorRun

theorem Sound.execVrsqrt {x : CtxId} (h : Sound False σ s) : Goes σ (execVrsqrt x s) := .next h.vectorRun

theorem Sound.execVrec {x : CtxId} (h : Sound False σ s) : Goes σ (execVrec x s) := .next h.vectorRun

theorem Sound.execVmod {x : CtxId} (h : Sound False σ s) : Goes σ (execVmod x s) := .next h.vectorRun

theorem Sound.execVadds {x : CtxId} (h : Sound False σ s) : Goes σ (execVadds x s) := .next h.vectorRun

theorem Sound.execVsubs {x : CtxId} (h : Sound False σ s) : Goes σ (execVsubs x s) := .next h.vectorRun

theorem Sound.execVmuls {x : CtxId} (h : Sound False σ s) : Goes σ (execVmuls x s) := .next h.vectorRun

theorem Sound.execVnegs {x : CtxId} (h : Sound False σ s) : Goes σ (execVnegs x s) := .next h.vectorRun

theorem Sound.execVabss {x : CtxId} (h : Sound False σ s) : Goes σ (execVabss x s) := .next h.vectorRun

theorem Sound.execVshls {x : CtxId} (h : Sound False σ s) : Goes σ (execVshls x s) := .next h.vectorRun

theorem Sound.execVrshr {x : CtxId} (h : Sound False σ s) : Goes σ (execVrshr x s) := .next h.vectorRun

theorem Sound.execVmacs {x : CtxId} (h : Sound False σ s) : Goes σ (execVmacs x s) := .next h.vectorRun

/-! ### What time alone does: one cycle of the clock that steps TB, taken when no command waits -/

theorem Sound.coreTick {c : CoreId} (h : Sound False σ s) : Sound False σ (coreTick c s) := .ite h.modCore.setSr h.modCore

theorem Sound.wdTick (h : Sound False σ s) : Sound False σ (wdTick s) := .ite h.setRf h

theorem Sound.vseWaitersGo (h : Sound False σ s) : Sound False σ (vseWaitersGo s) := h.foldl (fun _ hu _ => hu.flushed.recsGo)

theorem Sound.waitersGo {s0 : State} (h : Sound False σ s) : Sound False σ (waitersGo s0 s) := by
  unfold Machine.waitersGo
  have hstart : Sound False σ (Machine.xbmTick s0 (Machine.heldStale s)) := h.heldStale.xbmTick
  have hdrained := hstart.foldl (l := List.range 5) (f := fun t c => Machine.staying s0 (Machine.drain (coreNo c)) t)
    fun _ hu _ => .staying (fun _ h => h.drain) hu
  refine Sound.heldClean (List.foldlRecOn (motive := fun u => Sound False σ u) _ _ hdrained fun u hu f hf => .staying (fun v hv => ?_) hu)
  simp only [List.mem_cons, List.not_mem_nil, or_false] at hf
  rcases hf with rfl | rfl | rfl | rfl | rfl | rfl | rfl | rfl | rfl | rfl | rfl
  · exact hv.serveOwn
  · exact hv.serveHeldIn
  · exact hv.deliverEnded
  · exact hv.vseWaitersGo
  · exact hv.dmaRetry
  · exact hv.txRetry
  · exact hv.mvbRetry
  · exact hv.c0Retry
  · exact hv.sceFlush
  · exact hv.stRetry
  · exact hv.bootAdvance

theorem Sound.bankCounts (h : Sound False σ s) : Sound False σ (bankCounts s) := .ite h.same.setReg.setReg h

/-- Registers taken out keep the rest canonical. -/
theorem Sound.filterRegs {p : Nat × Word → Bool} (h : Sound False σ s) : Sound False σ { s with regs := s.regs.filter p } :=
  h.withRegs (smWfFrom_filter regReset p s.regs none)

theorem Sound.eventsStay {hw go : State → State} (hhw : ∀ u, Sound False σ u → Sound False σ (hw u)) (hgo : ∀ u, Sound False σ u → Sound False σ (go u)) (h : Sound False σ s) :
    Sound False σ (eventsStay hw go s) := by
  unfold Machine.eventsStay
  dsimp only
  refine .foldl (.foldl (Sound.orRegs (hgo _ (Sound.orRegs (.withRegs (hhw _ h.filterRegs) fun hr => ?_)))) fun _ hu _ => hu.icuAccept)
    fun _ hu _ => hu.sicEvent
  exact smWf_foldl_smPut _ _ _ _ _ (smWf_smDrop _ _ _ hr)

theorem Sound.clockEvents (h : Sound False σ s) : Sound False σ (clockEvents s) :=
  .linkTick (.microGo (.bankCounts (.foldl (.wdTick (.same (.withLinks (fun _ ha => ha.tbCycle.timersTb.timersXclk) (.same (.ite h.latchClear h)))))
    (fun _ hu _ => hu.coreTick))))

theorem Sound.xclkTick (h : Sound False σ s) : Sound False σ (xclkTick s) := .eventsStay (fun _ hu => hu.clockEvents) (fun _ hu => hu.waitersGo) h

theorem Sound.tick (h : Sound False σ s) : Sound False σ (tick s) := .ite h.xclkTick (.ite h h.tbCycle)

/-! ### The machine as the host's interface takes it -/

/-- What every row of the table keeps. -/
theorem Sound.exec {i : Instr} (h : Sound False σ s) : Goes σ (exec i s) := by
  cases i with
  | prstNRelease nvm => exact h.execPrstNRelease
  | prstNAssert => exact h.execPrstNAssert
  | srstN => exact h.execSrstN
  | bootRetry => exact h.execBootRetry
  | cfgEnd => exact h.execCfgEnd
  | cfgWrite => exact h.execCfgWrite
  | cfgWait => exact h.execCfgWait
  | cfgWaitTimeout => exact h.execCfgWaitTimeout
  | cfgDelay => exact h.execCfgDelay
  | cfgDelayExpiry => exact h.execCfgDelayExpiry
  | cfgSkip => exact h.execCfgSkip
  | cfgop => exact h.execCfgop
  | miuSelftestDone erg si dmc => exact h.execMiuSelftestDone
  | pllLock p => exact h.execPllLock
  | regWrite m core pa v => exact h.execRegWrite
  | xbmRead m core pa len id => exact h.execXbmRead
  | xbmWrite m core pa data id coll => exact h.execXbmWrite
  | xbmAtomic m core pa fn v id coll => exact h.execXbmAtomic
  | xbmResponse m id => exact h.execXbmResponse
  | xbmTimeout m id => exact h.execXbmTimeout
  | xbmAgeExpiry m id => exact h.execXbmAgeExpiry
  | detResponseRelease m id => exact h.execDetResponseRelease
  | ceWriteback bank => exact h.execCeWriteback
  | scrubRow => exact h.execScrubRow
  | scrubLapEnd => exact h.execScrubLapEnd
  | lapslow => exact h.execLapslow
  | ergBgctlOos m mask => exact h.execErgBgctlOos
  | bankGroupLeaveService g => exact h.execBankGroupLeaveService
  | ergInitFill m mask => exact h.execErgInitFill
  | zeroFillStart g => exact h.execZeroFillStart
  | zeroFillDone g => exact h.execZeroFillDone
  | bankGroupReady g => exact h.execBankGroupReady
  | ergHashWrite m v => exact h.execErgHashWrite
  | ergXqosWrite m v => exact h.execErgXqosWrite
  | miuInjArm m => exact h.execMiuInjArm
  | dmcEnable m v => exact h.execDmcEnable
  | dmcTrainingDone fail => exact h.execDmcTrainingDone
  | dmcCapWrite m v => exact h.execDmcCapWrite
  | dmcPatrolRead ch => exact h.execDmcPatrolRead
  | tableWalkDone w => exact h.execTableWalkDone
  | tlbi c ga gb ty => exact h.execTlbi
  | tlbiWalksDone c => exact h.execTlbiWalksDone
  | vinv c ga gb ty => exact h.execVinv
  | vinvRelease c => exact h.execVinvRelease
  | icuEvent n => exact h.execIcuEvent
  | iclaimn c d => exact h.execIclaimn
  | iclaimf c d => exact h.execIclaimf
  | icomplete c a => exact h.execIcomplete
  | icuSwi m v => exact h.execIcuSwi
  | intN c => exact h.execIntN
  | intF c => exact h.execIntF
  | storeErr c => exact h.execStoreErr
  | fptrap c => exact h.execFptrap
  | holdWindowEnd c => exact h.execHoldWindowEnd
  | gateProbeTimeout c => exact h.execGateProbeTimeout
  | loopCountExpiry c => exact h.execLoopCountExpiry
  | svuPowerDown c => exact h.execSvuPowerDown
  | svuWakeDone c => exact h.execSvuWakeDone
  | fcsrWrite c a => exact h.execFcsrWrite
  | vbaseWrite c sup a => exact h.execVbaseWrite
  | lctlWrite c a => exact h.execLctlWrite
  | ctxModeWrite c a => exact h.execCtxModeWrite
  | add c d a b => exact h.execAdd
  | sub c d a b => exact h.execSub
  | and c d a b => exact h.execAnd
  | or c d a b => exact h.execOr
  | xor c d a b => exact h.execXor
  | andn c d a b => exact h.execAndn
  | slt c d a b => exact h.execSlt
  | sltu c d a b => exact h.execSltu
  | shl c d a b => exact h.execShl
  | shr c d a b => exact h.execShr
  | sra c d a b => exact h.execSra
  | ror c d a b => exact h.execRor
  | clz c d a => exact h.execClz
  | popc c d a => exact h.execPopc
  | sexb c d a => exact h.execSexb
  | sexh c d a => exact h.execSexh
  | min c d a b => exact h.execMin
  | max c d a b => exact h.execMax
  | minu c d a b => exact h.execMinu
  | maxu c d a b => exact h.execMaxu
  | addi c d a imm => exact h.execAddi
  | andi c d a imm => exact h.execAndi
  | ori c d a imm => exact h.execOri
  | xori c d a imm => exact h.execXori
  | slti c d a imm => exact h.execSlti
  | sltiu c d a imm => exact h.execSltiu
  | lui c d imm => exact h.execLui
  | shi c d a op cnt => exact h.execShi
  | mul c d a b => exact h.execMul
  | mulh c d a b => exact h.execMulh
  | mulhu c d a b => exact h.execMulhu
  | div c d a b => exact h.execDiv
  | divu c d a b => exact h.execDivu
  | rem c d a b => exact h.execRem
  | remu c d a b => exact h.execRemu
  | ldb c d a imm => exact h.execLdb
  | ldbu c d a imm => exact h.execLdbu
  | ldh c d a imm => exact h.execLdh
  | ldhu c d a imm => exact h.execLdhu
  | ldw c d a imm => exact h.execLdw
  | stb c d a imm => exact h.execStb
  | sth c d a imm => exact h.execSth
  | stw c d a imm => exact h.execStw
  | flds c d a imm => exact h.execFlds
  | fldd c d a imm => exact h.execFldd
  | fsts c d a imm => exact h.execFsts
  | fstd c d a imm => exact h.execFstd
  | atomSwap c d a b => exact h.execAtomSwap
  | atomAdd c d a b => exact h.execAtomAdd
  | atomAnd c d a b => exact h.execAtomAnd
  | atomOr c d a b => exact h.execAtomOr
  | br c off => exact h.execBr
  | call c off => exact h.execCall
  | beq c a b off => exact h.execBeq
  | bne c a b off => exact h.execBne
  | blt c a b off => exact h.execBlt
  | bge c a b off => exact h.execBge
  | bltu c a b off => exact h.execBltu
  | bgeu c a b off => exact h.execBgeu
  | jmpr c d a imm => exact h.execJmpr
  | callm c a mask => exact h.execCallm
  | retm c => exact h.execRetm
  | loop c gc n1 => exact h.execLoop
  | fills c sz dstep => exact h.execFills
  | movs c sz sstep dstep => exact h.execMovs
  | scans c sz sstep cond => exact h.execScans
  | cmps c sz sstep dstep => exact h.execCmps
  | fadd c d a b rm p => exact h.execFadd
  | fsub c d a b rm p => exact h.execFsub
  | fmul c d a b rm p => exact h.execFmul
  | fdiv c d a b rm p => exact h.execFdiv
  | fsqrt c d a rm p => exact h.execFsqrt
  | fmin c d a b rm p => exact h.execFmin
  | fmax c d a b rm p => exact h.execFmax
  | fcvt c d a rm p => exact h.execFcvt
  | fcvts c d a rm p => exact h.execFcvts
  | fcvtu c d a rm p => exact h.execFcvtu
  | fcvtfs c d a rm p => exact h.execFcvtfs
  | fcvtfu c d a rm p => exact h.execFcvtfu
  | fcmpeq c d a b rm p => exact h.execFcmpeq
  | fcmplt c d a b rm p => exact h.execFcmplt
  | fcmple c d a b rm p => exact h.execFcmple
  | fclass c d a rm p => exact h.execFclass
  | fmvgf c d a rm p => exact h.execFmvgf
  | fmvfg c d a rm p => exact h.execFmvfg
  | fma c d a b e rm p => exact h.execFma
  | fms c d a b e rm p => exact h.execFms
  | fnma c d a b e rm p => exact h.execFnma
  | fnms c d a b e rm p => exact h.execFnms
  | srr c d sr => exact h.execSrr
  | srw c sr a => exact h.execSrw
  | fsync c => exact h.execFsync
  | vsync c => exact h.execVsync
  | gate c n => exact h.execGate
  | mret c => exact h.execMret
  | sret c => exact h.execSret
  | wait c => exact h.execWait
  | brk c => exact h.execBrk
  | holdi c k => exact h.execHoldi
  | qadd c d a b ty rm => exact h.execQadd
  | qsub c d a b ty rm => exact h.execQsub
  | qmul c d a b ty rm => exact h.execQmul
  | qmin c d a b ty rm => exact h.execQmin
  | qmax c d a b ty rm => exact h.execQmax
  | qabs c d a b ty rm => exact h.execQabs
  | qneg c d a b ty rm => exact h.execQneg
  | qabsd c d a b ty rm => exact h.execQabsd
  | qfma c d a b ty rm => exact h.execQfma
  | qfms c d a b ty rm => exact h.execQfms
  | qmacs c d a b ty rm => exact h.execQmacs
  | qmsubs c d a b ty rm => exact h.execQmsubs
  | qadds c d a b ty rm => exact h.execQadds
  | qsubs c d a b ty rm => exact h.execQsubs
  | qmuls c d a b ty rm => exact h.execQmuls
  | qrshr c d a b ty rm => exact h.execQrshr
  | qand c d a b ty rm => exact h.execQand
  | qor c d a b ty rm => exact h.execQor
  | qxor c d a b ty rm => exact h.execQxor
  | qandn c d a b ty rm => exact h.execQandn
  | qshl c d a b ty rm => exact h.execQshl
  | qshr c d a b ty rm => exact h.execQshr
  | qsra c d a b ty rm => exact h.execQsra
  | qrol c d a b ty rm => exact h.execQrol
  | qcmpeq c d a b ty rm => exact h.execQcmpeq
  | qcmpne c d a b ty rm => exact h.execQcmpne
  | qcmplt c d a b ty rm => exact h.execQcmplt
  | qcmple c d a b ty rm => exact h.execQcmple
  | qcmpgt c d a b ty rm => exact h.execQcmpgt
  | qcmpge c d a b ty rm => exact h.execQcmpge
  | qsel c d a b ty rm => exact h.execQsel
  | qzipl c d a b ty rm => exact h.execQzipl
  | qziph c d a b ty rm => exact h.execQziph
  | quzpe c d a b ty rm => exact h.execQuzpe
  | quzpo c d a b ty rm => exact h.execQuzpo
  | qdup c d a b ty rm => exact h.execQdup
  | qcvt c d a b ty rm => exact h.execQcvt
  | qcvtn c d a b ty rm => exact h.execQcvtn
  | qmulwl c d a b ty rm => exact h.execQmulwl
  | qmulwh c d a b ty rm => exact h.execQmulwh
  | qmacwl c d a b ty rm => exact h.execQmacwl
  | qmacwh c d a b ty rm => exact h.execQmacwh
  | qdot c d a b ty rm => exact h.execQdot
  | qdotsu c d a b ty rm => exact h.execQdotsu
  | ldq c d a off => exact h.execLdq
  | stq c d a off => exact h.execStq
  | lds2 c d a esz off => exact h.execLds2
  | lds3 c d a esz off => exact h.execLds3
  | lds4 c d a esz off => exact h.execLds4
  | sts2 c d a esz off => exact h.execSts2
  | sts3 c d a esz off => exact h.execSts3
  | sts4 c d a esz off => exact h.execSts4
  | vsd c gs gt sd w => exact h.execVsd
  | vldd c gs sd n1 => exact h.execVldd
  | descWriteRelease c => exact h.execDescWriteRelease
  | vissue c gd gs gt => exact h.execVissue
  | vissueQueueRoom c => exact h.execVissueQueueRoom
  | vctxAlloc c gd => exact h.execVctxAlloc
  | vctxFree c gd gs => exact h.execVctxFree
  | vbind c gd gs => exact h.execVbind
  | vfence c gs => exact h.execVfence
  | vfenceRelease c => exact h.execVfenceRelease
  | veaown c gd gs => exact h.execVeaown
  | vcsave c gd gs gt => exact h.execVcsave
  | vcrst c gd gs => exact h.execVcrst
  | vsusp c gd gs => exact h.execVsusp
  | vresume c gd gs gt => exact h.execVresume
  | suspendEffect x => exact h.execSuspendEffect
  | chainFullReport x => exact h.execChainFullReport
  | groupSurvey x => exact h.execGroupSurvey
  | surveyResume x => exact h.execSurveyResume
  | elgInflightWaitEnd x => exact h.execElgInflightWaitEnd
  | surveyTableClaim x => exact h.execSurveyTableClaim
  | caravanSlotClaim x => exact h.execCaravanSlotClaim
  | groupComplete x => exact h.execGroupComplete
  | vcCrtailWrite m x v => exact h.execVcCrtailWrite
  | vcCrbaseLoWrite m x v => exact h.execVcCrbaseLoWrite
  | groupMchk x => exact h.execGroupMchk
  | forcedPoll x => exact h.execForcedPoll
  | vmsCserr uaddr => exact h.execVmsCserr
  | patchRamWriteback a => exact h.execPatchRamWriteback
  | vmsLockSet m => exact h.execVmsLockSet
  | vnop x => exact h.execVnop
  | vadd x => exact h.execVadd
  | vsub x => exact h.execVsub
  | vmul x => exact h.execVmul
  | vfma x => exact h.execVfma
  | vfms x => exact h.execVfms
  | vfnma x => exact h.execVfnma
  | vfnms x => exact h.execVfnms
  | vmin x => exact h.execVmin
  | vmax x => exact h.execVmax
  | vabs x => exact h.execVabs
  | vneg x => exact h.execVneg
  | vabsd x => exact h.execVabsd
  | vcpy x => exact h.execVcpy
  | vcpsgn x => exact h.execVcpsgn
  | vclamp x => exact h.execVclamp
  | vand x => exact h.execVand
  | vor x => exact h.execVor
  | vxor x => exact h.execVxor
  | vandn x => exact h.execVandn
  | vnot x => exact h.execVnot
  | vshl x => exact h.execVshl
  | vshr x => exact h.execVshr
  | vsra x => exact h.execVsra
  | vrol x => exact h.execVrol
  | vror x => exact h.execVror
  | vclz x => exact h.execVclz
  | vpopc x => exact h.execVpopc
  | vavg x => exact h.execVavg
  | vmulh x => exact h.execVmulh
  | vbswap x => exact h.execVbswap
  | vbrev x => exact h.execVbrev
  | vcmpeq x => exact h.execVcmpeq
  | vcmpne x => exact h.execVcmpne
  | vcmplt x => exact h.execVcmplt
  | vcmple x => exact h.execVcmple
  | vcmpgt x => exact h.execVcmpgt
  | vcmpge x => exact h.execVcmpge
  | vcmpun x => exact h.execVcmpun
  | vcmpor x => exact h.execVcmpor
  | vsel x => exact h.execVsel
  | vcomp x => exact h.execVcomp
  | vexpd x => exact h.execVexpd
  | vmcnt x => exact h.execVmcnt
  | vmfirst x => exact h.execVmfirst
  | viota x => exact h.execViota
  | vclass x => exact h.execVclass
  | vzcross x => exact h.execVzcross
  | vmsbf x => exact h.execVmsbf
  | vmsif x => exact h.execVmsif
  | vcvt x => exact h.execVcvt
  | vcvtx x => exact h.execVcvtx
  | vrint x => exact h.execVrint
  | vscale x => exact h.execVscale
  | vlogb x => exact h.execVlogb
  | vmulw x => exact h.execVmulw
  | vmacw x => exact h.execVmacw
  | vmulwsu x => exact h.execVmulwsu
  | vsqrw x => exact h.execVsqrw
  | vdotw x => exact h.execVdotw
  | vdotwa x => exact h.execVdotwa
  | vdotwsu x => exact h.execVdotwsu
  | vsumw x => exact h.execVsumw
  | vexdot x => exact h.execVexdot
  | vexdotn x => exact h.execVexdotn
  | vexsum x => exact h.execVexsum
  | vexssq x => exact h.execVexssq
  | vexcdot x => exact h.execVexcdot
  | veaclr x => exact h.execVeaclr
  | veard x => exact h.execVeard
  | veawr x => exact h.execVeawr
  | veaadd x => exact h.execVeaadd
  | vexsuma x => exact h.execVexsuma
  | vexdiff2 x => exact h.execVexdiff2
  | vscanadd x => exact h.execVscanadd
  | vscanmin x => exact h.execVscanmin
  | vscanmax x => exact h.execVscanmax
  | vscanxor x => exact h.execVscanxor
  | vredmin x => exact h.execVredmin
  | vredmax x => exact h.execVredmax
  | vredor x => exact h.execVredor
  | vredand x => exact h.execVredand
  | vargmin x => exact h.execVargmin
  | vargmax x => exact h.execVargmax
  | vredxor x => exact h.execVredxor
  | vredsum x => exact h.execVredsum
  | vfir x => exact h.execVfir
  | vfird x => exact h.execVfird
  | vcmul x => exact h.execVcmul
  | vcmulc x => exact h.execVcmulc
  | vcmac x => exact h.execVcmac
  | vcabs2 x => exact h.execVcabs2
  | vfft4 x => exact h.execVfft4
  | vifft4 x => exact h.execVifft4
  | vfft2 x => exact h.execVfft2
  | vconj x => exact h.execVconj
  | vlerp x => exact h.execVlerp
  | vdiff x => exact h.execVdiff
  | vcmag x => exact h.execVcmag
  | vdiv x => exact h.execVdiv
  | vsqrt x => exact h.execVsqrt
  | vrsqrt x => exact h.execVrsqrt
  | vrec x => exact h.execVrec
  | vmod x => exact h.execVmod
  | vadds x => exact h.execVadds
  | vsubs x => exact h.execVsubs
  | vmuls x => exact h.execVmuls
  | vnegs x => exact h.execVnegs
  | vabss x => exact h.execVabss
  | vshls x => exact h.execVshls
  | vrshr x => exact h.execVrshr
  | vmacs x => exact h.execVmacs
  | evrEvent p joins => exact h.execEvrEvent
  | evrCselWrite m cons v => exact h.execEvrCselWrite
  | evrSwp m v => exact h.execEvrSwp
  | evoutPulseEnd n => exact h.execEvoutPulseEnd
  | mothclkCalWindow period => exact h.execMothclkCalWindow
  | tbRateWrite m v => exact h.execTbRateWrite
  | tbAdjWrite m v => exact h.execTbAdjWrite
  | tbStep m v => exact h.execTbStep
  | wakeCompareFire n => exact h.execWakeCompareFire
  | timerWrap n => exact h.execTimerWrap
  | timerMatch n => exact h.execTimerMatch
  | tmuGcmdStart m => exact h.execTmuGcmdStart
  | tmuGcmdStop m => exact h.execTmuGcmdStop
  | tmuGcmdResetStart m => exact h.execTmuGcmdResetStart
  | mcFire k => exact h.execMcFire
  | scFire k => exact h.execScFire
  | captureEdge n rising => exact h.execCaptureEdge
  | capNsHiRead m n => exact h.execCapNsHiRead
  | idlPortEnable m p v => exact h.execIdlPortEnable
  | portStateAdvance p => exact h.execPortStateAdvance
  | portStateTimeout p => exact h.execPortStateTimeout
  | blockLockLoss p => exact h.execBlockLockLoss
  | helloSilence p => exact h.execHelloSilence
  | retrain m p => exact h.execRetrain
  | helloSend p => exact h.execHelloSend
  | hello p _ => exact h.execHello
  | linkAck p seq => exact h.execLinkAck
  | linkRetry p seq => exact h.execLinkRetry
  | packetForward p pkt => exact h.execPacketForward
  | read p pkt => exact h.execRead
  | write p pkt => exact h.execWrite
  | atomic p pkt => exact h.execAtomic
  | c0write p pkt => exact h.execC0write
  | rdresp p pkt => exact h.execRdresp
  | wrack p pkt => exact h.execWrack
  | nack p pkt => exact h.execNack
  | mgmt p pkt => exact h.execMgmt
  | mgmtdir p pkt => exact h.execMgmtdir
  | reservedPacket p pkt => exact h.execReservedPacket
  | remoteRequestTimeout tag => exact h.execRemoteRequestTimeout
  | idlMtxgo m => exact h.execIdlMtxgo
  | idlNodeidWrite m v => exact h.execIdlNodeidWrite
  | c0Launch k => exact h.execC0Launch
  | timeExchange t1 t2 t3 t4 => exact h.execTimeExchange
  | timeExchangeReply p => exact h.execTimeExchangeReply
  | sceEnable m => exact h.execSceEnable
  | sceBoundary => exact h.execSceBoundary
  | sceSwapReq m => exact h.execSceSwapReq
  | sceCheckDone => exact h.execSceCheckDone
  | nop => exact h.execNop
  | sceGate => exact h.execSceGate
  | txtrig => exact h.execTxtrig
  | c0slot => exact h.execC0slot
  | sceEvent => exact h.execSceEvent
  | sceWrite => exact h.execSceWrite
  | sceWrerr pa resp => exact h.execSceWrerr
  | mvbmf => exact h.execMvbmf
  | cantx => exact h.execCantx
  | sgate => exact h.execSgate
  | sceBadact => exact h.execSceBadact
  | ethFrameReceive n frame crcOk => exact h.execEthFrameReceive
  | ethFrameTransmit n q => exact h.execEthFrameTransmit
  | asSync offset rate => exact h.execAsSync
  | asSyncTimeout => exact h.execAsSyncTimeout
  | ttdp n => exact h.execTtdp
  | mvbMasterFrame fcode addr => exact h.execMvbMasterFrame
  | mvbSlaveFrame data disagree => exact h.execMvbSlaveFrame
  | mvbReplyTimeout => exact h.execMvbReplyTimeout
  | canFrameReceive c frame => exact h.execCanFrameReceive
  | uartIdleTimeout u => exact h.execUartIdleTimeout
  | uartTransmit u => exact h.execUartTransmit
  | tncBypHold m v => exact h.execTncBypHold
  | bypwdKick m => exact h.execBypwdKick
  | bypwdPeriodWrite m v => exact h.execBypwdPeriodWrite
  | bypWatchdogExpiry => exact h.execBypWatchdogExpiry
  | lockstepMismatch => exact h.execLockstepMismatch
  | siLsctlTest m => exact h.execSiLsctlTest
  | siSscForce m v => exact h.execSiSscForce
  | siSscRelease m v => exact h.execSiSscRelease
  | siWdctlEn m v => exact h.execSiWdctlEn
  | siWdkick m v => exact h.execSiWdkick
  | wdwarn => exact h.execWdwarn
  | wdExpiry => exact h.execWdExpiry
  | clkmonWindow w => exact h.execClkmonWindow
  | siA2sdbWrite m v => exact h.execSiA2sdbWrite
  | siS2adbWrite m v => exact h.execSiS2adbWrite
  | sicEvent n => exact h.execSicEvent
  | pcuFuncWrite m n v => exact h.execPcuFuncWrite
  | dozeEntry => exact h.execDozeEntry
  | dozeExit => exact h.execDozeExit
  | pmuSleepCocoon m core => exact h.execPmuSleepCocoon
  | pmuSleepDormant m core => exact h.execPmuSleepDormant
  | pmuSleepInvalid m core t => exact h.execPmuSleepInvalid
  | sleepWaitTimeout => exact h.execSleepWaitTimeout
  | sleepEntry => exact h.execSleepEntry
  | wakeEvent src => exact h.execWakeEvent
  | dormantWake k => exact h.execDormantWake
  | elgRefill e => exact h.execElgRefill
  | elgDormantSample e => exact h.execElgDormantSample
  | elgPlimWindow e => exact h.execElgPlimWindow
  | elgSnap m => exact h.execElgSnap
  | elgCreditWrite m v => exact h.execElgCreditWrite
  | pwrfailNFall => exact h.execPwrfailNFall
  | pwrfailT0 => exact h.execPwrfailT0
  | pfSafeSignal => exact h.execPfSafeSignal
  | pfBypassRelease => exact h.execPfBypassRelease
  | pfShutdown => exact h.execPfShutdown
  | pfRestart => exact h.execPfRestart
  | bcuCommit m => exact h.execBcuCommit
  | bcuErase m => exact h.execBcuErase
  | bcuProgram m => exact h.execBcuProgram
  | bcuOpInvalid m => exact h.execBcuOpInvalid
  | bcuStdone => exact h.execBcuStdone
  | bcuReady => exact h.execBcuReady
  | nvmOpDone => exact h.execNvmOpDone
  | nvmtmo => exact h.execNvmtmo
  | bcuRel m v => exact h.execBcuRel
  | ksuRevoke m v => exact h.execKsuRevoke
  | uartReceive u ch bad => exact h.execUartReceive
  | uartTransmitDone u => exact h.execUartTransmitDone
  | canFrameTransmit c b => exact h.execCanFrameTransmit
  | ethFrameTransmitDone n q => exact h.execEthFrameTransmitDone
  | ethLinkChange n up => exact h.execEthLinkChange
  | asPdelayRequest n => exact h.execAsPdelayRequest
  | frerResetTimeout r => exact h.execFrerResetTimeout
  | linkCrcError p => exact h.execLinkCrcError
  | captureDeadTimeEnd n => exact h.execCaptureDeadTimeEnd
  | pwrfailNRise => exact h.execPwrfailNRise

/-- What every step keeps, with a command at the front of the queue or with none. -/
theorem goes_step {s : State} : Goes s (step s) := by
  have hs : Sound False s s := .refl s
  unfold Machine.step
  split
  · exact .next (.ite hs.xclkTick (.ite hs hs.tbCycle))
  · exact hs.same.exec

/-- Settles O59: each operation of the model keeps the canonical forms, and so does every step, which is made of them. -/
theorem stepKeepsCanonical : Obligations.StepKeepsCanonical := by
  unfold Obligations.StepKeepsCanonical
  exact fun s t hcanonical hstep => (goes_step t hstep).canonical hcanonical

/-- Settles O60: no operation of the model writes the OTP, but those that advance a counter or burn a revocation. -/
theorem fusesOnlyBurn : Obligations.FusesOnlyBurn := by
  unfold Obligations.FusesOnlyBurn
  intro s t hstep
  have hburnt : Burnt s.otp t.otp := (goes_step t hstep).burnt
  exact ⟨hburnt.img, hburnt.patch, hburnt.rev, hburnt.fixed⟩

end Sys2Proof.Soundness

/-! What a change of one core leaves: the reads of its other parts, of the other cores and of the rest of the state. -/
namespace Sys2Proof.CoreFrame
open Sys2Proof.Machine

/-- Two changes of one core are one. -/
theorem modCore_modCore (s : State) (c : CoreId) (f g : Core → Core) : (s.modCore c f).modCore c g = s.modCore c fun k => g (f k) := by
  simp [State.modCore, State.setCore, State.core]

/-- A change of a core is what it makes of that core. -/
theorem modCore_congr {s : State} {c : CoreId} {f g : Core → Core} (h : f (s.core c) = g (s.core c)) : s.modCore c f = s.modCore c g := by
  unfold State.modCore
  rw [h]

section Reads
variable {s : State} {c : CoreId} {f : Core → Core}

theorem sr_modCore (h : (f (s.core c)).sr = (s.core c).sr) (i : CoreId) (n : Nat) : (s.modCore c f).sr i n = s.sr i n := by
  unfold State.sr
  by_cases hi : i = c
  · rw [hi, core_modCore_self, h]
  · rw [core_modCore_ne s f hi]

theorem pc_modCore (h : (f (s.core c)).pc = (s.core c).pc) (i : CoreId) : (s.modCore c f).pc i = s.pc i := by
  unfold State.pc
  by_cases hi : i = c
  · rw [hi, core_modCore_self, h]
  · rw [core_modCore_ne s f hi]

theorem lvl_modCore (h : (f (s.core c)).lvl = (s.core c).lvl) (i : CoreId) : (s.modCore c f).lvl i = s.lvl i := by
  unfold State.lvl
  by_cases hi : i = c
  · rw [hi, core_modCore_self, h]
  · rw [core_modCore_ne s f hi]

theorem f_modCore (h : (f (s.core c)).f = (s.core c).f) (i : CoreId) (q : FReg) : (s.modCore c f).f i q = s.f i q := by
  unfold State.f
  by_cases hi : i = c
  · rw [hi, core_modCore_self, h]
  · rw [core_modCore_ne s f hi]

/-- The general registers are kept by what keeps both banks and the bank bit. -/
theorem g_modCore (hg : (f (s.core c)).g = (s.core c).g) (hgs : (f (s.core c)).gs = (s.core c).gs)
    (hb : smGet srReset (f (s.core c)).sr 0x143 = smGet srReset (s.core c).sr 0x143) (i : CoreId) (q : GReg) : (s.modCore c f).g i q = s.g i q := by
  unfold State.g State.shadow State.sr
  by_cases hi : i = c
  · rw [hi, core_modCore_self]
    dsimp only
    rw [hg, hgs, hb]
  · rw [core_modCore_ne s f hi]

end Reads

theorem g_setSr {s : State} {c : CoreId} {n : Nat} {v : Word} (h : n ≠ 0x143) (i : CoreId) (q : GReg) : (s.setSr c n v).g i q = s.g i q :=
  g_modCore rfl rfl (smGet_smPut_ne srReset _ v h.symm) i q

@[simp] theorem f_setSr (s : State) (c : CoreId) (n : Nat) (v : Word) (i : CoreId) (q : FReg) : (s.setSr c n v).f i q = s.f i q := f_modCore (by rfl) i q

@[simp] theorem pc_setSr (s : State) (c : CoreId) (n : Nat) (v : Word) (i : CoreId) : (s.setSr c n v).pc i = s.pc i := pc_modCore (by rfl) i

@[simp] theorem lvl_setSr (s : State) (c : CoreId) (n : Nat) (v : Word) (i : CoreId) : (s.setSr c n v).lvl i = s.lvl i := lvl_modCore (by rfl) i

@[simp] theorem g_setPc (s : State) (c : CoreId) (v : Word) (i : CoreId) (q : GReg) : (s.setPc c v).g i q = s.g i q := g_modCore (by rfl) (by rfl) (by rfl) i q

@[simp] theorem f_setPc (s : State) (c : CoreId) (v : Word) (i : CoreId) (q : FReg) : (s.setPc c v).f i q = s.f i q := f_modCore (by rfl) i q

@[simp] theorem lvl_setPc (s : State) (c : CoreId) (v : Word) (i : CoreId) : (s.setPc c v).lvl i = s.lvl i := lvl_modCore (by rfl) i

@[simp] theorem g_unstall (s : State) (c i : CoreId) (q : GReg) : (unstall c s).g i q = s.g i q := g_modCore (by rfl) (by rfl) (by rfl) i q

@[simp] theorem f_unstall (s : State) (c i : CoreId) (q : FReg) : (unstall c s).f i q = s.f i q := f_modCore (by rfl) i q

@[simp] theorem pc_unstall (s : State) (c i : CoreId) : (unstall c s).pc i = s.pc i := pc_modCore (by rfl) i

@[simp] theorem lvl_unstall (s : State) (c i : CoreId) : (unstall c s).lvl i = s.lvl i := lvl_modCore (by rfl) i

/-! ### Nothing but one core changes -/

/-- `t` is `s` with perhaps core `c` changed. -/
structure OnlyCore (c : CoreId) (s t : State) : Prop where
  rest : t = { s with cores := t.cores }
  others : ∀ i, i ≠ c → t.core i = s.core i

namespace OnlyCore
variable {c : CoreId} {s t u : State}

theorem refl (c : CoreId) (s : State) : OnlyCore c s s := ⟨rfl, fun _ _ => rfl⟩

theorem trans (h : OnlyCore c s t) (h' : OnlyCore c t u) : OnlyCore c s u :=
  ⟨h'.rest.trans (by rw [h.rest]), fun i hi => (h'.others i hi).trans (h.others i hi)⟩

theorem modCore (f : Core → Core) : OnlyCore c s (s.modCore c f) := ⟨rfl, fun _ hi => core_modCore_ne s f hi⟩

theorem setSr (n : Nat) (v : Word) : OnlyCore c s (s.setSr c n v) := modCore _

theorem setPc (v : Word) : OnlyCore c s (s.setPc c v) := modCore _

theorem setF (r : FReg) (v : Dword) : OnlyCore c s (s.setF c r v) := modCore _

theorem setG (r : GReg) (v : Word) : OnlyCore c s (s.setG c r v) := by
  unfold State.setG
  split
  · exact refl c s
  · split
    · exact modCore _
    · exact modCore _

theorem ite {p : Prop} [Decidable p] (h : OnlyCore c s t) (h' : OnlyCore c s u) : OnlyCore c s (if p then t else u) := by
  split
  · exact h
  · exact h'

theorem byte (h : OnlyCore c s t) (a : Nat) : t.byte a = s.byte a := by
  rw [h.rest]
  rfl

theorem wrong (h : OnlyCore c s t) (a : Nat) : t.wrong a = s.wrong a := by
  rw [h.rest]
  rfl

theorem reg (h : OnlyCore c s t) (a : Nat) : t.reg a = s.reg a := by
  rw [h.rest]
  rfl

end OnlyCore

end Sys2Proof.CoreFrame

namespace Sys2Proof.GeneralRegisters
open Sys2Proof.Machine

/-- Settles O4: a write of a general register is read back at its number alone, and G0 holds nothing. -/
theorem generalRegisterWrites : Obligations.GeneralRegisterWrites := by
  unfold Obligations.GeneralRegisterWrites
  intro s c r v
  have hself : r ≠ 0 → (s.setG c r v).g c r = v := fun h => by
    rw [g_setG_self, if_neg fun hz : r.val = 0 => h (Fin.ext hz)]
  exact ⟨g_zero _ c, rfl, hself, fun q hq => g_setG_ne s c v hq, fun i q hi => g_setG_other s r q v hi, fun i n => sr_setG s c i r v n,
    fun i n => f_setG s c i r v n, fun i => ⟨pc_setG s c i r v, lvl_setG s c i r v⟩⟩

end Sys2Proof.GeneralRegisters

namespace Sys2Proof.TimeBase
open Sys2Proof.Machine

/-- A cycle adds its nominal step and its slew, which together are no negative number. -/
theorem tbCycle_total (s : State) :
    (tbCycle s).tb.toNat * 2 ^ 32 + (tbCycle s).tbSub = (s.tb.toNat * 2 ^ 32 + s.tbSub + ((tbNominal s : Int) + tbSlewStep s (tbNominal s)).toNat) % 2 ^ 112 := by
  rw [tbCycle_tb, tbCycle_tbSub, tbAdvance_total, ← Nat.pow_add]

/-- With nothing waiting a step is what the power state lets time do. -/
theorem step_idle {s : State} (h : s.pending = []) : step s = .next (if s.pwr ≤ 1 then xclkTick s else if s.pwr = 5 then s else tbCycle s) := by
  unfold step
  rw [h]
  rfl

/-- Settles O2: the slew is bounded by a sixteenth of the step, so the sum is at least fifteen sixteenths of it. -/
theorem timeBaseNeverGoesBack : Obligations.TimeBaseNeverGoesBack := by
  unfold Obligations.TimeBaseNeverGoesBack
  intro s
  obtain ⟨hhigh, hlow, hpos, hneg⟩ := tbSlewStep_bounds s (tbNominal s)
  refine ⟨tbSlewStep s (tbNominal s), ((tbNominal s : Int) + tbSlewStep s (tbNominal s)).toNat, tbCycle_total s, Int.toNat_of_nonneg (by omega), hhigh,
    hlow, tbCycle_adjPend s, hpos, hneg, fun a => ?_, fun a => ?_, fun hidle => ⟨fun hp => ?_, fun h2 h5 => ?_, fun h1 => ?_⟩⟩
  · unfold State.reg
    rw [tbCycle_regs]
  · unfold State.byte
    rw [tbCycle_mem]
  · rw [step_idle hidle, if_neg (by omega), if_pos hp]
  · rw [step_idle hidle, if_neg (by omega), if_neg h5]
  · rw [step_idle hidle, if_pos h1]

end Sys2Proof.TimeBase

/-! A floating-point result: its register, the sticky flags and the pending trap (R132, R148, R195). -/
namespace Sys2Proof.FpFlags
open Sys2Proof.Machine CoreFrame

/-- The bits of FCSR after flags are raised in it. -/
theorem wbit_fcsrRaise (w : Word) (f : FFlags) (i : Nat) : wbit (fcsrRaise w f) i = (wbit w i || (decide (i < 6) && f.getLsbD i)) := by
  unfold wbit fcsrRaise
  rw [BitVec.getLsbD_or, BitVec.getLsbD_ofNat, BitVec.testBit_toNat]
  by_cases hi : i < 6
  · rw [decide_eq_true hi, decide_eq_true (show i < 32 by omega)]
  · rw [BitVec.getLsbD_of_ge f i (by omega), Bool.and_false, Bool.and_false]

/-- The pending trap after flags `tr` with an enable bit are raised at `pc`: of the earlier instruction if one was pending. -/
def trapAfter (pc : Word) (tr : Nat) : Option (Word × Nat) → Option (Word × Nat)
  | none => if tr = 0 then none else some (pc, tr)
  | some (a, x) => if tr = 0 then some (a, x) else some (a, x ||| tr)

theorem trapAfter_zero (pc : Word) (t : Option (Word × Nat)) : trapAfter pc 0 t = t := by
  cases t <;> rfl

theorem trapAfter_none {pc : Word} {tr : Nat} (h : tr ≠ 0) : trapAfter pc tr none = some (pc, tr) := if_neg h

theorem trapAfter_some {pc : Word} {tr : Nat} (h : tr ≠ 0) (a : Word) (x : Nat) : trapAfter pc tr (some (a, x)) = some (a, x ||| tr) := if_neg h

/-- A raise of flags changes FCSR and the pending trap of one core. -/
theorem fpRaise_eq (c : CoreId) (f : FFlags) (s : State) : fpRaise c f s = s.modCore c fun k =>
    { k with sr := smPut srReset k.sr 0x010 (fcsrRaise (s.sr c 0x010) f), fpTrap := trapAfter (s.pc c) (fcsrTrapping (s.sr c 0x010) f) k.fpTrap } := by
  unfold fpRaise
  dsimp only
  split
  · rename_i h
    rw [h]
    simp only [trapAfter_zero]
    rfl
  · rename_i h
    rw [State.setSr, modCore_modCore]
    congr 1
    funext k
    obtain hk | ⟨a, x, hk⟩ : k.fpTrap = none ∨ ∃ a x, k.fpTrap = some (a, x) := by
      cases k.fpTrap with
      | none => exact .inl rfl
      | some p => exact .inr ⟨p.1, p.2, rfl⟩
    · simp only [hk, trapAfter_none h]
    · simp only [hk, trapAfter_some h]

/-- Settles O19: the raise of flags and the write of Fd each change fields of one core. -/
theorem floatingPointFlags : Obligations.FloatingPointFlags := by
  unfold Obligations.FloatingPointFlags
  intro c d r s
  have hcore : (fpPut c d r s).core c = { (fpRaise c r.2 s).core c with f := ((fpRaise c r.2 s).core c).f.set d (BitVec.ofNat 64 r.1) } :=
    core_modCore_self ..
  have htrap : ((fpPut c d r s).core c).fpTrap = trapAfter (s.pc c) (fcsrTrapping (s.sr c 0x010) r.2) (s.core c).fpTrap := by
    rw [hcore, fpRaise_eq, core_modCore_self]
  have hsr (n : Nat) : (fpPut c d r s).sr c n = smGet srReset (smPut srReset (s.core c).sr 0x010 (fcsrRaise (s.sr c 0x010) r.2)) n := by
    rw [State.sr, hcore, fpRaise_eq, core_modCore_self]
  have hf (q : FReg) : (fpPut c d r s).f c q = ((s.core c).f.set d (BitVec.ofNat 64 r.1))[q] := by
    rw [State.f, hcore, fpRaise_eq, core_modCore_self]
  refine ⟨?_, fun q hq => ?_, fun q => ?_, fun i => ?_, fun n hn => ?_, fun h0 => ?_, fun h hnone => ?_, fun a fl h hsome => ?_, fun a => ?_, fun a => ?_,
    fun i hi => ?_⟩
  · rw [hf]
    simp
  · have hne : d.val ≠ q.val := fun e => hq (Fin.ext e.symm)
    rw [hf]
    simp [hne, State.f]
  · refine (g_modCore (by rfl) (by rfl) (by rfl) c q).trans ?_
    rw [fpRaise_eq]
    exact g_modCore (by rfl) (by rfl) (smGet_smPut_ne srReset _ _ (by decide)) c q
  · rw [hsr, smGet_smPut_self, wbit_fcsrRaise]
  · rw [hsr, smGet_smPut_ne srReset _ _ hn]
    rfl
  · rw [htrap, show fcsrTrapping (s.sr c 0x010) r.2 = 0 from h0, trapAfter_zero]
  · rw [htrap, hnone]
    exact trapAfter_none h
  · exact ⟨fcsrTrapping (s.sr c 0x010) r.2, by rw [htrap, hsome]; exact trapAfter_some h a fl⟩
  · show (fpRaise c r.2 s).byte a = s.byte a
    rw [fpRaise_eq]
    rfl
  · show (fpRaise c r.2 s).reg a = s.reg a
    rw [fpRaise_eq]
    rfl
  · refine (core_modCore_ne _ _ hi).trans ?_
    rw [fpRaise_eq, core_modCore_ne _ _ hi]

end Sys2Proof.FpFlags

/-! The hardware loop: where the pc goes after an instruction (R213, R214, R222). -/
namespace Sys2Proof.HardwareLoop
open Sys2Proof.Machine Stated HoldWindow CoreFrame

section Reads
variable {s : State} {c : CoreId}

/-- A capture of a loop pass changes what the core holds of the loop's words alone. -/
theorem loopCapture_eq (c : CoreId) (s : State) : ∃ l b, loopCapture c s = s.modCore c fun k => { k with lbuf := b, lcap := l } := by
  unfold loopCapture
  cases h : (s.core c).lcap with
  | some l => exact ⟨none, l, modCore_congr (by simp only [h])⟩
  | none =>
    by_cases hb : (s.core c).lbuf.isEmpty = true
    · exact ⟨some [], (s.core c).lbuf, modCore_congr (by simp only [h, if_pos hb])⟩
    · have hsame : ∀ k : Core, k.lcap = none → k = { k with lbuf := k.lbuf, lcap := none } := by
        rintro ⟨⟩ ⟨⟩
        rfl
      refine ⟨none, (s.core c).lbuf, modCore_congr ?_⟩
      simp only [h, if_neg hb]
      exact hsame _ h

@[simp] theorem g_loopCapture (i : CoreId) (q : GReg) : (loopCapture c s).g i q = s.g i q := by
  obtain ⟨l, b, e⟩ := loopCapture_eq c s
  rw [e]
  exact g_modCore (by rfl) (by rfl) (by rfl) i q

@[simp] theorem pc_loopCapture (i : CoreId) : (loopCapture c s).pc i = s.pc i := by
  obtain ⟨l, b, e⟩ := loopCapture_eq c s
  rw [e]
  exact pc_modCore (by rfl) i

@[simp] theorem sr_loopForget (i : CoreId) (n : Nat) : (loopForget c s).sr i n = s.sr i n := sr_modCore (by rfl) i n

@[simp] theorem pc_loopForget (i : CoreId) : (loopForget c s).pc i = s.pc i := pc_modCore (by rfl) i

@[simp] theorem pc_loopEnd (i : CoreId) : (loopEnd c s).pc i = s.pc i := by
  unfold loopEnd
  rw [pc_loopForget, pc_setSr]

/-- The end of a loop clears ACTIVE. -/
theorem loopOn_loopEnd : loopOn (loopEnd c s) c = false := by
  unfold loopOn loopEnd
  rw [sr_loopForget, sr_setSr_self, wbit_putBit_self _ _ (by decide)]

@[simp] theorem atLend_unstall : atLend (unstall c s) c = atLend s c := by
  unfold atLend loopOn
  rw [sr_unstall, sr_unstall, pc_unstall]

@[simp] theorem loopOn_unstall : loopOn (unstall c s) c = loopOn s c := by
  unfold loopOn
  rw [sr_unstall]

@[simp] theorem inBody_unstall (a : Word) : inBody (unstall c s) c a = inBody s c a := by
  unfold inBody
  rw [sr_unstall, sr_unstall]

@[simp] theorem srf_unstall (n hi lo : Nat) : (unstall c s).srf c n hi lo = s.srf c n hi lo := by
  unfold State.srf
  rw [sr_unstall]

end Reads

/-! ### The next instruction -/

section Next
variable {c : CoreId} {s : State}

/-- The loop's counter register. -/
abbrev counter (s : State) (c : CoreId) : GReg := gno (s.srf c 0x022 4 0)

/-- Away from LEND control goes to the next word. -/
theorem done_next_away (h : atLend s c = false) : Done c .next s = (unstall c s).setPc c (s.pc c + 4) := by
  unfold Done retire
  dsimp only
  rw [atLend_unstall, if_neg (by rw [h]; exact Bool.false_ne_true), pc_unstall]

/-- At LEND the counter decides. -/
theorem done_next_lend (h : atLend s c = true) : Done c .next s = loopBack c (unstall c s) := by
  unfold Done retire
  dsimp only
  rw [atLend_unstall, if_pos h]

/-- With passes left, the next one begins. -/
theorem loopBack_again (h : s.g c (counter s c) - 1 ≠ 0) :
    loopBack c s = loopCapture c ((s.setG c (counter s c) (s.g c (counter s c) - 1)).setPc c (s.sr c 0x020)) := by
  unfold loopBack
  dsimp only
  rw [if_pos (by simpa using h), sr_setG]

/-- With the last pass over, execution goes on past the body and the loop's end is owed. -/
theorem loopBack_over (h : s.g c (counter s c) - 1 = 0) :
    loopBack c s = ((s.setG c (counter s c) 0).setPc c (s.sr c 0x021 + 4)).modCore c fun k => { k with loopDone := true } := by
  unfold loopBack
  dsimp only
  rw [if_neg (by simpa using h), sr_setG, h]

/-- A loop that is owed its end gets it, and the pc stays. -/
theorem loopSettle_owed (h : (s.core c).loopDone = true) : (loopSettle c s).pc c = s.pc c ∧ loopOn (loopSettle c s) c = false := by
  unfold loopSettle
  rw [if_pos h]
  refine ⟨(pc_modCore (by rfl) c).trans (pc_loopEnd c), ?_⟩
  unfold loopOn
  rw [sr_modCore (by rfl)]
  exact loopOn_loopEnd

end Next

/-! ### Jumps -/

/-- A jump out of the body ends the loop. -/
theorem done_jump_out {c : CoreId} {s : State} {t : Word} (hon : loopOn s c = true) (hin : inBody s c (s.pc c) = true) (hout : inBody s c t = false) :
    Done c (.jump t) s = (loopEnd c (unstall c s)).setPc c t := by
  unfold Done retire
  dsimp only
  rw [loopOn_unstall, pc_unstall, inBody_unstall, inBody_unstall, if_pos (by rw [hon, hin, hout]; rfl)]

/-- Any other jump that does not stand at LEND goes to its target. -/
theorem done_jump {c : CoreId} {s : State} {t : Word} (hlend : atLend s c = false) (hstay : (loopOn s c && inBody s c (s.pc c) && !inBody s c t) = false) :
    Done c (.jump t) s = (unstall c s).setPc c t := by
  unfold Done retire
  dsimp only
  rw [loopOn_unstall, pc_unstall, inBody_unstall, inBody_unstall, if_neg (by rw [hstay]; exact Bool.false_ne_true), atLend_unstall,
    if_neg (by rw [hlend]; exact Bool.false_ne_true)]

/-- Settles O15: the five cases are the branches of the retirement of an instruction. -/
theorem hardwareLoopRules : Obligations.HardwareLoopRules := by
  unfold Obligations.HardwareLoopRules
  intro c s t
  refine ⟨fun h => ?_, fun h hleft => ?_, fun h hlast => ?_, fun hon hin hout => ?_, fun hlend hstay => ?_⟩
  · rw [done_next_away h]
    exact ⟨pc_setPc_self .., fun q => by rw [g_setPc, g_unstall], fun n => by rw [sr_setPc, sr_unstall]⟩
  · have hagain : Done c .next s = loopCapture c (((unstall c s).setG c (counter s c) (s.g c (counter s c) - 1)).setPc c (s.sr c 0x020)) := by
      rw [done_next_lend h, loopBack_again (by rwa [counter, srf_unstall, g_unstall]), counter, srf_unstall, g_unstall, sr_unstall]
    rw [hagain]
    refine ⟨by rw [pc_loopCapture, pc_setPc_self], by rw [g_loopCapture, g_setPc, g_setG_self], fun q hq => ?_, fun n => ?_⟩
    · rw [g_loopCapture, g_setPc, g_setG_ne _ _ _ hq, g_unstall]
    · rw [sr_loopCapture, sr_setPc, sr_setG, sr_unstall]
  · have hover : Done c .next s = (((unstall c s).setG c (counter s c) 0).setPc c (s.sr c 0x021 + 4)).modCore c fun k => { k with loopDone := true } := by
      rw [done_next_lend h, loopBack_over (by rwa [counter, srf_unstall, g_unstall]), counter, srf_unstall, sr_unstall]
    have hpc : (Done c .next s).pc c = s.sr c 0x021 + 4 := by
      rw [hover, pc_modCore (by rfl), pc_setPc_self]
    have howed : ((Done c .next s).core c).loopDone = true := by
      rw [hover, core_modCore_self]
    obtain ⟨hsettled, hoff⟩ := loopSettle_owed howed
    refine ⟨hpc, ?_, loopSettle c (Done c .next s), rfl, hsettled.trans hpc, hoff⟩
    rw [hover, g_modCore (by rfl) (by rfl) (by rfl), g_setPc, g_setG_self]
    split <;> rfl
  · rw [done_jump_out hon hin hout]
    refine ⟨pc_setPc_self .., ?_⟩
    unfold loopOn
    rw [sr_setPc]
    exact loopOn_loopEnd
  · rw [done_jump hlend hstay]
    exact ⟨pc_setPc_self .., fun n => by rw [sr_setPc, sr_unstall]⟩

end Sys2Proof.HardwareLoop

/-! An issued instruction and the result of its body. -/
namespace Sys2Proof.Issued
open Sys2Proof.Machine Stated

section Body
variable {c : CoreId} {i : Instr} {k : SyncKind} {body : State → Acc Flow} {s s1 s2 : State}

/-- An issued instruction whose body ends it goes on to the next one. -/
theorem exec_next (h : Issues c i k s s1) (he : exec i s = .next (run c i k body s)) (hb : body s1 = .ok .next s2) : exec i s = .next (Done c .next s2) := by
  rw [he, run_go h, hb]
  rfl

/-- An issued instruction whose body jumps goes to the target. -/
theorem exec_jump {t : Word} (h : Issues c i k s s1) (he : exec i s = .next (run c i k body s)) (hb : body s1 = .ok (.jump t) s2) :
    exec i s = .next (Done c (.jump t) s2) := by
  rw [he, run_go h, hb]
  rfl

/-- An issued instruction whose body placed the pc itself is over. -/
theorem exec_placed (h : Issues c i k s s1) (he : exec i s = .next (run c i k body s)) (hb : body s1 = .ok .placed s2) :
    exec i s = .next (Done c .placed s2) := by
  rw [he, run_go h, hb]
  rfl

/-- An issued instruction whose body raises an exception takes it. -/
theorem exec_taken {e : Exc} (h : Issues c i k s s1) (he : exec i s = .next (run c i k body s)) (hb : body s1 = .exc e s2) :
    exec i s = .next (Taken c i e s2) := by
  rw [he, run_go h, hb]
  rfl

/-- An issued instruction whose body waits stays stalled. -/
theorem exec_stalled (h : Issues c i k s s1) (he : exec i s = .next (run c i k body s)) (hb : body s1 = .wait s2) :
    exec i s = .next (s2.modCore c fun q => { q with stall := some i }) := by
  rw [he, run_go h, hb]
  rfl

end Body

end Sys2Proof.Issued

namespace Sys2Proof.IntegerInstructions
open Sys2Proof.Machine Stated Issued


/-- A rotation by less than 32 is the library's. -/
theorem rorWord_eq (x : Word) {n : Nat} (h : n < 32) : rorWord x n = x.rotateRight n := by
  unfold rorWord
  rw [Nat.mod_eq_of_lt h]

/-- What each row of two register operands runs. -/
theorem exec_three : ∀ r ∈ intRows, ∀ (c : CoreId) (d a b : GReg) (s : State),
    exec (r.1 c d a b) s = .next (run c (r.1 c d a b) .none (fun t => putG c d (r.2 (t.g c a) (t.g c b)) t) s) := by
  have hror (c : CoreId) (d a b : GReg) (s : State) : exec (.ror c d a b) s =
      .next (run c (.ror c d a b) .none (fun t => putG c d ((t.g c a).rotateRight ((t.g c b).toNat % 32)) t) s) := by
    simp only [← rorWord_eq _ (Nat.mod_lt _ (by decide : 32 > 0))]
    rfl
  iterate 11 refine List.forall_mem_cons.mpr ⟨fun _ _ _ _ _ => rfl, ?_⟩
  refine List.forall_mem_cons.mpr ⟨hror, ?_⟩
  iterate 11 refine List.forall_mem_cons.mpr ⟨fun _ _ _ _ _ => rfl, ?_⟩
  exact List.forall_mem_nil _

/-- What each row of one register operand runs. -/
theorem exec_two : ∀ r ∈ intUnRows, ∀ (c : CoreId) (d a : GReg) (s : State),
    exec (r.1 c d a) s = .next (run c (r.1 c d a) .none (fun t => putG c d (r.2 (t.g c a)) t) s) := by
  iterate 4 refine List.forall_mem_cons.mpr ⟨fun _ _ _ _ => rfl, ?_⟩
  exact List.forall_mem_nil _

/-- What each row with an immediate runs. -/
theorem exec_imm : ∀ r ∈ intImmRows, ∀ (c : CoreId) (d a : GReg) (m : BitVec 16) (s : State),
    exec (r.1 c d a m) s = .next (run c (r.1 c d a m) .none (fun t => putG c d (r.2 (t.g c a) m) t) s) := by
  iterate 6 refine List.forall_mem_cons.mpr ⟨fun _ _ _ _ _ => rfl, ?_⟩
  exact List.forall_mem_nil _

theorem exec_lui (c : CoreId) (d : GReg) (m : BitVec 16) (s : State) :
    exec (.lui c d m) s = .next (run c (.lui c d m) .none (fun t => putG c d (m.zeroExtend 32 <<< 16) t) s) := rfl

theorem exec_shi (c : CoreId) (d a : GReg) (op : BitVec 2) (cnt : BitVec 5) (s : State) :
    exec (.shi c d a op cnt) s = .next (run c (.shi c d a op cnt) .none (fun t => putG c d (shiftOp op.toNat (t.g c a) cnt.toNat) t) s) := rfl

theorem shiftOp_eq (op : BitVec 2) (x : Word) (cnt : BitVec 5) : shiftOp op.toNat x cnt.toNat =
    if op = 0 then x <<< cnt.toNat else if op = 1 then x >>> cnt.toNat else if op = 2 then x.sshiftRight cnt.toNat else x.rotateRight cnt.toNat := by
  have hop : op = 0 ∨ op = 1 ∨ op = 2 ∨ op = 3 := by
    revert op
    decide
  obtain rfl | rfl | rfl | rfl := hop
  · rfl
  · rfl
  · rfl
  · exact rorWord_eq x cnt.isLt

/-- Settles O3: each row runs a body that puts its value into Gd. -/
theorem integerInstructionsComplete : Obligations.IntegerInstructionsComplete := by
  unfold Obligations.IntegerInstructionsComplete
  refine ⟨fun r hr c d a b s s1 h => ?_, fun r hr c d a s s1 h => ?_, fun r hr c d a m s s1 h => ?_, fun c d m s s1 h => ?_,
    fun c d a op cnt s s1 h => ?_⟩
  · exact exec_next h (exec_three r hr c d a b s) rfl
  · exact exec_next h (exec_two r hr c d a s) rfl
  · exact exec_next h (exec_imm r hr c d a m s) rfl
  · exact exec_next h (exec_lui c d m s) rfl
  · rw [← shiftOp_eq]
    exact exec_next h (exec_shi c d a op cnt s) rfl

/-- Every instruction of general registers alone runs a body that puts some value into Gd. -/
theorem regOnly_run {i : Instr} {c : CoreId} {d : GReg} (h : RegOnly i c d) (s : State) :
    ∃ v : State → Word, exec i s = .next (run c i .none (fun t => putG c d (v t) t) s) := by
  cases h with
  | three r hr c d a b => exact ⟨_, exec_three r hr c d a b s⟩
  | two r hr c d a => exact ⟨_, exec_two r hr c d a s⟩
  | imm r hr c d a m => exact ⟨_, exec_imm r hr c d a m s⟩
  | lui c d m => exact ⟨_, exec_lui c d m s⟩
  | shi c d a op cnt => exact ⟨_, exec_shi c d a op cnt s⟩

end Sys2Proof.IntegerInstructions

/-! What an instruction of general registers leaves as it was. -/
namespace Sys2Proof.RegisterFrame
open Sys2Proof.Machine Stated CoreFrame HardwareLoop Issued IntegerInstructions

/-- `l` is the core `k` with its general registers, its pc and what it holds of an instruction and of a loop perhaps changed. -/
structure Kept (k l : Core) : Prop where
  f : l.f = k.f
  sr : l.sr = k.sr
  lvl : l.lvl = k.lvl
  sbuf : l.sbuf = k.sbuf
  stPend : l.stPend = k.stPend
  fpTrap : l.fpTrap = k.fpTrap
  hold : l.hold = k.hold

theorem Kept.refl (k : Core) : Kept k k := ⟨rfl, rfl, rfl, rfl, rfl, rfl, rfl⟩

theorem Kept.trans {k l m : Core} (h : Kept k l) (h' : Kept l m) : Kept k m :=
  ⟨h'.f.trans h.f, h'.sr.trans h.sr, h'.lvl.trans h.lvl, h'.sbuf.trans h.sbuf, h'.stPend.trans h.stPend, h'.fpTrap.trans h.fpTrap, h'.hold.trans h.hold⟩

/-- `t` is `s` with core `c` alone changed, and that within `Kept`. -/
structure KeptAt (c : CoreId) (s t : State) : Prop where
  only : OnlyCore c s t
  core : Kept (s.core c) (t.core c)

theorem KeptAt.refl (c : CoreId) (s : State) : KeptAt c s s := ⟨.refl c s, .refl _⟩

theorem KeptAt.trans {c : CoreId} {s t u : State} (h : KeptAt c s t) (h' : KeptAt c t u) : KeptAt c s u := ⟨h.only.trans h'.only, h.core.trans h'.core⟩

section Steps
variable {c : CoreId} {s : State}

theorem keptAt_modCore {g : Core → Core} (h : Kept (s.core c) (g (s.core c))) : KeptAt c s (s.modCore c g) := ⟨.modCore g, by rwa [core_modCore_self]⟩

theorem keptAt_setG (r : GReg) (v : Word) : KeptAt c s (s.setG c r v) := by
  unfold State.setG
  split
  · exact .refl c s
  · split
    · exact keptAt_modCore ⟨rfl, rfl, rfl, rfl, rfl, rfl, rfl⟩
    · exact keptAt_modCore ⟨rfl, rfl, rfl, rfl, rfl, rfl, rfl⟩

theorem keptAt_setPc (v : Word) : KeptAt c s (s.setPc c v) := keptAt_modCore ⟨rfl, rfl, rfl, rfl, rfl, rfl, rfl⟩

theorem keptAt_unstall : KeptAt c s (unstall c s) := keptAt_modCore ⟨rfl, rfl, rfl, rfl, rfl, rfl, rfl⟩

theorem keptAt_loopCapture : KeptAt c s (loopCapture c s) := by
  obtain ⟨l, b, e⟩ := loopCapture_eq c s
  rw [e]
  exact keptAt_modCore ⟨rfl, rfl, rfl, rfl, rfl, rfl, rfl⟩

theorem keptAt_loopBack : KeptAt c s (loopBack c s) := by
  by_cases h : s.g c (counter s c) - 1 = 0
  · rw [loopBack_over h]
    exact ((keptAt_setG _ _).trans (keptAt_setPc _)).trans (keptAt_modCore ⟨rfl, rfl, rfl, rfl, rfl, rfl, rfl⟩)
  · rw [loopBack_again h]
    exact ((keptAt_setG _ _).trans (keptAt_setPc _)).trans keptAt_loopCapture

theorem keptAt_done_next : KeptAt c s (Done c .next s) := by
  by_cases h : atLend s c = true
  · rw [done_next_lend h]
    exact keptAt_unstall.trans keptAt_loopBack
  · rw [done_next_away (Bool.eq_false_iff.mpr h)]
    exact keptAt_unstall.trans (keptAt_setPc _)

theorem g_loopBack_ne {q : GReg} (h : q ≠ counter s c) : (loopBack c s).g c q = s.g c q := by
  by_cases h0 : s.g c (counter s c) - 1 = 0
  · rw [loopBack_over h0, g_modCore (by rfl) (by rfl) (by rfl), g_setPc, g_setG_ne s c _ h]
  · rw [loopBack_again h0, g_loopCapture, g_setPc, g_setG_ne s c _ h]

/-- A general register stays but, at LEND, the loop's counter. -/
theorem g_done_next {q : GReg} (h : atLend s c = true → q ≠ counter s c) : (Done c .next s).g c q = s.g c q := by
  by_cases hl : atLend s c = true
  · rw [done_next_lend hl, g_loopBack_ne (by rw [counter, srf_unstall]; exact h hl), g_unstall]
  · rw [done_next_away (Bool.eq_false_iff.mpr hl), g_setPc, g_unstall]

end Steps

/-- A write of a general register does not move a loop's end. -/
theorem atLend_setG (s : State) (c : CoreId) (d : GReg) (v : Word) : atLend (s.setG c d v) c = atLend s c := by
  unfold atLend loopOn
  rw [sr_setG, sr_setG, pc_setG]

theorem counter_setG (s : State) (c : CoreId) (d : GReg) (v : Word) : counter (s.setG c d v) c = counter s c := by
  unfold counter State.srf
  rw [sr_setG]

/-- Settles O5: the body writes one general register, and its retirement moves the pc and the loop. -/
theorem registerInstructionsFrame : Obligations.RegisterInstructionsFrame := by
  unfold Obligations.RegisterInstructionsFrame
  intro i c d s s1 t hreg hissues hexec
  obtain ⟨v, hrun⟩ := regOnly_run hreg s
  have ht : t = Done c .next (s1.setG c d (v s1)) := Host.Outcome.next.inj (hexec.symm.trans (exec_next hissues hrun rfl))
  have hkept : KeptAt c s1 t := ht ▸ (keptAt_setG d (v s1)).trans keptAt_done_next
  obtain ⟨honly, hf, hsr, hlvl, hsbuf, hst, hfp, hhold⟩ := hkept
  refine ⟨honly.rest, honly.byte, honly.reg, honly.others, fun q => ?_, fun n => ?_, hlvl, hsbuf, hst, hfp, hhold, fun q hq hcounter => ?_⟩
  · rw [State.f, hf]
    rfl
  · rw [State.sr, hsr]
    rfl
  · rw [ht, g_done_next (by rw [atLend_setG, counter_setG]; exact hcounter), g_setG_ne s1 c _ hq]

end Sys2Proof.RegisterFrame

/-! Entries and returns: what each writes, and what it leaves (R224 to R232, R319). -/
namespace Sys2Proof.Entries
open Sys2Proof.Machine Stated HoldWindow CoreFrame

/-! ### The previous level and switch of a level -/

theorem fld_of_putFld {w : Word} {hi lo b x : Nat} {v : Bool} (h : hi < 32 ∧ hi < b) : fld (putBit (putFld w hi lo x) b v) hi lo = x % 2 ^ (hi + 1 - lo) := by
  rw [fld_putBit_out _ _ (.inl h.2), fld_putFld_self _ _ h.1]

section SetPrev
variable {c : CoreId} {s : State}

@[simp] theorem sr_setPrev_ne (t : Level) (p : Nat) (b : Bool) {n : Nat} (h : n ≠ 0x101) : (setPrev c t p b s).sr c n = s.sr c n := sr_setSr_ne s c _ h

theorem onlyCore_setPrev {t : Level} {p : Nat} {b : Bool} : OnlyCore c s (setPrev c t p b s) := .setSr _ _

theorem sr_setPrev_m (p : Nat) (b : Bool) : (setPrev c .m p b s).sr c 0x101 = putBit (putFld (s.sr c 0x101) 13 12 p) 17 b := sr_setSr_self ..

theorem sr_setPrev_s (p : Nat) (b : Bool) : (setPrev c .s p b s).sr c 0x101 = putBit (putFld (s.sr c 0x101) 8 8 p) 16 b := sr_setSr_self ..

/-- The M half of the word of previous levels after a write, and the S half beside it. -/
theorem setPrev_m (p : Nat) (b : Bool) :
    fld ((setPrev c .m p b s).sr c 0x101) 13 12 = p % 4 ∧ wbit ((setPrev c .m p b s).sr c 0x101) 17 = b ∧
      fld ((setPrev c .m p b s).sr c 0x101) 8 8 = fld (s.sr c 0x101) 8 8 := by
  rw [sr_setPrev_m]
  exact ⟨fld_of_putFld (by decide), wbit_putBit_self _ _ (by decide),
    by rw [fld_putBit_out _ _ (by decide), fld_putFld_out _ _ (by decide)]⟩

theorem setPrev_s (p : Nat) (b : Bool) :
    fld ((setPrev c .s p b s).sr c 0x101) 8 8 = p % 2 ∧ wbit ((setPrev c .s p b s).sr c 0x101) 16 = b ∧
      fld ((setPrev c .s p b s).sr c 0x101) 13 12 = fld (s.sr c 0x101) 13 12 := by
  rw [sr_setPrev_s]
  exact ⟨fld_of_putFld (by decide), wbit_putBit_self _ _ (by decide),
    by rw [fld_putBit_out _ _ (by decide), fld_putFld_out _ _ (by decide)]⟩

end SetPrev

/-! ### Returns -/

/-- The state in which a return has restored the stack pointer that was switched. -/
def unswitched (c : CoreId) (t : Level) (s : State) : State := if prevSwitched s c t then s.setG c (gno 30) (s.sr c (srGsp t)) else s

section Return
variable {c : CoreId} {t : Level} {s : State}

theorem sr_unswitched (n : Nat) : (unswitched c t s).sr c n = s.sr c n := by
  unfold unswitched
  split
  · exact sr_setG ..
  · rfl

theorem f_unswitched (q : FReg) : (unswitched c t s).f c q = s.f c q := by
  unfold unswitched
  split
  · exact f_setG ..
  · rfl

theorem g_unswitched_ne {q : GReg} (h : q ≠ gno 30) : (unswitched c t s).g c q = s.g c q := by
  unfold unswitched
  split
  · exact g_setG_ne s c _ h
  · rfl

theorem g30_unswitched : (unswitched c t s).g c (gno 30) = if prevSwitched s c t then s.sr c (srGsp t) else s.g c (gno 30) := by
  unfold unswitched
  split
  · exact g_setG_self ..
  · rfl

/-- The level that a return of an application core goes to. -/
def levelBefore (t : Level) (s : State) (c : CoreId) : Level := Level.ofCode (if t = .m then s.srf c 0x101 13 12 else s.srf c 0x101 8 8)

theorem prevLevel_app (hc : c ≠ siCore) : prevLevel s c t = levelBefore t s c := by
  unfold prevLevel levelBefore
  dsimp only
  rw [if_neg]
  simp [isSI, hc]

/-- A return outside the shadow bank: the stack pointer, the level, the pc and the word of previous levels. -/
theorem returnFrom_app (hc : c ≠ siCore) (hfb : wbit (s.sr c 0x143) (fbBit t) = false) :
    returnFrom c t s = setPrev c t 0 false (((unswitched c t s).modCore c fun k => { k with lvl := levelBefore t s c }).setPc c (s.sr c (srRpc t))) := by
  have hlevel : prevLevel (unswitched c t s) c t = levelBefore t s c := by
    rw [prevLevel_app hc]
    unfold levelBefore State.srf
    rw [sr_unswitched]
  have hbank (u : State) (h : u.sr c 0x143 = s.sr c 0x143) : bankLeave c t u = u := by
    unfold bankLeave
    dsimp only
    rw [h, hfb]
    rfl
  unfold returnFrom
  dsimp only
  rw [← unswitched, hlevel, hbank, sr_modCore_of_sr_eq (by rfl), sr_unswitched]
  rw [sr_modCore_of_sr_eq (by rfl), sr_unswitched]

end Return

/-- Settles O27: outside the shadow bank a return is a write of G30 perhaps, of the level, of the pc and of the word of previous levels. -/
theorem exceptionReturn : Obligations.ExceptionReturn := by
  unfold Obligations.ExceptionReturn
  rintro c t s u hc hu hfb - rfl
  rw [returnFrom_app hc hfb]
  generalize hv : ((unswitched c t s).modCore c fun k => { k with lvl := levelBefore t s c }).setPc c (s.sr c (srRpc t)) = v
  have hsr (n : Nat) : v.sr c n = s.sr c n := by
    rw [← hv, sr_setPc, sr_modCore_of_sr_eq (by rfl), sr_unswitched]
  have hg (q : GReg) : (setPrev c t 0 false v).g c q = (unswitched c t s).g c q := by
    rw [setPrev, g_setSr (by decide), ← hv, g_setPc, g_modCore (by rfl) (by rfl) (by rfl)]
  have honly : OnlyCore c s (setPrev c t 0 false v) := by
    have hswitch : OnlyCore c s (unswitched c t s) := .ite (.setG _ _) (.refl c s)
    rw [← hv]
    exact ((hswitch.trans (.modCore _)).trans (.setPc _)).trans onlyCore_setPrev
  refine ⟨?_, ?_, ?_, fun ht => ?_, fun ht => ?_, fun q hq => ?_, fun q => ?_, fun n hn => ?_, honly.reg, honly.byte, honly.others⟩
  · rw [setPrev, pc_setSr, ← hv, pc_setPc_self]
  · rw [setPrev, lvl_setSr, ← hv, lvl_setPc, State.lvl, core_modCore_self]
    rfl
  · rw [hg]
    exact g30_unswitched
  · subst ht
    rw [← hsr 0x101]
    exact setPrev_m 0 false
  · subst ht
    rw [← hsr 0x101]
    exact setPrev_s 0 false
  · rw [hg, g_unswitched_ne hq]
  · rw [setPrev, f_setSr, ← hv, f_setPc, f_modCore (by rfl), f_unswitched]
  · rw [sr_setPrev_ne _ _ _ hn, hsr]

/-! ### Entries -/

section Abandon
variable {c : CoreId} {s : State}

theorem core_walksAbandon (n : Nat) (i : CoreId) (s : State) : (walksAbandon n s).core i = s.core i := rfl

/-- What the core holds of an instruction is given up; its registers are not touched. -/
theorem core_abandonStall (c : CoreId) (s : State) :
    (abandonStall c s).core c = { (s.core c).idle with waiting := false, lbuf := [], lcap := none, fblk := none } := by
  unfold abandonStall
  dsimp only
  rw [core_walksAbandon, core_modCore_self]
  rfl

theorem core_abandonStall_ne {i : CoreId} (h : i ≠ c) : (abandonStall c s).core i = s.core i := by
  unfold abandonStall
  dsimp only
  rw [core_walksAbandon, core_modCore_ne _ _ h]
  rfl

@[simp] theorem reg_abandonStall (a : Nat) : (abandonStall c s).reg a = s.reg a := rfl

@[simp] theorem byte_abandonStall (a : Nat) : (abandonStall c s).byte a = s.byte a := rfl

@[simp] theorem sr_abandonStall (n : Nat) : (abandonStall c s).sr c n = s.sr c n := by
  rw [State.sr, core_abandonStall]
  rfl

@[simp] theorem g_abandonStall (q : GReg) : (abandonStall c s).g c q = s.g c q := by
  unfold State.g State.shadow
  rw [sr_abandonStall, core_abandonStall]
  rfl

@[simp] theorem f_abandonStall (q : FReg) : (abandonStall c s).f c q = s.f c q := by
  unfold State.f
  rw [core_abandonStall]
  rfl

end Abandon

/-- The window of an entry that no window is to start before. -/
theorem entryWindow_eq {c : CoreId} {n : Nat} {s : State} (h : (s.core c).entWin = none) :
    entryWindow c n s = s.modCore c fun k => { k with entWin := some (n, (s.core c).hold != 0) } :=
  modCore_congr (by simp only [h])

/-- An entry's window changes that alone. -/
theorem entryWindow_shape (c : CoreId) (n : Nat) (s : State) : ∃ w, entryWindow c n s = s.modCore c fun k => { k with entWin := w } :=
  ⟨_, modCore_congr rfl⟩

/-- A window that is to start does so when the first instruction is fetched. -/
theorem hold_fetchDone {c : CoreId} {w : Word} {s : State} {n : Nat} {b : Bool} (h : (s.core c).entWin = some (n, b)) :
    ((fetchDone c w s).core c).hold = if b then Nat.min (s.core c).hold n else n := by
  unfold fetchDone windowStarts
  dsimp only
  rw [core_modCore_self, core_modCore_self]
  simp only [h]

section Entry
variable {c : CoreId} {t : Level} {code info : Nat} {v rpc handler : Word} {hold : Nat} {s : State}

/-- The registers of an entry's report. -/
def reported (c : CoreId) (t : Level) (code info : Nat) (v rpc : Word) (s : State) : State :=
  ((s.setSr c (srRpc t) rpc).setSr c (srRsn t) (BitVec.ofNat 32 (info * 65536 + code))).setSr c (srFval t) v

/-- An entry other than INT_F with its fault value given. -/
theorem commitEntry_eq (hcode : code ≠ 0x21) (hinfo : info < 65536) :
    commitEntry c t code info (some v) rpc handler hold s = (entryWindow c hold (abandonStall c
      ((setPrev c t (s.lvl c).code false (reported c t code info v rpc s)).modCore c fun k => { k with lvl := t }))).setPc c handler := by
  unfold commitEntry
  dsimp only
  rw [if_neg (show ¬ code = cINT_F from hcode), Nat.mod_eq_of_lt hinfo, lvl_setSr, lvl_setSr, lvl_setSr]
  rfl

theorem onlyCore_reported : OnlyCore c s (reported c t code info v rpc s) := ((OnlyCore.setSr _ _).trans (.setSr _ _)).trans (.setSr _ _)

theorem sr_reported_ne {n : Nat} (h1 : n ≠ srRpc t) (h2 : n ≠ srRsn t) (h3 : n ≠ srFval t) : (reported c t code info v rpc s).sr c n = s.sr c n := by
  rw [reported, sr_setSr_ne _ _ _ h3, sr_setSr_ne _ _ _ h2, sr_setSr_ne _ _ _ h1]

theorem sr_reported_fval : (reported c t code info v rpc s).sr c (srFval t) = v := sr_setSr_self ..

theorem sr_reported_rsn : (reported c t code info v rpc s).sr c (srRsn t) = BitVec.ofNat 32 (info * 65536 + code) := by
  rw [reported, sr_setSr_ne _ _ _ (by cases t <;> decide), sr_setSr_self]

theorem sr_reported_rpc : (reported c t code info v rpc s).sr c (srRpc t) = rpc := by
  rw [reported, sr_setSr_ne _ _ _ (by cases t <;> decide), sr_setSr_ne _ _ _ (by cases t <;> decide), sr_setSr_self]

theorem g_reported (q : GReg) : (reported c t code info v rpc s).g c q = s.g c q := by
  rw [reported, g_setSr (by cases t <;> decide), g_setSr (by cases t <;> decide), g_setSr (by cases t <;> decide)]

end Entry

theorem hold_setSr {c : CoreId} {s : State} (n : Nat) (v : Word) : ((s.setSr c n v).core c).hold = (s.core c).hold := by
  rw [State.setSr, core_modCore_self]

theorem entWin_setSr {c : CoreId} {s : State} (n : Nat) (v : Word) : ((s.setSr c n v).core c).entWin = (s.core c).entWin := by
  rw [State.setSr, core_modCore_self]

/-- Settles O26: an entry is a report in the registers of its level, a change of level and pc, and nothing of an instruction left. -/
theorem exceptionEntry : Obligations.ExceptionEntry := by
  unfold Obligations.ExceptionEntry
  intro c t code info v rpc handler hold s u ht _ hcode hinfo hu
  rw [commitEntry_eq hcode hinfo] at hu
  generalize hr : reported c t code info v rpc s = r at hu
  generalize hp : setPrev c t (s.lvl c).code false r = p at hu
  generalize hl : p.modCore c (fun k => { k with lvl := t }) = l at hu
  generalize ha : abandonStall c l = a at hu
  obtain ⟨w, hw⟩ := entryWindow_shape c hold a
  have honly : OnlyCore c s l := by
    rw [← hl, ← hp, ← hr]
    exact (onlyCore_reported.trans onlyCore_setPrev).trans (.modCore _)
  have hcore : a.core c = { (l.core c).idle with waiting := false, lbuf := [], lcap := none, fblk := none } := by
    rw [← ha, core_abandonStall]
  have hsetPrev (n : Nat) (h : n ≠ 0x101) : p.sr c n = r.sr c n := by
    rw [← hp, sr_setPrev_ne t _ _ h]
  have hsr (n : Nat) : u.sr c n = p.sr c n := by
    rw [hu, sr_setPc, hw, sr_modCore_of_sr_eq (by rfl), ← ha, sr_abandonStall, ← hl, sr_modCore_of_sr_eq (by rfl)]
  have hprev : r.sr c 0x101 = s.sr c 0x101 := by
    rw [← hr, sr_reported_ne (by cases t <;> decide) (by cases t <;> decide) (by cases t <;> decide)]
  have hhold : (a.core c).hold = (s.core c).hold ∧ (a.core c).entWin = (s.core c).entWin := by
    rw [hcore, ← hl, core_modCore_self, ← hp, ← hr]
    exact ⟨(hold_setSr _ _).trans ((hold_setSr _ _).trans ((hold_setSr _ _).trans (hold_setSr _ _))),
      (entWin_setSr _ _).trans ((entWin_setSr _ _).trans ((entWin_setSr _ _).trans (entWin_setSr _ _)))⟩
  obtain ⟨hhold, hent⟩ := hhold
  have hafter : OnlyCore c a u := by
    rw [hu, hw]
    exact (OnlyCore.modCore _).trans (.setPc _)
  refine ⟨?_, ?_, ?_, fun h => ?_, fun h => ?_, ?_, ?_, ?_, fun h w => ?_, ?_, ?_, fun q => ?_, fun q => ?_, fun n h1 h2 h3 h4 => ?_, fun x => ?_,
    fun x => ?_, fun i hi => ?_⟩
  · rw [hsr, hsetPrev _ (by cases t <;> decide), ← hr, sr_reported_rpc]
  · rw [hsr, hsetPrev _ (by cases t <;> decide), ← hr, sr_reported_rsn]
  · rw [hsr, hsetPrev _ (by cases t <;> decide), ← hr, sr_reported_fval]
  · subst h
    rw [hsr, ← hp, ← hprev]
    obtain ⟨h1, h2, h3⟩ := setPrev_m (c := c) (s := r) (s.lvl c).code false
    exact ⟨h1.trans (by cases s.lvl c <;> rfl), h2, h3⟩
  · subst h
    rw [hsr, ← hp, ← hprev]
    exact setPrev_s _ false
  · rw [hu, lvl_setPc, hw, lvl_modCore (by rfl), State.lvl, hcore, ← hl, core_modCore_self]
    rfl
  · rw [hu, pc_setPc_self]
  · rw [hu, hold_setPc, hw, core_modCore_self, hhold]
  · rw [hold_fetchDone (n := hold) (b := (s.core c).hold != 0)]
    · rw [hu, hold_setPc, hw, core_modCore_self, hhold]
      by_cases h0 : (s.core c).hold = 0 <;> simp [h0]
    · rw [hu, entryWindow_eq (hent.trans h), State.setPc, core_modCore_self, core_modCore_self, hhold]
  · rw [hu, State.setPc, core_modCore_self, hw, core_modCore_self, hcore]
    rfl
  · rw [hu, State.setPc, core_modCore_self, hw, core_modCore_self, hcore]
  · rw [hu, g_setPc, hw, g_modCore (by rfl) (by rfl) (by rfl), ← ha, g_abandonStall, ← hl, g_modCore (by rfl) (by rfl) (by rfl), ← hp, setPrev,
      g_setSr (by decide), ← hr, g_reported]
  · rw [hu, f_setPc, hw, f_modCore (by rfl), ← ha, f_abandonStall, ← hl, f_modCore (by rfl), ← hp, setPrev, f_setSr, ← hr, reported, f_setSr, f_setSr, f_setSr]
  · rw [hsr, hsetPrev n h4, ← hr, sr_reported_ne h1 h2 h3]
  · rw [hafter.reg, ← ha, reg_abandonStall, honly.reg]
  · rw [hafter.byte, ← ha, byte_abandonStall, honly.byte]
  · rw [hafter.others i hi, ← ha, core_abandonStall_ne hi, honly.others i hi]

end Sys2Proof.Entries

/-! What is taken at a boundary where nothing of an instruction is left (R225, R226, R232). -/
namespace Sys2Proof.Taken
open Sys2Proof.Machine Stated HoldWindow CoreFrame Entries

/-- A change that leaves the core is none. -/
theorem modCore_eq_self {s : State} {c : CoreId} {f : Core → Core} (h : f (s.core c) = s.core c) : s.modCore c f = s := by
  unfold State.modCore
  rw [h]
  simp [State.setCore, State.core]

section Boundary
variable {c : CoreId} {s : State}

theorem loopSettle_none (h : (s.core c).loopDone = false) : loopSettle c s = s := by
  unfold loopSettle
  rw [h]
  rfl

/-- With no store, no loop end and no access of an instruction, an attempt begins in the very state. -/
theorem attempt_of_quiet (h : Quiet c s) : attempt c s = s := by
  obtain ⟨-, -, hnacc, -, hsbuf, -, hloop⟩ := h
  rw [attempt, loopSettle_none hloop, drain_nil c s hsbuf]
  refine modCore_eq_self ?_
  rw [← hnacc]

theorem atBoundaryTake_of_quiet {p : State → Bool} {t : State} (h : Quiet c s) (hp : p s = true) (hb : boundary c s = some (.entered t)) :
    atBoundaryTake c p s = t := by
  obtain ⟨halive, hstall, -⟩ := id h
  have hat : atBoundary s c = true := by simp [atBoundary, hstall]
  unfold atBoundaryTake
  dsimp only
  rw [attempt_of_quiet h, halive, hat, hp, hb]
  rfl

end Boundary

/-! ### The registers of any entry -/

section Commit
variable {c : CoreId} {t : Level} {code info : Nat} {v : Option Word} {rpc handler : Word} {hold : Nat} {s : State}

/-- The state in which an entry has drawn its fault value where it is given none. -/
def faultValue (v : Option Word) (s : State) : Word × State :=
  match v with
  | some x => (x, s)
  | none => (Config.noFval s.draw.1, s.draw.2)

/-- The state with the reason, level and bank of an entry. -/
def banked (c : CoreId) (t : Level) (code plvl : Nat) (s : State) : State :=
  if code = cINT_F then bankEnter c t (setPrev c t plvl false s) else setPrev c t plvl false s

theorem sr_banked {n p : Nat} (h1 : n ≠ 0x101) (h2 : n ≠ 0x143) : (banked c t code p s).sr c n = s.sr c n := by
  unfold banked
  split
  · rw [bankEnter, sr_setSr_ne _ _ _ h2, sr_setPrev_ne _ _ _ h1]
  · rw [sr_setPrev_ne _ _ _ h1]

theorem commitEntry_banked : commitEntry c t code info v rpc handler hold s = (entryWindow c hold (abandonStall c
    ((banked c t code (((reported c t code (info % 65536) (faultValue v s).1 rpc (faultValue v s).2).lvl c).code)
      (reported c t code (info % 65536) (faultValue v s).1 rpc (faultValue v s).2)).modCore c fun k => { k with lvl := t }))).setPc c handler := by
  cases v <;> rfl

/-- An entry leaves the core at its level. -/
theorem lvl_commitEntry : (commitEntry c t code info v rpc handler hold s).lvl c = t := by
  obtain ⟨w, hw⟩ := entryWindow_shape c hold (abandonStall c ((banked c t code
    (((reported c t code (info % 65536) (faultValue v s).1 rpc (faultValue v s).2).lvl c).code)
    (reported c t code (info % 65536) (faultValue v s).1 rpc (faultValue v s).2)).modCore c fun k => { k with lvl := t }))
  rw [commitEntry_banked, lvl_setPc, hw, lvl_modCore (by rfl), State.lvl, core_abandonStall, core_modCore_self]
  rfl

/-- An entry's reason holds its code. -/
theorem reason_commitEntry (h : code < 64) : (commitEntry c t code info v rpc handler hold s).srf c (srRsn t) 5 0 = code := by
  obtain ⟨w, hw⟩ := entryWindow_shape c hold (abandonStall c ((banked c t code
    (((reported c t code (info % 65536) (faultValue v s).1 rpc (faultValue v s).2).lvl c).code)
    (reported c t code (info % 65536) (faultValue v s).1 rpc (faultValue v s).2)).modCore c fun k => { k with lvl := t }))
  unfold State.srf
  rw [commitEntry_banked, sr_setPc, hw, sr_modCore_of_sr_eq (by rfl), sr_abandonStall, sr_modCore_of_sr_eq (by rfl),
    sr_banked (by cases t <;> decide) (by cases t <;> decide), sr_reported_rsn]
  simp only [fld, nfld, BitVec.toNat_ofNat]
  omega

end Commit

/-! ### Entries at M -/

section EnterM
variable {c : CoreId} {code info : Nat} {v : Option Word} {rpc errRpc : Word} {s s1 : State} {e : VecEntry}

/-- An entry to M of a core whose stores have gone, by a usable entry of its table. -/
theorem enterM_usable (hsbuf : (s.core c).sbuf = []) (hdrained : drained s c = true) (hpend : (s.core c).stPend = false) (hcode : code ≠ cSTORE_ERR)
    (hvec : vecEntry c .m code s = (some e, s1)) (hok : e.ok = true) (hhandler : e.handler ≠ 0) :
    enterM c code info v none rpc errRpc s = .entered (commitEntry c .m code info v rpc e.handler e.hold s1) := by
  unfold enterM
  dsimp only
  rw [drain_nil c s hsbuf, hdrained, hpend]
  simp [hcode, hvec, hok]
  exact fun h => absurd h hhandler

/-- The entry of a pending store error. -/
theorem enterM_storeErr (hsbuf : (s.core c).sbuf = []) (hdrained : drained s c = true) (hpend : (s.core c).stPend = true)
    (hvec : vecEntry c .m cSTORE_ERR s = (some e, s1)) (hok : e.ok = true) (hhandler : e.handler ≠ 0) :
    enterM c code info v none rpc errRpc s =
      .entered (commitEntry c .m cSTORE_ERR 0 (some (s1.sr c 0x107)) errRpc e.handler e.hold (s1.modCore c fun k => { k with stPend := false })) := by
  unfold enterM
  dsimp only
  rw [drain_nil c s hsbuf, hdrained, hpend]
  simp [hvec, hok]
  exact fun h => absurd h hhandler

/-- A cause that no delegation applies to is taken at M. -/
theorem causeLevel_m {code : Nat} {s2 : Bool} {b : Nat} (hb : b = if code = cINT_N then 30 else if code = cINT_F then 31 else code)
    (h : wbit (s.sr c 0x103) b = false ∨ s.lvl c = .m) : causeLevel s c code s2 = .m := by
  unfold causeLevel
  dsimp only
  rw [← hb]
  obtain h | h := h <;> simp [h]

end EnterM

section Interrupts
variable {c : CoreId} {s : State}

theorem enterInt_n (h : Quiet c s) (hpend : (s.core c).stPend = false) (hdeleg : wbit (s.sr c 0x103) 30 = false ∨ s.lvl c = .m)
    (hok : (s.core c).vecMN.ok = true) (hhandler : (s.core c).vecMN.handler ≠ 0) :
    enterInt c 0 s = .entered ((commitEntry c .m 0x20 0 none (s.pc c) (s.core c).vecMN.handler (s.core c).vecMN.hold s).modCore c
      fun k => { k with entN := intLine s c 0 }) := by
  obtain ⟨-, -, -, -, hsbuf, hdrained, -⟩ := h
  have henter : enter c ⟨cINT_N, 0, none, none⟩ (s.pc c) (s.pc c) s =
      .entered (commitEntry c .m 0x20 0 none (s.pc c) (s.core c).vecMN.handler (s.core c).vecMN.hold s) := by
    rw [enter, if_neg (by rw [causeLevel_m (by rfl) hdeleg]; decide)]
    exact enterM_usable hsbuf hdrained hpend (by decide) (by rfl) hok hhandler
  simp only [enterInt, if_true, henter, lvl_commitEntry, reason_commitEntry (show (0x20 : Nat) < 64 by decide)]
  rfl

theorem enterInt_f (h : Quiet c s) (hpend : (s.core c).stPend = false) (hdeleg : wbit (s.sr c 0x103) 31 = false ∨ s.lvl c = .m)
    (hok : (s.core c).vecMF.ok = true) (hhandler : (s.core c).vecMF.handler ≠ 0) :
    enterInt c 1 s = .entered ((commitEntry c .m 0x21 0 none (s.pc c) (s.core c).vecMF.handler (s.core c).vecMF.hold s).modCore c
      fun k => { k with entF := intLine s c 1 }) := by
  obtain ⟨-, -, -, -, hsbuf, hdrained, -⟩ := h
  have henter : enter c ⟨cINT_F, 0, none, none⟩ (s.pc c) (s.pc c) s =
      .entered (commitEntry c .m 0x21 0 none (s.pc c) (s.core c).vecMF.handler (s.core c).vecMF.hold s) := by
    rw [enter, if_neg (by rw [causeLevel_m (by rfl) hdeleg]; decide)]
    exact enterM_usable hsbuf hdrained hpend (by decide) (by rfl) hok hhandler
  simp only [enterInt, Nat.one_ne_zero, if_false, henter, lvl_commitEntry, reason_commitEntry (show (0x21 : Nat) < 64 by decide)]
  rfl

/-- The state in which a pending trap has given its instruction and flags to the registers. -/
def trapReported (c : CoreId) (a : Word) (fl : Nat) (s : State) : State :=
  ((s.setSr c 0x011 a).setSrf c 0x010 20 16 fl).modCore c fun k => { k with fpTrap := none }

theorem core_trapReported {a : Word} {fl : Nat} : ∃ m, (trapReported c a fl s).core c = { s.core c with sr := m, fpTrap := none } := by
  unfold trapReported State.setSrf State.setSr
  rw [modCore_modCore, modCore_modCore, core_modCore_self]
  exact ⟨_, rfl⟩

theorem causeLevel_trapReported {a : Word} {fl code : Nat} {b : Bool} : causeLevel (trapReported c a fl s) c code b = causeLevel s c code b := by
  unfold causeLevel trapReported State.setSrf
  rw [lvl_modCore (by rfl), lvl_setSr, lvl_setSr, sr_modCore_of_sr_eq (by rfl), sr_setSr_ne _ _ _ (by decide), sr_setSr_ne _ _ _ (by decide)]

theorem enterFptrap_usable {a : Word} {fl : Nat} {e : VecEntry} {s2 : State} (h : Quiet c s) (hpend : (s.core c).stPend = false)
    (htrap : (s.core c).fpTrap = some (a, fl)) (hlevel : causeLevel s c 0x13 false = .m)
    (hvec : vecEntry c .m 0x13 (trapReported c a fl s) = (some e, s2)) (hok : e.ok = true) (hhandler : e.handler ≠ 0) :
    enterFptrap c s = .entered (commitEntry c .m 0x13 0 (some a) (s.pc c) e.handler e.hold s2) := by
  obtain ⟨-, -, -, -, hsbuf, hdrained, -⟩ := h
  obtain ⟨m, hcore⟩ := core_trapReported (c := c) (s := s) (a := a) (fl := fl)
  have houtst : (trapReported c a fl s).outst = s.outst := rfl
  have henter : enter c (.plain cFPTRAP a) (s.pc c) (s.pc c) (trapReported c a fl s) =
      .entered (commitEntry c .m 0x13 0 (some a) (s.pc c) e.handler e.hold s2) := by
    rw [enter, if_neg (by rw [causeLevel_trapReported]; exact fun h => by cases hlevel.symm.trans h)]
    exact enterM_usable (by rw [hcore]; exact hsbuf) (by rw [drained, hcore, houtst]; exact hdrained) (by rw [hcore]; exact hpend)
      (show cFPTRAP ≠ cSTORE_ERR by decide) hvec hok hhandler
  unfold enterFptrap
  rw [htrap]
  dsimp only
  rw [← trapReported, henter]
  dsimp only
  rw [lvl_commitEntry, reason_commitEntry (by decide)]
  rfl

end Interrupts

/-- Settles O28: each of the seven is taken in the very state, and its entry is the one that its cause's table entry names. -/
theorem interruptsAndTrapsEnter : Obligations.InterruptsAndTrapsEnter := by
  unfold Obligations.InterruptsAndTrapsEnter
  refine ⟨fun c s hq hpend htrap hn hf hdeleg hok hh => ?_, fun c s hq hpend htrap hf hdeleg hok hh => ?_, fun c s s1 v hq hpend hvec hok hh => ?_,
    fun c s s1 s2 a fl v hq hpend htrap hlevel hs1 hvec hok hh => ?_, fun c s hpwr => ?_, fun c s hpwr hon hkeep hdet hidle => ?_, fun c s hpwr hwake => ?_⟩
  · refine congrArg Host.Outcome.next (atBoundaryTake_of_quiet hq (by simp [noTrap, hpend, htrap, hn, hf]) ?_)
    simp only [boundary, hpend, htrap, hf, hn, enterInt_n hq hpend hdeleg hok hh]
    rfl
  · refine congrArg Host.Outcome.next (atBoundaryTake_of_quiet hq (by simp [noTrap, hpend, htrap, hf]) ?_)
    simp only [boundary, hpend, htrap, hf, enterInt_f hq hpend hdeleg hok hh]
    rfl
  · obtain ⟨-, -, -, -, hsbuf, hdrained, -⟩ := id hq
    refine congrArg Host.Outcome.next (atBoundaryTake_of_quiet hq hpend ?_)
    rw [boundary, if_pos hpend, enterM_storeErr hsbuf hdrained hpend hvec hok hh]
    rfl
  · subst hs1
    refine congrArg Host.Outcome.next (atBoundaryTake_of_quiet hq (by simp [hpend, htrap]) ?_)
    rw [boundary, if_neg (by simp [hpend]), if_pos (by simp [htrap]), enterFptrap_usable hq hpend htrap hlevel hvec hok hh]
  · exact congrArg Host.Outcome.next (if_pos hpwr)
  · refine congrArg Host.Outcome.next ((if_pos hpwr).trans ?_)
    exact if_pos (by simp only [State.srf] at hidle; simp [hon, hkeep, hdet, hidle])
  · exact congrArg Host.Outcome.next ((if_pos hpwr).trans (if_pos hwake))

end Sys2Proof.Taken

/-! Loads and stores of one register (R201). -/
namespace Sys2Proof.LoadsAndStores
open Sys2Proof.Machine Stated Issued

/-- What each load of a general register runs. -/
theorem exec_load : ∀ r ∈ loadRows, ∀ (c : CoreId) (d a : GReg) (m : BitVec 16) (s : State), exec (r.1 c d a m) s = .next (run c (r.1 c d a m) .none
    (fun t => (loadAt c (t.g c a + m.signExtend 32) r.2.1 t).bind fun b t1 => putG c d (r.2.2 (leNat b)) t1) s) := by
  iterate 5 refine List.forall_mem_cons.mpr ⟨fun _ _ _ _ _ => rfl, ?_⟩
  exact List.forall_mem_nil _

/-- What each load of a floating-point register runs. -/
theorem exec_fpLoad : ∀ r ∈ fpLoadRows, ∀ (c : CoreId) (d : FReg) (a : GReg) (m : BitVec 16) (s : State),
    exec (r.1 c d a m) s = .next (run c (r.1 c d a m) .none
      (fun t => (loadAt c (t.g c a + m.signExtend 32) r.2 t).bind fun b t1 => putF c d (BitVec.ofNat 64 (leNat b)) t1) s) := by
  iterate 2 refine List.forall_mem_cons.mpr ⟨fun _ _ _ _ _ => rfl, ?_⟩
  exact List.forall_mem_nil _

/-- What each store of a general register runs. -/
theorem exec_store : ∀ r ∈ storeRows, ∀ (c : CoreId) (d a : GReg) (m : BitVec 16) (s : State), exec (r.1 c d a m) s = .next (run c (r.1 c d a m) .none
    (fun t => (storeAt c (t.g c a + m.signExtend 32) (leBytes r.2 (t.g c d).toNat) t).bind fun _ t1 => .ok .next t1) s) := by
  iterate 3 refine List.forall_mem_cons.mpr ⟨fun _ _ _ _ _ => rfl, ?_⟩
  exact List.forall_mem_nil _

/-- What each store of a floating-point register runs. -/
theorem exec_fpStore : ∀ r ∈ fpStoreRows, ∀ (c : CoreId) (d : FReg) (a : GReg) (m : BitVec 16) (s : State),
    exec (r.1 c d a m) s = .next (run c (r.1 c d a m) .none
      (fun t => (storeAt c (t.g c a + m.signExtend 32) (leBytes r.2 (t.f c d).toNat) t).bind fun _ t1 => .ok .next t1) s) := by
  iterate 2 refine List.forall_mem_cons.mpr ⟨fun _ _ _ _ _ => rfl, ?_⟩
  exact List.forall_mem_nil _

/-- Settles O6: each outcome of the access is the outcome of the load's body. -/
theorem loadsComplete : Obligations.LoadsComplete := by
  unfold Obligations.LoadsComplete
  refine ⟨fun r hr c d a m s s1 h => ⟨fun b s2 e => ?_, fun x s2 e => ?_, fun s2 e => ?_⟩,
    fun r hr c d a m s s1 h => ⟨fun b s2 e => ?_, fun x s2 e => ?_, fun s2 e => ?_⟩⟩
  · exact exec_next h (exec_load r hr c d a m s) (by rw [e]; rfl)
  · exact exec_taken h (exec_load r hr c d a m s) (by rw [e]; rfl)
  · exact exec_stalled h (exec_load r hr c d a m s) (by rw [e]; rfl)
  · exact exec_next h (exec_fpLoad r hr c d a m s) (by rw [e]; rfl)
  · exact exec_taken h (exec_fpLoad r hr c d a m s) (by rw [e]; rfl)
  · exact exec_stalled h (exec_fpLoad r hr c d a m s) (by rw [e]; rfl)

/-- Settles O7: each outcome of the access is the outcome of the store's body. -/
theorem storesComplete : Obligations.StoresComplete := by
  unfold Obligations.StoresComplete
  refine ⟨fun r hr c d a m s s1 h => ⟨fun s2 e => ?_, fun x s2 e => ?_⟩, fun r hr c d a m s s1 h => ⟨fun s2 e => ?_, fun x s2 e => ?_⟩⟩
  · exact exec_next h (exec_store r hr c d a m s) (by rw [e]; rfl)
  · exact exec_taken h (exec_store r hr c d a m s) (by rw [e]; rfl)
  · exact exec_next h (exec_fpStore r hr c d a m s) (by rw [e]; rfl)
  · exact exec_taken h (exec_fpStore r hr c d a m s) (by rw [e]; rfl)

end Sys2Proof.LoadsAndStores

/-! The Safety Island's instructions at work in its own SRAM (R404, R406). -/
namespace Sys2Proof.IslandSram
open Sys2Proof.Machine Stated HoldWindow CoreFrame RegisterFrame LoadsAndStores Taken

/-- What is done for a list of one is done once. -/
theorem forAll_one {α β : Type} {f : α → State → Acc β} {a : α} {b : β} {s t : State} (h : f a s = .ok b t) : Acc.forAll f [a] s = .ok [b] t := by
  show (f a s).bind _ = _
  rw [h]
  rfl

/-- A core with what it holds of the accesses of its instruction replaced. -/
def noting (tr : List (Nat × Nat × AccKind × List Piece)) (rsp : List LinkRsp) (n : Nat) (k : Core) : Core := { k with tr := tr, rsp := rsp, nacc := n }

/-- The state in which an access of the Safety Island finds nothing of an earlier one in its way. -/
structure Clear (s : State) : Prop where
  sbuf : (s.core siCore).sbuf = []
  await : (s.core siCore).await = none
  outst : s.outst = []
  port : ∀ wr pa n, mayIssue s s.xacts 4 wr pa n = true
  good : s.rb MIU_STEST 24 = false

/-- The accesses of an instruction that have been answered have all been used. -/
def Current (s : State) : Prop := (s.core siCore).rsp[(s.core siCore).nacc]? = none

/-- What waits at the targets depends on the cores' waits. -/
theorem waitsAt_modCore {s : State} {c : CoreId} {f : Core → Core} (h : (f (s.core c)).waits = (s.core c).waits) : waitsAt (s.modCore c f) = waitsAt s := by
  have hmap : (s.cores.set c (f (s.core c))).map Core.waits = s.cores.map Core.waits := by
    apply Vector.ext
    intro i hi
    by_cases hc : c.val = i
    · subst hc
      simpa [State.core] using h
    · simp [hc]
  have hlist := congrArg Vector.toList hmap
  rw [Vector.toList_map, Vector.toList_map] at hlist
  unfold waitsAt
  rw [List.flatMap_def, List.flatMap_def]
  exact congrArg (fun l => s.held ++ List.flatten l) hlist

theorem mayIssue_modCore {s : State} {c : CoreId} {f : Core → Core} (h : (f (s.core c)).waits = (s.core c).waits) (older : List Xact) (m : Nat) (wr : Bool)
    (pa n : Nat) : mayIssue (s.modCore c f) older m wr pa n = mayIssue s older m wr pa n := by
  unfold mayIssue xactCount inWay
  rw [waitsAt_modCore h]
  rfl

theorem Clear.modCore {s : State} (h : Clear s) {f : Core → Core} (hbuf : (f (s.core siCore)).sbuf = (s.core siCore).sbuf)
    (hawait : (f (s.core siCore)).await = (s.core siCore).await) : Clear (s.modCore siCore f) where
  sbuf := by rw [core_modCore_self, hbuf, h.sbuf]
  await := by rw [core_modCore_self, hawait, h.await]
  outst := h.outst
  port wr pa n := (mayIssue_modCore (by rw [Core.waits, Core.waits, hbuf, hawait]) _ _ _ _ _).trans (h.port wr pa n)
  good := h.good

/-- `t` is `s` but for what the pair holds of its instruction's accesses, all of which have been used. -/
def Noted (s t : State) : Prop := ∃ tr rsp n, t = s.modCore siCore (noting tr rsp n) ∧ rsp[n]? = none

theorem Noted.trans {s t u : State} (h : Noted s t) (h' : Noted t u) : Noted s u := by
  obtain ⟨_, _, _, rfl, -⟩ := h
  obtain ⟨tr, rsp, n, rfl, hn⟩ := h'
  exact ⟨tr, rsp, n, modCore_modCore .., hn⟩

theorem Noted.clear {s t : State} (h : Noted s t) (hs : Clear s) : Clear t := by
  obtain ⟨_, _, _, rfl, -⟩ := h
  exact hs.modCore (by rfl) (by rfl)

theorem Noted.current {s t : State} (h : Noted s t) : Current t := by
  obtain ⟨_, _, _, rfl, hn⟩ := h
  unfold Current
  rw [core_modCore_self]
  exact hn

theorem Noted.only {s t : State} (h : Noted s t) : OnlyCore siCore s t := by
  obtain ⟨_, _, _, rfl, -⟩ := h
  exact .modCore _

section Access
variable {s t : State} {pa n : Nat}

/-- With nothing awaited the port's access is what its target makes of it. -/
theorem coreGate_clear (h : Clear s) {x : Xact} {go : State → BusRes × State} (hx : x.m = 4) {r : Resp} {b : List Byte} (hgo : go s = (.done r b, t)) :
    coreGate siCore x go s = (.done r b, t) := by
  have hsame : (s.modCore siCore fun k => { k with await := none }) = s := modCore_eq_self (by rw [← h.await])
  unfold coreGate
  dsimp only
  rw [hsame, hx, h.port, Bool.or_true, if_pos rfl, hgo]

/-- A read of the core reads the bytes of SI SRAM as they stand. -/
theorem coreRead_clear (h : Clear s) (h1 : 0x30000000 ≤ pa) (h2 : pa < 0x30200000) (hcode : ∀ k, k < n → s.wrong (pa + k) = 0) :
    coreRead siCore 4 pa n s = (.done rOKAY ((List.range n).map fun i => s.byte (pa + i)), s) := by
  obtain ⟨htarget, hsram, hreach, -⟩ := si_target s pa h1 h2
  unfold coreRead
  dsimp only
  rw [coreGate_clear (s := s) (t := s) h rfl (r := rOKAY) (b := (List.range n).map fun i => s.byte (pa + i))]
  · rfl
  · simp [readIssued, targetRead, htarget, hsram, hreach, h.good, siRead_good s pa n hcode, xbmLogged, rOKAY, rDECODE, rTARGET]

/-- The state in which an answer is noted. -/
def noted (pa n : Nat) (r : Resp) (b : List Byte) (t : State) : State :=
  t.modCore siCore (noting (t.core siCore).tr ((t.core siCore).rsp ++ [⟨pa, n, r, b⟩]) ((t.core siCore).nacc + 1))

theorem noted_noted {r : Resp} {b : List Byte} (h : Current t) : Noted t (noted pa n r b t) := by
  refine ⟨_, _, _, rfl, ?_⟩
  have hlen := List.getElem?_eq_none_iff.mp h
  rw [List.getElem?_eq_none_iff, List.length_append, List.length_singleton]
  omega

/-- An access that none of the instruction's earlier answers is for is made, and its answer noted. -/
theorem access_current (h : Clear s) (hc : Current s) {go : State → BusRes × State} {r : Resp} {b : List Byte} (hgo : go s = (.done r b, t))
    (hawait : (t.core siCore).await = none) : access siCore pa n go s = (.done r b, noted pa n r b t) := by
  unfold access
  dsimp only
  rw [show (s.core siCore).rsp[(s.core siCore).nacc]? = none from hc]
  simp only [h.outst, List.any_nil, h.await, Option.map_none, hgo]
  exact congrArg (Prod.mk _) (modCore_congr (by rw [noting, hawait]))

/-- A read of a piece of SI SRAM. -/
theorem pieceFill_clear (h : Clear s) {p : Piece} (h1 : 0x30000000 ≤ p.pa) (h2 : p.pa < 0x30200000) (hcode : ∀ k, k < p.len → s.wrong (p.pa + k) = 0) :
    pieceFill siCore p s = (.done rOKAY ((List.range p.len).map fun i => s.byte (p.pa + i)), s) := by
  have hport : corePort s siCore p.cached = 4 := rfl
  have hspan : fillSpan s siCore p = (p.pa, p.len) := by
    unfold fillSpan
    rw [hport]
    rfl
  unfold pieceFill
  dsimp only
  rw [hspan, hport, coreRead_clear h h1 h2 hcode]
  simp [List.take_of_length_le]

/-- With an empty store buffer nothing is forwarded. -/
theorem forwarded_clear (h : Clear s) (go : State → BusRes × State) : forwarded siCore pa n go s = go s := by
  unfold forwarded
  dsimp only
  rw [drain_nil siCore s h.sbuf, h.sbuf]
  rfl

end Access

/-! ### Fetching -/

section Fetch
variable {s : State}

theorem loopOld_none (h : (s.core siCore).lold = []) (pa : Nat) (b : List Byte) : loopOld s siCore pa b = b := by
  unfold loopOld
  rw [h]
  split
  · exact List.map_snd_zip (by simp)
  · rfl

/-- The piece of an aligned access of SI SRAM. -/
def sramPiece (va n : Nat) : Piece := ⟨va, n, true, false, va⟩

/-- The translation of an access of SI SRAM is noted. -/
theorem transPieces_si {va n : Nat} {k : AccKind} (hrsp : (s.core siCore).rsp = []) (h1 : 0x30000000 ≤ va) (h2 : va < 0x30200000) (hn : n ≤ 64) :
    ∃ u, transPieces siCore va n k false s = .ok [sramPiece va n] u ∧ Noted s u := by
  rw [transPieces_fresh _ _ _ _ _ _ hrsp, si_fresh s _ _ _ h1 h2 hn]
  exact ⟨_, rfl, _, [], (s.core siCore).nacc, modCore_congr (by rw [noting, hrsp]), rfl⟩

theorem clear_of_issues (h : SiIssues s) : Clear s := by
  obtain ⟨-, -, -, hawait, -, -⟩ := h.fresh
  exact ⟨h.empty, hawait, h.none_out, h.port, h.good⟩

/-- The fetch of the word at the pc notes its translation and its answer, and changes nothing else. -/
theorem fetchWord_si (h : SiIssues s) : ∃ u, fetchWord siCore s = .ok (siWord s) u ∧ Noted s u := by
  obtain ⟨-, -, hnacc, hawait, hlbuf, hlold⟩ := h.fresh
  obtain ⟨h1, h2⟩ := h.placed
  have h3 : (s.pc siCore).toNat < 0x30200000 := by omega
  have hword : loopWord s siCore = none := by
    unfold loopWord
    rw [hlbuf]
    split
    · rfl
    · rfl
  have hmis : ((s.pc siCore).toNat % 4 != 0) = false := by simp [h.aligned]
  obtain ⟨u, htrans, hu⟩ := transPieces_si (k := .fetch) h.unanswered h1 h3 (show 4 ≤ 64 by decide)
  have hclear := hu.clear (clear_of_issues h)
  have hfill := pieceFill_clear hclear (p := sramPiece (s.pc siCore).toNat 4) h1 h3 fun k hk => (hu.only.wrong _).trans (h.codes k hk)
  have hread := access_current (pa := (s.pc siCore).toNat) (n := 4) hclear hu.current hfill hclear.await
  generalize hnoted : noted (s.pc siCore).toNat 4 _ _ u = v at hread
  have hv : Noted u v := hnoted ▸ noted_noted hu.current
  have hpiece : fetchPiece siCore (sramPiece (s.pc siCore).toNat 4) u = .ok ((List.range 4).map fun i => s.byte ((s.pc siCore).toNat + i)) v := by
    have hsram : isSiSram (sramPiece (s.pc siCore).toNat 4).pa = true := (si_target s _ h1 h3).2.1
    unfold fetchPiece
    rw [if_neg (by simp [hsram])]
    dsimp only [sramPiece] at hread ⊢
    rw [hread]
    simp only [hu.only.byte]
    rfl
  have hsv := hu.trans hv
  have hold : (v.core siCore).lold = [] := by
    obtain ⟨_, _, _, rfl, -⟩ := hsv
    rw [core_modCore_self]
    exact hlold
  refine ⟨v, ?_, hsv⟩
  unfold fetchWord
  rw [hword]
  dsimp only
  rw [hmis, htrans]
  show (Acc.forAll _ _ _).bind _ = _
  rw [forAll_one (by rw [hpiece]; rfl)]
  simp only [Acc.bind, loopOld_none hold]
  simp [siWord]

/-- What a fetch notes is gone once it is done. -/
theorem fetchDone_noted {u : State} (h : Noted s u) (w : Word) : fetchDone siCore w u = fetchDone siCore w s := by
  obtain ⟨tr, rsp, n, rfl, -⟩ := h
  have hsr (k : Nat) : (s.modCore siCore (noting tr rsp n)).sr siCore k = s.sr siCore k := sr_modCore (by rfl) siCore k
  have hpc : (s.modCore siCore (noting tr rsp n)).pc siCore = s.pc siCore := pc_modCore (by rfl) siCore
  unfold fetchDone loopOn inBody
  simp only [hsr, hpc, modCore_modCore]
  rfl

/-- The state in which the effect of an instruction of the Safety Island begins is `s` but for what the pair holds of it. -/
theorem issues_si (h : SiIssues s) (i : Instr) : Issues siCore i .none s (fetchDone siCore (siWord s) s) := by
  obtain ⟨hstall, hfetched, hnacc, -⟩ := id h.fresh
  obtain ⟨hpend, htrap, hn, hf⟩ := h.calm
  obtain ⟨u, hword, hu⟩ := fetchWord_si h
  have hattempt : attempt siCore s = s := by
    rw [attempt, loopSettle_none h.settled, drain_nil siCore s h.empty]
    exact modCore_eq_self (by rw [← hnacc])
  have hboundary : boundary siCore s = none := by simp [boundary, hpend, htrap, hn, hf]
  have hgo : fetched siCore i s = .go (fetchDone siCore (siWord s) s) := by
    unfold fetched
    rw [hfetched, hword]
    simp [h.word, fetchDone_noted hu]
  unfold Issues prelude_
  dsimp only
  rw [h.runs, hstall, hattempt, hboundary, ite_self, hgo]
  rfl

/-- What the pass in progress has captured once the word at the pc is fetched. -/
def captured (c : CoreId) (w : Word) (s : State) : Option (List (Word × Word)) :=
  if loopOn s c && inBody s c (s.pc c) then (s.core c).lcap.map fun l => l ++ [(s.pc c, w)] else (s.core c).lcap

/-- A fetch that is done drops what the core holds of accesses, and may open a window. -/
theorem fetchDone_eq (c : CoreId) (w : Word) (s : State) : ∃ l n e, fetchDone c w s =
    s.modCore c fun k => { k with fetched := true, rsp := [], nacc := 0, tr := [], lcap := l, hold := n, entWin := e } := by
  unfold fetchDone windowStarts
  dsimp only
  rw [modCore_modCore]
  rcases hent : (s.core c).entWin with - | ⟨n, b⟩
  · refine ⟨captured c w s, (s.core c).hold, none, modCore_congr ?_⟩
    simp only [hent]
    rfl
  · refine ⟨captured c w s, if b then Nat.min (s.core c).hold n else n, none, modCore_congr ?_⟩
    simp only [hent]
    rfl

theorem onlyCore_fetchDone (c : CoreId) (w : Word) (s : State) : OnlyCore c s (fetchDone c w s) := by
  obtain ⟨l, n, e, h⟩ := fetchDone_eq c w s
  rw [h]
  exact .modCore _

theorem g_fetchDone (c : CoreId) (w : Word) (s : State) (q : GReg) : (fetchDone c w s).g c q = s.g c q := by
  obtain ⟨l, n, e, h⟩ := fetchDone_eq c w s
  rw [h, g_modCore (by rfl) (by rfl) (by rfl)]

end Fetch

/-- Settles O8: the fetch is one access of SI SRAM that is answered at once, and what it notes is dropped when the instruction begins. -/
theorem safetyIslandIssues : Obligations.SafetyIslandIssues := by
  unfold Obligations.SafetyIslandIssues
  intro i s h
  have honly := onlyCore_fetchDone siCore (siWord s) s
  exact ⟨issues_si h i, honly.reg, honly.byte, honly.others, g_fetchDone siCore (siWord s) s⟩

/-! ### Loads -/

section Load
variable {s : State}

theorem clear_fetchDone (h : Clear s) (w : Word) : Clear (fetchDone siCore w s) ∧ Current (fetchDone siCore w s) ∧ ((fetchDone siCore w s).core siCore).rsp = [] := by
  obtain ⟨l, n, e, heq⟩ := fetchDone_eq siCore w s
  have hrsp : ((fetchDone siCore w s).core siCore).rsp = [] := by rw [heq, core_modCore_self]
  refine ⟨?_, ?_, hrsp⟩
  · rw [heq]
    exact h.modCore (by rfl) (by rfl)
  · unfold Current
    rw [hrsp]
    rfl

/-- A load at an aligned address of SI SRAM gets the bytes that stand there. -/
theorem loadAt_si {a : Word} {n : Nat} (h : Clear s) (hrsp : (s.core siCore).rsp = []) (halign : a.toNat % n = 0) (h1 : 0x30000000 ≤ a.toNat)
    (h2 : a.toNat < 0x30200000) (hn : n ≤ 64) (hcode : ∀ k, k < n → s.wrong (a.toNat + k) = 0) :
    ∃ u, loadAt siCore a n s = .ok ((List.range n).map fun i => s.byte (a.toNat + i)) u ∧ Noted s u := by
  obtain ⟨u, htrans, hu⟩ := transPieces_si (k := .load) hrsp h1 h2 hn
  have hclear := hu.clear h
  have hfill := pieceFill_clear hclear (p := sramPiece a.toNat n) h1 h2 fun k hk => (hu.only.wrong _).trans (hcode k hk)
  have hread := access_current (pa := a.toNat) (n := n) hclear hu.current ((forwarded_clear (pa := a.toNat) (n := n) hclear _).trans hfill) hclear.await
  generalize hnoted : noted a.toNat n _ _ u = v at hread
  have hv : Noted u v := hnoted ▸ noted_noted hu.current
  have hpiece : pieceLoad siCore (sramPiece a.toNat n) u = .ok (sramPiece a.toNat n, rOKAY, (List.range n).map fun i => s.byte (a.toNat + i)) v := by
    unfold pieceLoad
    dsimp only [sramPiece] at hread ⊢
    rw [hread]
    simp only [hu.only.byte]
  refine ⟨v, ?_, hu.trans hv⟩
  unfold loadAt
  rw [show (a.toNat % n != 0) = false by simp [halign], htrans]
  simp only [Acc.bind, loadPieces, forAll_one hpiece]
  simp [rOKAY, rECC]

/-- What an access notes is gone with the end of its instruction. -/
theorem done_setG_noted {u : State} (h : Noted s u) (d : GReg) (v : Word) : unstall siCore (u.setG siCore d v) = unstall siCore (s.setG siCore d v) := by
  obtain ⟨tr, rsp, n, rfl, -⟩ := h
  have hshadow : (s.modCore siCore (noting tr rsp n)).shadow siCore = s.shadow siCore := by
    unfold State.shadow
    rw [sr_modCore (by rfl)]
  unfold State.setG
  rw [hshadow]
  split
  · rw [unstall, modCore_modCore]
    rfl
  · split
    · simp only [unstall, modCore_modCore]
      rfl
    · simp only [unstall, modCore_modCore]
      rfl

end Load

theorem leNat_four (a b c d : Byte) : leNat [a, b, c, d] = a.toNat + 256 * b.toNat + 65536 * c.toNat + 16777216 * d.toNat := by
  simp only [leNat]
  omega

/-- Settles O9: the load's one access of SI SRAM is answered at once by the bytes there. -/
theorem safetyIslandLoadsSiSram : Obligations.SafetyIslandLoadsSiSram := by
  unfold Obligations.SafetyIslandLoadsSiSram
  intro d a m s h halign h1 h2 hcode
  have honly := onlyCore_fetchDone siCore (siWord s) s
  obtain ⟨hclear, -, hrsp⟩ := clear_fetchDone (clear_of_issues h) (siWord s)
  obtain ⟨u, hload, hu⟩ := loadAt_si (a := effAddr s siCore a m) (n := 4) hclear hrsp halign h1 (by omega) (by decide)
    fun k hk => (honly.wrong _).trans (hcode k hk)
  have hexec : exec (.ldw siCore d a m) s = .next (Done siCore .next ((fetchDone siCore (siWord s) s).setG siCore d
      (BitVec.ofNat 32 (leNat ((List.range 4).map fun i => s.byte ((effAddr s siCore a m).toNat + i)))))) := by
    have hbody := Issued.exec_next (issues_si h _) (exec_load (.ldw, 4, fun x => BitVec.ofNat 32 x) (by simp [loadRows]) siCore d a m s)
      (s2 := u.setG siCore d (BitVec.ofNat 32 (leNat ((List.range 4).map fun i => s.byte ((effAddr s siCore a m).toNat + i)))))
    rw [hbody, Done, done_setG_noted hu, ← Done]
    rw [g_fetchDone]
    dsimp only [effAddr, sext16] at hload ⊢
    rw [hload]
    simp only [honly.byte]
    rfl
  have hkept := (RegisterFrame.keptAt_setG (c := siCore) (s := fetchDone siCore (siWord s) s) d
    (BitVec.ofNat 32 (leNat ((List.range 4).map fun i => s.byte ((effAddr s siCore a m).toNat + i))))).trans keptAt_done_next
  refine ⟨?_, fun t ht => ?_⟩
  · rw [hexec]
    rw [show List.range 4 = [0, 1, 2, 3] from rfl, List.map_cons, List.map_cons, List.map_cons, List.map_cons, List.map_nil, leNat_four]
    rfl
  · rw [hexec] at ht
    cases ht
    exact ⟨(honly.trans hkept.only).byte, (honly.trans hkept.only).reg⟩

/-! ### Stores -/

/-- `t` is `s` with nothing changed but what the pair holds besides its registers. -/
structure SameRegs (s t : State) : Prop where
  only : OnlyCore siCore s t
  g : ∀ q, t.g siCore q = s.g siCore q
  pc : t.pc siCore = s.pc siCore
  sr : ∀ n, t.sr siCore n = s.sr siCore n

theorem SameRegs.trans {s t u : State} (h : SameRegs s t) (h' : SameRegs t u) : SameRegs s u :=
  ⟨h.only.trans h'.only, fun q => (h'.g q).trans (h.g q), h'.pc.trans h.pc, fun n => (h'.sr n).trans (h.sr n)⟩

theorem SameRegs.modCore {s : State} {f : Core → Core} (hg : (f (s.core siCore)).g = (s.core siCore).g) (hgs : (f (s.core siCore)).gs = (s.core siCore).gs)
    (hsr : (f (s.core siCore)).sr = (s.core siCore).sr) (hpc : (f (s.core siCore)).pc = (s.core siCore).pc) : SameRegs s (s.modCore siCore f) :=
  ⟨.modCore f, g_modCore hg hgs (by rw [hsr]) siCore, pc_modCore hpc siCore, sr_modCore hsr siCore⟩

theorem SameRegs.atLend {s t : State} (h : SameRegs s t) : Machine.atLend t siCore = Machine.atLend s siCore := by
  unfold Machine.atLend loopOn
  rw [h.pc, h.sr, h.sr]

theorem Noted.sameRegs {s t : State} (h : Noted s t) : SameRegs s t := by
  obtain ⟨_, _, _, rfl, -⟩ := h
  exact .modCore (by rfl) (by rfl) (by rfl) (by rfl)

section Store
variable {s : State} {pa : Nat} {b : List Byte}

theorem sameRegs_fetchDone (w : Word) : SameRegs s (fetchDone siCore w s) := by
  obtain ⟨l, n, e, h⟩ := fetchDone_eq siCore w s
  rw [h]
  exact .modCore (by rfl) (by rfl) (by rfl) (by rfl)

/-- A store notes for the active loop what it overwrites of the body. -/
theorem loopKeep_eq (n : Nat) : ∃ l, loopKeep siCore pa n s = s.modCore siCore fun k => { k with lold := l } := by
  unfold loopKeep
  dsimp only
  split
  · exact ⟨_, modCore_congr rfl⟩
  · exact ⟨(s.core siCore).lold, (modCore_eq_self rfl).symm⟩

theorem core_storeBytes (a : Nat) (c : CoreId) : (s.storeBytes a b).core c = s.core c := by
  rw [storeBytes_eq]
  rfl

theorem g_storeBytes (a : Nat) (c : CoreId) (q : GReg) : (s.storeBytes a b).g c q = s.g c q := by
  rw [storeBytes_eq]
  rfl

theorem atLend_storeBytes (a : Nat) (c : CoreId) : atLend (s.storeBytes a b) c = atLend s c := by
  rw [storeBytes_eq]
  rfl

/-- A write of the core stores its bytes with good codes. -/
theorem coreWrite_clear (h : Clear s) {p : Piece} (hb : 0 < b.length) (h1 : 0x30000000 ≤ p.pa) (h2 : p.pa + b.length ≤ 0x30200000) :
    coreWrite siCore p b s = (.done rOKAY [], (loopKeep siCore p.pa b.length s).storeBytes p.pa b) := by
  obtain ⟨l, hkeep⟩ := loopKeep_eq (s := s) (pa := p.pa) b.length
  have hclear : Clear (loopKeep siCore p.pa b.length s) := by
    rw [hkeep]
    exact h.modCore (by rfl) (by rfl)
  obtain ⟨htarget, hsram, -, hreach⟩ := si_target (loopKeep siCore p.pa b.length s) p.pa h1 (by omega)
  have herg : isErg p.pa = false := by
    unfold isErg
    simp
    omega
  have htake : b.take (0x30200000 - p.pa) = b := List.take_of_length_le (by omega)
  refine coreGate_clear hclear rfl ?_
  simp [writeIssued, portVLost, herg, corePort, isSI, targetWrite, htarget, hsram, hreach, hclear.good, h2, htake, xbmLogged, rOKAY, rDECODE, rTARGET]

theorem not_isRemote_sram (h : pa < 0x30200000) : isRemote pa = false := by
  unfold isRemote
  simp
  omega

/-- A store at an aligned address of SI SRAM stores its bytes there with good codes. -/
theorem storeAt_si {a : Word} (h : Clear s) (hrsp : (s.core siCore).rsp = []) (halign : a.toNat % b.length = 0) (h1 : 0x30000000 ≤ a.toNat)
    (h2 : a.toNat + b.length ≤ 0x30200000) (hb : 0 < b.length) (hlen : b.length ≤ 64) :
    ∃ t u, storeAt siCore a b s = .ok () u ∧ SameRegs s t ∧ Noted (t.storeBytes a.toNat b) u := by
  have h3 : a.toNat < 0x30200000 := by omega
  let p := sramPiece a.toNat b.length
  obtain ⟨t, htrans, ht⟩ := transPieces_si (k := .store) hrsp h1 h3 hlen
  have hclear := ht.clear h
  have hwrite := coreWrite_clear hclear (p := p) hb h1 h2
  obtain ⟨l, hkeep⟩ := loopKeep_eq (s := t) (pa := a.toNat) b.length
  have hremote : isRemote a.toNat = false := not_isRemote_sram h3
  have hown : ownWindow t a.toNat = false := by
    unfold ownWindow
    rw [hremote]
    rfl
  have hstored : ((loopKeep siCore a.toNat b.length t).storeBytes a.toNat b).core siCore = { t.core siCore with lold := l } := by
    rw [core_storeBytes, hkeep, core_modCore_self]
  have hcur : Current ((loopKeep siCore a.toNat b.length t).storeBytes a.toNat b) := by
    unfold Current
    rw [hstored]
    exact ht.current
  have htogether : writeTogether siCore [(p, b)] t = .ok [] ((loopKeep siCore a.toNat b.length t).storeBytes a.toNat b) := by
    unfold writeTogether writeAll
    rw [hwrite]
    rfl
  have hnear : writeNear siCore [(p, b)] t = .ok [] (noted p.pa 1 rOKAY [] ((loopKeep siCore a.toNat b.length t).storeBytes a.toNat b)) := by
    unfold writeNear
    dsimp only [List.length_singleton]
    rw [access_current (t := (loopKeep siCore a.toNat b.length t).storeBytes a.toNat b) (r := rOKAY) (b := []) hclear ht.current ?_ ?_]
    · rfl
    · rw [htogether]
    · rw [hstored]
      exact hclear.await
  have hbegan : decide ((t.core siCore).nacc < (t.core siCore).rsp.length) = false := by
    have hcurrent := ht.current
    unfold Current at hcurrent
    rw [List.getElem?_eq_none_iff] at hcurrent
    simpa using hcurrent
  have hfine : refusedNow siCore t (p, b) = false := by
    unfold refusedNow
    dsimp only
    rw [show ownWindow t p.pa = false from hown, show isRemote p.pa = false from hremote, hwrite]
    rfl
  have hnow : storeNow siCore [(p, b)] t =
      .ok () (noted p.pa 1 rOKAY [] ((loopKeep siCore a.toNat b.length t).storeBytes a.toNat b)) := by
    unfold storeNow
    dsimp only
    rw [drain_nil siCore t hclear.sbuf, hclear.sbuf]
    have hr : isRemote p.pa = false := hremote
    simp [hbegan, hclear.outst, hfine, hr, writeRemote, Acc.bind, hnear, storeEnds]
  have hregs : SameRegs s (loopKeep siCore a.toNat b.length t) := by
    refine ht.sameRegs.trans ?_
    rw [hkeep]
    exact .modCore (by rfl) (by rfl) (by rfl) (by rfl)
  refine ⟨_, noted p.pa 1 rOKAY [] ((loopKeep siCore a.toNat b.length t).storeBytes a.toNat b), ?_, hregs, noted_noted hcur⟩
  unfold storeAt
  rw [show (a.toNat % b.length != 0) = false by simp [halign], htrans]
  have hbytes : withBytes [p] b = [(p, b)] := by
    exact congrArg (fun l => [(p, l)]) (List.take_length ..)
  show storePieces siCore [p] b t = _
  unfold storePieces
  rw [if_pos (by rfl), hbytes, hnow]

end Store

/-- Settles O10: the store's one access writes its bytes at once, and the end of the instruction touches the pair alone. -/
theorem safetyIslandStoresSiSram : Obligations.SafetyIslandStoresSiSram := by
  unfold Obligations.SafetyIslandStoresSiSram
  intro r hr d a m s h halign h1 h2
  have hsize : 0 < r.2 ∧ r.2 ≤ 64 := by
    simp only [storeRows, List.mem_cons, List.not_mem_nil, or_false] at hr
    obtain rfl | rfl | rfl := hr <;> decide
  obtain ⟨hclear, -, hrsp⟩ := clear_fetchDone (clear_of_issues h) (siWord s)
  have hfetch := sameRegs_fetchDone (s := s) (siWord s)
  generalize hA : effAddr s siCore a m = A at *
  have hlen := leBytes_length r.2 (s.g siCore d).toNat
  obtain ⟨t, u, hstore, ht, hu⟩ := storeAt_si (b := leBytes r.2 (s.g siCore d).toNat) (a := A) hclear hrsp (by rw [hlen]; exact halign) h1
    (by rw [hlen]; exact h2) (by rw [hlen]; exact hsize.1) (by rw [hlen]; exact hsize.2)
  have hst := hfetch.trans ht
  have hcore (c : CoreId) := core_storeBytes (s := t) (b := leBytes r.2 (s.g siCore d).toNat) A.toNat c
  have hend : OnlyCore siCore (t.storeBytes A.toNat (leBytes r.2 (s.g siCore d).toNat)) (Done siCore .next u) := hu.only.trans keptAt_done_next.only
  refine ⟨Done siCore .next u, ?_, fun k hk => ⟨?_, ?_⟩, fun x hx => ⟨?_, ?_⟩, fun x => ?_, fun j hj => ?_, fun q hq => ?_⟩
  · refine Issued.exec_next (issues_si h _) (exec_store r hr siCore d a m s) ?_
    rw [g_fetchDone, g_fetchDone]
    dsimp only [effAddr, sext16] at hA
    rw [hA, hstore]
    rfl
  · rw [hend.byte, storeBytes_byte_in _ _ _ _ (by rw [hlen]; exact hk), leBytes_get _ _ _ hk]
  · rw [hend.wrong, storeBytes_wrong_in _ _ _ _ (by rw [hlen]; exact hk)]
  · rw [hend.byte, storeBytes_byte_out _ _ _ _ (by rw [hlen]; exact hx), hst.only.byte]
  · rw [hend.wrong, storeBytes_wrong_out _ _ _ _ (by rw [hlen]; exact hx), hst.only.wrong]
  · rw [hend.reg, storeBytes_eq, ← hst.only.reg]
    rfl
  · rw [hend.others j hj, hcore, hst.only.others j hj]
  · have hu' := hu.sameRegs
    have hlend : atLend u siCore = false := by rw [hu'.atLend, atLend_storeBytes, hst.atLend, hq]
    rw [g_done_next (by simp [hlend]), hu'.g, g_storeBytes, hst.g]

end Sys2Proof.IslandSram

/-! Exact accumulation, bindings and the queues of contexts (R66 to R69, R112, R114, R144). -/
namespace Sys2Proof.ExactAccumulators
open Sys2Proof.Machine

/-- What a term adds to the sum of an accumulator. -/
def addend (neg : Bool) : Fv → BitVec 4320
  | .nan _ => 0
  | .inf _ => 0
  | .fin n m e => BitVec.ofInt 4320 (fvNum (.fin (n != neg) m e) (-2176))

/-- What a term marks in the specials of an accumulator. -/
def mark (neg : Bool) : Fv → BitVec 3
  | .nan _ => 1
  | .inf n => if n != neg then 4 else 2
  | .fin _ _ _ => 0

theorem eaTake_eq (neg : Bool) (t : Fv) (a : EauAcc) : eaTake neg t a = { a with v := a.v + addend neg t, s := a.s ||| mark neg t } := by
  cases t <;> simp [eaTake, addend, mark]

/-- Two terms can be taken in in either order. -/
theorem eaTake_comm (t u : Bool × Fv) (a : EauAcc) : eaTake u.1 u.2 (eaTake t.1 t.2 a) = eaTake t.1 t.2 (eaTake u.1 u.2 a) := by
  simp only [eaTake_eq]
  congr 1
  · rw [BitVec.add_assoc, BitVec.add_assoc, BitVec.add_comm (addend t.1 t.2)]
  · rw [BitVec.or_assoc, BitVec.or_assoc, BitVec.or_comm (mark t.1 t.2)]

/-- Settles O41: intakes commute, so a permutation of them gives the same accumulator. -/
theorem exactAccumulationIgnoresOrder : Obligations.ExactAccumulationIgnoresOrder := by
  unfold Obligations.ExactAccumulationIgnoresOrder
  intro a l1 l2 h
  have hany {l l' : List (Bool × Fv)} (h : l.Perm l') : l.foldl (fun b t => eaTake t.1 t.2 b) a = l'.foldl (fun b t => eaTake t.1 t.2 b) a :=
    h.foldl_eq' (fun t _ u _ b => eaTake_comm t u b) a
  exact ⟨hany h, hany List.perm_append_comm⟩

end Sys2Proof.ExactAccumulators

namespace Sys2Proof.Bindings
open Sys2Proof.Machine

theorem bindsAddress_inj {x y : Nat} (h : VC_BINDS x = VC_BINDS y) : x = y := by
  unfold VC_BINDS at h
  omega

section Bits
variable {c : Nat} {s : State}

/-- Clearing a bit in the bindings of contexts leaves the other bits. -/
theorem rb_clears_ne {k p : Nat} (h : p ≠ c) (l : List Nat) : (l.foldl (fun t x => t.setRb (VC_BINDS x) c false) s).rb k p = s.rb k p := by
  induction l generalizing s with
  | nil => rfl
  | cons x l ih => rw [List.foldl_cons, ih, rb_setRb_ne _ _ _ _ (.inr h)]

/-- A bit cleared in the bindings of a context stays so. -/
theorem rb_clears_of_false {k : Nat} (hc : c < 32) (h : s.rb k c = false) (l : List Nat) : (l.foldl (fun t x => t.setRb (VC_BINDS x) c false) s).rb k c = false := by
  induction l generalizing s with
  | nil => exact h
  | cons x l ih =>
    refine ih ?_
    by_cases hk : k = VC_BINDS x
    · rw [hk, rb_setRb_self _ _ _ hc]
    · rw [rb_setRb_ne _ _ _ _ (.inl hk), h]

theorem rb_clears_of_mem {y : Nat} (hc : c < 32) (l : List Nat) (h : y ∈ l) : (l.foldl (fun t x => t.setRb (VC_BINDS x) c false) s).rb (VC_BINDS y) c = false := by
  induction l generalizing s with
  | nil => cases h
  | cons x l ih =>
    rw [List.foldl_cons]
    by_cases hy : y ∈ l
    · exact ih hy
    · have hx : y = x := (List.mem_cons.mp h).resolve_right hy
      exact rb_clears_of_false hc (by rw [hx, rb_setRb_self _ _ _ hc]) l

end Bits

section Unbind
variable {c : CoreId} {s : State}

theorem core_lt (c : CoreId) : c.val < 32 := by have := c.isLt; omega

theorem rb_unbind_self {x : Nat} (h : x < 8) : (unbind c s).rb (VC_BINDS x) c.val = false := rb_clears_of_mem (core_lt c) _ (List.mem_range.mpr h)

theorem rb_unbind_ne {k p : Nat} (h : p ≠ c.val) : (unbind c s).rb k p = s.rb k p := rb_clears_ne h _

/-- The context that a core is bound to is the one context with its bit. -/
theorem boundCtx_of_only {x : CtxId} (hx : s.rb (VC_BINDS x) c.val = true) (hother : ∀ y : CtxId, y ≠ x → s.rb (VC_BINDS y) c.val = false) :
    boundCtx s c = some x := by
  have hfind : ((List.range 8).find? fun y => s.rb (VC_BINDS y) c.val) = some x.val := by
    rw [List.find?_eq_some_iff_getElem]
    refine ⟨hx, x.val, by simp, by simp, fun j hj => ?_⟩
    have hj8 : j < 8 := by omega
    have hne : (⟨j, hj8⟩ : CtxId) ≠ x := fun e => by
      rw [← e] at hj
      exact Nat.lt_irrefl _ hj
    simpa using hother ⟨j, hj8⟩ hne
  unfold boundCtx
  rw [hfind]
  exact congrArg some (Fin.ext (Nat.mod_eq_of_lt x.isLt))

theorem boundCtx_of_none (h : ∀ y : CtxId, s.rb (VC_BINDS y) c.val = false) : boundCtx s c = none := by
  unfold boundCtx
  rw [Option.map_eq_none_iff, List.find?_eq_none]
  intro y hy
  simpa using h ⟨y, List.mem_range.mp hy⟩

end Unbind

/-- Settles O36: an unbind clears the core's bit in every context, and the bind sets it in one. -/
theorem bindingsStayExclusive : Obligations.BindingsStayExclusive := by
  unfold Obligations.BindingsStayExclusive
  intro c x s
  have hself : ((unbind c s).setRb (VC_BINDS x) c.val true).rb (VC_BINDS x) c.val = true := rb_setRb_self _ _ _ (core_lt c)
  have hother (y : CtxId) (h : y ≠ x) : ((unbind c s).setRb (VC_BINDS x) c.val true).rb (VC_BINDS y) c.val = false := by
    rw [rb_setRb_ne _ _ _ _ (.inl fun e => h (Fin.ext (bindsAddress_inj e))), rb_unbind_self y.isLt]
  refine ⟨hself, hother, fun y i hi => ?_, boundCtx_of_only hself hother, boundCtx_of_none fun y => rb_unbind_self y.isLt⟩
  have hval : i.val ≠ c.val := fun e => hi (Fin.ext e)
  rw [rb_setRb_ne _ _ _ _ (.inr hval), rb_unbind_ne hval]

end Sys2Proof.Bindings

/-! The queue of a context, and a command carried through (R66 to R69, R134, R138). -/
namespace Sys2Proof.CommandQueue
open Sys2Proof.Machine Stated

section Queue
variable {x : CtxId} {s : State}

/-- A closed group goes behind the others of its context. -/
theorem vc_queueGroup_self (g : Grp) : ((queueGroup x g s).vc x).closed = (s.vc x).closed ++ [g] ∧ ((queueGroup x g s).vc x).opened = (s.vc x).opened := by
  unfold queueGroup headArrives
  dsimp only
  split
  · rw [vc_modVc_self, vc_modVc_self]
    exact ⟨rfl, rfl⟩
  · rw [vc_modVc_self]
    exact ⟨rfl, rfl⟩

theorem vc_queueGroup_ne (g : Grp) {y : CtxId} (h : y ≠ x) : (queueGroup x g s).vc y = s.vc y := by
  unfold queueGroup headArrives
  dsimp only
  split
  · rw [vc_modVc_ne _ _ h, vc_modVc_ne _ _ h]
  · rw [vc_modVc_ne _ _ h]

theorem byte_queueGroup (g : Grp) (a : Nat) : (queueGroup x g s).byte a = s.byte a := by
  unfold queueGroup headArrives
  dsimp only
  split
  · rfl
  · rfl

/-- A command that leaves its group open joins it. -/
theorem queueCmd_open {q : QCmd} (h : nfld q.w.toNat 45 44 < 2) : queueCmd x q s = s.modVc x fun v => { v with opened := (s.vc x).opened ++ [q] } := by
  have hgrp : (vcmdOf q.w).grp = 0 ∨ (vcmdOf q.w).grp = 1 := by
    show nfld q.w.toNat 45 44 = 0 ∨ nfld q.w.toNat 45 44 = 1
    omega
  unfold queueCmd
  exact if_pos hgrp

/-- The group that a command closes. -/
def closedBy (x : CtxId) (q : QCmd) (s : State) : Grp :=
  ⟨(s.vc x).opened ++ [q], closeCount s x ((s.vc x).opened ++ [q]), descWaiters s x ((s.vc x).opened ++ [q])⟩

/-- A command that closes its group queues the group. -/
theorem queueCmd_close {q : QCmd} (h : 2 ≤ nfld q.w.toNat 45 44) :
    queueCmd x q s = queueGroup x (closedBy x q s) (s.modVc x fun v => { v with opened := [] }) := by
  have hgrp : ¬ ((vcmdOf q.w).grp = 0 ∨ (vcmdOf q.w).grp = 1) := by
    show ¬ (nfld q.w.toNat 45 44 = 0 ∨ nfld q.w.toNat 45 44 = 1)
    omega
  unfold queueCmd
  exact if_neg hgrp

/-- The fences of a group are the application cores that wait to write what it names. -/
theorem mem_descWaiters {cmds : List QCmd} {c : CoreId} (h : c ≠ siCore) : c.val ∈ descWaiters s x cmds ↔ waitsForDesc s x cmds c = true := by
  have hlt : c.val < 4 := by
    have hc : c.val ≠ 4 := fun e => h (Fin.ext e)
    have := c.isLt
    omega
  have hcore : coreNo c.val = c := Fin.ext (Nat.mod_eq_of_lt c.isLt)
  simp [descWaiters, hlt, hcore]

end Queue

/-- Settles O33: the command joins the open group, which stays or becomes the last closed one. -/
theorem queuedCommandStandsLast : Obligations.QueuedCommandStandsLast := by
  unfold Obligations.QueuedCommandStandsLast
  intro x q s
  by_cases h : nfld q.w.toNat 45 44 < 2
  · rw [queueCmd_open h]
    refine ⟨?_, fun _ => ?_, fun h2 => absurd h (by omega), fun y hy => vc_modVc_ne _ _ hy, fun a => rfl⟩
    · rw [vc_modVc_self]
      simp [VCtx.queue]
    · rw [vc_modVc_self]
      exact ⟨rfl, rfl⟩
  · rw [queueCmd_close (by omega)]
    obtain ⟨hclosed, hopened⟩ := vc_queueGroup_self (x := x) (s := s.modVc x fun v => { v with opened := [] }) (closedBy x q s)
    rw [vc_modVc_self] at hclosed hopened
    refine ⟨?_, fun h2 => absurd h2 h, fun _ => ⟨hopened, _, hclosed, rfl, fun c hc => mem_descWaiters hc⟩, fun y hy => ?_, fun a => ?_⟩
    · unfold VCtx.queue
      rw [hclosed, hopened]
      simp [closedBy]
    · rw [vc_queueGroup_ne _ hy, vc_modVc_ne _ _ hy]
    · rw [byte_queueGroup]
      rfl

end Sys2Proof.CommandQueue

namespace Sys2Proof.CommandResults
open Sys2Proof.Machine Stated

section Accumulators
variable {s : State}

/-- The state with the accumulators of a list written. -/
def withAccs (l : List (Nat × EauAcc)) (s : State) : State := l.foldl (fun t a => t.setEa a.1 a.2) s

theorem ea_setEa_self {n : Nat} (a : EauAcc) (h : n < 8) : (s.setEa n a).ea n = a := by
  simp [State.ea, State.setEa, Nat.mod_eq_of_lt h, h]

theorem ea_setEa_ne {n m : Nat} (a : EauAcc) (hn : n < 8) (hm : m < 8) (h : m ≠ n) : (s.setEa n a).ea m = s.ea m := by
  simp [State.ea, State.setEa, Nat.mod_eq_of_lt hn, Nat.mod_eq_of_lt hm, hm, h.symm]

/-- Writing accumulators changes nothing else. -/
theorem withAccs_eq (l : List (Nat × EauAcc)) : ∀ s : State, ∃ e, withAccs l s = { s with eau := e } := by
  induction l with
  | nil => exact fun s => ⟨s.eau, rfl⟩
  | cons a l ih =>
    intro s
    obtain ⟨e, he⟩ := ih (s.setEa a.1 a.2)
    exact ⟨e, he⟩

theorem ea_withAccs_ne {l : List (Nat × EauAcc)} {m : Nat} (hm : m < 8) : ∀ {s : State}, (∀ a ∈ l, a.1 < 8) → (∀ a ∈ l, a.1 ≠ m) → (withAccs l s).ea m = s.ea m := by
  induction l with
  | nil => exact fun _ _ => rfl
  | cons a l ih =>
    intro s hl hne
    rw [List.forall_mem_cons] at hl hne
    exact (ih hl.2 hne.2).trans (ea_setEa_ne _ hl.1 hm hne.1.symm)

/-- Accumulators written once each hold what was written. -/
theorem ea_withAccs_mem {l : List (Nat × EauAcc)} : ∀ {s : State}, (∀ a ∈ l, a.1 < 8) → (l.map Prod.fst).Nodup → ∀ a ∈ l, (withAccs l s).ea a.1 = a.2 := by
  induction l with
  | nil => exact fun _ _ a ha => absurd ha List.not_mem_nil
  | cons b l ih =>
    intro s hl hnodup a ha
    rw [List.forall_mem_cons] at hl
    rw [List.map_cons, List.nodup_cons] at hnodup
    obtain rfl | ha := List.mem_cons.mp ha
    · refine (ea_withAccs_ne hl.1 hl.2 fun c hc e => hnodup.1 ?_).trans (ea_setEa_self _ hl.1)
      rw [← e]
      exact List.mem_map_of_mem hc
    · exact ih hl.2 hnodup.2 a ha

end Accumulators

/-- Settles O40: with no destination in memory a command's carrying through writes accumulators and its group's record alone. -/
theorem completedCommandResults : Obligations.CompletedCommandResults := by
  unfold Obligations.CompletedCommandResults
  rintro x run i mask out s t hdst haccs hnodup rfl
  have hcount : fullCount i out = 0 := by
    unfold fullCount
    rcases hd : i.d with - | d
    · rfl
    · exact if_pos (hdst d hd)
  obtain ⟨e, he⟩ := withAccs_eq out.accs s.draw.2
  have hrun : ∃ r, runDone x run run.pos i mask out s = (withAccs out.accs s.draw.2).modVc x (fun v => { v with cur := some r, rsp := [] }) ∧
      r.pos = run.pos + 1 ∧ r.vals = run.vals ++ [out.d.map fun p => p.2.1] ∧ r.ins = run.ins ∧
      r.flags = run.flags ||| flagsOf ((out.d.map fun p => p.2.2) ++ out.intake.map fun p => p.2) ∧ r.wcnt = run.wcnt ++ [0] := by
    unfold runDone
    rcases hd : i.d with - | d
    · simp only [hcount]
      exact ⟨_, rfl, rfl, rfl, rfl, rfl, rfl⟩
    · simp only [hdst d hd, if_true, hcount]
      exact ⟨_, rfl, rfl, rfl, rfl, rfl, rfl⟩
  obtain ⟨r, hrun, hr⟩ := hrun
  rw [hrun]
  refine ⟨fun a => ?_, fun a => ?_, fun c => ?_, ⟨r, ?_, hr⟩, fun a ha => ea_withAccs_mem haccs hnodup a ha,
    fun m hm hne => ea_withAccs_ne hm haccs hne, fun y hy => ?_⟩
  · rw [he]
    rfl
  · rw [he]
    rfl
  · rw [he]
    rfl
  · rw [vc_modVc_self]
  · rw [vc_modVc_ne _ _ hy, he]
    rfl

end Sys2Proof.CommandResults

/-! The end of a group and its report (R106, R109, R110, R161). -/
namespace Sys2Proof.GroupEnds
open Sys2Proof.Machine Stated

/-! ### What signals leave -/

/-- `t` is `s` with no byte of memory changed and no register below those of the interrupt unit. -/
structure KeepsLow (s t : State) : Prop where
  reg : ∀ a, a < 0x20700000 → t.reg a = s.reg a
  byte : ∀ a, t.byte a = s.byte a

namespace KeepsLow
variable {s t u : State}

theorem refl (s : State) : KeepsLow s s := ⟨fun _ _ => rfl, fun _ => rfl⟩

theorem trans (h : KeepsLow s t) (h' : KeepsLow t u) : KeepsLow s u :=
  ⟨fun a ha => (h'.reg a ha).trans (h.reg a ha), fun a => (h'.byte a).trans (h.byte a)⟩

theorem ite {p : Prop} [Decidable p] (ht : p → KeepsLow s t) (hu : ¬ p → KeepsLow s u) : KeepsLow s (if p then t else u) := by
  split
  · exact ht ‹_›
  · exact hu ‹_›

theorem foldl {α : Type} {f : State → α → State} {l : List α} (s : State) (h : ∀ t, ∀ a ∈ l, KeepsLow t (f t a)) : KeepsLow s (l.foldl f s) :=
  List.foldlRecOn l f (.refl s) fun t ht a ha => ht.trans (h t a ha)

theorem setRb {a : Nat} (b : Nat) (v : Bool) (h : 0x20700000 ≤ a) : KeepsLow s (s.setRb a b v) := ⟨fun k hk => reg_setRb_ne s b v (by omega), fun _ => rfl⟩

end KeepsLow

section Signals
variable (s : State)

theorem keepsLow_sicEvent (n : Nat) : KeepsLow s (sicEvent n s) :=
  .ite (fun _ => .refl s) fun _ => .ite (fun _ => .refl s) fun _ => .setRb _ _ (by unfold SIC_SRC; omega)

theorem keepsLow_mirrorEvent (n : Nat) : KeepsLow s (mirrorEvent n s) :=
  .foldl s fun t _ _ => .ite (fun _ => keepsLow_sicEvent t _) fun _ => .refl t

theorem keepsLow_wakeFor (n : Nat) : KeepsLow s (wakeFor n s) :=
  .ite (fun _ => .foldl s fun t _ _ => .ite (fun _ => ⟨fun _ _ => rfl, fun _ => rfl⟩) fun _ => .refl t) fun _ => .refl s

theorem keepsLow_icuAccept (n : Nat) : KeepsLow s (icuAccept n s) :=
  .ite (fun _ => .refl s) fun _ => .ite (fun _ => .setRb _ _ (by unfold ICU_LOST; omega)) fun _ =>
    (KeepsLow.setRb 7 true (by unfold ICU_SRC; omega)).trans (keepsLow_wakeFor _ n)

/-- An event at the interrupt unit stays there, but for the mirrors and the cores that it wakes. -/
theorem keepsLow_icuEvent (n : Nat) : KeepsLow s (icuEvent n s) :=
  .ite (fun _ => .refl s) fun _ => .ite (fun _ => ⟨fun _ _ => rfl, fun _ => rfl⟩) fun _ => .ite (fun _ => .refl s) fun _ =>
    (keepsLow_mirrorEvent s n).trans (keepsLow_icuAccept _ n)

end Signals

/-! ### The parts of a group's end -/

section Parts
variable {x : CtxId} {s : State}

/-- `t` is `s` but for what its contexts hold besides the records that wait in context `x`. -/
structure KeepsRecs (x : CtxId) (s t : State) : Prop where
  reg : ∀ a, t.reg a = s.reg a
  byte : ∀ a, t.byte a = s.byte a
  recs : (t.vc x).recs = (s.vc x).recs

theorem KeepsRecs.trans {s t u : State} (h : KeepsRecs x s t) (h' : KeepsRecs x t u) : KeepsRecs x s u :=
  ⟨fun a => (h'.reg a).trans (h.reg a), fun a => (h'.byte a).trans (h.byte a), h'.recs.trans h.recs⟩

theorem keepsRecs_setVc {v : VCtx} (h : v.recs = (s.vc x).recs) : KeepsRecs x s (s.setVc x v) := ⟨fun _ => rfl, fun _ => rfl, by rw [vc_setVc_self, h]⟩

theorem keepsRecs_headArrives : KeepsRecs x s (headArrives x s) := keepsRecs_setVc rfl

/-- A head that leaves takes no record that waits with it. -/
theorem keepsRecs_headLeaves (ok retain : Bool) : KeepsRecs x s (headLeaves x ok retain s) := by
  unfold headLeaves
  dsimp only
  split
  · exact ⟨fun _ => rfl, fun _ => rfl, rfl⟩
  · split
    · exact keepsRecs_setVc rfl
    · refine KeepsRecs.trans ?_ keepsRecs_headArrives
      exact keepsRecs_setVc rfl

theorem reg_setReg64_ne (lo hi v : Nat) {a : Nat} (h1 : a ≠ lo) (h2 : a ≠ hi) : (s.setReg64 lo hi v).reg a = s.reg a := by
  rw [State.setReg64, reg_setReg_ne _ _ h2, reg_setReg_ne _ _ h1]

/-- The word of VC_FINFO that reports a condition. -/
def faultInfo (c : Cond) : Nat :=
  2 ^ 31 + c.cause % 16 * 2 ^ 24 + c.status * 2 ^ 16 + b2n c.stage * 2 ^ 15 + c.probe % 8 * 2 ^ 12 +
    (if c.stream = 5 then c.isrc * 2 ^ 9 else 0) + c.stream * 2 ^ 6 + c.instr % 8 * 8

/-- The address of a fault is written where the condition has one. -/
def withAddr (lo hi : Nat) (v : Option Nat) (s : State) : State :=
  match v with
  | some a => s.setReg64 lo hi a
  | none => s

theorem reg_withAddr_ne {lo hi : Nat} (v : Option Nat) {a : Nat} (h1 : a ≠ lo) (h2 : a ≠ hi) : (withAddr lo hi v s).reg a = s.reg a := by
  cases v
  · rfl
  · exact reg_setReg64_ne _ _ _ h1 h2

theorem byte_withAddr {lo hi : Nat} (v : Option Nat) (a : Nat) : (withAddr lo hi v s).byte a = s.byte a := by
  cases v <;> rfl

/-- The virtual address of a fault is written where the condition has one. -/
def withVa (x : CtxId) (v : Option Nat) (s : State) : State :=
  match v with
  | some a => s.setReg (VC_FVA x) (BitVec.ofNat 32 a)
  | none => s

theorem reg_withVa_ne (v : Option Nat) {a : Nat} (h : a ≠ VC_FVA x) : (withVa x v s).reg a = s.reg a := by
  cases v
  · rfl
  · exact reg_setReg_ne _ _ h

theorem byte_withVa (v : Option Nat) (a : Nat) : (withVa x v s).byte a = s.byte a := by
  cases v <;> rfl

theorem faultRegs_eq (c : Cond) : faultRegs x c s = withAddr (VC_FPA_LO x) (VC_FPA_HI x) c.pa (withAddr (VC_FIPA_LO x) (VC_FIPA_HI x) c.ipa
    (withVa x c.va ((s.setReg (VC_FINFO x) (BitVec.ofNat 32 (faultInfo c))).setReg (VC_FELEM x) (BitVec.ofNat 32 (c.elem % 2 ^ 21))))) := by
  unfold faultRegs withAddr withVa faultInfo
  cases c.pa <;> cases c.ipa <;> cases c.va <;> rfl

theorem reg_faultRegs_info (c : Cond) : (faultRegs x c s).reg (VC_FINFO x) = BitVec.ofNat 32 (faultInfo c) := by
  rw [faultRegs_eq, reg_withAddr_ne _ (by unfold VC_FINFO VC_FPA_LO; omega) (by unfold VC_FINFO VC_FPA_HI; omega),
    reg_withAddr_ne _ (by unfold VC_FINFO VC_FIPA_LO; omega) (by unfold VC_FINFO VC_FIPA_HI; omega),
    reg_withVa_ne _ (by unfold VC_FINFO VC_FVA; omega), reg_setReg_ne _ _ (by unfold VC_FINFO VC_FELEM; omega), reg_setReg_self]

theorem reg_faultRegs_ne (c : Cond) {a : Nat} (h : a < VC_FINFO x ∨ VC_FPA_HI x < a) : (faultRegs x c s).reg a = s.reg a := by
  unfold VC_FINFO VC_FPA_HI at h
  rw [faultRegs_eq, reg_withAddr_ne _ (by unfold VC_FPA_LO; omega) (by unfold VC_FPA_HI; omega),
    reg_withAddr_ne _ (by unfold VC_FIPA_LO; omega) (by unfold VC_FIPA_HI; omega), reg_withVa_ne _ (by unfold VC_FVA; omega),
    reg_setReg_ne _ _ (by unfold VC_FELEM; omega), reg_setReg_ne _ _ (by unfold VC_FINFO; omega)]

theorem byte_faultRegs (c : Cond) (a : Nat) : (faultRegs x c s).byte a = s.byte a := by
  rw [faultRegs_eq, byte_withAddr, byte_withAddr, byte_withVa, State.setReg_byte_read, State.setReg_byte_read]

theorem vc_faultRegs (c : Cond) (y : CtxId) : (faultRegs x c s).vc y = s.vc y := by
  have hpa (lo hi : Nat) (v : Option Nat) (u : State) : (withAddr lo hi v u).vc y = u.vc y := by cases v <;> rfl
  have hva (v : Option Nat) (u : State) : (withVa x v u).vc y = u.vc y := by cases v <;> rfl
  rw [faultRegs_eq, hpa, hpa, hva, State.setReg_vc_read, State.setReg_vc_read]

/-- A digit of a number that is written out around it. -/
theorem digit_of_sum {x l m n : Nat} (h : Nat) (hx : x < n) (hl : l < m) : ((h * n + x) * m + l) / m % n = x := by
  rw [Nat.mul_comm _ m, Nat.mul_add_div (Nat.lt_of_le_of_lt (Nat.zero_le l) hl), Nat.div_eq_of_lt hl, Nat.add_zero, Nat.mul_comm h, Nat.mul_add_mod,
    Nat.mod_eq_of_lt hx]

theorem wbit_of_digit {w : Word} {k : Nat} {b : Bool} (h : w.toNat / 2 ^ k % 2 = b2n b) : wbit w k = b := by
  rw [wbit, BitVec.getLsbD, Nat.testBit_eq_decide_div_mod_eq, h]
  cases b <;> rfl

theorem fld_of_digit {w : Word} {hi lo x : Nat} (h : w.toNat / 2 ^ lo % 2 ^ (hi + 1 - lo) = x) : fld w hi lo = x := by
  rw [fld, nfld, Nat.shiftRight_eq_div_pow, h]

/-- VC_FINFO below the status. -/
def faultLow (c : Cond) : Nat :=
  b2n c.stage * 2 ^ 15 + c.probe % 8 * 2 ^ 12 + (if c.stream = 5 then c.isrc * 2 ^ 9 else 0) + c.stream * 2 ^ 6 + c.instr % 8 * 8

theorem faultLow_lt {c : Cond} (hstream : c.stream < 8) (hisrc : c.isrc < 8) : faultLow c < 2 ^ 16 := by
  have hisrc' : (if c.stream = 5 then c.isrc * 2 ^ 9 else 0) ≤ 7 * 2 ^ 9 := by
    split
    · omega
    · omega
  have hstage : b2n c.stage ≤ 1 := by cases c.stage <;> decide
  have hprobe := Nat.mod_lt c.probe (show 8 > 0 by decide)
  have hinstr := Nat.mod_lt c.instr (show 8 > 0 by decide)
  unfold faultLow
  generalize c.probe % 8 = p at *
  generalize c.instr % 8 = i at *
  omega

/-- What VC_FINFO reports of a condition. -/
theorem faultInfo_fields {c : Cond} (hstatus : c.status < 16) (hstream : c.stream < 8) (hisrc : c.isrc < 8) :
    wbit (BitVec.ofNat 32 (faultInfo c)) 31 = true ∧ fld (BitVec.ofNat 32 (faultInfo c)) 23 16 = c.status := by
  have hlow := faultLow_lt hstream hisrc
  have hcause := Nat.mod_lt c.cause (show 16 > 0 by decide)
  have hinfo : faultInfo c = 2 ^ 31 + c.cause % 16 * 2 ^ 24 + c.status * 2 ^ 16 + faultLow c := by
    simp only [faultInfo, faultLow, Nat.add_assoc]
  generalize faultLow c = l at *
  generalize c.cause % 16 = k at *
  have hbit : faultInfo c = (0 * 2 + 1) * 2 ^ 31 + (k * 2 ^ 24 + c.status * 2 ^ 16 + l) := by omega
  have hfld : faultInfo c = ((2 ^ 7 + k) * 2 ^ 8 + c.status) * 2 ^ 16 + l := by rw [hinfo]; omega
  have hnat : (BitVec.ofNat 32 (faultInfo c)).toNat = faultInfo c := by
    rw [BitVec.toNat_ofNat, Nat.mod_eq_of_lt (by omega)]
  refine ⟨wbit_of_digit ?_, fld_of_digit ?_⟩
  · rw [hnat, hbit]
    exact digit_of_sum 0 (by decide) (by omega)
  · rw [hnat, hfld]
    exact digit_of_sum _ (by omega) hlow

/-- A completion without a ring: VC_DONE, and then signals. -/
theorem recAfter_low (r : CRec) : ∃ t, KeepsLow (s.setReg (VC_DONE x) (BitVec.ofNat 32 (r.status * 65536 + r.issue % 65536))) t ∧ recAfter x r s = t := by
  refine ⟨_, ?_, rfl⟩
  unfold recAfter
  dsimp only
  refine KeepsLow.ite (fun _ => ?_) fun _ => ?_
  · refine (KeepsLow.foldl _ fun t k _ => keepsLow_icuEvent t _).trans ⟨fun _ _ => rfl, fun _ => rfl⟩
  · exact .foldl _ fun t k _ => keepsLow_icuEvent t _

/-- With the ring off and nothing before it, a record is a completion. -/
theorem recGive_off {r : CRec} (hring : ringLog s x = 0) (hrecs : (s.vc x).recs = []) :
    recGive x r s = ((recAfter x r s).modVc x fun c => { c with recs := [] }).setRb (VC_STAT x) 27 false := by
  unfold recGive
  rw [hrecs, List.nil_append, recFlush, if_pos hring, recFlush]
  rfl

/-- What a report without a ring leaves of the registers below the interrupt unit's. -/
structure Reported (x : CtxId) (r : CRec) (s t : State) : Prop where
  done : t.reg (VC_DONE x) = BitVec.ofNat 32 (r.status * 65536 + r.issue % 65536)
  halt : t.rb (VC_STAT x) 28 = s.rb (VC_STAT x) 28
  reg : ∀ a, a < 0x20700000 → a ≠ VC_DONE x → a ≠ VC_STAT x → t.reg a = s.reg a
  byte : ∀ a, t.byte a = s.byte a

theorem reported_recGive {r : CRec} (hring : ringLog s x = 0) (hrecs : (s.vc x).recs = []) : Reported x r s (recGive x r s) := by
  have hx := x.isLt
  have hdone : VC_DONE x ≠ VC_STAT x := by unfold VC_DONE VC_STAT; omega
  obtain ⟨t, ht, h⟩ := recAfter_low (x := x) (s := s) r
  rw [recGive_off hring hrecs, h]
  refine ⟨?_, ?_, fun a ha h1 h2 => ?_, fun a => ?_⟩
  · rw [reg_setRb_ne _ _ _ hdone, State.modVc_reg_read, ht.reg _ (by unfold VC_DONE; omega), reg_setReg_self]
  · rw [rb_setRb_ne _ _ _ _ (.inr (by decide)), State.modVc_rb_read, State.rb, ht.reg _ (by unfold VC_STAT; omega), ← State.rb,
      rb_setReg_ne _ _ _ hdone.symm]
  · rw [reg_setRb_ne _ _ _ h2, State.modVc_reg_read, ht.reg a ha, reg_setReg_ne _ _ h1]
  · rw [State.setRb_byte_read, State.modVc_byte_read, ht.byte, State.setReg_byte_read]

theorem Reported.low {r : CRec} {s t u : State} (h : Reported x r s t) (hu : KeepsLow t u) : Reported x r s u := by
  have hx := x.isLt
  refine ⟨?_, ?_, fun a ha h1 h2 => (hu.reg a ha).trans (h.reg a ha h1 h2), fun a => (hu.byte a).trans (h.byte a)⟩
  · rw [hu.reg _ (by unfold VC_DONE; omega), h.done]
  · rw [State.rb, hu.reg _ (by unfold VC_STAT; omega), ← State.rb, h.halt]

/-- The ring is off where its size register is as it was. -/
theorem ringLog_of_reg {s t : State} (h : t.reg (VC_CRSIZE x) = s.reg (VC_CRSIZE x)) : ringLog t x = ringLog s x := by
  unfold ringLog State.rf
  rw [h]

end Parts

section End
variable {x : CtxId} {c : Cond} {retain : Bool} {flags energy : Nat} {s : State}

/-- The state in which the head has left a group's context and what it waits for is given up. -/
def left (x : CtxId) (c : Cond) (retain : Bool) (s : State) : State := headLeaves x (c.status == 0) retain (walksAbandon (8 + x.val) (abandonRequests x s))

theorem keepsRecs_left : KeepsRecs x s (left x c retain s) :=
  (show KeepsRecs x s (walksAbandon (8 + x.val) (abandonRequests x s)) from ⟨fun _ => rfl, fun _ => rfl, rfl⟩).trans (keepsRecs_headLeaves _ _)

/-- The state in which a group's end has joined its flags. -/
def joined (x : CtxId) (flags : Nat) (s : State) : State := s.setReg (VSE_FPS x) (s.reg (VSE_FPS x) ||| BitVec.ofNat 32 (flags % 64))

/-- The state in which a failure is in the fault registers and the context halted. -/
def failed (x : CtxId) (c : Cond) (s : State) : State := faultRegs x c (s.setRb (VC_STAT x) 28 true)

/-- The state in which a group's end has reported a failure, if it is one. -/
def judged (x : CtxId) (c : Cond) (retain : Bool) (s : State) : State :=
  if c.status == 0 then left x c retain s else failed x c (left x c retain s)

/-- The state before a group's record is given. -/
def beforeRecord (x : CtxId) (c : Cond) (retain : Bool) (flags : Nat) (s : State) : State :=
  if (c.status == 0 || c.status == vsFPTRAP) || !retain then joined x flags (judged x c retain s) else judged x c retain s

theorem groupEnd_eq : ∃ r : CRec, r.status = c.status ∧ r.issue = headIssue s x ∧ groupEnd x c retain flags energy s =
    if c.status = vsMCHK then icuEvent (64 + 8 * x.val + 3) (recGive x r (beforeRecord x c retain flags s))
    else recGive x r (beforeRecord x c retain flags s) := ⟨⟨_, _, _, false⟩, rfl, rfl, rfl⟩

/-- What is before the record touches VC_STAT, the fault registers and VSE_FPS of the context. -/
theorem reg_failed_ne {a : Nat} (h : a ≠ VC_STAT x) (h' : a < VC_FINFO x ∨ VC_FPA_HI x < a) : (failed x c s).reg a = s.reg a := by
  rw [failed, reg_faultRegs_ne _ h', reg_setRb_ne _ _ _ h]

/-- What each part of a group's end keeps, the end keeps until the record. -/
theorem beforeRecord_keeps {α : Type} (p : State → α) (hleft : p (left x c retain s) = p s) (hfailed : ∀ u, p (failed x c u) = p u)
    (hjoined : ∀ u, p (joined x flags u) = p u) : p (beforeRecord x c retain flags s) = p s := by
  have hjudged : p (judged x c retain s) = p s := by
    unfold judged
    split
    · exact hleft
    · exact (hfailed _).trans hleft
  unfold beforeRecord
  split
  · exact (hjoined _).trans hjudged
  · exact hjudged

theorem byte_beforeRecord (a : Nat) : (beforeRecord x c retain flags s).byte a = s.byte a :=
  beforeRecord_keeps (State.byte · a) (keepsRecs_left.byte a) (fun u => by rw [failed, byte_faultRegs, State.setRb_byte_read])
    fun u => State.setReg_byte_read ..

theorem recs_beforeRecord : ((beforeRecord x c retain flags s).vc x).recs = (s.vc x).recs :=
  beforeRecord_keeps (fun u => (u.vc x).recs) keepsRecs_left.recs (fun u => by rw [failed, vc_faultRegs, State.setRb_vc_read])
    fun u => congrArg VCtx.recs (State.setReg_vc_read ..)

theorem size_beforeRecord : (beforeRecord x c retain flags s).reg (VC_CRSIZE x) = s.reg (VC_CRSIZE x) :=
  have hx := x.isLt
  beforeRecord_keeps (State.reg · (VC_CRSIZE x)) (keepsRecs_left.reg _)
    (fun u => reg_failed_ne (by unfold VC_CRSIZE VC_STAT; omega) (.inl (by unfold VC_CRSIZE VC_FINFO; omega)))
    fun u => reg_setReg_ne _ _ (by unfold VC_CRSIZE VSE_FPS; omega)

/-- What a group's end with a failure has set. -/
theorem beforeRecord_failed (h : c.status ≠ 0) : (beforeRecord x c retain flags s).rb (VC_STAT x) 28 = true ∧
    (beforeRecord x c retain flags s).reg (VC_FINFO x) = BitVec.ofNat 32 (faultInfo c) := by
  have hx := x.isLt
  have hjudged : judged x c retain s = failed x c (left x c retain s) := if_neg (by simpa using h)
  have hstat : (judged x c retain s).rb (VC_STAT x) 28 = true := by
    rw [hjudged, failed, State.rb, reg_faultRegs_ne _ (.inl (by unfold VC_STAT VC_FINFO; omega)), ← State.rb, rb_setRb_self _ _ _ (by decide)]
  have hinfo : (judged x c retain s).reg (VC_FINFO x) = BitVec.ofNat 32 (faultInfo c) := hjudged ▸ reg_faultRegs_info c
  unfold beforeRecord
  split
  · refine ⟨?_, ?_⟩
    · rw [joined, rb_setReg_ne _ _ _ (by unfold VC_STAT VSE_FPS; omega), hstat]
    · rw [joined, reg_setReg_ne _ _ (by unfold VC_FINFO VSE_FPS; omega), hinfo]
  · exact ⟨hstat, hinfo⟩

/-- What a group's end with OK has set. -/
theorem beforeRecord_ok (h : c.status = 0) : beforeRecord x c retain flags s = joined x flags (left x c retain s) := by
  unfold beforeRecord judged
  simp [h]

end End

/-- Settles O44: the end's parts write VC_STAT, the fault registers and VSE_FPS, and the completion writes VC_DONE. -/
theorem groupEndReports : Obligations.GroupEndReports := by
  unfold Obligations.GroupEndReports
  rintro x c retain flags energy s t hring hrecs hstatus - hstream hisrc rfl
  have hx := x.isLt
  obtain ⟨r, hrs, hri, hend⟩ := groupEnd_eq (x := x) (c := c) (retain := retain) (flags := flags) (energy := energy) (s := s)
  have hgive := reported_recGive (x := x) (r := r) ((ringLog_of_reg size_beforeRecord).trans hring) ((recs_beforeRecord (c := c) (retain := retain) (flags := flags)).trans hrecs)
  have h : Reported x r (beforeRecord x c retain flags s) (groupEnd x c retain flags energy s) := by
    rw [hend]
    split
    · exact hgive.low (keepsLow_icuEvent _ _)
    · exact hgive
  refine ⟨by rw [h.done, hrs, hri], fun h0 => ?_, fun h0 => ?_, fun a => (h.byte a).trans (byte_beforeRecord a)⟩
  · have hleft (a : Nat) : (left x c retain s).reg a = s.reg a := keepsRecs_left.reg a
    rw [beforeRecord_ok h0] at h
    refine ⟨?_, ?_⟩
    · rw [h.halt, joined, rb_setReg_ne _ _ _ (by unfold VC_STAT VSE_FPS; omega), State.rb, hleft]
      rfl
    · rw [h.reg _ (by unfold VSE_FPS; omega) (by unfold VSE_FPS VC_DONE; omega) (by unfold VSE_FPS VC_STAT; omega), joined, reg_setReg_self, hleft]
  · obtain ⟨hstat, hinfo⟩ := beforeRecord_failed (x := x) (retain := retain) (flags := flags) (s := s) h0
    have hfinfo : (groupEnd x c retain flags energy s).reg (VC_FINFO x) = BitVec.ofNat 32 (faultInfo c) := by
      rw [h.reg _ (by unfold VC_FINFO; omega) (by unfold VC_FINFO VC_DONE; omega) (by unfold VC_FINFO VC_STAT; omega), hinfo]
    obtain ⟨hvalid, hcode⟩ := faultInfo_fields hstatus hstream hisrc
    exact ⟨h.halt.trans hstat, by rw [State.rb, hfinfo, hvalid], by rw [State.rf, hfinfo, hcode]⟩

end Sys2Proof.GroupEnds

/-! Atomics of one word of the Erg (R203, R279, R280). -/
namespace Sys2Proof.ErgAtomics
open Sys2Proof.Machine Stated

section Word
variable {pa : Nat} {s : State}

/-- An aligned word lies in one word of the Erg. -/
theorem wordsOf_aligned (h : pa % 4 = 0) : wordsOf pa 4 = [pa / 8 * 8] := by
  have hone : (pa % 8 + 4 + 7) / 8 = 1 := by omega
  unfold wordsOf
  rw [hone]
  rfl

/-- A byte with a good code reads as it stands. -/
theorem readByte_good {a : Nat} (h : s.wrong a = 0) : readByte s a = s.byte a := by
  unfold readByte
  rw [h, eccDecode_zero]
  exact BitVec.xor_zero

/-- Reading a word with good codes corrects and reports nothing. -/
theorem ergWordRead_good (src wa : Nat) (need : Nat → Bool) (h : ∀ k, k < 8 → s.wrong (wa + k) = 0) : ergWordRead src wa need s = (false, s) := by
  have houts : ((List.range 8).map fun k => (k, eccDecode (s.wrong (wa + k)))) = (List.range 8).map fun k => (k, (⟨0, false, false⟩ : EccOut)) := by
    apply List.map_congr_left
    intro k hk
    rw [h k (List.mem_range.mp hk), eccDecode_zero]
  unfold ergWordRead
  dsimp only
  rw [houts]
  rfl

/-- An aligned word of the Erg with good codes reads as its bytes stand. -/
theorem localRead_erg (halign : pa % 4 = 0) (herg : isErg pa = true) (hservice : ergInService s pa 4 = true) (hready : ergIsReady s pa 4 = true)
    (hcode : ∀ k, k < 8 → s.wrong (pa / 8 * 8 + k) = 0) : localRead pa 4 s = (.done rOKAY ((List.range 4).map fun k => s.byte (pa + k)), s) := by
  have hlen : insideLen s pa 4 = 4 := by
    unfold insideLen
    rw [if_pos herg]
    simp only [isErg, decide_eq_true_eq] at herg
    exact Nat.min_eq_left (by omega)
  have hread : ergRead 1 pa 4 s = (some ((List.range 4).map fun k => s.byte (pa + k)), s) := by
    have hbytes : ((List.range 4).map fun i => readByte s (pa + i)) = (List.range 4).map fun k => s.byte (pa + k) := by
      apply List.map_congr_left
      intro k hk
      have hk4 := List.mem_range.mp hk
      refine readByte_good ?_
      have := hcode (pa % 8 + k) (by omega)
      rwa [show pa / 8 * 8 + (pa % 8 + k) = pa + k by omega] at this
    unfold ergRead
    dsimp only
    rw [wordsOf_aligned halign, List.foldl_cons, List.foldl_nil, ergWordRead_good _ _ _ hcode, hbytes]
    rfl
  unfold localRead
  rw [hlen, herg, hservice, hready, hread]
  rfl

/-- Bytes within one word are written with good codes where no injection is armed. -/
theorem ergWordWrite_placed (hinj : s.rb MIU_INJ 0 = false) (halign : pa % 4 = 0) (x : Nat) :
    ∃ e, ergWordWrite (pa / 8 * 8) (updIn (pa / 8 * 8) (placed pa (leBytes 4 x))) s = ({ s with ceWb := e }).storeBytes pa (leBytes 4 x) := by
  have hupd : updIn (pa / 8 * 8) (placed pa (leBytes 4 x)) = placed pa (leBytes 4 x) := by
    unfold updIn
    rw [List.filter_eq_self]
    intro e he
    simp only [placed, List.mem_map] at he
    obtain ⟨⟨k, b⟩, hk, rfl⟩ := he
    have hk4 := List.mem_range.mp (List.of_mem_zip hk).1
    rw [leBytes_length] at hk4
    simp
    omega
  have hpend : ∃ e, (if smGet zeroDefault s.ceWb (ergBank s (pa / 8 * 8)) = pa / 8 * 8 + 1 then
      { s with ceWb := smPut zeroDefault s.ceWb (ergBank s (pa / 8 * 8)) 0 } else s) = { s with ceWb := e } := by
    split
    · exact ⟨_, rfl⟩
    · exact ⟨s.ceWb, rfl⟩
  obtain ⟨e, he⟩ := hpend
  refine ⟨e, ?_⟩
  unfold ergWordWrite
  dsimp only
  rw [hupd, hinj, he]
  simp only [Bool.false_and, Bool.false_eq_true, if_false, BitVec.xor_zero, Nat.mul_zero, Nat.add_zero]
  rfl

/-- A write of an aligned word: the word, or a count where its write collides. -/
theorem localWrite_erg (halign : pa % 4 = 0) (herg : isErg pa = true) (hservice : ergInService s pa 4 = true) (hready : ergIsReady s pa 4 = true)
    (x : Nat) (coll : List Nat) : localWrite pa (leBytes 4 x) coll s = (.done (if coll.contains (pa / 8 * 8) then rCOLLIDE else rOKAY) [],
      if coll.contains (pa / 8 * 8) then s.countUp ERG_COLLCNT 15 0 1 else ergWordWrite (pa / 8 * 8) (updIn (pa / 8 * 8) (placed pa (leBytes 4 x))) s) := by
  have hlen : insideLen s pa 4 = 4 := by
    unfold insideLen
    rw [if_pos herg]
    simp only [isErg, decide_eq_true_eq] at herg
    exact Nat.min_eq_left (by omega)
  have hgroup : groupOos s (ergGroup s (pa / 8 * 8)) = false := by
    unfold ergInService at hservice
    rw [wordsOf_aligned halign] at hservice
    simpa using hservice
  have hcoll : collides pa 4 coll = coll.contains (pa / 8 * 8) := by
    unfold collides
    rw [wordsOf_aligned halign]
    simp
  have hwrite : ergWrite pa (leBytes 4 x) coll s =
      if coll.contains (pa / 8 * 8) then s.countUp ERG_COLLCNT 15 0 1 else ergWordWrite (pa / 8 * 8) (updIn (pa / 8 * 8) (placed pa (leBytes 4 x))) s := by
    unfold ergWrite
    dsimp only
    rw [leBytes_length, wordsOf_aligned halign, List.foldl_cons, List.foldl_nil, hgroup]
    rfl
  unfold localWrite
  rw [leBytes_length, hlen]
  unfold regionWrite
  rw [leBytes_length, herg, hservice, hready, hcoll, hwrite]
  rfl

end Word

theorem atomFn_eq {fn : Nat} (h : fn < 4) (old v : Word) :
    atomFn fn old v = if fn = 0 then v else if fn = 1 then old + v else if fn = 2 then old &&& v else old ||| v := by
  match fn, h with
  | 0, _ => rfl
  | 1, _ => rfl
  | 2, _ => rfl
  | 3, _ => rfl

theorem byte_pending (s : State) (e : List (Nat × Nat)) (x : Nat) : State.byte { s with ceWb := e } x = s.byte x := rfl

/-- Settles O12: the read of the word changes nothing, and its write is the four bytes or a count of the collision. -/
theorem ergAtomicWord : Obligations.ErgAtomicWord := by
  unfold Obligations.ErgAtomicWord
  intro pa fn v s halign herg hservice hready hcode hinj hfn
  have hread := localRead_erg halign herg hservice hready hcode
  generalize hold : ((List.range 4).map fun k => s.byte (pa + k)) = old at hread ⊢
  have hatomic (coll : Bool) : localAtomic pa fn v coll s =
      match localWrite pa (leBytes 4 (atomFn fn (leWord old) v).toNat) (if coll then [pa / 8 * 8] else []) s with
      | (.done r _, s2) => (.done r old, s2)
      | (.wait, s2) => (.wait, s2) := by
    unfold localAtomic
    rw [hread]
    rfl
  refine ⟨?_, ?_⟩
  · obtain ⟨e, he⟩ := ergWordWrite_placed (s := s) hinj halign (atomFn fn (leWord old) v).toNat
    refine ⟨({ s with ceWb := e }).storeBytes pa (leBytes 4 (atomFn fn (leWord old) v).toNat), ?_, ?_, fun x hx => ?_⟩
    · rw [hatomic, localWrite_erg halign herg hservice hready, ← he]
      rfl
    · have hbytes : ((List.range 4).map fun k => (({ s with ceWb := e }).storeBytes pa (leBytes 4 (atomFn fn (leWord old) v).toNat)).byte (pa + k)) =
          leBytes 4 (atomFn fn (leWord old) v).toNat := by
        refine List.ext_getElem (by rw [leBytes_length]; rfl) fun k hk _ => ?_
        rw [List.getElem_map, List.getElem_range, storeBytes_byte_in]
      rw [hbytes, leWord_leBytes]
      exact atomFn_eq hfn _ _
    · rw [storeBytes_byte_out _ _ _ _ (by rw [leBytes_length]; exact hx)]
      exact byte_pending s e x
  · refine ⟨s.countUp ERG_COLLCNT 15 0 1, ?_, fun x => rfl⟩
    rw [hatomic, localWrite_erg halign herg hservice hready]
    simp

end Sys2Proof.ErgAtomics

/-! Atomics, branches, loops, floating point and synchronisation: what an issued instruction of each does (R197, R198, R203, R204, R213, R229 to R231). -/
namespace Sys2Proof.IssuedRows
open Sys2Proof.Machine Stated Issued

/-- Settles O1: a step's first match is on the queue. -/
theorem stepRunsFrontCommand : Obligations.StepRunsFrontCommand := fun _ _ _ => rfl

/-! ### Atomics -/

theorem exec_atom : ∀ r ∈ atomRows, ∀ (c : CoreId) (d a b : GReg) (s : State),
    exec (r.1 c d a b) s = .next (run c (r.1 c d a b) .none (atomBody c r.2 d a b) s) := by
  iterate 4 refine List.forall_mem_cons.mpr ⟨fun _ _ _ _ _ => rfl, ?_⟩
  exact List.forall_mem_nil _

section Atom
variable {c : CoreId} {fn : Nat} {d a b : GReg} {s s2 s3 : State}

theorem atomBody_align (h : (s.g c a).toNat % 4 ≠ 0) : atomBody c fn d a b s = .exc ⟨0x03, 0, some (s.g c a), none⟩ s := if_pos h

/-- A translated atomic puts the old word into Gd, with a store error beside it where its write collided. -/
theorem atomBody_piece {p : Piece} {ps : List Piece} {r : Resp} {bytes : List Byte} (h : (s.g c a).toNat % 4 = 0)
    (htrans : transPieces c (s.g c a).toNat 4 .atom false s = .ok (p :: ps) s2) (hatom : atomPiece c fn (s2.g c b) p s2 = .ok (r, bytes) s3) :
    atomBody c fn d a b s = .ok .next ((if r = rCOLLIDE then storeError c p.pa 4 (s3.lvl c).code rCOLLIDE s3 else s3).setG c d (leWord bytes)) := by
  have hbody : atomBody c fn d a b s = (transPieces c (s.g c a).toNat 4 .atom false s).bind fun ps s1 =>
      match ps with
      | [] => .ok .next s1
      | p :: _ => (atomPiece c fn (s1.g c b) p s1).bind fun r s2 =>
        putG c d (leWord r.2) (if r.1 = rCOLLIDE then storeError c p.pa 4 (s2.lvl c).code rCOLLIDE s2 else s2) := if_neg (not_not_intro h)
  rw [hbody, htrans]
  simp only [Acc.bind, hatom]
  rfl

end Atom

/-- Settles O11: the body's outcome follows the address and the access. -/
theorem atomicsComplete : Obligations.AtomicsComplete := by
  unfold Obligations.AtomicsComplete
  intro r hr c d a b s s1 h
  have he := exec_atom r hr c d a b s
  refine ⟨fun halign => exec_taken h he (atomBody_align halign), fun p ps s2 s3 bytes halign htrans => ⟨fun hok => ?_, fun hcoll => ?_⟩⟩
  · have hbody := atomBody_piece (d := d) halign htrans hok
    rw [if_neg (by decide)] at hbody
    exact exec_next h he hbody
  · have hbody := atomBody_piece (d := d) halign htrans hcoll
    rw [if_pos rfl] at hbody
    exact exec_next h he hbody

/-! ### Branches -/

theorem exec_branch : ∀ r ∈ branchRows, ∀ (c : CoreId) (a b : GReg) (off : BitVec 16) (s : State), exec (r.1 c a b off) s =
    .next (run c (r.1 c a b off) .none (fun t => .ok (if r.2 (t.g c a) (t.g c b) then .jump (t.pc c + (off.signExtend 32 <<< 2)) else .next) t) s) := by
  iterate 6 refine List.forall_mem_cons.mpr ⟨fun _ _ _ _ _ => rfl, ?_⟩
  exact List.forall_mem_nil _

/-- A jump that may not stand at the end of a loop body. -/
theorem exec_notAtLend {c : CoreId} {i : Instr} {w : Word} {body : State → Acc Flow} {s s1 s2 : State} {t : Word} (h : Issues c i .none s s1)
    (he : exec i s = .next (run c i .none (notAtLend c w body) s)) (hb : body s1 = .ok (.jump t) s2) :
    exec i s = .next (if atLend s1 c then Taken c i (excIllegal w) s1 else Done c (.jump t) s2) := by
  by_cases hlend : atLend s1 c = true
  · rw [if_pos hlend]
    exact exec_taken h he (if_pos hlend)
  · rw [if_neg hlend]
    exact exec_jump h he ((if_neg hlend).trans hb)

/-- Settles O13: each is a body that names its target. -/
theorem branchesComplete : Obligations.BranchesComplete := by
  unfold Obligations.BranchesComplete
  refine ⟨fun r hr c a b off s s1 h => ?_, fun c off s s1 h => exec_notAtLend h rfl rfl, fun c off s s1 h => exec_notAtLend h rfl rfl,
    fun c d a m s s1 h => exec_notAtLend h rfl rfl⟩
  have he := exec_branch r hr c a b off s
  by_cases hc : r.2 (s1.g c a) (s1.g c b) = true
  · rw [if_pos hc]
    exact exec_jump h he (by rw [if_pos hc])
  · rw [if_neg hc]
    exact exec_next h he (by rw [if_neg hc])

/-! ### Loops -/

/-- The expiry of a loop's count empties what the core keeps of the bytes that the loop's stores had overwritten, too. -/
theorem lold_loopSettle {c : CoreId} {s : State} (h : (s.core c).loopDone = true) : ((loopSettle c s).core c).lold = [] := by
  have hend : loopSettle c s = (loopEnd c s).modCore c fun k => { k with loopDone := false } := if_pos h
  rw [hend, core_modCore_self, loopEnd, loopForget, core_modCore_self]

/-- A core that owes the end of a loop, one of whose stores had overwritten a byte of the body. -/
def endingLoop : State := State.reset.modCore 0 fun k => { k with loopDone := true, lold := [(0, 0)] }

/-- Refutes O14: the expiry of `endingLoop` forgets the overwritten byte as well, which the statement has it keep (R215). -/
theorem not_loopInstructionsComplete : ¬ Obligations.LoopInstructionsComplete := by
  unfold Obligations.LoopInstructionsComplete
  rintro ⟨-, hexpiry⟩
  have howed : (endingLoop.core 0).loopDone = true := by rw [endingLoop, core_modCore_self]
  have hnext := Host.Outcome.next.inj (hexpiry 0 endingLoop howed)
  have hlold := lold_loopSettle howed
  rw [hnext, core_modCore_self, State.setSr, core_modCore_self, endingLoop, core_modCore_self] at hlold
  cases hlold

/-! ### Floating point -/

section Fp
variable {c : CoreId} {i : Instr} {w : Word} {rm : BitVec 3} {body : Rm → State → State} {s s1 : State}

/-- A floating-point instruction under a direction of rounding. -/
theorem exec_fp (h : Issues c i .none s s1) (he : exec i s = .next (fpRun c i w rm body s)) :
    (∀ r, fpRm s1 c rm = some r → exec i s = .next (Done c .next (body r s1))) ∧ (fpRm s1 c rm = none → exec i s = .next (Taken c i (excIllegal w) s1)) :=
  ⟨fun r hr => exec_next h he (by rw [hr]), fun hr => exec_taken h he (by rw [hr])⟩

variable {fn : Nat} {p : Bool}

theorem exec_fp2 {op : Ty → Rm → Nat → Nat → Res} {d a b : FReg} (h : Issues c i .none s s1) (he : exec i s = .next (fp2 c i fn op d a b rm p s)) :
    (∀ r, fpRm s1 c rm = some r → exec i s = .next (Done c .next (fpPut c d (op (fpTy p) r (fpArg s1 c (fpTy p) a) (fpArg s1 c (fpTy p) b)) s1))) ∧
      (fpRm s1 c rm = none → exec i s = .next (Taken c i (excIllegal (encF d.val a.val b.val rm.toNat fn p)) s1)) := (exec_fp h he :)

theorem exec_fp1 {op : Ty → Rm → Nat → Res} {d a : FReg} (h : Issues c i .none s s1) (he : exec i s = .next (fp1 c i fn op d a rm p s)) :
    (∀ r, fpRm s1 c rm = some r → exec i s = .next (Done c .next (fpPut c d (op (fpTy p) r (fpArg s1 c (fpTy p) a)) s1))) ∧
      (fpRm s1 c rm = none → exec i s = .next (Taken c i (excIllegal (encF d.val a.val 0 rm.toNat fn p)) s1)) := (exec_fp h he :)

theorem exec_fpG1 {op : Ty → Rm → Nat → Res} {d : GReg} {a : FReg} (h : Issues c i .none s s1) (he : exec i s = .next (fpG1 c i fn op d a rm p s)) :
    (∀ r, fpRm s1 c rm = some r → exec i s = .next (Done c .next (fpPutG c d (op (fpTy p) r (fpArg s1 c (fpTy p) a)) s1))) ∧
      (fpRm s1 c rm = none → exec i s = .next (Taken c i (excIllegal (encF d.val a.val 0 rm.toNat fn p)) s1)) := (exec_fp h he :)

theorem exec_fpFromG {src : Ty} {d : FReg} {a : GReg} (h : Issues c i .none s s1) (he : exec i s = .next (fpFromG c i fn src d a rm p s)) :
    (∀ r, fpRm s1 c rm = some r → exec i s = .next (Done c .next (fpPut c d (cvt src (fpTy p) r (s1.g c a).toNat) s1))) ∧
      (fpRm s1 c rm = none → exec i s = .next (Taken c i (excIllegal (encF d.val a.val 0 rm.toNat fn p)) s1)) := (exec_fp h he :)

theorem exec_fpCmp {code : Nat} {d : GReg} {a b : FReg} (h : Issues c i .none s s1) (he : exec i s = .next (fpCmp c i fn code d a b rm p s)) :
    (∀ r, fpRm s1 c rm = some r → exec i s = .next (Done c .next (fpPutG c d
      (b2n (numCmp (fpTy p) code (fpArg s1 c (fpTy p) a) (fpArg s1 c (fpTy p) b)).1,
        (numCmp (fpTy p) code (fpArg s1 c (fpTy p) a) (fpArg s1 c (fpTy p) b)).2) s1))) ∧
      (fpRm s1 c rm = none → exec i s = .next (Taken c i (excIllegal (encF d.val a.val b.val rm.toNat fn p)) s1)) := (exec_fp h he :)

theorem exec_fpFma {np nc : Bool} {d a b e : FReg} (h : Issues c i .none s s1) (he : exec i s = .next (fpFma c i fn np nc d a b e rm p s)) :
    (∀ r, fpRm s1 c rm = some r → exec i s = .next (Done c .next (fpPut c d
      (numFma (fpTy p) (fpTy p) r false np nc (fpArg s1 c (fpTy p) a) (fpArg s1 c (fpTy p) b) (fpArg s1 c (fpTy p) e)) s1))) ∧
      (fpRm s1 c rm = none → exec i s = .next (Taken c i (excIllegal (encFma d.val a.val b.val e.val rm.toNat fn p)) s1)) := (exec_fp h he :)

end Fp

/-- Settles O18: each row is its body under the direction that RM names. -/
theorem floatingPointComplete : Obligations.FloatingPointComplete := by
  unfold Obligations.FloatingPointComplete
  refine ⟨?_, ?_, ?_, ?_, ?_, ?_, fun c d a rm p s s1 r h => (exec_fp h rfl :).1 r, fun c d a rm p s s1 h => (exec_fp h rfl :).2⟩
  · iterate 6 refine List.forall_mem_cons.mpr ⟨fun c d a b rm p s s1 h => (exec_fp2 h rfl :), ?_⟩
    exact List.forall_mem_nil _
  · iterate 2 refine List.forall_mem_cons.mpr ⟨fun c d a rm p s s1 h => (exec_fp1 h rfl :), ?_⟩
    exact List.forall_mem_nil _
  · iterate 4 refine List.forall_mem_cons.mpr ⟨fun c d a rm p s s1 h => (exec_fpG1 h rfl :), ?_⟩
    exact List.forall_mem_nil _
  · iterate 2 refine List.forall_mem_cons.mpr ⟨fun c d a rm p s s1 h => (exec_fpFromG h rfl :), ?_⟩
    exact List.forall_mem_nil _
  · iterate 3 refine List.forall_mem_cons.mpr ⟨fun c d a b rm p s s1 h => (exec_fpCmp h rfl :), ?_⟩
    exact List.forall_mem_nil _
  · iterate 4 refine List.forall_mem_cons.mpr ⟨fun c d a b e rm p s s1 h => (exec_fpFma h rfl :), ?_⟩
    exact List.forall_mem_nil _

/-! ### Synchronisation, returns and waits -/

/-- Settles O23: with what it waits for gone each is its body. -/
theorem synchronisingInstructionsComplete : Obligations.SynchronisingInstructionsComplete := by
  unfold Obligations.SynchronisingInstructionsComplete
  intro c s s1
  refine ⟨fun h => exec_next h rfl rfl, fun h => exec_next h rfl rfl, fun h => ?_, fun h => ?_, fun h => exec_next h rfl rfl, fun h => exec_taken h rfl rfl⟩
  · split
    case isTrue hlend => exact exec_taken h rfl (if_pos hlend)
    case isFalse hlend =>
      split
      case isTrue hm => exact exec_placed h rfl ((if_neg hlend).trans (if_neg (by simp [hm])))
      case isFalse hm => exact exec_taken h rfl ((if_neg hlend).trans (if_pos (by simp [hm])))
  · split
    case isTrue hill => exact exec_taken h rfl (if_pos (by simpa [isSI] using hill))
    case isFalse hill =>
      have hneg : ¬ (isSI c || atLend s1 c) = true := by simpa [isSI] using hill
      split
      case isTrue hu => exact exec_taken h rfl ((if_neg hneg).trans (if_pos (by simp [hu])))
      case isFalse hu => exact exec_placed h rfl ((if_neg hneg).trans (if_neg (by simp [hu])))

end Sys2Proof.IssuedRows

/-! Saving calls and block repeats (R206 to R211). -/
namespace Sys2Proof.CallsAndRepeats
open Sys2Proof.Machine Stated Issued IssuedRows

/-! ### Saving calls -/

section Calls
variable {c : CoreId} {i : Instr} {w : Word} {body : State → Acc Flow} {s s1 s2 : State}

/-- An instruction that may not stand at the end of a loop body takes ILLEGAL there. -/
theorem exec_atLend (h : Issues c i .none s s1) (he : exec i s = .next (run c i .none (notAtLend c w body) s)) (hlend : atLend s1 c = true) :
    exec i s = .next (Taken c i (excIllegal w) s1) := exec_taken h he (if_pos hlend)

/-- Elsewhere it is its body. -/
theorem notAtLend_away (hlend : atLend s c = false) : notAtLend c w body s = body s := if_neg (by simp [hlend])

end Calls

section Bodies
variable {c : CoreId} {a : GReg} {mask : Nat} {w : Word} {s s1 s2 s3 s4 : State}

theorem callmBody_align (h : (s.g c (gno 30)).toNat % 8 ≠ 0) : callmBody c a mask s = .exc ⟨0x03, 0, some (s.g c (gno 30)), none⟩ s := if_pos h

theorem callmBody_stored {ps : List Piece} (h : (s.g c (gno 30)).toNat % 8 = 0)
    (htrans : transPieces c (s.g c (gno 30) - BitVec.ofNat 32 (frameSize mask)).toNat (frameSize mask) .store false s = .ok ps s2)
    (hstore : storeFrame c ps (BitVec.ofNat 32 mask :: s2.g c (gno 31) :: (maskRegs mask).map fun r => s2.g c r) s2 = .ok () s3) :
    callmBody c a mask s = .ok (.jump (s.g c a &&& 0xFFFFFFFC))
      ((s3.setG c (gno 30) (s.g c (gno 30) - BitVec.ofNat 32 (frameSize mask))).setG c (gno 31) (s3.pc c + 4)) := by
  refine (if_neg (not_not_intro h)).trans ?_
  rw [htrans]
  simp only [Acc.bind, hstore]

theorem retmBody_align (h : (s.g c (gno 30)).toNat % 8 ≠ 0) : retmBody c w s = .exc ⟨0x03, 0, some (s.g c (gno 30)), none⟩ s := if_pos h

theorem retmBody_loaded {b : List Byte} {ps : List Piece} {ws : List Word} (h : (s.g c (gno 30)).toNat % 8 = 0)
    (hload : loadAt c (s.g c (gno 30)) 4 s = .ok b s2) (hhdr : leNat b ≤ 0xFFFF)
    (htrans : transPieces c (s.g c (gno 30)).toNat (frameSize (leNat b)) .load false s2 = .ok ps s3)
    (hwords : loadWords c (s.g c (gno 30) + 4) (1 + popCount 16 (leNat b)) s3 = .ok ws s4) :
    retmBody c w s = .ok (.jump (s.g c (gno 31) &&& 0xFFFFFFFC)) (((setGs c ((maskRegs (leNat b)).zip (ws.drop 1)) s4).setG c (gno 31) (ws.headD 0)).setG c
      (gno 30) (s.g c (gno 30) + BitVec.ofNat 32 (frameSize (leNat b)))) := by
  refine (if_neg (not_not_intro h)).trans ?_
  rw [hload]
  simp only [Acc.bind]
  rw [if_neg (by omega), htrans]
  simp only [hwords]

end Bodies

/-- Settles O16: away from the end of a loop body and aligned, the frame is stored or loaded, and the jump taken. -/
theorem savingCallsComplete : Obligations.SavingCallsComplete := by
  unfold Obligations.SavingCallsComplete
  refine ⟨fun c a mask s s1 h => ⟨exec_atLend h rfl, fun hlend halign => ?_, fun ps s2 s3 hlend halign htrans hstore => ?_⟩,
    fun c s s1 h => ⟨exec_atLend h rfl, fun hlend halign => ?_, fun b s2 ps s3 ws s4 hlend halign hload hhdr htrans hwords => ?_⟩⟩
  · exact exec_taken h rfl ((notAtLend_away hlend).trans (callmBody_align halign))
  · exact exec_jump h rfl ((notAtLend_away hlend).trans (callmBody_stored halign htrans hstore))
  · exact exec_taken h rfl ((notAtLend_away hlend).trans (retmBody_align halign))
  · exact exec_jump h rfl ((notAtLend_away hlend).trans (retmBody_loaded halign hload hhdr htrans hwords))

/-! ### Block repeats -/

section Repeats
variable {c : CoreId} {i : Instr} {w : Word} {sz : BitVec 2} {last : State → State} {elem : Nat → State → Acc Flow} {s s1 s2 : State}

theorem repSize_of_ne : ∀ {sz : BitVec 2}, sz ≠ 3 → repSize sz = some (2 ^ sz.toNat) := by decide

theorem exec_reserved (h : Issues c i .none s s1) (he : exec i s = .next (run c i .none (repBody c w 3 last elem) s)) :
    exec i s = .next (Taken c i (excIllegal w) s1) := exec_taken h he rfl

/-- With nothing left to do a repeat ends. -/
theorem exec_repeat_over (h : Issues c i .none s s1) (he : exec i s = .next (run c i .none (repBody c w sz last elem) s)) (hsz : sz ≠ 3)
    (hzero : s1.g c (gno 6) = 0) : exec i s = .next (Done c .next (last s1)) := by
  refine exec_next h he ?_
  unfold repBody
  rw [repSize_of_ne hsz]
  exact if_pos hzero

theorem repBody_elem (hsz : sz ≠ 3) (hmore : s.g c (gno 6) ≠ 0) : repBody c w sz last elem s = elem (2 ^ sz.toNat) s := by
  unfold repBody
  rw [repSize_of_ne hsz]
  exact if_neg hmore

/-- An issued repeat whose element is not its last stays. -/
theorem exec_again {k : SyncKind} {body : State → Acc Flow} (h : Issues c i k s s1) (he : exec i s = .next (run c i k body s)) (hb : body s1 = .ok .again s2) :
    exec i s = .next (Stays c i s2) := by
  rw [he, run_go h, hb]
  rfl

/-- An element that does not end its repeat counts it down. -/
theorem exec_element {ss ds : Word} (h : Issues c i .none s s1) (he : exec i s = .next (run c i .none (repBody c w sz last elem) s)) (hsz : sz ≠ 3)
    (hmore : s1.g c (gno 6) ≠ 0) (hb : elem (2 ^ sz.toNat) s1 = repNext c ss ds id s2) :
    exec i s = .next (Repeated c i s2 (stepped c ss ds s2)) := by
  have hbody := (repBody_elem (w := w) (last := last) hsz hmore).trans hb
  unfold Repeated
  split
  case isTrue hend => exact exec_next h he (hbody.trans (if_pos hend))
  case isFalse hend => exact exec_again h he (hbody.trans (if_neg hend))

end Repeats

/-- Whether a scan's condition holds, as its code says. -/
theorem scanCond_iff (k : BitVec 2) (e v : Nat) : scanCond k.toNat e v = true ↔ (k = 0 ∧ e = v) ∨ (k = 1 ∧ e ≠ v) ∨ (k = 2 ∧ e < v) ∨ (k = 3 ∧ v ≤ e) := by
  match k with
  | 0 => simp [scanCond]
  | 1 => simp [scanCond]
  | 2 => simp [scanCond]
  | 3 => simp [scanCond]

section Elements
variable {c : CoreId} {st dt : BitVec 4} {k : BitVec 2} {n : Nat} {s s2 s3 s4 : State}

theorem fillsElem_stored (h : storeAt c (s.g c (gno 5)) (leBytes n ((s.g c (gno 7)).toNat % 2 ^ (8 * n))) s = .ok () s2) :
    fillsElem c dt n s = repNext c 0 (repStep dt n) id s2 := by
  unfold fillsElem repValue
  rw [h]
  rfl

theorem movsElem_moved {ps qs : List Piece} {b : List Byte} (htwo : twoOperands c n .store s = .ok (ps, qs) s2) (hload : loadPieces c ps s2 = .ok b s3)
    (hstore : storePieces c qs b s3 = .ok () s4) : movsElem c st dt n s = repNext c (repStep st n) (repStep dt n) id s4 := by
  unfold movsElem
  rw [htwo]
  simp only [Acc.bind, hload, hstore]

theorem scansElem_loaded {b : List Byte} (h : loadAt c (s.g c (gno 4)) n s = .ok b s2) :
    scansElem c st k n s = if scanCond k.toNat (leNat b) (repValue s2 c n) then .ok .next s2 else repNext c (repStep st n) 0 id s2 := by
  unfold scansElem
  rw [h]
  rfl

theorem cmpsElem_loaded {ps qs : List Piece} {xy : List Byte} (htwo : twoOperands c n .load s = .ok (ps, qs) s2)
    (hload : loadPieces c (ps ++ qs) s2 = .ok xy s3) : cmpsElem c st dt n s =
      if leNat (xy.take n) != leNat (xy.drop n) then .ok .next (s3.setG c (gno 7) (leWord (xy.take n) - leWord (xy.drop n)))
      else repNext c (repStep st n) (repStep dt n) (cmpsEqual c) s3 := by
  unfold cmpsElem
  rw [htwo]
  simp only [Acc.bind, hload]

end Elements

/-- Settles O17: a repeat is over, or its element ends it or counts it down. -/
theorem blockRepeatsComplete : Obligations.BlockRepeatsComplete := by
  unfold Obligations.BlockRepeatsComplete
  refine ⟨fun c sz st dt k s s1 => ⟨?_, ?_, ?_, ?_, ?_, ?_, ?_, ?_⟩, fun c sz st dt k s s1 hsz hmore =>
    ⟨fun s2 h hstore => exec_element h rfl hsz hmore (fillsElem_stored hstore),
      fun ps qs b s2 s3 s4 h htwo hload hstore => exec_element h rfl hsz hmore (movsElem_moved htwo hload hstore),
      fun b s2 h hload => ?_, fun ps qs xy x y s2 s3 h htwo hload hx hy => ?_⟩⟩
  · rintro rfl h
    exact exec_reserved h rfl
  · rintro rfl h
    exact exec_reserved h rfl
  · rintro rfl h
    exact exec_reserved h rfl
  · rintro rfl h
    exact exec_reserved h rfl
  · exact fun hsz hzero h => (exec_repeat_over h rfl hsz hzero :)
  · exact fun hsz hzero h => (exec_repeat_over h rfl hsz hzero :)
  · exact fun hsz hzero h => (exec_repeat_over h rfl hsz hzero :)
  · exact fun hsz hzero h => (exec_repeat_over h rfl hsz hzero :)
  · have helem := scansElem_loaded (st := st) (k := k) hload
    dsimp only
    split
    case isTrue hend =>
      exact exec_next h rfl ((repBody_elem hsz hmore).trans (helem.trans (if_pos ((scanCond_iff k _ _).mpr hend))))
    case isFalse hend => exact exec_element h rfl hsz hmore (helem.trans (if_neg fun hc => hend ((scanCond_iff k _ _).mp hc)))
  · subst hx hy
    have helem := cmpsElem_loaded (st := st) (dt := dt) htwo hload
    refine ⟨fun hne => ?_, fun heq hcount => ?_, fun heq hcount => ?_⟩
    · exact exec_next h rfl ((repBody_elem hsz hmore).trans (helem.trans (if_pos (by simpa using hne))))
    · exact exec_again h rfl ((repBody_elem hsz hmore).trans (helem.trans ((if_neg (by simpa using heq)).trans (if_neg hcount))))
    · exact exec_next h rfl ((repBody_elem hsz hmore).trans (helem.trans ((if_neg (by simpa using heq)).trans (if_pos hcount))))

end Sys2Proof.CallsAndRepeats

/-! Reads and writes of system registers (R205, R226, R243, R316 to R318). -/
namespace Sys2Proof.SystemRegisters
open Sys2Proof.Machine Stated Issued HoldWindow IcuCompletion

section Refusal
variable {c : CoreId} {n : Nat} {w : Word} {s : State} {r : SrSpec}

theorem srRefusal_undefined {b : Bool} (h : srSpec n = none) : srRefusal s c n b w = some (excIllegal w) := by
  unfold srRefusal
  rw [h]

/-- A defined register that the core has is refused below its level. -/
theorem srRefusal_read (h : srSpec n = some r) (hsi : siNoSr c n false = false) (hn : n ≠ 0x142) :
    srRefusal s c n false w = if r.rlev.code ≤ (s.lvl c).code then none else some (excPriv w) := by
  unfold srRefusal
  simp [h, hsi, hn, Level.atLeast]

theorem srRefusal_write (h : srSpec n = some r) (hsi : siNoSr c n true = false) (h0 : n ≠ 0x140) (h1 : n ≠ 0x141) :
    srRefusal s c n true w = if r.wlev.code ≤ (s.lvl c).code then none else some (excPriv w) := by
  unfold srRefusal
  simp [h, hsi, h0, h1, Level.atLeast]

end Refusal

theorem toNat_ne {n m : BitVec 12} (h : n ≠ m) : n.toNat ≠ m.toNat := fun e => h (BitVec.eq_of_toNat_eq e)

/-! ### Reads -/

section Read
variable {c : CoreId} {d : GReg} {n : Nat} {s : State} {r : SrSpec}

theorem srrBody_refused {e : Exc} (h : srRefusal s c n false (encSys d.val 0 n 0) = some e) : srrBody c d n s = .exc e s := by
  unfold srrBody
  rw [h]

theorem srrBody_value (h : srRefusal s c n false (encSys d.val 0 n 0) = none) (h0 : n ≠ 0x140) (h1 : n ≠ 0x141) :
    srrBody c d n s = .ok .next (s.setG c d (srValue s c n)) := by
  unfold srrBody
  rw [h]
  exact (if_neg h0).trans (if_neg h1)

/-- The claims are open to S and M. -/
theorem srRefusal_claim {w : Word} (hn : n = 0x140 ∨ n = 0x141) (h : s.lvl c ≠ .u) : srRefusal s c n false w = none := by
  have hspec : srSpec n = some ⟨n, .s, .s, 0, 0, 0⟩ := by obtain rfl | rfl := hn <;> rfl
  rw [srRefusal_read hspec (by obtain rfl | rfl := hn <;> simp [siNoSr]) (by omega), if_pos]
  exact of_decide_eq_true (atLeast_s_of_ne_u h)

end Read

/-- Settles O20: a read is refused by level, is a claim, or puts the register's value into Gd. -/
theorem systemRegisterReadsComplete : Obligations.SystemRegisterReadsComplete := by
  unfold Obligations.SystemRegisterReadsComplete
  refine ⟨fun c d n s s1 h => ⟨fun hspec => exec_taken h rfl (srrBody_refused (srRefusal_undefined hspec)), fun r hspec hsi h0 h1 h2 =>
    ⟨fun hlevel => ?_, fun hlevel => ?_⟩⟩, fun c d s s1 hlevel => ⟨fun h => exec_next h rfl ?_, fun h => exec_next h rfl ?_⟩⟩
  · refine exec_next h rfl (srrBody_value ?_ (toNat_ne h0) (toNat_ne h1))
    rw [srRefusal_read hspec hsi (toNat_ne h2), if_pos hlevel]
  · refine exec_taken h rfl (srrBody_refused ?_)
    rw [srRefusal_read hspec hsi (toNat_ne h2), if_neg (by omega)]
  · unfold srrBody
    rw [srRefusal_claim (.inl rfl) hlevel]
    rfl
  · unfold srrBody
    rw [srRefusal_claim (.inr rfl) hlevel]
    rfl

/-! ### Writes -/

section Write
variable {c : CoreId} {a : GReg} {n : Nat} {s : State} {r : SrSpec}

theorem srwBody_refused {e : Exc} (h : srRefusal s c n true (encSys 0 a.val n 1) = some e) : srwBody c n a s = .exc e s := by
  unfold srwBody
  rw [h]

/-- What follows the write of a register: a loop register empties the loop buffer, a serialising one has the next instruction fetched anew. -/
def afterWrite (c : CoreId) (n : Nat) : State → State := if 0x020 ≤ n ∧ n ≤ 0x022 then loopForget c else if srSerial n then refetch c else id

theorem srwBody_written (h : srRefusal s c n true (encSys 0 a.val n 1) = none) (hspec : srSpec n = some r) (h0 : n ≠ 0x115) (h1 : n ≠ 0x125) (h2 : n ≠ 0x142) :
    srwBody c n a s = .ok .next (afterWrite c n (s.setSr c n (srWritten r (s.lvl c == .m) (s.sr c n) (s.g c a)))) := by
  unfold srwBody
  rw [h]
  refine (if_neg h0).trans ((if_neg h1).trans ((if_neg h2).trans ?_))
  rw [hspec]
  dsimp only
  unfold afterWrite
  split
  · rfl
  · split
    · rfl
    · rfl

/-- A register whose writable bits are the same at every level, and none of which a written 1 clears. -/
theorem srWritten_mask {r : SrSpec} {m : Nat} (hs : r.rwS = m) (hm : r.rwM = m) (hw : r.w1c = 0) (b : Bool) (old v : Word) :
    srWritten r b old v = (old &&& ~~~(BitVec.ofNat 32 m)) ||| (v &&& BitVec.ofNat 32 m) := by
  have hall : ∀ x : Word, x &&& 0xFFFFFFFF#32 = x := fun _ => BitVec.and_allOnes
  simp [srWritten, hs, hm, hw, hall]

theorem srwBody_vbase {t : Level} (ht : t ≠ .u) (h : srRefusal s c (srVbase t) true (encSys 0 a.val (srVbase t) 1) = none) :
    srwBody c (srVbase t) a s = vbaseSet c t (s.g c a) s := by
  unfold srwBody
  rw [h]
  cases t with
  | u => exact absurd rfl ht
  | s => rfl
  | m => rfl

theorem vbaseSet_captured {t : Level} {v : Word} {s2 s3 : State} {en ef : VecEntry} (hn : captureEntry c t 0x20 (s.setSr c (srVbase t) v) = .ok en s2)
    (hf : captureEntry c t 0x21 s2 = .ok ef s3) : vbaseSet c t v s =
      .ok .next ((refetch c s3).modCore c fun k => if t = .m then { k with vecMN := en, vecMF := ef } else { k with vecSN := en, vecSF := ef }) := by
  unfold vbaseSet
  rw [show captureEntry c t cINT_N _ = _ from hn]
  simp only [Acc.bind, show captureEntry c t cINT_F s2 = _ from hf]

end Write

/-- Settles O21: a write is refused by level, or changes the bits that the level may write, or is one of the writes with an effect of their own. -/
theorem systemRegisterWritesComplete : Obligations.SystemRegisterWritesComplete := by
  unfold Obligations.SystemRegisterWritesComplete
  refine ⟨fun c n a s s1 h r hspec hsi h0 h1 h2 h3 h4 => ⟨fun hlevel => ?_, fun hlevel => ?_⟩, fun c a s s1 h => ?_, fun c a s s1 h => ?_, fun c a s s1 h => ?_,
    fun c a s s1 h hlevel => exec_next h rfl (srwBody_icomplete_privileged a hlevel), fun c sup a s s1 s2 s3 en ef h hsup hm hn hf => ?_⟩
  · have hgo : srRefusal s1 c n.toNat true (encSys 0 a.val n.toNat 1) = none := by
      rw [srRefusal_write hspec hsi (toNat_ne h2) (toNat_ne h3), if_pos hlevel]
    have hmode : (s1.lvl c == .m) = decide (s1.lvl c = .m) := rfl
    have hbody := srwBody_written hgo hspec (toNat_ne h0) (toNat_ne h1) (toNat_ne h4)
    rw [hmode] at hbody
    refine exec_next h rfl (hbody.trans ?_)
    simp only [srWritten, decide_eq_true_eq]
    rfl
  · refine exec_taken h rfl (srwBody_refused ?_)
    rw [srRefusal_write hspec hsi (toNat_ne h2) (toNat_ne h3), if_neg (by omega)]
  · have hspec : srSpec 0x010 = some ⟨0x010, .u, .u, 0x061F1F3F, 0x061F1F3F, 0⟩ := rfl
    refine exec_next h rfl ((srwBody_written ?_ hspec (by decide) (by decide) (by decide)).trans ?_)
    · rw [srRefusal_write hspec (by simp [siNoSr]) (by decide) (by decide)]
      exact if_pos (Nat.zero_le _)
    · rw [srWritten_mask rfl rfl rfl]
      rfl
  · have hspec : srSpec 0x022 = some ⟨0x022, .u, .u, 0x8000001F, 0x8000001F, 0⟩ := rfl
    refine exec_next h rfl ((srwBody_written ?_ hspec (by decide) (by decide) (by decide)).trans ?_)
    · rw [srRefusal_write hspec (by simp [siNoSr]) (by decide) (by decide)]
      exact if_pos (Nat.zero_le _)
    · rw [srWritten_mask rfl rfl rfl]
      rfl
  · have hspec : srSpec 0x100 = some ⟨0x100, .u, .s, 0x80000000, 0x80000000, 0⟩ := rfl
    have hrefusal := srRefusal_write (s := s1) (w := encSys 0 a.val 0x100 1) hspec (c := c) (by simp [siNoSr]) (by decide) (by decide)
    split
    case isTrue hu =>
      rw [hu, if_neg (by decide)] at hrefusal
      exact exec_taken h rfl (srwBody_refused hrefusal)
    case isFalse hu =>
      rw [if_pos (of_decide_eq_true (atLeast_s_of_ne_u hu))] at hrefusal
      refine exec_next h rfl ((srwBody_written hrefusal hspec (by decide) (by decide) (by decide)).trans ?_)
      rw [srWritten_mask rfl rfl rfl]
      rfl
  · cases sup with
    | true =>
      obtain ⟨hsi, hu⟩ := hsup rfl
      have hspec : srSpec 0x125 = some ⟨0x125, .s, .s, 0xFFFFFFFF, 0xFFFFFFFF, 0⟩ := rfl
      have hrefusal := srRefusal_write (s := s1) (w := encSys 0 a.val 0x125 1) hspec (c := c) (by simp [siNoSr, hsi]) (by decide) (by decide)
      rw [if_pos (of_decide_eq_true (atLeast_s_of_ne_u hu))] at hrefusal
      exact exec_next h rfl ((srwBody_vbase (t := .s) (by decide) hrefusal).trans (vbaseSet_captured hn hf))
    | false =>
      have hspec : srSpec 0x115 = some ⟨0x115, .m, .m, 0, 0xFFFFFFFF, 0⟩ := rfl
      have hrefusal := srRefusal_write (s := s1) (w := encSys 0 a.val 0x115 1) hspec (c := c) (by simp [siNoSr]) (by decide) (by decide)
      rw [hm rfl, if_pos (by decide)] at hrefusal
      exact exec_next h rfl ((srwBody_vbase (t := .m) (by decide) hrefusal).trans (vbaseSet_captured hn hf))

end Sys2Proof.SystemRegisters

/-! Gates and TLBI (R239 to R242, R269 to R271). -/
namespace Sys2Proof.GatesAndTlbi
open Sys2Proof.Machine Stated Issued

/-! ### The probe of a gate's arguments -/

section Probe
variable {c : CoreId} {n i : Nat} {k : AccKind}

/-- The walk of a page of argument `i`, probed for access `k`, waits in `s3`: with its time expired the probe takes GATE_ARG for the page's address. -/
def TimesOut (c : CoreId) (n i : Nat) (k : AccKind) (s3 : State) (expired : Acc Unit) : Prop :=
  ∃ va s4, va < 2 ^ 32 ∧ translate c.val (coreSpace s4 c).1 (coreSpace s4 c).2 va k (s4.lvl c == .u) false s4 = (.wait, s3) ∧
    expired = .exc ⟨0x10, gateArgInfo n i true, some (BitVec.ofNat 32 va), none⟩ s3

/-- A probe whose walks are all answered is the same whether their time has expired or not; in one that waits the walk times out. -/
def Expiry (c : CoreId) (n i : Nat) (k : AccKind) (waits expired : Acc Unit) : Prop :=
  (expired = waits ∧ ∀ t, waits ≠ .wait t) ∨ ∃ s3, waits = .wait s3 ∧ TimesOut c n i k s3 expired

theorem Expiry.ok (s : State) : Expiry c n i k (.ok () s) (.ok () s) := .inl ⟨rfl, fun _ h => by cases h⟩

theorem Expiry.exc (e : Exc) (s : State) : Expiry c n i k (.exc e s) (.exc e s) := .inl ⟨rfl, fun _ h => by cases h⟩

theorem Expiry.ite {p : Prop} [Decidable p] {a b a' b' : Acc Unit} (h : p → Expiry c n i k a a') (h' : ¬ p → Expiry c n i k b b') :
    Expiry c n i k (if p then a else b) (if p then a' else b') := by
  split
  · exact h ‹_›
  · exact h' ‹_›

theorem probePages_expiry : ∀ (fuel va stop : Nat) (s : State),
    Expiry c n i k (probePages c n i k false fuel va stop s) (probePages c n i k true fuel va stop s) := by
  intro fuel
  induction fuel with
  | zero => exact fun _ _ s => .ok s
  | succ fuel ih =>
    intro va stop s
    refine .ite (fun _ => .ok s) fun _ => .ite (fun _ => .exc _ s) fun hva => .ite (fun _ => .ok s) fun _ => ?_
    dsimp only
    rcases htrans : translate c.val (coreSpace s c).1 (coreSpace s c).2 va k (s.lvl c == .u) false s with ⟨r, s1⟩
    cases r with
    | ok e => exact ih _ stop s1
    | align _ => exact .ok s1
    | wait => exact .inr ⟨s1, rfl, va, s, by omega, htrans, rfl⟩
    | fail f => exact .ite (fun _ => .exc _ s1) fun _ => .exc _ s1

/-- The access that an argument is probed for. -/
def probeKind (a : GateArg) : AccKind := if a.kind = 1 then .probeR else .probeW

/-- A probe of arguments whose walks are all answered is the same whether their time has expired or not; in one that waits the walk of one of them
times out. -/
def ArgsExpiry (c : CoreId) (n : Nat) (l : List (Nat × GateArg)) (waits expired : Acc Unit) : Prop :=
  (expired = waits ∧ ∀ t, waits ≠ .wait t) ∨ ∃ s3, waits = .wait s3 ∧ ∃ p ∈ l, p.2.kind ≠ 0 ∧ TimesOut c n p.1 (probeKind p.2) s3 expired

theorem ArgsExpiry.cons {l : List (Nat × GateArg)} {w e : Acc Unit} (p : Nat × GateArg) (h : ArgsExpiry c n l w e) : ArgsExpiry c n (p :: l) w e := by
  obtain h | ⟨s3, hw, q, hq, h⟩ := h
  · exact .inl h
  · exact .inr ⟨s3, hw, q, List.mem_cons_of_mem _ hq, h⟩

/-- The pages of one argument before those of the others. -/
theorem ArgsExpiry.bind {l : List (Nat × GateArg)} {a : GateArg} {w e : Acc Unit} {f g : State → Acc Unit} (hkind : a.kind ≠ 0)
    (h : Expiry c n i (probeKind a) w e) (hrest : ∀ s, ArgsExpiry c n l (f s) (g s)) :
    ArgsExpiry c n ((i, a) :: l) (w.bind fun _ s => f s) (e.bind fun _ s => g s) := by
  obtain ⟨rfl, hgo⟩ | ⟨s3, rfl, va, s4, hva, htrans, rfl⟩ := h
  · cases e with
    | ok _ t => exact (hrest t).cons _
    | exc e t => exact .inl ⟨rfl, fun _ h => by cases h⟩
    | wait t => exact absurd rfl (hgo t)
  · exact .inr ⟨s3, rfl, (i, a), List.mem_cons_self, hkind, va, s4, hva, htrans, rfl⟩

theorem probeArgs_expiry : ∀ (l : List (Nat × GateArg)) (s : State), ArgsExpiry c n l (probeArgs c n false l s) (probeArgs c n true l s) := by
  intro l
  induction l with
  | nil => exact fun s => .inl ⟨rfl, fun _ h => by cases h⟩
  | cons p l ih =>
    obtain ⟨i, a⟩ := p
    intro s
    by_cases hkind : a.kind = 0
    · have hskip (tmo : Bool) : probeArgs c n tmo ((i, a) :: l) s = probeArgs c n tmo l s := if_pos hkind
      rw [hskip, hskip]
      exact (ih s).cons _
    · have hgo (tmo : Bool) : probeArgs c n tmo ((i, a) :: l) s = _ := if_neg hkind
      rw [hgo, hgo]
      dsimp only
      split
      · exact .inl ⟨rfl, fun _ h => by cases h⟩
      · exact .bind hkind (probePages_expiry _ _ _ s) ih

end Probe

/-! ### Gates -/

section Gate
variable {c : CoreId} {n : Nat} {tmo : Bool} {r : Resp} {b : List Byte} {s s2 : State}

/-- The address of a gate's entry. -/
abbrev gateAddr (s : State) (c : CoreId) (n : Nat) : Nat := (s.sr c 0x104).toNat * 0x10000 + 32 * n

theorem gateBody_lend (h : atLend s c = true) : gateBody c n tmo s = .exc (excIllegal (encSys 0 0 n 4)) s := if_pos h

theorem gateBody_range (h : atLend s c = false) (hn : Nat.min 1024 (s.srf c 0x105 10 0) ≤ n) : gateBody c n tmo s = .exc ⟨0x11, 0, none, none⟩ s :=
  (if_neg (by simp [h])).trans (if_pos hn)

/-- What a gate in range makes of its entry once it has been read. -/
def gateRead (c : CoreId) (n : Nat) (tmo : Bool) (pa : Nat) (r : Resp) (b : List Byte) (s : State) : Acc Flow :=
  if sramFails c pa r then .exc (respExc .load r pa) s
  else if r ≠ rOKAY then .exc (.plain cVECFAULT (BitVec.ofNat 32 pa)) s
  else if gateBad c (gateOf b) (s.lvl c) then .exc ⟨cGATE_ENTRY, 0, none, none⟩ s
  else (probeArgs c n tmo ((List.range 4).zip (gateOf b).args) s).bind fun _ s2 =>
    if (gateOf b).lvl = 3 then
      let s3 := drain c s2
      if !drained s3 c then .wait s3
      else if (s3.core c).stPend then .exc ⟨cSTORE_ERR, 0, none, none⟩ s3
      else .ok .placed (gateEnter c n (gateOf b) s3)
    else .ok .placed (gateEnter c n (gateOf b) s2)

theorem gateBody_read (h : atLend s c = false) (hn : n < Nat.min 1024 (s.srf c 0x105 10 0)) (hread : readPhys c (gateAddr s c n) 32 s = (.done r b, s2)) :
    gateBody c n tmo s = gateRead c n tmo (gateAddr s c n) r b s2 := by
  refine (if_neg (by simp [h])).trans ((if_neg (Nat.not_le.mpr hn)).trans ?_)
  dsimp only
  rw [hread]
  rfl

theorem not_sramFails_okay {pa : Nat} : sramFails c pa rOKAY = false := by simp [sramFails, rOKAY, rECC]

theorem gateRead_failed {pa : Nat} (h : sramFails c pa r = true) : gateRead c n tmo pa r b s = .exc (.plain cMCHK (BitVec.ofNat 32 pa)) s := by
  have hecc : r = rECC := by
    simp only [sramFails, Bool.and_eq_true, beq_iff_eq] at h
    exact h.2
  refine (if_pos h).trans ?_
  rw [hecc]
  rfl

theorem gateRead_fault {pa : Nat} (hr : r ≠ rOKAY) (h : sramFails c pa r = false) : gateRead c n tmo pa r b s = .exc ⟨0x17, 0, some (BitVec.ofNat 32 pa), none⟩ s :=
  (if_neg (by simp [h])).trans (if_pos hr)

theorem gateRead_bad {pa : Nat} (hbad : gateBad c (gateOf b) (s.lvl c) = true) : gateRead c n tmo pa rOKAY b s = .exc ⟨0x12, 0, none, none⟩ s :=
  (if_neg (by simp [not_sramFails_okay])).trans ((if_neg (by simp)).trans (if_pos hbad))

/-- A usable entry that was read well has its arguments probed. -/
theorem gateRead_usable {pa : Nat} (hbad : gateBad c (gateOf b) (s.lvl c) = false) : gateRead c n tmo pa rOKAY b s =
    (probeArgs c n tmo ((List.range 4).zip (gateOf b).args) s).bind fun _ s2 =>
      if (gateOf b).lvl = 3 then
        let s3 := drain c s2
        if !drained s3 c then .wait s3
        else if (s3.core c).stPend then .exc ⟨cSTORE_ERR, 0, none, none⟩ s3
        else .ok .placed (gateEnter c n (gateOf b) s3)
      else .ok .placed (gateEnter c n (gateOf b) s2) := by
  unfold gateRead
  rw [if_neg (by simp [not_sramFails_okay]), if_neg (by simp), if_neg (by simp [hbad])]

/-- A pointer argument of a usable entry is one to read or one to write. -/
theorem kind_of_usable {lvl : Level} {i : Nat} {a : GateArg} (hbad : gateBad c (gateOf b) lvl = false) (hmem : (i, a) ∈ (List.range 4).zip (gateOf b).args)
    (hkind : a.kind ≠ 0) : i < 4 ∧ (((gateOf b).args[i]?.map fun g => g.kind) = some 1 ∧ probeKind a = .probeR ∨
      ((gateOf b).args[i]?.map fun g => g.kind) = some 2 ∧ probeKind a = .probeW) := by
  have hlt : a.kind < 4 := by
    have ha := (List.of_mem_zip hmem).2
    simp only [gateOf, List.mem_map] at ha
    obtain ⟨j, -, rfl⟩ := ha
    exact Nat.mod_lt _ (by decide)
  have hne : a.kind ≠ 3 := by
    have ha := (List.of_mem_zip hmem).2
    have hany : ((gateOf b).args.any fun a => a.kind == 3) = false := by
      simp only [gateBad, Bool.or_eq_false_iff] at hbad
      exact hbad.1.2
    simpa using List.any_eq_false.mp hany a ha
  obtain ⟨j, hj⟩ := List.mem_iff_getElem?.mp hmem
  have hi : i < 4 := List.mem_range.mp (List.of_mem_zip hmem).1
  rw [List.getElem?_zip_eq_some] at hj
  obtain ⟨hj1, hj2⟩ := hj
  have hij : j = i := by
    rw [List.getElem?_eq_some_iff] at hj1
    obtain ⟨_, hj1⟩ := hj1
    simpa using hj1
  subst hij
  rw [hj2]
  refine ⟨hi, ?_⟩
  have hcases : a.kind = 1 ∨ a.kind = 2 := by omega
  obtain h | h := hcases
  · exact .inl ⟨by simp [h], by simp [probeKind, h]⟩
  · exact .inr ⟨by simp [h], by simp [probeKind, h]⟩

end Gate

/-! ### TLBI -/

section Tlbi
variable {c : CoreId} {ga gb : GReg} {ty : Nat} {s : State}

theorem tlbiBody_refused {e : Exc} (h : invRefusal s c ty (encInv gb.val ga.val ty 10) = some e) : tlbiBody c ga gb ty s = .exc e s := by
  unfold tlbiBody
  rw [h]

theorem invRefusal_illegal {w : Word} (h : c = siCore ∨ 4 < ty) : invRefusal s c ty w = some (excIllegal w) := if_pos (by simpa [isSI] using h)

theorem invRefusal_priv {w : Word} (hc : c ≠ siCore) (hty : ty ≤ 4) (h : s.lvl c = .u ∨ (s.lvl c = .s ∧ (ty = 0 ∨ ty = 1 ∨ ty = 4))) :
    invRefusal s c ty w = some (excPriv w) :=
  (if_neg (by simp [isSI, hc, hty])).trans (if_pos (by obtain h | ⟨h, rfl | rfl | rfl⟩ := h <;> simp [h]))

theorem invRefusal_none {w : Word} (hc : c ≠ siCore) (hty : ty ≤ 4) (h : s.lvl c = .m ∨ (s.lvl c = .s ∧ (ty = 2 ∨ ty = 3))) :
    invRefusal s c ty w = none :=
  (if_neg (by simp [isSI, hc, hty])).trans (if_neg (by obtain h | ⟨h, rfl | rfl⟩ := h <;> simp [h]))

/-- The copies removed, once. -/
def removed (c : CoreId) (ga gb : GReg) (ty : Nat) (s : State) : State :=
  if (s.core c).marked then s
  else (invalidate (some c.val) ty (invScope s c ga gb).1 (invScope s c ga gb).2.1 (invScope s c ga gb).2.2 s).modCore c fun k => { k with marked := true }

/-- A TLBI that is not refused, with its stores drained. -/
theorem tlbiBody_go (h : invRefusal s c ty (encInv gb.val ga.val ty 10) = none) (hdrained : drained s c = true) :
    tlbiBody c ga gb ty s = if walksPending (removed c ga gb ty s) c.val then .wait (removed c ga gb ty s) else .ok .next (refetch c (removed c ga gb ty s)) := by
  unfold tlbiBody
  rw [h]
  exact if_neg (by simp [hdrained])

end Tlbi

/-- Who may invalidate what, by the number of the TYPE. -/
theorem managed {l : Level} {ty : BitVec 4} (h : l = .m ∨ (l = .s ∧ (ty = 2 ∨ ty = 3))) : l = .m ∨ (l = .s ∧ (ty.toNat = 2 ∨ ty.toNat = 3)) :=
  h.imp_right (And.imp_right fun h => by obtain rfl | rfl := h <;> simp)

/-- A walk that ends keeps its outcome where an agent wants it. -/
theorem walkEnded {w : WalkRec} {r : XRes} {l : List WalkRec} {s : State} :
    (if w.wanted then { s with walks := l ++ [{ w with res := some r }] } else { s with walks := l }) =
      { s with walks := l ++ (if w.wanted then [{ w with res := some r }] else []) } := by
  by_cases hwanted : w.wanted = true
  · rw [if_pos hwanted, if_pos hwanted]
  · rw [if_neg hwanted, if_neg hwanted, List.append_nil]

/-- A walk that is answered and not in a queue ends. -/
theorem walkDone_answered {i : Nat} {w : WalkRec} {r : XRes} {l : List LinkRsp} {s s1 : State} (hw : s.walks[i]? = some w) (hres : w.res = none)
    (hqueued : w.queued = false) (hr : r ≠ .wait) (hrun : walkRun w s = (r, l, s1)) :
    walkDone i s = { s1 with walks := s1.walks.eraseIdx i ++ (if w.wanted then [{ w with res := some r }] else []) } := by
  have hself : (if w.queued then { w with queued := false, cfg := mmuCfg s w.part } else w) = w := if_neg (by simp [hqueued])
  unfold walkDone
  rw [hw]
  refine (if_neg (by simp [hres, hqueued])).trans ?_
  dsimp only
  rw [hself, hrun]
  cases r with
  | wait => exact absurd rfl hr
  | _ => exact walkEnded

/-- Settles O25: a gate and a TLBI are what their bodies make of their entry and their walks. -/
theorem gateAndTlbiComplete : Obligations.GateAndTlbiComplete := by
  unfold Obligations.GateAndTlbiComplete
  refine ⟨⟨fun c n s s1 h => ⟨fun hlend => exec_taken h rfl (gateBody_lend hlend), fun hlend hn => exec_taken h rfl (gateBody_range hlend hn),
    fun r b s2 hlend hn hread => ⟨fun hfail => ?_, fun hr hfine => ?_, fun hr hbad => ?_, fun s3 hr hgood hprobe => ⟨fun hlvl => ?_, fun hlvl hdr hst => ?_⟩⟩⟩,
    fun c n s s1 s2 b hstall hwalks h hlend hn hread hgood s3 hprobe => ?_⟩,
    fun c ga gb ty s s1 h => ⟨fun hill => exec_taken h rfl (tlbiBody_refused (invRefusal_illegal hill)), fun hc hty hl => ?_, fun s2 hc hty hl hdr hm hs2 => ?_⟩,
    fun c ga gb ty s s1 hstall h hc hty hl hdr hm hdone => ?_, fun i w r l s s1 hpwr hw hres hq hr hrun => ?_⟩
  · exact exec_taken h rfl ((gateBody_read hlend hn hread).trans (gateRead_failed hfail))
  · exact exec_taken h rfl ((gateBody_read hlend hn hread).trans (gateRead_fault hr hfine))
  · subst hr
    exact exec_taken h rfl ((gateBody_read hlend hn hread).trans (gateRead_bad hbad))
  · subst hr
    refine exec_placed h rfl ((gateBody_read hlend hn hread).trans ((gateRead_usable hgood).trans ?_))
    rw [hprobe]
    exact if_neg hlvl
  · subst hr
    refine exec_placed h rfl ((gateBody_read hlend hn hread).trans ((gateRead_usable hgood).trans ?_))
    rw [hprobe]
    exact (if_pos hlvl).trans ((if_neg (by simp [hdr])).trans (if_neg (by simp [hst])))
  · obtain ⟨-, hgo⟩ | ⟨s4, hw, p, hp, hkind, va, u, hva, htrans, hexp⟩ := probeArgs_expiry (c := c) (n := n.toNat) ((List.range 4).zip (gateOf b).args) s2
    · exact absurd hprobe (hgo s3)
    · cases hprobe.symm.trans hw
      obtain ⟨hi, hk⟩ := kind_of_usable hgood hp hkind
      refine ⟨p.1, va, probeKind p.2, u, hi, hva, htrans, hk, ?_⟩
      have hbody : gateBody c n.toNat true s1 = .exc ⟨0x10, gateArgInfo n.toNat p.1 true, some (BitVec.ofNat 32 va), none⟩ s3 := by
        rw [gateBody_read hlend hn hread, gateRead_usable hgood, hexp]
        rfl
      have hexec : exec (.gateProbeTimeout c) s = .next (run c (.gate c n) .none (gateBody c n.toNat true) s) := by
        show Host.Outcome.next _ = _
        rw [hstall]
        exact congrArg Host.Outcome.next (if_pos hwalks)
      rw [hexec, run_go h, hbody]
      rfl
  · have hl' : s1.lvl c = .u ∨ (s1.lvl c = .s ∧ (ty.toNat = 0 ∨ ty.toNat = 1 ∨ ty.toNat = 4)) :=
      hl.imp_right (And.imp_right fun h => by obtain rfl | rfl | rfl := h <;> simp)
    exact exec_taken h rfl (tlbiBody_refused (invRefusal_priv hc hty hl'))
  · have hbody := tlbiBody_go (invRefusal_none hc hty (managed hl) : invRefusal s1 c ty.toNat (encInv gb.val ga.val ty.toNat 10) = none) hdr
    have hremoved : removed c ga gb ty.toNat s1 = s2 := (if_neg (by simp [hm])).trans hs2.symm
    rw [hremoved] at hbody
    split
    case isTrue hpend => exact exec_stalled h rfl (hbody.trans (if_pos hpend))
    case isFalse hpend => exact exec_next h rfl (hbody.trans (if_neg hpend))
  · have hbody := tlbiBody_go (invRefusal_none hc hty (managed hl) : invRefusal s1 c ty.toNat (encInv gb.val ga.val ty.toNat 10) = none) hdr
    rw [show removed c ga gb ty.toNat s1 = s1 from if_pos hm, if_neg (by simp [hdone])] at hbody
    have hexec : exec (.tlbiWalksDone c) s = .next (run c (.tlbi c ga gb ty) .none (tlbiBody c ga gb ty.toNat) s) := by
      show Host.Outcome.next _ = _
      rw [hstall]
    rw [hexec, run_go h, hbody]
    rfl
  · exact congrArg Host.Outcome.next ((if_pos hpwr).trans (walkDone_answered hw hres hq hr hrun))

end Sys2Proof.GatesAndTlbi

/-! Short-vector operations and accesses (R216 to R221). -/
namespace Sys2Proof.ShortVectors
open Sys2Proof.Machine Stated Issued

/-! ### Operations -/

/-- What each row runs. -/
theorem exec_svu : ∀ q ∈ svuRows, ∀ (c : CoreId) (d a b : QReg) (ty : BitVec 4) (rm : BitVec 3) (s : State), exec (q.1 c d a b ty rm) s =
    .next (run c (q.1 c d a b ty rm) .none (svuBody c q.2.1 d a b ty rm q.2.2.1 q.2.2.2) s) := by
  iterate 44 refine List.forall_mem_cons.mpr ⟨fun _ _ _ _ _ _ _ => rfl, ?_⟩
  exact List.forall_mem_nil _

section Operation
variable {c : CoreId} {fn : Nat} {d a b : QReg} {ty : BitVec 4} {rm : BitVec 3} {types : Ty → Bool} {f : Ty → Rm → Nat → Nat → Nat → Nat × FFlags} {s : State}

theorem svuBody_illegal (h : c = siCore ∨ svuTy ty.toNat = none ∨ fpRm s c rm = none ∨ ∃ t, svuTy ty.toNat = some t ∧ types t = false) :
    svuBody c fn d a b ty rm types f s = .exc (excIllegal (encQ d.val a.val b.val ty.toNat rm.toNat fn)) s := by
  unfold svuBody
  by_cases hc : c = siCore
  · exact if_pos (by simp [isSI, hc])
  · refine (if_neg (by simp [isSI, hc])).trans ?_
    obtain h | h | h | ⟨t, ht, htypes⟩ := h
    · exact absurd h hc
    · rw [h]
    · rw [h]
      cases svuTy ty.toNat <;> rfl
    · rw [ht]
      cases fpRm s c rm with
      | none => rfl
      | some r => exact if_neg (by simp [htypes])

/-- An operation of a type of its row, under a direction of rounding. -/
theorem svuBody_legal {t : Ty} {r : Rm} (hc : c ≠ siCore) (ht : svuTy ty.toNat = some t) (hr : fpRm s c rm = some r) (htypes : types t = true) :
    svuBody c fn d a b ty rm types f s = (svuAwake c s).bind fun _ s1 =>
      .ok .next ((fpRaise c (f t r (qNat s1 c a) (qNat s1 c b) (qNat s1 c d)).2 s1).setQ c d (BitVec.ofNat 128 (f t r (qNat s1 c a) (qNat s1 c b) (qNat s1 c d)).1)) := by
  unfold svuBody
  refine (if_neg (by simp [isSI, hc])).trans ?_
  rw [ht, hr]
  exact if_pos htypes

theorem svuAwake_on (h : wbit (s.sr c 0x030) 31 = true) : svuAwake c s = .ok () (s.setSr c 0x030 (putFld (s.sr c 0x030) 13 0 0)) := if_pos h

theorem svuAwake_off (h : wbit (s.sr c 0x030) 31 = false) : svuAwake c s = .wait (s.modCore c fun k => { k with svuWaking := true }) := if_neg (by simp [h])

end Operation

/-- Settles O29: outside its types an operation is ILLEGAL, and within them the unit's power decides. -/
theorem shortVectorOperationsComplete : Obligations.ShortVectorOperationsComplete := by
  unfold Obligations.ShortVectorOperationsComplete
  intro q hq c d a b ty rm s s1 h
  have he := exec_svu q hq c d a b ty rm s
  refine ⟨fun hill => exec_taken h he (svuBody_illegal hill), fun t r hc ht hr htypes => ⟨fun hon => ?_, fun hoff => ?_⟩⟩
  · refine exec_next h he ((svuBody_legal hc ht hr htypes).trans ?_)
    rw [svuAwake_on hon]
    rfl
  · refine exec_stalled h he ((svuBody_legal hc ht hr htypes).trans ?_)
    rw [svuAwake_off hoff]
    rfl

/-! ### Accesses -/

/-- The element size field that a row of `k` registers encodes. -/
def sizeField (k : Nat) (esz : BitVec 2) : Nat := if k = 1 then 0 else esz.toNat

theorem qmSize_sizeField (k : Nat) (esz : BitVec 2) : qmSize k (sizeField k esz) = qmElem k esz := by
  unfold qmSize sizeField qmElem
  split
  · rfl
  · rfl

theorem exec_svuLoad : ∀ q ∈ svuLoadRows, ∀ (c : CoreId) (d : QReg) (a : GReg) (esz : BitVec 2) (off : BitVec 12) (s : State),
    exec (q.1 c d a esz off) s = .next (run c (q.1 c d a esz off) .none (qmLoad c q.2 d a (sizeField q.2 esz) off) s) := by
  iterate 4 refine List.forall_mem_cons.mpr ⟨fun _ _ _ _ _ _ => rfl, ?_⟩
  exact List.forall_mem_nil _

theorem exec_svuStore : ∀ q ∈ svuStoreRows, ∀ (c : CoreId) (d : QReg) (a : GReg) (esz : BitVec 2) (off : BitVec 12) (s : State),
    exec (q.1 c d a esz off) s = .next (run c (q.1 c d a esz off) .none (qmStore c q.2 d a (sizeField q.2 esz) off) s) := by
  iterate 4 refine List.forall_mem_cons.mpr ⟨fun _ _ _ _ _ _ => rfl, ?_⟩
  exact List.forall_mem_nil _

theorem bind_of_ok {α β : Type} {m : Acc α} {f : α → State → Acc β} {x : α} {t : State} (h : m = .ok x t) : m.bind f = f x t := by
  rw [h]
  rfl

section Access
variable {c : CoreId} {k : Nat} {d : QReg} {a : GReg} {esz : BitVec 2} {off : BitVec 12} {s s2 s3 s4 : State} {ps : List Piece}

theorem qmLoad_illegal {n : Nat} (h : c = siCore ∨ 15 < d.val + k - 1) :
    qmLoad c k d a n off s = .exc (excIllegal (encQM d.val a.val (k - 1) n 0 off.toNat)) s := if_pos (by simpa [isSI] using h)

theorem qmStore_illegal {n : Nat} (h : c = siCore ∨ 15 < d.val + k - 1) :
    qmStore c k d a n off s = .exc (excIllegal (encQM d.val a.val (k - 1) n 1 off.toNat)) s := if_pos (by simpa [isSI] using h)

/-- A load deals the bytes that it reads to its registers. -/
theorem qmLoad_loaded {b : List Byte} (hc : c ≠ siCore) (hd : d.val + k - 1 ≤ 15) (hon : wbit (s.sr c 0x030) 31 = true)
    (hs2 : s2 = s.setSr c 0x030 (putFld (s.sr c 0x030) 13 0 0))
    (htrans : transPieces c (s2.g c a + (off.signExtend 32 <<< 4)).toNat (16 * k) .load
      ((s2.g c a + (off.signExtend 32 <<< 4)).toNat % qmElem k esz != 0) s2 = .ok ps s3) (hload : loadPieces c ps s3 = .ok b s4) :
    qmLoad c k d a (sizeField k esz) off s = .ok .next ((List.range k).foldl (fun t r =>
      t.setQ c (qno (d.val + r)) (BitVec.ofNat 128 (leNat (qDeal k (qmElem k esz) r b)))) s4) := by
  refine (if_neg (by simp [isSI, hc]; omega)).trans ((bind_of_ok ((svuAwake_on hon).trans (congrArg _ hs2.symm))).trans ?_)
  rw [qmSize_sizeField]
  exact (bind_of_ok htrans).trans (bind_of_ok hload)

/-- A store gathers its bytes from its registers. -/
theorem qmStore_stored (hc : c ≠ siCore) (hd : d.val + k - 1 ≤ 15) (hon : wbit (s.sr c 0x030) 31 = true)
    (hs2 : s2 = s.setSr c 0x030 (putFld (s.sr c 0x030) 13 0 0))
    (htrans : transPieces c (s2.g c a + (off.signExtend 32 <<< 4)).toNat (16 * k) .store
      ((s2.g c a + (off.signExtend 32 <<< 4)).toNat % qmElem k esz != 0) s2 = .ok ps s3)
    (hstore : storePieces c ps (qGather k (qmElem k esz) ((List.range k).map fun r => leBytes 16 (qNat s2 c (qno (d.val + r))))) s3 = .ok () s4) :
    qmStore c k d a (sizeField k esz) off s = .ok .next s4 := by
  refine (if_neg (by simp [isSI, hc]; omega)).trans ((bind_of_ok ((svuAwake_on hon).trans (congrArg _ hs2.symm))).trans ?_)
  rw [qmSize_sizeField]
  exact (bind_of_ok htrans).trans (bind_of_ok hstore)

end Access

/-- Settles O30: a load deals, a store gathers, and a row that names a register above Q15, or the Safety Island, is ILLEGAL. -/
theorem shortVectorAccessesComplete : Obligations.ShortVectorAccessesComplete := by
  unfold Obligations.ShortVectorAccessesComplete
  refine ⟨fun q hq c d a esz off s s1 h s2 ps s3 b s4 hc hd hon hs2 htrans hload => ?_,
    fun q hq c d a esz off s s1 h s2 ps s3 s4 hc hd hon hs2 htrans hstore => ?_,
    fun c d a esz off s s1 => ⟨fun q hq hill h => ?_, fun q hq hill h => ?_⟩⟩
  · exact exec_next h (exec_svuLoad q hq c d a esz off s) (qmLoad_loaded hc hd hon hs2 htrans hload)
  · exact exec_next h (exec_svuStore q hq c d a esz off s) (qmStore_stored hc hd hon hs2 htrans hstore)
  · exact exec_taken h (exec_svuLoad q hq c d a esz off s) (qmLoad_illegal hill)
  · exact exec_taken h (exec_svuStore q hq c d a esz off s) (qmStore_illegal hill)

end Sys2Proof.ShortVectors

/-! The vector class of a core: its refusals, its descriptors, its commands and its contexts (R63 to R68, R104, R112 to R119, R163, R172, R404). -/
namespace Sys2Proof.VectorClass
open Sys2Proof.Machine Stated Issued

/-! ### How an issued instruction ends -/

section Run
variable {c : CoreId} {i : Instr} {k : SyncKind} {body : State → Acc Flow} {s s1 s2 : State}

/-- An instruction that was stalled ends like one that is issued. -/
theorem run_next (h : Issues c i k s s1) (hb : body s1 = .ok .next s2) : run c i k body s = Done c .next s2 := by
  rw [run_go h, hb]
  rfl

theorem exec_waits_or {p : Bool} {t : State} (h : Issues c i k s s1) (he : exec i s = .next (run c i k body s))
    (hb : body s1 = if p then .wait s2 else .ok .next t) : exec i s = .next (if p then Waits c i s2 else Done c .next t) := by
  cases p with
  | true => exact exec_stalled h he hb
  | false => exact exec_next h he hb

end Run

/-! ### Refusals -/

section Refusals
variable {c : CoreId} {w : Word} {s : State} {x : CtxId}

theorem vecAllowed_island {k : State → Acc Flow} (h : c = siCore) : vecAllowed c w k s = .exc (excIllegal w) s := if_pos (by simp [isSI, h])

theorem vecAllowed_app {k : State → Acc Flow} (h : c ≠ siCore) : vecAllowed c w k s = k s := if_neg (by simp [isSI, h])

theorem withCtx_unbound {k : CtxId → State → Acc Flow} (h : boundCtx s c = none) : withCtx c w k s = .exc (.plain 0x15 w) s := by
  unfold withCtx
  rw [h]
  rfl

theorem withCtx_bound {k : CtxId → State → Acc Flow} (h : boundCtx s c = some x) : withCtx c w k s = k x s := by
  unfold withCtx
  rw [h]

theorem ctxInstr_island {k : State → Acc Flow} (h : c = siCore) : ctxInstr c w k s = .exc (excIllegal w) s := vecAllowed_island h

theorem ctxInstr_user {k : State → Acc Flow} (hc : c ≠ siCore) (h : s.lvl c = .u) : ctxInstr c w k s = .exc (excPriv w) s :=
  (vecAllowed_app hc).trans (if_pos (by simp [h]))

theorem ctxInstr_managed {k : State → Acc Flow} (hc : c ≠ siCore) (h : s.lvl c ≠ .u) : ctxInstr c w k s = k s :=
  (vecAllowed_app hc).trans (if_neg (by simpa using h))

theorem vinvBody_refused {ga gb : GReg} {ty : Nat} {e : Exc} (h : invRefusal s c ty (encInv gb.val ga.val ty 11) = some e) :
    vinvBody c ga gb ty s = .exc e s := by
  unfold vinvBody
  rw [h]

theorem vsdBody_app {gs gt : GReg} {sd v : Nat} (hc : c ≠ siCore) : vsdBody c gs gt sd v s =
    if v = 7 ∧ 16 ≤ sd then .exc (excIllegal (encVsd gs.val gt.val sd v)) s
    else withCtx c (encVsd gs.val gt.val sd v) (fun x => descWrite c (encVsd gs.val gt.val sd v) x (v == 7) sd 1
      fun t => .ok .next (vsdWrite x sd v (t.g c gs) (t.g c gt) t)) s := if_neg (by simp [isSI, hc])

/-- What a VLDD does once it may write its descriptors. -/
def vlddGo (c : CoreId) (gs : GReg) (sd n : Nat) (x : CtxId) (t : State) : Acc Flow :=
  if (t.g c gs).toNat % 32 ≠ 0 then .exc (.plain cALIGN (t.g c gs)) t
  else (loadRange c (t.g c gs).toNat (32 * n) t).bind fun b t1 => .ok .next (loadDescs x sd n b t1)

theorem vlddBody_app {gs : GReg} {sd n1 : Nat} (hc : c ≠ siCore) : vlddBody c gs sd n1 s =
    if 64 < sd + (n1 + 1) then .exc (excIllegal (encVldd gs.val sd n1)) s
    else withCtx c (encVldd gs.val sd n1) (fun x => descWrite c (encVldd gs.val sd n1) x false sd (n1 + 1) (vlddGo c gs sd (n1 + 1) x)) s :=
  if_neg (by simp [isSI, hc])

/-- What each vector-class instruction runs is illegal on the Safety Island, and a context instruction is privileged. -/
theorem vecWords_body (c : CoreId) (a b d : GReg) (sd n1 : BitVec 6) (w : BitVec 3) (ty : BitVec 4) : ∀ q ∈ vecWords c a b d sd n1 w ty,
    ∃ body : State → Acc Flow, (∀ s, exec q.1 s = .next (run c q.1 .none body s)) ∧ (∀ s, c = siCore → body s = .exc (excIllegal q.2.1) s) ∧
      (q.2.2 = true → ∀ s, c ≠ siCore → s.lvl c = .u → ty.toNat ≤ 4 → body s = .exc (excPriv q.2.1) s) := by
  refine List.forall_mem_cons.mpr ⟨⟨vsdBody c a b sd.toNat w.toNat, fun _ => rfl, fun _ h => if_pos (by simp [isSI, h]), nofun⟩, ?_⟩
  refine List.forall_mem_cons.mpr ⟨⟨vlddBody c a sd.toNat n1.toNat, fun _ => rfl, fun _ h => if_pos (by simp [isSI, h]), nofun⟩, ?_⟩
  refine List.forall_mem_cons.mpr ⟨⟨vissueBody c d a b, fun _ => rfl, fun _ => vecAllowed_island, nofun⟩, ?_⟩
  refine List.forall_mem_cons.mpr ⟨⟨vfenceBody c a, fun _ => rfl, fun _ => vecAllowed_island, nofun⟩, ?_⟩
  refine List.forall_mem_cons.mpr ⟨⟨vctxAllocBody c d, fun _ => rfl, fun _ => ctxInstr_island, fun _ _ hc hl _ => ctxInstr_user hc hl⟩, ?_⟩
  refine List.forall_mem_cons.mpr ⟨⟨vctxFreeBody c d a, fun _ => rfl, fun _ => ctxInstr_island, fun _ _ hc hl _ => ctxInstr_user hc hl⟩, ?_⟩
  refine List.forall_mem_cons.mpr ⟨⟨vbindBody c d a, fun _ => rfl, fun _ => ctxInstr_island, fun _ _ hc hl _ => ctxInstr_user hc hl⟩, ?_⟩
  refine List.forall_mem_cons.mpr ⟨⟨veaownBody c d a, fun _ => rfl, fun _ => ctxInstr_island, fun _ _ hc hl _ => ctxInstr_user hc hl⟩, ?_⟩
  refine List.forall_mem_cons.mpr ⟨⟨vcsaveBody c d a b, fun _ => rfl, fun _ => ctxInstr_island, fun _ _ hc hl _ => ctxInstr_user hc hl⟩, ?_⟩
  refine List.forall_mem_cons.mpr ⟨⟨vcrstBody c d a, fun _ => rfl, fun _ => ctxInstr_island, fun _ _ hc hl _ => ctxInstr_user hc hl⟩, ?_⟩
  refine List.forall_mem_cons.mpr ⟨⟨vsuspBody c d a, fun _ => rfl, fun _ => ctxInstr_island, fun _ _ hc hl _ => ctxInstr_user hc hl⟩, ?_⟩
  refine List.forall_mem_cons.mpr ⟨⟨vresumeBody c d a b, fun _ => rfl, fun _ => ctxInstr_island, fun _ _ hc hl _ => ctxInstr_user hc hl⟩, ?_⟩
  refine List.forall_mem_cons.mpr ⟨⟨vinvBody c a b ty.toNat, fun _ => rfl, fun _ hc => vinvBody_refused (GatesAndTlbi.invRefusal_illegal (.inl hc)),
    fun _ _ hc hl hty => vinvBody_refused (GatesAndTlbi.invRefusal_priv hc hty (.inl hl))⟩, ?_⟩
  exact List.forall_mem_nil _

end Refusals

theorem seven_iff (w : BitVec 3) : w.toNat = 7 ↔ w = 7 := ⟨fun h => BitVec.eq_of_toNat_eq h, fun h => h ▸ rfl⟩

/-- Settles O31: the vector class is illegal on the Safety Island, its context instructions are privileged, and it needs a bound context. -/
theorem vectorClassRefusals : Obligations.VectorClassRefusals := by
  unfold Obligations.VectorClassRefusals
  refine ⟨fun a b d sd n1 w ty s s1 q hq h => ?_, fun c a b d sd n1 w ty s s1 hc hl hty q hq hp h => ?_,
    fun c a b d sd n1 w s s1 hc hnone => ⟨fun h => exec_taken h rfl ((vsdBody_app hc).trans ?_), fun h => exec_taken h rfl ((vlddBody_app hc).trans ?_),
      fun h => exec_taken h rfl ((vecAllowed_app hc).trans (withCtx_unbound hnone)),
      fun h => exec_taken h rfl ((vecAllowed_app hc).trans (withCtx_unbound hnone)),
      fun hl h => exec_taken h rfl ((ctxInstr_managed hc hl).trans (withCtx_unbound hnone))⟩⟩
  · obtain ⟨body, hexec, hillegal, -⟩ := vecWords_body siCore a b d sd n1 w ty q hq
    exact exec_taken h (hexec s) (hillegal s1 rfl)
  · obtain ⟨body, hexec, -, hpriv⟩ := vecWords_body c a b d sd n1 w ty q hq
    exact exec_taken h (hexec s) (hpriv hp s1 hc hl hty)
  · simp only [withCtx_unbound hnone, seven_iff w]
    exact (apply_ite (Acc.exc · s1) ..).symm
  · rw [withCtx_unbound hnone]
    exact (apply_ite (Acc.exc · s1) ..).symm

/-! ### Descriptors -/

section Descriptors
variable {c : CoreId} {w : Word} {s s2 : State} {x : CtxId} {k : State → Acc Flow} {ln : Bool} {d n : Nat}

theorem awaitGroups_eq {p : Nat → Grp → Bool} (h : s2 = if (s.core c).marked then s else groupsNamed c x p s) :
    awaitGroups c x p k s = if groupsPending s2 c then .wait s2 else k s2 := by
  subst h
  rfl

theorem descWrite_opened (h : ((s.vc x).opened.any fun q => namesAny s x ln d n q.w) = true) :
    descWrite c w x ln d n k s = .exc (.plain 0x14 w) s := if_pos h

theorem descWrite_closed (h : ((s.vc x).opened.any fun q => namesAny s x ln d n q.w) = false)
    (hs2 : s2 = if (s.core c).marked then s else groupsNamed c x (fun _ g => g.cmds.any fun q => namesAny s x ln d n q.w) s) :
    descWrite c w x ln d n k s = if groupsPending s2 c then .wait s2 else k s2 := (if_neg (by simp [h])).trans (awaitGroups_eq hs2)

theorem vsdBody_bound {gs gt : GReg} {sd v : Nat} (hb : BoundTo s c x) (hw : ¬(v = 7 ∧ 16 ≤ sd)) :
    vsdBody c gs gt sd v s = descWrite c (encVsd gs.val gt.val sd v) x (v == 7) sd 1
      (fun t => .ok .next (vsdWrite x sd v (t.g c gs) (t.g c gt) t)) s :=
  (vsdBody_app hb.1).trans ((if_neg hw).trans (withCtx_bound hb.2))

theorem vlddBody_bound {gs : GReg} {sd n1 : Nat} (hb : BoundTo s c x) (hn : sd + (n1 + 1) ≤ 64) :
    vlddBody c gs sd n1 s = descWrite c (encVldd gs.val sd n1) x false sd (n1 + 1) (vlddGo c gs sd (n1 + 1) x) s :=
  (vlddBody_app hb.1).trans ((if_neg (Nat.not_lt.mpr hn)).trans (withCtx_bound hb.2))

theorem vlddGo_loaded {gs : GReg} {sd : Nat} {l : List Byte} {t : State} (ha : (s.g c gs).toNat % 32 = 0)
    (hl : loadRange c (s.g c gs).toNat (32 * n) s = .ok l t) : vlddGo c gs sd n x s = .ok .next (loadDescs x sd n l t) :=
  (if_neg (by simp [ha])).trans (ShortVectors.bind_of_ok hl)

/-- The wait is over for a core that has named its groups and none of which is left. -/
theorem descWrite_released (h : ((s.vc x).opened.any fun q => namesAny s x ln d n q.w) = false) (hm : (s.core c).marked = true)
    (hp : groupsPending s c = false) : descWrite c w x ln d n k s = k s :=
  (descWrite_closed h (if_pos hm).symm).trans (if_neg (by simp [hp]))

end Descriptors

/-! ### VISSUE -/

section Vissue
variable {c : CoreId} {d a b : GReg} {x : CtxId} {s : State}

/-- The state in which a command is queued, and its number given to Gd. -/
def issued (c : CoreId) (d a b : GReg) (x : CtxId) (s : State) : State :=
  (queueCmd x ⟨s.g c b ++ s.g c a, s.rf (VC_STAT x) 15 0⟩ (s.setRf (VC_STAT x) 15 0 (s.rf (VC_STAT x) 15 0 + 1))).setG c d
    (BitVec.ofNat 32 (x.val * 2 ^ 16 + s.rf (VC_STAT x) 15 0))

theorem vissueBody_bound (hb : BoundTo s c x) : vissueBody c d a b s =
    if drained s c = false then .wait s
    else if (s.core c).stPend = true then .exc ⟨0x0D, 0, none, none⟩ s
    else if vissueBad (s.vc x) (s.g c b ++ s.g c a) = true then .exc (.plain 0x14 (encVec d.val a.val b.val 3)) s
    else if 64 ≤ (s.vc x).queue.length then .wait s
    else .ok .next (issued c d a b x s) := by
  refine (vecAllowed_app hb.1).trans ((withCtx_bound hb.2).trans ?_)
  simp only [Bool.not_eq_true']
  rfl

theorem vissueBody_room (hb : BoundTo s c x) (hdr : drained s c = true) (hst : (s.core c).stPend = false)
    (hbad : vissueBad (s.vc x) (s.g c b ++ s.g c a) = false) (hroom : (s.vc x).queue.length < 64) :
    vissueBody c d a b s = .ok .next (issued c d a b x s) :=
  (vissueBody_bound hb).trans ((if_neg (by simp [hdr])).trans ((if_neg (by simp [hst])).trans ((if_neg (by simp [hbad])).trans (if_neg (by omega)))))

end Vissue

/-- Settles O32: VSD and VLDD write after the groups that name their target, and VISSUE queues a command, is refused, or waits. -/
theorem descriptorsAndVissueComplete : Obligations.DescriptorsAndVissueComplete := by
  unfold Obligations.DescriptorsAndVissueComplete
  refine ⟨⟨fun c a b sd w x s s1 s2 h hb hw => ⟨fun ho => ?_, fun ho hs2 => ?_⟩, fun c a sd n1 x s s1 s2 h hb hn ho hs2 => ?_,
    fun c a b sd w x s s1 hstall h hb hw hm hp ho => ?_, fun c a sd n1 x s s1 h hb hn => ⟨fun ho => ?_, fun l s2 hstall hm hp ho ha hl => ?_⟩⟩,
    fun c d a b x s s1 h hb => ?_, fun c d a b x s s1 hstall h hb hdr hst hbad hroom => ?_⟩
  · rw [← seven_iff w] at hw
    exact exec_taken h rfl ((vsdBody_bound hb hw).trans (descWrite_opened ho))
  · rw [← seven_iff w] at hw
    exact exec_waits_or h rfl ((vsdBody_bound hb hw).trans (descWrite_closed ho hs2))
  · have hbody := (vlddBody_bound (gs := a) hb hn).trans (descWrite_closed ho hs2)
    refine ⟨fun hp => exec_stalled h rfl (hbody.trans (if_pos hp)), fun hp ha => exec_taken h rfl (hbody.trans ((if_neg (by simp [hp])).trans (if_pos ha))),
      fun l s3 hp ha hl => exec_next h rfl (hbody.trans ((if_neg (by simp [hp])).trans (vlddGo_loaded ha hl)))⟩
  · rw [← seven_iff w] at hw
    have hexec : exec (.descWriteRelease c) s = .next (run c (.vsd c a b sd w) .none (vsdBody c a b sd.toNat w.toNat) s) := by
      show execDescWriteRelease c s = _
      unfold execDescWriteRelease
      rw [hstall]
    exact hexec.trans (congrArg _ (run_next h ((vsdBody_bound hb hw).trans (descWrite_released ho hm hp))))
  · exact exec_taken h rfl ((vlddBody_bound hb hn).trans (descWrite_opened ho))
  · have hexec : exec (.descWriteRelease c) s = .next (run c (.vldd c a sd n1) .none (vlddBody c a sd.toNat n1.toNat) s) := by
      show execDescWriteRelease c s = _
      unfold execDescWriteRelease
      rw [hstall]
    exact hexec.trans (congrArg _ (run_next h ((vlddBody_bound hb hn).trans ((descWrite_released ho hm hp).trans (vlddGo_loaded ha hl)))))
  · have hbody := vissueBody_bound (d := d) (a := a) (b := b) hb
    by_cases hdr : drained s1 c = false
    · exact (exec_stalled h rfl (hbody.trans (if_pos hdr))).trans (congrArg _ (if_pos hdr).symm)
    rw [if_neg hdr] at hbody ⊢
    by_cases hst : (s1.core c).stPend = true
    · exact (exec_taken h rfl (hbody.trans (if_pos hst))).trans (congrArg _ (if_pos hst).symm)
    rw [if_neg hst] at hbody ⊢
    by_cases hbad : vissueBad (s1.vc x) (s1.g c b ++ s1.g c a) = true
    · exact (exec_taken h rfl (hbody.trans (if_pos hbad))).trans (congrArg _ (if_pos hbad).symm)
    rw [if_neg hbad] at hbody ⊢
    by_cases hfull : 64 ≤ (s1.vc x).queue.length
    · exact (exec_stalled h rfl (hbody.trans (if_pos hfull))).trans (congrArg _ (if_pos hfull).symm)
    · exact (exec_next h rfl (hbody.trans (if_neg hfull))).trans (congrArg _ (if_neg hfull).symm)
  · have hexec : exec (.vissueQueueRoom c) s = .next (run c (.vissue c d a b) .none (vissueBody c d a b) s) := by
      show execVissueQueueRoom c s = _
      unfold execVissueQueueRoom
      rw [hstall]
    exact hexec.trans (congrArg _ (run_next h (vissueBody_room hb hdr hst hbad hroom)))

end Sys2Proof.VectorClass

/-! The contexts of the vector unit: allocation, binding, images, suspension and fences (R104, R112 to R119, R163, R164, R172, R272). -/
namespace Sys2Proof.VectorContexts
open Sys2Proof.Machine Stated Issued VectorClass ShortVectors

section Contexts
variable {c : CoreId} {d a b : GReg} {s s2 : State} {x : CtxId}

/-! ### Allocation and bindings -/

theorem vctxAllocBody_full (h : MayManage s c) (hfree : freeCtx s = none) : vctxAllocBody c d s = .ok .next (s.setG c d 0x80000001) := by
  refine (ctxInstr_managed h.1 h.2).trans ?_
  rw [hfree]
  rfl

theorem vctxAllocBody_free (h : MayManage s c) (hfree : freeCtx s = some x) : vctxAllocBody c d s = .ok .next (((ctxFresh x s).setReg (VC_XLAT x)
    (BitVec.ofNat 32 ((coreSpace s c).2 * 256 + (coreSpace s c).1))).setG c d (BitVec.ofNat 32 x.val)) := by
  refine (ctxInstr_managed h.1 h.2).trans ?_
  rw [hfree]
  rfl

/-- Context `x` freed. -/
def ctxFreed (x : CtxId) (s : State) : State :=
  ((((clearAccs (ownedAccs s x) (s.setVc x { VCtx.reset with recs := (s.vc x).recs, lap := (s.vc x).lap })).setReg (VC_EAOWN x) 0).setReg (VC_BINDS x) 0).setReg
    (VSE_FPS x) 0).setRb (VC_STAT x) 31 false

theorem vctxFreeBody_managed (h : MayManage s c) (hx : x = ctxNo (fld (s.g c a) 2 0)) : vctxFreeBody c d a s =
    if !ctxAlloc s x then putG c d rcNOT_ALLOC s else if (s.vc x).busy then putG c d rcCTX_BUSY s else putG c d 0 (ctxFreed x s) := by
  subst hx
  exact ctxInstr_managed h.1 h.2

theorem vbindBody_managed (h : MayManage s c) (hx : x = ctxNo (fld (s.g c a) 2 0)) : vbindBody c d a s =
    if wbit (s.g c a) 31 then putG c d 0 (unbind c s)
    else if !ctxAlloc s x then putG c d rcNOT_ALLOC s else putG c d 0 ((unbind c s).setRb (VC_BINDS x) c.val true) := by
  subst hx
  exact ctxInstr_managed h.1 h.2

end Contexts

/-- Settles O35: what the context instructions do and answer. -/
theorem contextInstructionsComplete : Obligations.ContextInstructionsComplete := by
  unfold Obligations.ContextInstructionsComplete
  refine fun c d a s s1 hm => ⟨fun h => ⟨fun hfree => exec_next h rfl (vctxAllocBody_full hm hfree), fun x hfree => exec_next h rfl (vctxAllocBody_free hm hfree)⟩,
    fun h x hx => ?_, fun h x hx => ?_, fun h x hb => exec_next h rfl ((ctxInstr_managed hm.1 hm.2).trans (withCtx_bound hb))⟩
  · have hbody := vctxFreeBody_managed (d := d) hm hx
    refine ⟨fun hfree => exec_next h rfl (hbody.trans (if_pos (by simp [hfree]))), fun halloc hbusy => ?_, fun halloc hbusy => ?_⟩
    · exact exec_next h rfl (hbody.trans ((if_neg (by simp [halloc])).trans (if_pos hbusy)))
    · exact exec_next h rfl (hbody.trans ((if_neg (by simp [halloc])).trans (if_neg (by simp [hbusy]))))
  · have hbody := vbindBody_managed (d := d) hm hx
    refine ⟨fun hun => exec_next h rfl (hbody.trans (if_pos hun)), fun hun hfree => ?_, fun hun halloc => ?_⟩
    · exact exec_next h rfl (hbody.trans ((if_neg (by simp [hun])).trans (if_pos (by simp [hfree]))))
    · exact exec_next h rfl (hbody.trans ((if_neg (by simp [hun])).trans (if_neg (by simp [halloc]))))

/-! ### Images -/

section Images
variable {c : CoreId} {d a b : GReg} {s s2 s3 : State} {x : CtxId}

theorem vcsaveBody_stored {ps : List Piece} (h : MayManage s c) (hx : x = ctxNo (fld (s.g c b) 2 0)) (ha : (s.g c a).toNat % 32 = 0)
    (halloc : ctxAlloc s x = true) (hsusp : s.rb (VC_STAT x) 26 = true) (hbusy : (s.vc x).busy = false) (hheld : (s.vc x).held = (s.vc x).queue.length)
    (hrange : rangePieces c .store ((imageBytes s x).length / 4096 + 2) (s.g c a).toNat (imageBytes s x).length s = .ok ps s2)
    (hstore : storePieces c (smallPieces ps) (imageBytes s x) s2 = .ok () s3) : vcsaveBody c d a b s = .ok .next (s3.setG c d 0) := by
  subst hx
  refine (ctxInstr_managed h.1 h.2).trans ((if_neg (by simp [ha])).trans ((if_neg (by simp [halloc])).trans ((if_neg ?_).trans ?_)))
  · simp [hsusp, hbusy, hheld]
  · exact (bind_of_ok hrange).trans (bind_of_ok hstore)

/-- The accumulators that an image owns. -/
def imageAccs (l : List Byte) : List Nat := (List.range 8).filter fun m => wbit (wordAt l 1) (8 + m)

theorem vcrstBody_restored {l accs : List Byte} (h : MayManage s c) (ha : (s.g c a).toNat % 32 = 0)
    (hload : loadRange c (s.g c a).toNat 3584 s = .ok l s2) (hmagic : wordAt l 0 = 0x43565141) (hversion : fld (wordAt l 1) 7 0 = 1)
    (hfree : freeCtx s2 = some x) (howned : ((imageAccs l).any fun m => (eaOwner s2 m).isSome) = false)
    (haccs : loadRange c ((s.g c a).toNat + 3584) (544 * (imageAccs l).length) s2 = .ok accs s3) :
    vcrstBody c d a s = .ok .next ((imageRestore x l accs s3).setG c d (BitVec.ofNat 32 x.val)) := by
  refine (ctxInstr_managed h.1 h.2).trans ((if_neg (by simp [ha])).trans ((bind_of_ok hload).trans ((if_neg ?_).trans ?_)))
  · simp [hmagic, hversion]
  · rw [hfree]
    exact (if_neg (by simpa [imageAccs] using howned)).trans (bind_of_ok haccs)

/-! ### Suspension -/

/-- The answer of an instruction of a context that may not be allocated. -/
theorem putG_ite {t : State} {v w : Word} {m : Acc Flow} (p : Bool) (hm : m = if !p then putG c d v s else putG c d w t) :
    m = .ok .next (if p then t.setG c d w else s.setG c d v) := by
  rw [hm]
  cases p with
  | true => rfl
  | false => rfl

theorem vsuspBody_managed (h : MayManage s c) : vsuspBody c d a s = .ok .next (if ctxAlloc s (ctxNo (fld (s.g c a) 2 0)) then
    (s.modVc (ctxNo (fld (s.g c a) 2 0)) fun v => { v with suspPend := true }).setG c d 0 else s.setG c d 0x80000005) :=
  (ctxInstr_managed h.1 h.2).trans (putG_ite _ rfl)

theorem vresumeBody_managed (h : MayManage s c) : vresumeBody c d a b s = .ok .next (if ctxAlloc s (ctxNo (fld (s.g c a) 2 0)) then
    (resumeCtx (ctxNo (fld (s.g c a) 2 0)) (wbit (s.g c b) 0) s).setG c d 0 else s.setG c d 0x80000005) :=
  (ctxInstr_managed h.1 h.2).trans (putG_ite _ rfl)

end Images

/-! ### Fences and invalidations -/

section Fences
variable {c : CoreId} {a b : GReg} {s s2 : State} {x : CtxId} {ty : Nat}

theorem vfenceBody_bound (hb : BoundTo s c x) (hs2 : s2 = if (s.core c).marked then s else groupsNamed c x (fun k _ => a.val == 0 ||
      (match groupPlace (s.vc x) (fld (s.g c a) 15 0) with | some p => decide (k ≤ p) | none => false)) s) :
    vfenceBody c a s = if groupsPending s2 c then .wait s2 else .ok .next s2 :=
  (vecAllowed_app hb.1).trans ((withCtx_bound hb.2).trans (awaitGroups_eq hs2))

/-- The state in which a VINV has removed its copies and marked those that groups hold. -/
def vinvRemoved (c : CoreId) (a b : GReg) (ty : Nat) (s : State) : State :=
  if (s.core c).marked then s
  else
    let t := (invalidate none ty (invScope s c a b).1 (invScope s c a b).2.1 (invScope s c a b).2.2 s).modCore c fun k => { k with marked := true }
    let mark := markFound c (foundMatch ty (invScope s c a b).1 (invScope s c a b).2.1 (invScope s c a b).2.2)
    { t with vctx := t.vctx.map fun v => { v with cur := v.cur.map mark, sv := v.sv.map mark } }

theorem vinvBody_go (h : invRefusal s c ty (encInv b.val a.val ty 11) = none) (hdrained : drained s c = true) :
    vinvBody c a b ty s = if vinvPending (vinvRemoved c a b ty s) c then .wait (vinvRemoved c a b ty s) else .ok .next (vinvRemoved c a b ty s) := by
  unfold vinvBody
  rw [h]
  exact if_neg (by simp [hdrained])

end Fences

/-- Settles O37: images are stored and restored, contexts suspended and resumed, and fences and invalidations wait for their groups. -/
theorem imagesSuspensionAndFencesComplete : Obligations.ImagesSuspensionAndFencesComplete := by
  unfold Obligations.ImagesSuspensionAndFencesComplete
  refine ⟨fun c d a b s s1 hm => ⟨fun h x ps s2 hx ha halloc hsusp hbusy hheld hrange s3 hstore =>
      exec_next h rfl (vcsaveBody_stored hm hx ha halloc hsusp hbusy hheld hrange hstore),
      fun h l s2 x accs s3 ha hload hmagic hversion hfree howned haccs =>
        exec_next h rfl (vcrstBody_restored hm ha hload hmagic hversion hfree howned haccs),
      fun h => exec_next h rfl (vsuspBody_managed hm), fun h => exec_next h rfl (vresumeBody_managed hm)⟩,
    fun c a x s s1 s2 h hb hs2 => exec_waits_or h rfl (vfenceBody_bound hb hs2), fun c a x s s1 hstall h hb hmark hp => ?_,
    fun c a b ty s s1 s2 t f h hc hty hl hdr hmark hf ht hs2 => ?_, fun c a b ty s s1 hstall h hc hty hl hdr hmark hp => ?_⟩
  · have hexec : exec (.vfenceRelease c) s = .next (run c (.vfence c a) .none (vfenceBody c a) s) := by
      show Host.Outcome.next _ = _
      rw [hstall]
    exact hexec.trans (congrArg _ (run_next h ((vfenceBody_bound hb (if_pos hmark).symm).trans (if_neg (by simp [hp])))))
  · have hremoved : vinvRemoved c a b ty.toNat s1 = s2 := by
      subst hf ht hs2
      exact if_neg (by simp [hmark])
    have hbody := vinvBody_go (GatesAndTlbi.invRefusal_none hc hty (GatesAndTlbi.managed hl) : invRefusal s1 c ty.toNat (encInv b.val a.val ty.toNat 11) = none) hdr
    rw [hremoved] at hbody
    exact exec_waits_or h rfl hbody
  · have hbody := vinvBody_go (GatesAndTlbi.invRefusal_none hc hty (GatesAndTlbi.managed hl) : invRefusal s1 c ty.toNat (encInv b.val a.val ty.toNat 11) = none) hdr
    rw [show vinvRemoved c a b ty.toNat s1 = s1 from if_pos hmark, if_neg (by simp [hp])] at hbody
    have hexec : exec (.vinvRelease c) s = .next (run c (.vinv c a b ty) .none (vinvBody c a b ty.toNat) s) := by
      show Host.Outcome.next _ = _
      rw [hstall]
    exact hexec.trans (congrArg _ (run_next h hbody))

end Sys2Proof.VectorContexts

/-! The vector commands: one relation of row, opcode and function (R33, R99, R144). -/
namespace Sys2Proof.VectorCommands
open Sys2Proof.Machine Stated

/-- Each row is the run of its opcode and its function. -/
theorem exec_vecRow {row : CtxId → Instr} {opc : Nat} {f : VEnv → VIn → VOut} (h : VecRow row opc f) (x : CtxId) (s : State) :
    exec (row x) s = .next (vectorRun x opc f s) := by
  induction h <;> rfl

section Run
variable {x : CtxId} {opc : Nat} {f : VEnv → VIn → VOut} {s : State} {run : Run} {i : SInstr}

/-- The state in which the sources of a command have answered. -/
def answeredAt (x : CtxId) (run : Run) (i : SInstr) (s : State) : State :=
  Answered (accsCorrected (accsNeeded i.cmd) (Ready x s)).fresh (srcsOf x run i s).2

/-- A command that may run: it waits, stops at an accumulator, stops at a source, or is carried through. -/
theorem vectorRun_ready (hnext : nextInstr (Ready x s) x = some (run, i)) (hmay : mayRun (Ready x s) opc run i = true) :
    vectorRun x opc f s = if (srcsOf x run i s).1.wait then (srcsOf x run i s).2
      else match accBad (answeredAt x run i s) (accsNeeded i.cmd) with
        | some m => accFails x run run.pos m (answeredAt x run i s)
        | none => match firstFail i (srcsOf x run i s).1.vin.m (srcsOf x run i s).1.fails with
          | some g => runFails x run run.pos i (srcsOf x run i s).1.vin.m g (accsCorrected (accsNeeded i.cmd) (Ready x s)).fresh (answeredAt x run i s)
          | none => runDone x run run.pos i (srcsOf x run i s).1.vin.m (f (envOf run i) (srcsOf x run i s).1.vin)
              (touchSrcs x i (srcsOf x run i s).1 (fun _ _ => true) (answeredAt x run i s)) := by
  have hnext' : nextInstr (flushed x s) x = some (run, i) := hnext
  unfold vectorRun
  dsimp only
  rw [hnext']
  have hmay' : mayRun (flushed x s) opc run i = true := hmay
  exact if_neg (by simp [hmay'])

end Run

/-- Settles O38: every row's command waits, stops at what its work meets first, or is carried through. -/
theorem vectorCommandsComplete : Obligations.VectorCommandsComplete := by
  unfold Obligations.VectorCommandsComplete
  intro row opc f hrow x s run i hnext hmay q src s2 hq hsrc hs2
  subst hq hsrc hs2
  have hrun : exec (row x) s = _ := (exec_vecRow hrow x s).trans (congrArg _ (vectorRun_ready hnext hmay))
  refine ⟨fun hw => hrun.trans (congrArg _ (if_pos hw)), fun m hw hacc => ?_, fun g hw hacc hfail => ?_, fun hw hacc hfail => ?_⟩
  · rw [hrun, if_neg (by simp [hw]), show accBad (answeredAt x run i s) (accsNeeded i.cmd) = some m from hacc]
    rfl
  · rw [hrun, if_neg (by simp [hw]), show accBad (answeredAt x run i s) (accsNeeded i.cmd) = none from hacc, hfail]
    rfl
  · rw [hrun, if_neg (by simp [hw]), show accBad (answeredAt x run i s) (accsNeeded i.cmd) = none from hacc, hfail]
    rfl

end Sys2Proof.VectorCommands

/-! Events of the vector engine: the survey's steps, the ends of groups, and its control store (R91 to R94, R102, R152 to R157, R169, R172, R183 to R186). -/
namespace Sys2Proof.VectorEvents
open Sys2Proof.Machine Stated

/-- A command of a clocked domain acts while the device has power. -/
theorem clocked_next {f : State → State} {s t : State} (h : s.pwr ≤ 1) (hf : f s = t) : (Host.Outcome.next (clocked f s) : Out) = .next t :=
  congrArg _ ((if_pos h).trans hf)

/-! ### The survey -/

section Survey
variable {x : CtxId} {s : State} {r : Run}

theorem surveyGo_begins {g : Grp} (hmay : maySurvey s x = true) (hsv : (s.vc x).sv = none) (hg : surveyGroup s x = some g) :
    surveyGo x s = surveyRun x (surveyBegin s x g) s := by
  unfold surveyGo
  rw [hsv, if_pos hmay, hg]

theorem surveyGo_goesOn (hmay : mayGoOn s x = true) (hsv : (s.vc x).sv = some r) (hphase : r.phase = .survey) : surveyGo x s = surveyRun x r s := by
  unfold surveyGo
  rw [hsv]
  exact if_pos (by simp [hmay, hphase])

theorem surveyResumed_full (hmay : mayGoOn s x = true) (hsv : (s.vc x).sv = some r) (hphase : r.phase = .prev) (hcur : (s.vc x).cur = none) :
    surveyResumed x s = surveyFull x r s := by
  unfold surveyResumed
  rw [hsv]
  exact if_pos (by simp [hmay, hphase, hcur])

theorem surveyInflight_verdict (hmay : mayGoOn s x = true) (hsv : (s.vc x).sv = some r) (hphase : r.phase = .inflight) :
    surveyInflight x s = surveyVerdict x r s := by
  unfold surveyInflight
  rw [hsv]
  exact if_pos (by simp [hmay, hphase])

theorem tableClaim_claims (hcur : (s.vc x).cur = some r) (hphase : r.phase = .table) (hfirst : firstInPhase s .table r.stamp = true)
    (hroom : tableInUse s + r.pages ≤ 1024) : tableClaim x s =
      { s.modVc x fun c => { c with cur := some { r with phase := .slots, stamp := s.stamps } } with stamps := s.stamps + 1 } := by
  unfold tableClaim
  rw [hcur]
  exact if_pos (by simp [hphase, hfirst, hroom])

theorem slotClaim_streams (hcur : (s.vc x).cur = some r) (hphase : r.phase = .slots) (hfirst : firstInPhase s .slots r.stamp = true)
    (hroom : slotsInUse s + r.slots ≤ 8) : slotClaim x s =
      (if runsUnaligned r then s.setRb (VC_SHINT x) 1 true else s).modVc x fun c => { c with cur := some { r with phase := .stream } } := by
  unfold slotClaim
  rw [hcur]
  exact if_pos (by simp [hphase, hfirst, hroom])

end Survey

/-- Settles O42: each row of the survey acts where its conditions hold. -/
theorem surveyStepsComplete : Obligations.SurveyStepsComplete := by
  unfold Obligations.SurveyStepsComplete
  exact fun x s hp => ⟨fun g hmay hsv hg => clocked_next hp (surveyGo_begins hmay hsv hg), fun r hmay hsv hph => clocked_next hp (surveyGo_goesOn hmay hsv hph),
    fun r hmay hsv hph hcur => clocked_next hp (surveyResumed_full hmay hsv hph hcur),
    fun r hmay hsv hph => clocked_next hp (surveyInflight_verdict hmay hsv hph),
    fun r hcur hph hf hroom => clocked_next hp (tableClaim_claims hcur hph hf hroom),
    fun r hcur hph hf hroom => clocked_next hp (slotClaim_streams hcur hph hf hroom)⟩

/-! ### Ends of groups -/

section Ends
variable {x : CtxId} {s : State} {r : Run}

theorem flushed_none (h : (s.vc x).unsent = []) : flushed x s = s := if_pos (by simp [h])

theorem groupCompletes_finished (hsent : (s.vc x).unsent = []) (hcur : (s.vc x).cur = some r) (hruns : vmsRuns s = true)
    (hfin : groupFinished s x r = true) : groupCompletes x s = admittedEnd x r (finishCond r) s := by
  unfold groupCompletes
  simp only [flushed_none hsent, hcur]
  exact if_pos (by simp [hruns, hfin])

theorem groupMchkEnds_stopped {c : Cond} (hsent : (s.vc x).unsent = []) (hcur : (s.vc x).cur = some r) (hstop : r.stopped = some c)
    (hst : c.status = vsMCHK) (hout : writesOut s x = false) : groupMchkEnds x s = admittedEnd x r (stopReport r c) s := by
  unfold groupMchkEnds
  simp only [flushed_none hsent, hcur, hstop]
  exact if_pos ⟨hst, hout⟩

theorem chainFullReport_head {g : Grp} {rest : List Grp} {k n : Nat} (hclosed : (s.vc x).closed = g :: rest) (hmany : g.tooMany = some (k, n))
    (hcur : (s.vc x).cur = none) (hmay : mayHead s x = true) :
    chainFullReport x s = groupEnd x { condAt vsCHAIN 0 k 7 0 0 with count := n } true 0 0 s := by
  unfold chainFullReport
  simp only [hclosed, hmany]
  exact if_pos (by simp [hcur, hmay])

theorem suspendEffect_acts (hpend : (s.vc x).suspPend = true) (hcur : (s.vc x).cur = none) (hsv : (s.vc x).sv = none) :
    suspendEffect x s = recGive x (suspendRecord s x) (((s.modVc x
      fun v => { v with suspPend := false, held := v.queue.length, closed := v.closed.map fun g => { g with fences := [] } }).setRb
        (VC_STAT x) 26 true).setRb (VC_STAT x) 28 true) := if_pos (by simp [hpend, hcur, hsv])

/-- Context `x` at a forced POLL point, counted, with the longest interval noted. -/
def polled (x : CtxId) (s : State) : State :=
  let s1 := (s.modVc x fun c => { c with useq := { c.useq with since := 64 } }).countUp VMS_POLLSTAT 31 16 1
  (s1.setRf VMS_POLLSTAT 6 0 (Nat.max 64 (s1.rf VMS_POLLSTAT 6 0))).modVc x fun c => { c with useq := { c.useq with since := 0 } }

theorem suspPend_polled : ((polled x s).vc x).suspPend = (s.vc x).suspPend := by
  simp [polled, State.countUp]

theorem pmuStat_polled : (polled x s).rf PMU_STAT 26 24 = s.rf PMU_STAT 26 24 := by
  have hne : PMU_STAT ≠ VMS_POLLSTAT := by decide
  exact (rf_setRf_ne _ _ _ _ (.inl hne)).trans (rf_setRf_ne _ _ _ _ (.inl hne))

theorem forcedPoll_busy (hbusy : (s.vc x).busy = true) : forcedPoll x s =
    if (s.vc x).suspPend = true ∨ s.rf PMU_STAT 26 24 ≠ 0 then surveyAbandon x (polled x s) else polled x s := by
  have hpoll : pollPoint x true (s.modVc x fun c => { c with useq := { c.useq with since := 64 } }) =
      if ((polled x s).vc x).suspPend || (polled x s).rf PMU_STAT 26 24 != 0 then surveyAbandon x (polled x s) else polled x s := by
    unfold pollPoint polled
    simp only [vc_modVc_self]
    rfl
  refine (if_pos hbusy).trans (hpoll.trans ?_)
  rw [suspPend_polled, pmuStat_polled]
  simp only [Bool.or_eq_true, bne_iff_ne]

end Ends

/-! ### The control store -/

/-- Registers written in turn, each with a value of its own. -/
def written (f : Nat → Nat) (v : Nat → Word) (l : List Nat) (s : State) : State := l.foldl (fun t k => t.setReg (f k) (v k)) s

section Written
variable {f : Nat → Nat} {v : Nat → Word} {l : List Nat}

theorem written_shape (s : State) : ∃ m, written f v l s = { s with regs := m } := by
  induction l generalizing s with
  | nil => exact ⟨_, rfl⟩
  | cons j l ih => exact ih (s.setReg (f j) (v j))

theorem reg_written_ne {a : Nat} (h : ∀ j ∈ l, a ≠ f j) (s : State) : (written f v l s).reg a = s.reg a := by
  induction l generalizing s with
  | nil => rfl
  | cons j l ih =>
    have hj : a ≠ f j := h j List.mem_cons_self
    exact (ih (fun i hi => h i (List.mem_cons_of_mem _ hi)) (s.setReg (f j) (v j))).trans (reg_setReg_ne _ _ hj)

theorem reg_written {k : Nat} (hf : ∀ j ∈ l, f k = f j → k = j) (hk : k ∈ l) (s : State) : (written f v l s).reg (f k) = v k := by
  induction l generalizing s with
  | nil => exact absurd hk List.not_mem_nil
  | cons j l ih =>
    by_cases hmem : k ∈ l
    · exact ih (fun i hi => hf i (List.mem_cons_of_mem _ hi)) hmem (s.setReg (f j) (v j))
    · obtain rfl : k = j := (List.mem_cons.mp hk).resolve_right hmem
      refine (reg_written_ne (fun i hi heq => hmem ?_) (s.setReg (f k) (v k))).trans (reg_setReg_self ..)
      exact hf i (List.mem_cons_of_mem _ hi) heq ▸ hi

end Written

section ControlStore
variable {a : Nat} {w : BitVec 176} {s : State}

/-- Register `k` of the patch-RAM word at `a`. -/
def patchReg (a k : Nat) : Nat := 0x20208000 + 32 * a + 4 * k

theorem patchReg_inj {j k : Nat} (h : patchReg a k = patchReg a j) : k = j := by
  unfold patchReg at h
  omega

/-- The part of a word that register `k` holds. -/
def patchPart (w : BitVec 176) (k : Nat) : Nat := w.toNat / 2 ^ (32 * k) % 2 ^ 32

theorem patchPart_masked (ha : a < 1024) {k : Nat} (hk : k < 6) :
    (BitVec.ofNat 32 (w.toNat / 2 ^ (32 * k)) &&& vmsMask (patchReg a k)).toNat = patchPart w k := by
  have hreg : patchReg a k = 2 ^ 16 * 0x2020 + (32 * (0x400 + a) + 4 * k) := by unfold patchReg; omega
  have hoff : patchReg a k % 0x10000 = 32 * (0x400 + a) + 4 * k := by
    rw [hreg]
    exact (Nat.mul_add_mod ..).trans (Nat.mod_eq_of_lt (by omega))
  have hplace : patchReg a k % 0x10000 % 32 / 4 = k := by
    rw [hoff, Nat.mul_add_mod, Nat.mod_eq_of_lt (by omega), Nat.mul_div_cancel_left k (by decide)]
  have hmask : vmsMask (patchReg a k) = if k = 5 then 0xFFFF else 0xFFFFFFFF := by
    unfold vmsMask
    rw [if_neg (by rw [hoff]; omega), hplace]
    match k, hk with
    | 0, _ | 1, _ | 2, _ | 3, _ | 4, _ | 5, _ => rfl
  rw [hmask]
  split
  case isTrue h5 =>
    subst h5
    have hw : w.toNat / 2 ^ (32 * 5) < 2 ^ 16 := Nat.div_lt_of_lt_mul w.isLt
    have hw' : w.toNat / 2 ^ (32 * 5) < 2 ^ 32 := Nat.lt_trans hw (by decide)
    rw [BitVec.toNat_and, BitVec.toNat_ofNat, show (0xFFFF : Word).toNat = 2 ^ 16 - 1 from rfl, Nat.and_two_pow_sub_one_eq_mod, patchPart,
      Nat.mod_eq_of_lt hw', Nat.mod_eq_of_lt hw]
  case isFalse =>
    rw [BitVec.toNat_and, BitVec.toNat_ofNat, show (0xFFFFFFFF : Word).toNat = 2 ^ 32 - 1 from rfl, Nat.and_two_pow_sub_one_eq_mod, Nat.mod_mod]
    rfl

/-- The parts of a number below `32 n` bits make it up. -/
theorem sum_parts (m n : Nat) : (((List.range n).map fun k => m / 2 ^ (32 * k) % 2 ^ 32 * 2 ^ (32 * k)).foldl (· + ·) 0) = m % 2 ^ (32 * n) := by
  induction n with
  | zero => exact (Nat.mod_one m).symm
  | succ n ih =>
    rw [List.range_succ, List.map_append, List.foldl_append, ih, Nat.mul_succ, Nat.pow_add, Nat.mod_mul, Nat.mul_comm (2 ^ (32 * n))]
    rfl

theorem sum_patchPart (w : BitVec 176) : (((List.range 6).map fun k => patchPart w k * 2 ^ (32 * k)).foldl (· + ·) 0) = w.toNat :=
  (sum_parts w.toNat 6).trans (Nat.mod_eq_of_lt (Nat.lt_trans w.isLt (Nat.pow_lt_pow_right (by decide) (by decide))))

/-- The values that a write-back stores. -/
def patchVal (a : Nat) (w : BitVec 176) (k : Nat) : Word :=
  let r := 0x20208000 + 32 * a + 4 * k
  BitVec.ofNat 32 (w.toNat / 2 ^ (32 * k)) &&& vmsMask r

theorem microStored_eq : microStored a w s = written (patchReg a) (patchVal a w) (List.range 6) s := by
  simp only [microStored, written, patchReg, patchVal]

theorem patchRam_microStored (ha : a < 1024) : patchRam (microStored a w s) a = w := by
  have hparts : ((List.range 6).map fun k => ((microStored a w s).reg (patchReg a k)).toNat * 2 ^ (32 * k)) =
      (List.range 6).map fun k => patchPart w k * 2 ^ (32 * k) := by
    refine List.map_congr_left fun k hk => ?_
    rw [microStored_eq, reg_written (fun j _ h => patchReg_inj h) hk]
    exact congrArg (· * 2 ^ (32 * k)) (patchPart_masked ha (List.mem_range.mp hk))
  refine BitVec.eq_of_toNat_eq ?_
  show (BitVec.ofNat 176 (((List.range 6).map fun k => ((microStored a w s).reg (patchReg a k)).toNat * 2 ^ (32 * k)).foldl (· + ·) 0)).toNat = w.toNat
  rw [hparts, sum_patchPart, BitVec.ofNat_toNat, BitVec.setWidth_eq]

theorem cecnt_microStored : (microStored a w s).rf VMS_CECNT 15 0 = s.rf VMS_CECNT 15 0 := by
  have hne : ∀ k ∈ List.range 6, VMS_CECNT ≠ patchReg a k := fun k _ => by
    unfold patchReg VMS_CECNT
    omega
  exact congrArg (fld · 15 0) (reg_written_ne hne s)

/-- The word at `a` waits for a write-back no more. -/
def wbGone (a : Nat) (s : State) : State := { s with microWb := s.microWb.filter (· != a) }

/-- The correction counted, unless a fetch has counted it. -/
def wbCounted (a : Nat) (s : State) : State := if s.microWb.contains a then wbGone a s else (wbGone a s).countUp VMS_CECNT 15 0 1

theorem microWriteback_none (h : Config.microFix (patchRam s a) = none) : microWriteback a s = wbGone a s := by
  unfold microWriteback
  rw [h]
  rfl

theorem microWriteback_good (h : Config.microFix (patchRam s a) = some w) (hw : w = patchRam s a) : microWriteback a s = wbGone a s := by
  unfold microWriteback
  rw [h]
  exact if_pos hw

theorem microWriteback_corrected (h : Config.microFix (patchRam s a) = some w) (hw : w ≠ patchRam s a) :
    microWriteback a s = microStored a w (wbCounted a s) := by
  unfold microWriteback
  rw [h]
  exact if_neg hw

theorem wbGone_contains : (wbGone a s).microWb.contains a = false := by simp [wbGone]

theorem wbCounted_shape : ∃ m, wbCounted a s = { wbGone a s with regs := m } := by
  unfold wbCounted
  split
  · exact ⟨_, rfl⟩
  · exact ⟨_, rfl⟩

theorem capAt_eq_min (c x : Nat) : capAt c x = Nat.min c x := by
  unfold capAt
  split
  · exact (Nat.min_eq_left (Nat.le_of_lt ‹_›)).symm
  · exact (Nat.min_eq_right (Nat.le_of_not_lt ‹_›)).symm

/-- A saturating counter of 16 bits, one counted. -/
theorem rf_countUp (s : State) (a : Nat) : (s.countUp a 15 0 1).rf a 15 0 = Nat.min 65535 (s.rf a 15 0 + 1) := by
  rw [State.countUp, rf_setRf_self _ _ _ (by decide), capAt_eq_min]
  exact Nat.mod_eq_of_lt (Nat.lt_succ_of_le (Nat.min_le_left _ _))

theorem cecnt_wbCounted : (wbCounted a s).rf VMS_CECNT 15 0 =
    if s.microWb.contains a = true then s.rf VMS_CECNT 15 0 else Nat.min 65535 (s.rf VMS_CECNT 15 0 + 1) := by
  unfold wbCounted
  split
  · rfl
  · exact rf_countUp _ _

/-- A write-back leaves every byte and every core, and no write-back of the word to come. -/
theorem microWriteback_frame : (microWriteback a s).microWb.contains a = false ∧ (∀ b, (microWriteback a s).byte b = s.byte b) ∧
    ∀ c, (microWriteback a s).core c = s.core c := by
  have hshape : ∃ m, microWriteback a s = { wbGone a s with regs := m } := by
    cases h : Config.microFix (patchRam s a) with
    | none => exact ⟨_, microWriteback_none h⟩
    | some w =>
      by_cases hw : w = patchRam s a
      · exact ⟨_, microWriteback_good h hw⟩
      · obtain ⟨m, hm⟩ := wbCounted_shape (a := a) (s := s)
        obtain ⟨m', hm'⟩ := written_shape (f := patchReg a) (v := patchVal a w) (l := List.range 6) (wbCounted a s)
        rw [hm] at hm'
        exact ⟨m', (microWriteback_corrected h hw).trans ((congrArg _ hm).trans hm')⟩
  obtain ⟨m, hm⟩ := hshape
  rw [hm]
  exact ⟨wbGone_contains, fun b => rfl, fun c => rfl⟩

end ControlStore

/-- Settles O43: groups end, suspensions take effect, polls are forced, and the control store's errors are reported and corrected. -/
theorem groupEndsComplete : Obligations.GroupEndsComplete := by
  unfold Obligations.GroupEndsComplete
  refine fun x s hp => ⟨fun r hsent hcur hruns hfin => clocked_next hp (groupCompletes_finished hsent hcur hruns hfin),
    fun r c hsent hcur hstop hst hout => clocked_next hp (groupMchkEnds_stopped hsent hcur hstop hst hout),
    fun g rest k n hclosed hmany hcur hmay => clocked_next hp (chainFullReport_head hclosed hmany hcur hmay),
    fun hpend hcur hsv => clocked_next hp (suspendEffect_acts hpend hcur hsv),
    fun hbusy => clocked_next hp (forcedPoll_busy hbusy), fun u => clocked_next hp rfl, fun a => ?_⟩
  have ha : a.toNat < 1024 := a.isLt
  obtain ⟨hgone, hbyte, hcore⟩ := microWriteback_frame (a := a.toNat) (s := s)
  refine ⟨microWriteback a.toNat s, clocked_next hp rfl, hgone, hbyte, hcore, fun w h => ?_, ?_⟩
  · by_cases hw : w = patchRam s a.toNat
    · rw [microWriteback_good h hw]
      exact hw.symm
    · rw [microWriteback_corrected h hw]
      exact patchRam_microStored ha
  · cases h : Config.microFix (patchRam s a.toNat) with
    | none =>
      rw [microWriteback_none h]
      rfl
    | some w =>
      by_cases hw : w = patchRam s a.toNat
      · rw [microWriteback_good h hw]
        exact (if_pos (.inl hw)).symm
      · rw [microWriteback_corrected h hw, cecnt_microStored, cecnt_wbCounted]
        simp only [hw, false_or]

end Sys2Proof.VectorEvents

/-! The reset state (R7, R24). -/
namespace Sys2Proof.ResetState
open Sys2Proof.Machine Stated

theorem canonical_reset : Canonical State.reset := ⟨rfl, ⟨rfl, rfl⟩, rfl, rfl⟩

theorem men_reset (m : Master) : State.reset.rb XBM_MEN m.val = true ↔ (m.val = 8 ∨ m.val = 9) := by
  have h : State.reset.reg XBM_MEN = 0x300 := by decide
  unfold State.rb
  rw [h]
  revert m
  decide

theorem core_reset (c : CoreId) : State.reset.core c = Core.reset := by
  unfold State.core State.reset
  exact Vector.getElem_replicate ..

theorem vc_reset (x : CtxId) : State.reset.vc x = VCtx.reset := by
  unfold State.vc State.reset
  exact Vector.getElem_replicate ..

/-- Settles O58: the reset state is canonical, with nothing waiting. -/
theorem resetStateIsCanonical : Obligations.ResetStateIsCanonical := by
  unfold Obligations.ResetStateIsCanonical
  refine ⟨canonical_reset, rfl, fun a => rfl, men_reset, rfl, fun c => ?_, fun x => ?_, rfl⟩
  · rw [core_reset]
    rfl
  · rw [vc_reset]
    exact ⟨rfl, rfl, rfl⟩

end Sys2Proof.ResetState

/-! The Erg, the memory integrity unit and the DRAM controller (R47, R60, R283 to R298). -/
namespace Sys2Proof.MemoryEvents
open Sys2Proof.Machine Stated GroupEnds VectorEvents

/-- A register write by a master that reaches it does what the register's frame does. -/
theorem exec_sent {i : Instr} {m : Master} {a : Nat} {v : Word} {s t : State} (h : Sends s m a) (hw : regWf a = true)
    (he : exec i s = .next (masterWrite m a v s)) (ht : ctlWrite m.val 0 .m a v s = t) : exec i s = .next t := by
  rw [he, masterWrite_reg m a v s hw h.1 h.2, ht]

/-! ### Register writes -/

section Writes
variable {m : Nat} {v : Word} {s : State}

theorem toNat_zeroExtend (k : BitVec 8) : (k.zeroExtend 32).toNat = k.toNat := by
  rw [BitVec.zeroExtend, BitVec.toNat_setWidth, Nat.mod_eq_of_lt (Nat.lt_trans k.isLt (by decide))]

theorem ctlWrite_bgctl (k : BitVec 8) : ctlWrite m 0 .m ERG_BGCTL (k.zeroExtend 32) s = s.setReg ERG_BGCTL (s.reg ERG_BGCTL ||| k.zeroExtend 32) := by
  have hk : BitVec.ofNat 32 (fld (k.zeroExtend 32) 7 0) = k.zeroExtend 32 := by
    rw [fld, nfld, Nat.shiftRight_zero, toNat_zeroExtend k, Nat.mod_eq_of_lt k.isLt]
    exact BitVec.eq_of_toNat_eq (by rw [toNat_zeroExtend k, BitVec.toNat_ofNat, Nat.mod_eq_of_lt (Nat.lt_trans k.isLt (by decide))])
  show bgctlWrite (k.zeroExtend 32) s = _
  unfold bgctlWrite
  rw [hk]

theorem onesOf_zeroExtend (k : BitVec 8) : onesOf 8 (k.zeroExtend 32).toNat = onesOf 8 k.toNat := by
  rw [toNat_zeroExtend k]

theorem ctlWrite_init (k : BitVec 8) : ctlWrite m 0 .m ERG_INIT (k.zeroExtend 32) s = (onesOf 8 k.toNat).foldl
    (fun t g => if groupReady t g && !groupOos t g then (t.setRb ERG_INIT g true).setRb ERG_BGSTAT g false else t) s := by
  show ergInitWrite (k.zeroExtend 32) s = _
  unfold ergInitWrite
  rw [onesOf_zeroExtend]

theorem ctlWrite_inj : ctlWrite m 0 .m MIU_INJ 1 s = if m = 1 then s.setRb MIU_INJ 0 true else s := by
  show injWrite m 1 s = _
  unfold injWrite
  have h1 : wbit 1 0 = true := by decide
  simp only [h1, Bool.and_true, decide_eq_true_eq]

theorem ctlWrite_cap : ctlWrite m 0 .m DMC_CAP v s = s.setReg DMC_CAP (BitVec.ofNat 32 (Nat.min (fld v 9 0)
    (if s.rb DMC_CTL 0 = false ∨ s.rb DMC_STAT 8 = true ∨ s.rb DMC_STAT 9 = true ∨ s.rf DMC_STAT 17 16 ≠ 0 then 0 else 7 * 2 ^ dmcDens s 0))) := by
  show dmcCapWrite v s = _
  unfold dmcCapWrite
  simp only [Bool.or_eq_true, Bool.not_eq_true', bne_iff_ne, or_assoc]

/-- Training starts where the two channels agree on a density. -/
theorem dmcCtlWrite_trains (hon : wbit v 0 = true) (hold : s.rb DMC_CTL 0 = false) (h0 : dmcDens s 0 ≠ 0) (h1 : dmcDens s 1 = dmcDens s 0) :
    (dmcCtlWrite v s).dmcTraining = true := by
  unfold dmcCtlWrite
  simp [hon, hold, h0, h1]

/-- A configuration error is flagged, and no training starts, where they do not. -/
theorem dmcCtlWrite_cfgErr (hon : wbit v 0 = true) (hold : s.rb DMC_CTL 0 = false) (h : dmcDens s 0 = 0 ∨ dmcDens s 1 ≠ dmcDens s 0) :
    (dmcCtlWrite v s).rb DMC_STAT 9 = true ∧ (dmcCtlWrite v s).dmcTraining = s.dmcTraining := by
  have heq : dmcCtlWrite v s = (s.setReg DMC_CTL (BitVec.ofNat 32 (v.toNat &&& 0x1F01))).setRb DMC_STAT 9 true := by
    refine (if_pos hon).trans ((if_neg (by simp [hold])).trans ((if_neg (by simp [hold])).trans (if_pos ?_)))
    rw [Bool.or_eq_true, decide_eq_true_eq, bne_iff_ne]
    exact h.imp_right Ne.symm
  rw [heq]
  exact ⟨rb_setRb_self _ _ _ (by decide), rfl⟩

end Writes

/-! ### Events -/

section Events
variable {s : State}

theorem dmcTrained_ends {f : BitVec 2} (ht : s.dmcTraining = true) (hl : s.rb PMU_PLL 1 = true) {s1 : State} (h1 : s1 = { s with dmcTraining := false }) :
    dmcTrained f.toNat s = if f = 0 then s1.setRb DMC_STAT 31 true else (s1.setRf DMC_STAT 17 16 f.toNat).setReg DMC_CAP 0 := by
  have hf : f.toNat % 4 = f.toNat := Nat.mod_eq_of_lt f.isLt
  have h0 : f.toNat = 0 ↔ f = 0 := ⟨fun h => BitVec.eq_of_toNat_eq h, fun h => h ▸ rfl⟩
  subst h1
  refine (if_pos (by simp [ht, hl])).trans ?_
  simp only [hf, h0]

theorem ceWriteback_pending {b w : Nat} (h : smGet zeroDefault s.ceWb b = w + 1) :
    ceWriteback b s = wordWriteBack w { s with ceWb := smPut zeroDefault s.ceWb b 0 } := by
  unfold ceWriteback
  rw [h]

theorem scrubRow_steps (hon : scrubOn s = true) (hpos : s.rf MIU_SCRUB_POS 15 0 < 49151) :
    scrubRow s = (scrubRowWords s).setRf MIU_SCRUB_POS 15 0 (s.rf MIU_SCRUB_POS 15 0 + 1) := if_pos (by simp [hon, hpos])

theorem scrubLapEnd_ends {s1 : State} (hon : scrubOn s = true) (hpos : s.rf MIU_SCRUB_POS 15 0 = 49151) (h1 : s1 = lapSlow (scrubRowWords s)) :
    scrubLapEnd s = { (s1.setReg MIU_SCRUB_LAP (BitVec.ofNat 32 (2 ^ 31 + lapMs s1))).setRf MIU_SCRUB_POS 15 0 0 with
      scrubT0 := tbNs s, lapLate := false } := by
  subst h1
  exact if_pos (by simp [hon, hpos])

theorem lapSlow_late (hlim : s.rf MIU_SCRUB_LIMIT 15 0 ≠ 0) (hlate : s.lapLate = false) (hover : s.rf MIU_SCRUB_LIMIT 15 0 * 1000000 < lapNs s) :
    lapSlow s = pulse 160 (icuEvent 130 (({ s with lapLate := true } : State).setRb MIU_STAT 29 true)) := if_pos (by simp [hlim, hlate, hover])

theorem bankGroupLeave_leaves {g : Nat} (hctl : s.rb ERG_BGCTL g = true) (hoos : groupOos s g = false) (hvse : vseUsesErg s = false) :
    bankGroupLeave g s = { groupLeave g s with fillRun := s.fillRun &&& ~~~(1#8 <<< g), ergSlots := s.ergSlots &&& ~~~(1#8 <<< g) } :=
  if_pos (by simp [hctl, hoos, hvse])

theorem zeroFillStart_starts {g : Nat} (hinit : s.rb ERG_INIT g = true) (hoos : groupOos s g = false) (hrun : s.fillRun.getLsbD g = false)
    (hvse : vseUsesErg s = false) : zeroFillStart g s = { s with fillRun := s.fillRun ||| (1#8 <<< g) } := if_pos (by simp [hinit, hoos, hrun, hvse])

theorem zeroFillDone_ends {g : Nat} (hp : s.pwr ≤ 1) (hrun : s.fillRun.getLsbD g = true) {s1 : State}
    (h1 : s1 = ((groupZero g s).setRb ERG_BGSTAT g true).setRb ERG_INIT g false) :
    zeroFillDone g s = { s1 with fillRun := s1.fillRun &&& ~~~(1#8 <<< g) } := by
  subst h1
  exact if_pos (by simp [hrun, groupPowered, hp])

/-! #### The self-test -/

/-- The word that a self-test's result gives MIU_STEST. -/
def stestWord (si : Bool) (d : BitVec 2) (mask : Nat) : Word := BitVec.ofNat 32 (2 ^ 31 + b2n si * 2 ^ 24 + d.toNat * 2 ^ 16 + mask * 2 ^ 8)

theorem bitsNat_lt (l : List Bool) : bitsNat l < 2 ^ l.length := by
  induction l with
  | nil => exact Nat.one_pos
  | cons b l ih =>
    have hb : b2n b ≤ 1 := by cases b <;> decide
    rw [List.length_cons, Nat.pow_succ]
    show b2n b + 2 * bitsNat l < _
    omega

theorem stestWord_fields {si : Bool} {d : BitVec 2} {mask : Nat} (h : mask < 256) :
    wbit (stestWord si d mask) 31 = true ∧ wbit (stestWord si d mask) 24 = si ∧ fld (stestWord si d mask) 17 16 = d.toNat := by
  have hd := d.isLt
  have hb : b2n si < 2 := by cases si <;> decide
  have hnat : (stestWord si d mask).toNat = 2 ^ 31 + b2n si * 2 ^ 24 + d.toNat * 2 ^ 16 + mask * 2 ^ 8 := by
    rw [stestWord, BitVec.toNat_ofNat, Nat.mod_eq_of_lt (by omega)]
  refine ⟨wbit_of_digit ?_, wbit_of_digit ?_, fld_of_digit ?_⟩
  · rw [hnat, show 2 ^ 31 + b2n si * 2 ^ 24 + d.toNat * 2 ^ 16 + mask * 2 ^ 8 = (0 * 2 + 1) * 2 ^ 31 + (b2n si * 2 ^ 24 + d.toNat * 2 ^ 16 + mask * 2 ^ 8) by omega]
    exact digit_of_sum 0 (by decide) (by omega)
  · rw [hnat, show 2 ^ 31 + b2n si * 2 ^ 24 + d.toNat * 2 ^ 16 + mask * 2 ^ 8 = (2 ^ 6 * 2 + b2n si) * 2 ^ 24 + (d.toNat * 2 ^ 16 + mask * 2 ^ 8) by omega]
    exact digit_of_sum _ hb (by omega)
  · rw [hnat, show 2 ^ 31 + b2n si * 2 ^ 24 + d.toNat * 2 ^ 16 + mask * 2 ^ 8 = ((2 ^ 13 + b2n si * 2 ^ 6) * 2 ^ 2 + d.toNat) * 2 ^ 16 + mask * 2 ^ 8 by omega]
    exact digit_of_sum _ hd (by omega)

/-- A result is written once, and then shows in MIU_STEST. -/
theorem reg_selftestDone {erg : BitVec 128} {si : Bool} {d : BitVec 2} (h : s.rb MIU_STEST 31 = false) :
    (selftestDone erg si d s).reg MIU_STEST = stestWord si d (bitsNat ((List.range 8).map (failedGroups erg).contains)) := by
  have hne : MIU_STEST ≠ DMC_STAT ∧ MIU_STEST ≠ DMC_CAP := ⟨by decide, by decide⟩
  unfold selftestDone
  rw [if_neg (by simp [h])]
  dsimp only
  split
  · exact reg_setReg_self ..
  · rw [reg_setReg_ne _ _ hne.2, reg_setRb_ne _ _ _ hne.1]
    exact reg_setReg_self ..

/-! #### Waking bank groups -/

theorem pmuStat_slotEnds (g : Nat) : (groupSlotEnds g s).rf PMU_STAT 26 24 = s.rf PMU_STAT 26 24 := by
  have hne : PMU_STAT ≠ ERG_BGSTAT := by decide
  unfold groupSlotEnds
  split
  · rfl
  · split
    · split
      · rfl
      · exact rf_setRb_ne _ _ _ _ (.inl hne)
    · rfl

theorem groupSlotEnds_inService {g : Nat} (hoos : groupOos s g = false) : groupSlotEnds g s =
    if s.rb ERG_RET g = false then { s with fillRun := s.fillRun ||| (1#8 <<< g) }
    else if s.rb ERG_INIT g = true then s else s.setRb ERG_BGSTAT g true := by
  refine (if_neg (by simp [hoos])).trans ?_
  cases hret : s.rb ERG_RET g with
  | true => rfl
  | false => rfl

theorem bankGroupReady_slot {g : Fin 8} (hp : s.pwr = 2) (hslot : s.ergSlots.getLsbD g.val = true) (hfirst : ∀ j, j < g.val → s.ergSlots.getLsbD j = false)
    (hoos : groupOos s g.val = false) {s1 s2 : State} (h1 : s1 = { s with ergSlots := s.ergSlots &&& ~~~(1#8 <<< g.val) })
    (h2 : s2 = if s.rb ERG_RET g.val = false then { s1 with fillRun := s1.fillRun ||| (1#8 <<< g.val) }
      else if s.rb ERG_INIT g.val = true then s1 else s1.setRb ERG_BGSTAT g.val true) :
    bankGroupReady g.val s = if g.val = 7 ∧ s2.rf PMU_STAT 26 24 = 0 then cocoonRun s2 else s2 := by
  have hends : groupSlotEnds g.val s1 = s2 := by
    rw [groupSlotEnds_inService (by rw [h1]; exact hoos), h2, h1]
    rfl
  have hstat : s2.rf PMU_STAT 26 24 = s.rf PMU_STAT 26 24 := by
    rw [← hends, pmuStat_slotEnds, h1]
    rfl
  have hall : ((List.range g.val).all fun j => !s.ergSlots.getLsbD j) = true := by
    simpa using hfirst
  refine (if_pos (by simp [hp, hslot, hall])).trans ?_
  rw [← h1, hends, hstat]
  simp only [Bool.and_eq_true, decide_eq_true_eq, beq_iff_eq]

end Events

/-- Settles O45: every register write and every event of the Erg, the MIU and the DMC that acts. -/
theorem memoryEventsComplete : Obligations.MemoryEventsComplete := by
  unfold Obligations.MemoryEventsComplete
  refine fun m s v k => ⟨fun hp => ⟨fun h => exec_sent h (by decide) rfl rfl, fun h => exec_sent h (by decide) rfl rfl,
    fun h => exec_sent h (by decide) rfl (ctlWrite_bgctl k), fun h => exec_sent h (by decide) rfl (ctlWrite_init k),
    fun h => exec_sent h (by decide) rfl ctlWrite_inj, fun h => ⟨exec_sent h (by decide) rfl rfl, dmcCtlWrite_trains, dmcCtlWrite_cfgErr⟩,
    fun h => exec_sent h (by decide) rfl ctlWrite_cap, fun f ht hl s1 h1 => clocked_next hp (dmcTrained_ends ht hl h1),
    fun c _ _ => clocked_next hp rfl, fun b w h => clocked_next hp (ceWriteback_pending h), fun hon hpos => clocked_next hp (scrubRow_steps hon hpos),
    fun hon hpos s1 h1 => clocked_next hp (scrubLapEnd_ends hon hpos h1), fun hlim hlate hover => clocked_next hp (lapSlow_late hlim hlate hover),
    fun g hctl hoos hvse => clocked_next hp (bankGroupLeave_leaves hctl hoos hvse),
    fun g hinit hoos hrun hvse => clocked_next hp (zeroFillStart_starts hinit hoos hrun hvse),
    fun g hrun s1 h1 => congrArg (fun t => Host.Outcome.next (bootAdvance t)) (zeroFillDone_ends hp hrun h1), fun erg si d h => ?_⟩,
    fun g hp hslot hfirst hoos s1 s2 h1 h2 => congrArg _ (bankGroupReady_slot hp hslot hfirst hoos h1 h2)⟩
  have hmask : bitsNat ((List.range 8).map (failedGroups erg).contains) < 256 := by simpa using bitsNat_lt ((List.range 8).map (failedGroups erg).contains)
  obtain ⟨h31, h24, h17⟩ := stestWord_fields (si := si) (d := d) hmask
  have hreg := reg_selftestDone (erg := erg) (si := si) (d := d) h
  exact ⟨clocked_next hp rfl, (congrArg (wbit · 31) hreg).trans h31, (congrArg (wbit · 24) hreg).trans h24, (congrArg (fld · 17 16) hreg).trans h17⟩

end Sys2Proof.MemoryEvents

/-! Interrupt sources, the event router, the time base, timers, compares and captures (R313 to R349, R418). -/
namespace Sys2Proof.InterruptAndTimeEvents
open Sys2Proof.Machine Stated VectorEvents MemoryEvents

/-! ### Register reads -/

/-- What the register's target answers to a read by a master that reaches it. -/
theorem reg_targetRead (m c : Nat) (own : ReqOwner) (pa : Nat) (s : State) (h : regWf pa = true) (hr : reaches s m pa false = true) :
    targetRead m c own pa 4 s = (.done rOKAY (leBytes 4 (ctlRead m c pa s).1.toNat), (ctlRead m c pa s).2) := by
  obtain ⟨h4, h0, h1, h2, h6, h7⟩ := reg_target s pa h
  have hw : wordAccess pa 4 = true := by simp [wordAccess, h4]
  have hframe : frameRead m c pa 4 s = (.done rOKAY (leBytes 4 (ctlRead m c pa s).1.toNat), (ctlRead m c pa s).2) := if_pos hw
  unfold targetRead
  rw [if_neg (by simp [hr])]
  split
  case h_1 => contradiction
  case h_2 => contradiction
  case h_3 => contradiction
  case h_4 => contradiction
  case h_5 e => rw [h7 e]; exact hframe
  case h_6 => exact hframe

/-- A register read by a master that reaches it: what the read does to the register is done. -/
theorem postRead_reg (m c pa : Nat) (s : State) (h : regWf pa = true) (hm : mayIssue s s.xacts m false pa 4 = true) (hr : reaches s m pa false = true) :
    postRead m c pa 4 s = (ctlRead m c pa s).2 := by
  rw [postRead, posted, if_pos (by simpa [mayGrant, newXact] using hm), readIssued, reg_targetRead m c .nobody pa s h hr]
  rfl

/-! ### Interrupt sources -/

section Sources
variable {s : State} {n : Nat}

theorem icuEvent_powered (h1 : 1 ≤ n) (h2 : n ≤ 640) (hp : s.pwr ≤ 1) : icuEvent n s = icuAccept n (mirrorEvent n s) := by
  have hp' : s.power ≤ 1 := hp
  exact (if_neg (by omega)).trans ((if_neg (by omega)).trans (if_neg (by omega)))

theorem sicEvent_powered (h1 : 1 ≤ n) (h2 : n ≤ 63) (hp : s.pwr ≤ 2) :
    sicEvent n s = if s.rb (SIC_SRC n) 6 = true then s else s.setRb (SIC_SRC n) 7 true := if_neg (by omega)

end Sources

/-! ### Register writes -/

section Writes
variable {m : Nat} {v : Word} {s : State}

theorem recsGo_eq {x : CtxId} : recsGo x s = if (s.vc x).recs = [] then s else recFlush x (s.vc x).recs s := by
  unfold recsGo
  simp only [List.isEmpty_iff]

theorem regWf_crtail : ∀ x : CtxId, regWf (VC_CRTAIL x) = true := by decide

theorem regWf_crbaseLo : ∀ x : CtxId, regWf (VC_CRBASE_LO x) = true := by decide

theorem ctlWrite_crtail : ∀ x : CtxId, ctlWrite m 0 .m (VC_CRTAIL x) v s = crtailWrite x v s
  | 0 => rfl
  | 1 => rfl
  | 2 => rfl
  | 3 => rfl
  | 4 => rfl
  | 5 => rfl
  | 6 => rfl
  | 7 => rfl

theorem ctlWrite_crbaseLo : ∀ x : CtxId, ctlWrite m 0 .m (VC_CRBASE_LO x) v s = crbaseLoWrite x v s
  | 0 => rfl
  | 1 => rfl
  | 2 => rfl
  | 3 => rfl
  | 4 => rfl
  | 5 => rfl
  | 6 => rfl
  | 7 => rfl

theorem ctlWrite_vmsLock : ctlWrite m 0 .m VMS_LOCK 1 s = if m = 8 ∧ s.rb VMS_LOCK 0 = false then
    ((s.setRb VMS_LOCK 0 true).setRb VMS_PSTAT 31 true).setRb VMS_PSTAT 30 true else s := by
  have h1 : wbit 1 0 = true := by decide
  show vmsLockWrite m 1 s = _
  unfold vmsLockWrite
  simp only [h1, Bool.and_true, Bool.and_eq_true, decide_eq_true_eq, Bool.not_eq_true']
  rfl

theorem regWf_csel (c : BitVec 8) : regWf (EVR_CSEL c.toNat) = true := by
  have hc := c.isLt
  unfold regWf EVR_CSEL
  simp
  omega

theorem ctlWrite_csel (c : BitVec 8) : ctlWrite m 0 .m (EVR_CSEL c.toNat) v s = cselWrite c.toNat v s := by
  have hc := c.isLt
  have hframe : EVR_CSEL c.toNat / 0x10000 = 0x2080 := by unfold EVR_CSEL; omega
  have hplace : EVR_CSEL c.toNat % 0x10000 = 4 * c.toNat := by unfold EVR_CSEL; omega
  unfold ctlWrite
  rw [hframe]
  show evrFrameWrite m (EVR_CSEL c.toNat) v s = _
  unfold evrFrameWrite
  dsimp only
  rw [hplace, if_pos (by omega), Nat.mul_div_cancel_left _ (by decide)]

theorem ctlWrite_tbRate : ctlWrite m 0 .m TB_RATE v s = if tbDisc s = 0 then s.setReg TB_RATE v else s := rfl

theorem ctlWrite_tbAdj : ctlWrite m 0 .m TB_ADJ v s = if tbDisc s = 0 then tbOffset v.toInt s else s := rfl

end Writes

/-! ### The event router -/

section Router
variable {s : State} {p : BitVec 8} {j : List Nat}

theorem evrEvent_pin (h1 : 80 ≤ p.toNat) (h2 : p.toNat < 96) (hpin : fnPlaced s p.toNat = true) (hp : s.pwr ≤ 3) :
    evrEvent p.toNat j s = (channelsOf s p.toNat).foldl (fun t n => channelEdge (j.contains n) n t) s := by
  have hp' : s.power ≤ 3 := hp
  exact (if_pos (by simp [h1, h2])).trans (if_pos (by simp [hpin, hp']))

theorem evrEvent_pulse (h : p.toNat < 80 ∨ 96 ≤ p.toNat) (hmem : p.toNat ∈ s.edges) : evrEvent p.toNat j s =
    (channelsOf s p.toNat).foldl (fun t n => channelEdge (j.contains n) n t) { s with edges := s.edges.erase p.toNat } := by
  refine (if_neg ?_).trans (if_pos (by simpa using hmem))
  simp only [Bool.and_eq_true, decide_eq_true_eq]
  omega

end Router

/-! ### Timers, compares and captures -/

section Timers
variable {s : State}

/-- An edge that a capture input detects, at its pin, at REFCLK or at MOTHCLK. -/
theorem captureEdge_detected {n : Fin 16} {r : Bool} (hp : s.pwr ≤ 1) (hon : s.rb (CAP_CTL n.val) 31 = true)
    (hsense : s.rb (CAP_CTL n.val) (if r then 4 else 5) = true)
    (hsrc : s.rf (CAP_CTL n.val) 2 0 = 2 ∨ s.rf (CAP_CTL n.val) 2 0 = 3 ∨ s.rf (CAP_CTL n.val) 2 0 = 0 ∧ fnPlaced s (0x40 + n.val) = true) :
    captureEdge n.val r s = if s.capDead.getLsbD n.val = true then (pulse (64 + n.val) s).setRb (CAP_STAT n.val) 30 true
      else capStamp n.val r (pulse (64 + n.val) s) := by
  have hp2 : decide (s.power ≤ 2) = true := decide_eq_true (Nat.le_succ_of_le hp)
  have hp3 : decide (s.power ≤ 3) = true := decide_eq_true (Nat.le_succ_of_le (Nat.le_succ_of_le hp))
  have hdet : capDetects s n.val r = true := by rw [capDetects, hon, hsense]; rfl
  have hedge : captureEdge n.val r s = capEdge n.val r s := by
    unfold captureEdge
    obtain h | h | ⟨h, hpin⟩ := hsrc
    · simp only [h, hp2, hdet, Bool.and_self, if_true]
    · simp only [h, hp2, hdet, Bool.and_self, if_true]
    · simp only [h, hpin, hp3, hdet, Bool.and_self, if_true]
  exact hedge.trans (if_pos hp)

theorem regWf_capNsHi : ∀ n : Fin 16, regWf (CAP_NS_HI n.val) = true := by decide

theorem ctlRead_capNsHi (m : Nat) (n : Fin 16) : (ctlRead m 0 (CAP_NS_HI n.val) s).2 = s.setRb (CAP_STAT n.val) 31 false := by
  have hn := n.isLt
  have hframe : CAP_NS_HI n.val / 0x10000 = 0x2098 := by unfold CAP_NS_HI; omega
  have hplace : CAP_NS_HI n.val % 0x10000 = 32 * n.val + 16 := by unfold CAP_NS_HI; omega
  have hnum : (32 * n.val + 16) / 32 = n.val := by omega
  unfold ctlRead
  simp only [hframe, hplace]
  rw [if_pos (by omega), hnum]

end Timers

/-- Settles O46: every command of the interrupts, the event router and time that acts. -/
theorem interruptAndTimeEventsComplete : Obligations.InterruptAndTimeEventsComplete := by
  unfold Obligations.InterruptAndTimeEventsComplete
  refine fun m s v => ⟨fun n ha h1 h2 hp => congrArg _ ((if_pos ha).trans (icuEvent_powered h1 h2 hp)), fun n ha => congrArg _ (if_neg (by simp [ha])),
    fun n h1 h2 hp => congrArg _ (sicEvent_powered h1 h2 hp), fun h => exec_sent h (by decide) rfl rfl,
    fun x h s1 h1 => exec_sent h (regWf_crtail x) rfl ?_, fun x h s1 h1 => exec_sent h (regWf_crbaseLo x) rfl ?_,
    fun h => exec_sent h (by decide) rfl ctlWrite_vmsLock, fun c h => exec_sent h (regWf_csel c) rfl (ctlWrite_csel c),
    fun h => exec_sent h (by decide) rfl rfl, fun p j h1 h2 hpin hp => congrArg _ (evrEvent_pin h1 h2 hpin hp),
    fun p j h hmem => congrArg _ (evrEvent_pulse h hmem), fun n hb hp => congrArg _ (if_pos (by simp [hb, State.power, hp])),
    fun hp => congrArg _ (if_pos hp), fun h => exec_sent h (by decide) rfl ctlWrite_tbRate, fun h => exec_sent h (by decide) rfl ctlWrite_tbAdj,
    fun h => exec_sent h (by decide) rfl rfl, fun n hon hdue => congrArg _ (if_pos (by simp [wakeDue, hon, hdue])),
    fun n hp hon hclk hcnt => congrArg _ (if_pos (by simp [tmuRuns, State.power, clockTicks, hp, hon, hclk, hcnt])),
    fun n hp hon hclk hcnt => congrArg _ (if_pos (by simp [tmuRuns, State.power, clockTicks, hp, hon, hclk, hcnt])),
    fun h => ⟨exec_sent h (by decide) rfl rfl, exec_sent h (by decide) rfl rfl, exec_sent h (by decide) rfl rfl⟩,
    fun k hp => ⟨fun hon hdue => congrArg _ (if_pos ?_), fun hon hdue => congrArg _ (if_pos ?_)⟩,
    fun n r hp hon hsense hsrc => congrArg _ (captureEdge_detected hp hon hsense hsrc), fun n => rfl,
    fun n h => congrArg _ ((postRead_reg m.val 0 _ s (regWf_capNsHi n) h.1 h.2).trans (ctlRead_capNsHi m.val n))⟩
  · rw [ctlWrite_crtail, crtailWrite, recsGo_eq, h1]
  · rw [ctlWrite_crbaseLo, crbaseLoWrite, recsGo_eq, h1]
  · have hreg : cmpReg MC_CTL SC_CTL k.val = MC_CTL k.val := if_pos k.isLt
    simp [tmuRuns, State.power, hp, cmpDue, hreg, hon, hdue]
  · have hreg : cmpReg MC_CTL SC_CTL (4 + k.val) = SC_CTL k.val := (if_neg (by omega)).trans (by rw [Nat.add_sub_cancel_left])
    simp [tmuRuns, State.power, hp, cmpDue, hreg, hon, hdue]

end Sys2Proof.InterruptAndTimeEvents

/-! The bus matrix's transactions (R300 to R312). -/
namespace Sys2Proof.BusTransactions
open Sys2Proof.Machine Stated VectorEvents

section Issue
variable {x : Xact} {s : State}

theorem issueXact_granted (hg : mayGrant s s.xacts x = true) (hc : contended s x = false) {y : Xact} {t : State} (h : grantXact x s = (y, t)) :
    issueXact x s = xactsClean { t with xacts := t.xacts ++ [y] } := by
  refine (if_pos (by simp [hg, hc])).trans ?_
  rw [h]

theorem issueXact_waits (h : mayGrant s s.xacts x = false ∨ contended s x = true) : issueXact x s = { s with xacts := s.xacts ++ [x] } := by
  refine if_neg ?_
  obtain h | h := h
  · simp [h]
  · simp [h]

/-- The arbiter remembers the one it has granted: the core of a marked request, else its master. -/
def remembered (x : Xact) (s : State) : State :=
  { s with arb := smPut zeroDefault s.arb (arbKey (targetOf s x.pa) (x.kind != 0) (if x.det then 4 else arbQos x)) ((if x.det then x.core else x.m) + 1) }

/-- An error at a target is logged as the transaction ends. -/
theorem xactEnd_error (hgone : x.gone = false) (hr : x.resp = rDECODE ∨ x.resp = rTARGET) :
    xactEnd x s = ({ x with todo := [], answered := true }, xbmLog x.m x.id (targetOf s x.pa) (x.kind != 0) false x.resp x.pa s) := by
  unfold xactEnd
  rw [if_neg (by simp [hgone]), xbmLogged, if_pos hr]

theorem xactEnd_okay (hr : x.resp = rOKAY) : xactEnd x s = ({ x with todo := [], answered := true }, s) := by
  unfold xactEnd
  split
  · rfl
  · rw [xbmLogged, if_neg (by rw [hr]; decide)]

theorem refusedWhole_noBurst (hb : burstOk x.pa x.len = false) : refusedWhole s x = some rTARGET := if_pos (by simp [hb])

theorem refusedWhole_read (hkind : x.kind = 0) (hb : burstOk x.pa x.len = true) : refusedWhole s x = none :=
  (if_neg (by simp [hb])).trans ((if_neg (by simp [hkind])).trans (if_neg (by simp [hkind])))

/-- A read that is granted while nothing waits at T6, and that its target answers. -/
theorem xactPart_read {pa : Nat} {b : List Byte} (hkind : x.kind = 0) (hauto : x.auto = false) (hgone : x.gone = false) (hout : s.outst = []) :
    xactPart x pa b s = targetRead x.m x.core (.xact x.m x.id) pa x.len s := by
  unfold xactPart
  simp only [hkind, hauto, hgone, hout, Bool.or_self, List.any_nil, Bool.false_eq_true, if_false, if_true]
  rfl

theorem grantXact_refused (hgone : x.gone = false) (hb : burstOk x.pa x.len = false) :
    grantXact x s = ({ x with granted := true, answered := true, todo := [], resp := rTARGET },
      xbmLog x.m x.id (targetOf s x.pa) (x.kind != 0) false rTARGET x.pa (remembered x s)) := by
  unfold grantXact
  rw [refusedWhole_noBurst hb]
  exact xactEnd_error (x := { x with granted := true, resp := rTARGET }) hgone (.inr rfl)

theorem grantXact_read {b : List Byte} {t : State} (hkind : x.kind = 0) (hauto : x.auto = false) (hgone : x.gone = false) (hresp : x.resp = rOKAY)
    (htodo : x.todo = [(x.pa, [])]) (hout : s.outst = []) (hb : burstOk x.pa x.len = true)
    (hread : targetRead x.m x.core (.xact x.m x.id) x.pa x.len (remembered x s) = (.done rOKAY b, t)) :
    grantXact x s = ({ x with granted := true, answered := true, todo := [], data := b.map some }, t) := by
  have hout' : (remembered x s).outst = [] := hout
  have hpart : xactPart { x with granted := true } x.pa [] (remembered x s) = (.done rOKAY b, t) := 
    (xactPart_read (x := { x with granted := true }) hkind hauto hgone hout').trans hread
  have hworst : worst rOKAY rOKAY = rOKAY := by decide
  unfold grantXact
  rw [refusedWhole_read hkind hb, htodo]
  show xactRun [(x.pa, [])] { x with granted := true } (remembered x s) = _
  conv => lhs; whnf
  rw [hpart]
  simp only [hkind, hresp, hworst]
  exact xactEnd_okay rfl

end Issue

section Responses
variable {s : State} {m id i : Nat} {x : Xact}

theorem retryXact_answered (hx : s.xacts[i]? = some x) (ha : x.answered = true) : retryXact i s = s := by
  unfold retryXact
  rw [hx]
  exact if_neg (by simp [ha])

theorem xactRespond_answered {det : Bool} (hi : xactOf s m id (fun _ => true) = some i) (hx : s.xacts[i]? = some x) (ha : x.answered = true)
    (hdet : x.det = det) : xactRespond m id det s = { s with xacts := s.xacts.eraseIdx i } := by
  unfold xactRespond
  rw [hi]
  dsimp only
  rw [retryXact_answered hx ha, hx]
  exact if_pos (by simp [hdet, ha])

theorem masterTimeout_timed (htmo : s.rf XBM_TMO 19 0 ≠ 0) (hi : timed s m id = some i) (hx : s.xacts[i]? = some x) : masterTimeout m id s =
    { xbmLog x.m x.id (targetOf s x.pa) (x.kind != 0) true rTARGET x.pa s with xacts := s.xacts.set i { x with auto := true, gone := true } } := by
  refine (if_neg htmo).trans ?_
  rw [hi]
  show xactTimeout i s = _
  unfold xactTimeout
  rw [hx]
  rfl

theorem timed_names (hi : timed s m id = some i) (hx : s.xacts[i]? = some x) : x.m = m ∧ x.id = id := by
  obtain ⟨hlt, hp, -⟩ := List.findIdx?_eq_some_iff_getElem.mp hi
  rw [List.getElem?_eq_getElem hlt, Option.some.injEq] at hx
  rw [hx] at hp
  simp only [Bool.and_eq_true, beq_iff_eq] at hp
  obtain ⟨⟨⟨⟨⟨hm, hid⟩, -⟩, -⟩, -⟩, -⟩ := hp
  exact ⟨hm, hid⟩

theorem xactAge_marks (hage : s.rf XBM_AGE 11 0 ≠ 0) (hi : xactOf s m id (fun y => !y.granted && !y.aged) = some i) (hx : s.xacts[i]? = some x) :
    xactAge m id s = { s with xacts := s.xacts.set i { x with aged := true } } := by
  refine (if_neg hage).trans ?_
  rw [hi]
  show onXact (fun x t => ({ x with aged := true }, t)) i s = _
  unfold onXact
  rw [hx]

end Responses

/-- Settles O47: register writes, and transactions from their issue to their response, their timer and their age. -/
theorem busTransactionsComplete : Obligations.BusTransactionsComplete := by
  unfold Obligations.BusTransactionsComplete
  refine fun m k id s => ⟨fun pa v hw => ⟨fun h => congrArg _ (postWrite_reg _ _ _ pa v s hw h.1 h.2), fun hm hr => congrArg _ (postWrite_decode _ _ _ pa v s hw hm hr),
    fun hm => congrArg _ (postWrite_off _ _ _ pa v s hm)⟩, fun hp pa len data fn v coll one => ?_, fun pa len x hx hp hg hc hout s0 hs0 => ?_,
    fun i x hp hi hx ha => ⟨fun hdet => clocked_next hp (xactRespond_answered hi hx ha hdet), fun hdet => clocked_next hp (xactRespond_answered hi hx ha hdet)⟩,
    fun i x hp htmo hi hx => clocked_next hp ?_, fun i x hp hage hi hx => clocked_next hp (xactAge_marks hage hi hx)⟩
  · iterate 3 refine List.forall_mem_cons.mpr ⟨⟨fun hg hc y t h => clocked_next hp (issueXact_granted hg hc h), fun h => clocked_next hp (issueXact_waits h)⟩, ?_⟩
    exact List.forall_mem_nil _
  · have hrem : remembered x s = s0 := by
      subst hx hs0
      rfl
    subst hx
    refine ⟨fun hb b s1 hread => clocked_next hp (issueXact_granted hg hc ?_), fun hb s1 h1 => clocked_next hp (issueXact_granted hg hc ?_)⟩
    · exact grantXact_read rfl rfl rfl rfl rfl hout hb (by rw [hrem]; exact hread)
    · rw [h1, ← hrem]
      exact grantXact_refused rfl hb
  · obtain ⟨hm, hid⟩ := timed_names hi hx
    rw [masterTimeout_timed htmo hi hx, hm, hid]

end Sys2Proof.BusTransactions

/-! What signals leave alone: an event at the interrupt unit changes its own frame, the mirrors in the Safety Island, and cores that wait (R313 to R318). -/
namespace Sys2Proof.Signalling
open Sys2Proof.Machine

/-- An address outside the interrupt unit's frame and the Safety Island's. -/
abbrev Calm (a : Nat) : Prop := a < 0x20700000 ∨ 0x20710000 ≤ a ∧ a < 0x38000000

/-- `t` is `s` after signals, with every register outside the interrupt unit and the Safety Island as it was. -/
structure Rings (s t : State) : Prop where
  fields : Signalled s t
  reg : ∀ a, Calm a → t.reg a = s.reg a

namespace Rings
variable {s t u : State}

theorem refl (s : State) : Rings s s := ⟨.refl s, fun _ _ => rfl⟩

theorem trans (h : Rings s t) (h' : Rings t u) : Rings s u := ⟨h.fields.trans h'.fields, fun a ha => (h'.reg a ha).trans (h.reg a ha)⟩

theorem ite {p : Prop} [Decidable p] (ht : p → Rings s t) (hu : ¬ p → Rings s u) : Rings s (if p then t else u) := by
  split
  · exact ht ‹_›
  · exact hu ‹_›

theorem foldl {α : Type} {f : State → α → State} {l : List α} (s : State) (h : ∀ t, ∀ a ∈ l, Rings t (f t a)) : Rings s (l.foldl f s) :=
  List.foldlRecOn l f (.refl s) fun t ht a ha => ht.trans (h t a ha)

theorem setRb {a : Nat} (b : Nat) (v : Bool) (h : ¬ Calm a) : Rings s (s.setRb a b v) :=
  ⟨signalled_setRb .., fun _ hk => reg_setRb_ne s b v fun he => h (he ▸ hk)⟩

theorem rb {a : Nat} (h : Rings s t) (ha : Calm a) (b : Nat) : t.rb a b = s.rb a b := congrArg (wbit · b) (h.reg a ha)

theorem rf {a : Nat} (h : Rings s t) (ha : Calm a) (hi lo : Nat) : t.rf a hi lo = s.rf a hi lo := congrArg (fld · hi lo) (h.reg a ha)

end Rings

variable (s : State)

theorem rings_sicEvent (n : Nat) : Rings s (sicEvent n s) :=
  .ite (fun _ => .refl s) fun _ => .ite (fun _ => .refl s) fun _ => .setRb _ _ (by unfold Calm SIC_SRC; omega)

theorem rings_mirrorEvent (n : Nat) : Rings s (mirrorEvent n s) :=
  .foldl s fun t _ _ => .ite (fun _ => rings_sicEvent t _) fun _ => .refl t

theorem rings_wakeFor (n : Nat) : Rings s (wakeFor n s) :=
  .ite (fun _ => .foldl s fun t _ _ => .ite (fun _ => ⟨signalled_modCore t .., fun _ _ => rfl⟩) fun _ => .refl t) fun _ => .refl s

theorem rings_icuAccept (n : Nat) : Rings s (icuAccept n s) :=
  .ite (fun _ => .refl s) fun hn => .ite (fun _ => .setRb _ _ (by unfold Calm ICU_LOST; omega)) fun _ =>
    (Rings.setRb 7 true (by unfold Calm ICU_SRC; omega)).trans (rings_wakeFor _ n)

theorem rings_icuEvent (n : Nat) : Rings s (icuEvent n s) :=
  .ite (fun _ => .refl s) fun _ => .ite (fun _ => ⟨signalled_icuEvent_held n, fun _ _ => rfl⟩) fun _ => .ite (fun _ => .refl s) fun _ =>
    (rings_mirrorEvent s n).trans (rings_icuAccept _ n)
where
  /-- A source that is held while the unit sleeps. -/
  signalled_icuEvent_held (n : Nat) : Signalled s { s with icuHeld := s.icuHeld ++ [n] } := ⟨s.regs, s.cores, _, s.edges, s.fresh, s.si, rfl, id⟩

theorem rings_pulse (p : Nat) : Rings s (pulse p s) := ⟨⟨s.regs, s.cores, s.icuHeld, _, s.fresh, s.si, rfl, id⟩, fun _ _ => rfl⟩

theorem rings_draw : Rings s s.draw.2 := ⟨⟨s.regs, s.cores, s.icuHeld, s.edges, _, s.si, rfl, id⟩, fun _ _ => rfl⟩

end Sys2Proof.Signalling

/-! The ports of the Idene Link: bring-up, acknowledgements, retries and HELLOs (R351 to R356, R365, R372). -/
namespace Sys2Proof.LinkPortEvents
open Sys2Proof.Machine Stated VectorEvents MemoryEvents Signalling

/-! ### Port control -/

section Control
variable {p : Fin 6} {s : State} {v : Word} {m : Nat}

theorem regWf_portCtl : ∀ p : Fin 6, regWf (IDL_P_CTL p.val) = true := by decide

theorem ctlWrite_portCtl : ∀ p : Fin 6, ctlWrite m 0 .m (IDL_P_CTL p.val) v s = portCtlWrite p.val v s
  | 0 => rfl
  | 1 => rfl
  | 2 => rfl
  | 3 => rfl
  | 4 => rfl
  | 5 => rfl

/-- RETRAIN of an enabled port takes it down. -/
theorem portCtlWrite_retrain (hon : s.rb (IDL_P_CTL p.val) 31 = true) : portCtlWrite p.val (putBit (s.reg (IDL_P_CTL p.val)) 30 true) s =
    portDown p.val (s.setReg (IDL_P_CTL p.val) (putBit (s.reg (IDL_P_CTL p.val)) 30 true &&& 0x8F00FFFF)) := by
  have h31 : wbit (putBit (s.reg (IDL_P_CTL p.val)) 30 true) 31 = true := (wbit_putBit_ne _ _ (by decide)).trans hon
  have h30 : wbit (putBit (s.reg (IDL_P_CTL p.val)) 30 true) 30 = true := wbit_putBit_self _ _ (by decide)
  exact (if_pos h31).trans (if_pos (by simp [h30]))

end Control

/-! ### Bring-up -/

section BringUp
variable {p : Nat} {s : State}

theorem portAdvance_next (hon : s.rb (IDL_P_CTL p) 31 = true) (hpll : s.rb PMU_PLL 0 = true) (h1 : 1 ≤ portState s p) (h4 : portState s p ≤ 4) :
    portAdvance p s = s.setRf (IDL_P_STAT p) 31 29 (portState s p + 1) := (if_pos (by simp [hon, hpll, h1])).trans (if_pos h4)

theorem portAdvance_up (hon : s.rb (IDL_P_CTL p) 31 = true) (hpll : s.rb PMU_PLL 0 = true) (h5 : portState s p = 5) (hin : s.helloIn.getLsbD p = true) :
    portAdvance p s = pulse 121 (icuEvent (192 + 8 * p) (s.setRf (IDL_P_STAT p) 31 29 6)) :=
  (if_pos (by simp [hon, hpll, h5])).trans ((if_neg (by omega)).trans (if_pos (by simp [h5, hin])))

/-- A port that is not UP goes down without a trace. -/
theorem portDown_quiet (h5 : portState s p ≤ 5) : portDown p s =
    { s.setRf (IDL_P_STAT p) 31 29 (if s.rb (IDL_P_CTL p) 31 = true then 1 else 0) with helloIn := s.helloIn &&& ~~~(1#6 <<< p) } := by
  unfold portState at h5
  refine if_neg ?_
  simp only [portUp, Bool.and_eq_true, decide_eq_true_eq, beq_iff_eq]
  omega

end BringUp

/-! ### HELLOs -/

section Hellos
variable {p : Nat} {s : State}

theorem reg64_setReg64 {lo hi x : Nat} (hne : lo ≠ hi) (hx : x < 2 ^ 64) : (s.setReg64 lo hi x).reg64 lo hi = x := by
  unfold State.reg64 State.setReg64
  rw [reg_setReg_self, reg_setReg_ne _ _ hne, reg_setReg_self, BitVec.toNat_ofNat, BitVec.toNat_ofNat]
  omega

/-- What a HELLO leaves in its port: the port's registers and the mark that one has come. -/
structure SamePorts (s t : State) : Prop where
  reg : ∀ a, 0x20a20000 ≤ a → a < 0x20a80000 → t.reg a = s.reg a
  hello : t.helloIn = s.helloIn

theorem samePorts_of_rings {t : State} (h : Rings s t) : SamePorts s t := by
  refine ⟨fun a h1 h2 => h.reg a (.inr ⟨by omega, by omega⟩), ?_⟩
  obtain ⟨r, c, hl, e, f, i, rfl, -⟩ := h.fields
  rfl

theorem SamePorts.trans {t u : State} (h : SamePorts s t) (h' : SamePorts t u) : SamePorts s u :=
  ⟨fun a h1 h2 => (h'.reg a h1 h2).trans (h.reg a h1 h2), h'.hello.trans h.hello⟩

theorem samePorts_tbUnlockFrom (d : Nat) (s : State) : SamePorts s (tbUnlockFrom d s) := by
  unfold tbUnlockFrom
  split
  · have hset : SamePorts s (s.setRb TB_STAT 1 true) := ⟨fun a h1 _ => reg_setRb_ne s _ _ (by unfold TB_STAT; omega), rfl⟩
    exact hset.trans (samePorts_of_rings ((rings_icuEvent _ 517).trans (rings_pulse _ 59)))
  · exact ⟨fun _ _ _ => rfl, rfl⟩

theorem samePorts_ftUnlock (s : State) : SamePorts s (ftUnlock s) := by
  unfold ftUnlock
  split
  · have hset : SamePorts s ({ s with ft := .reset }.setRb IDL_TSTAT 31 false) := by
      refine ⟨fun a h1 _ => reg_setRb_ne _ _ _ (by unfold IDL_TSTAT; omega), rfl⟩
    exact hset.trans (samePorts_tbUnlockFrom 1 _)
  · exact ⟨fun _ _ _ => rfl, rfl⟩

/-- The word that a HELLO gives IDL_PnSTAT. -/
def helloWord (h : Hello) (w : Word) : Word :=
  putFld (putFld (putBit (putBit w 28 h.valid) 27 (h.role == 1 || (h.role == 2 && h.locked))) 26 24 h.port.toNat) 13 0 h.id.toNat

/-- A HELLO held. -/
def helloHeld (p : Nat) (h : Hello) (s : State) : State :=
  let s1 := (s.setReg (IDL_P_STAT p) (helloWord h (s.reg (IDL_P_STAT p)))).setReg64 (IDL_P_NBRUID_LO p) (IDL_P_NBRUID_HI p) h.uid.toNat
  { s1 with helloIn := s1.helloIn ||| (1#6 <<< p) }

theorem helloTake_held {h : Hello} (hflow : hellosFlow s p = true) : SamePorts (helloHeld p h s) (helloTake p h s) := by
  have htake : helloTake p h s = if ftSlave (helloHeld p h s) && ftUport (helloHeld p h s) == p && !(h.role == 1 || (h.role == 2 && h.locked))
      then ftUnlock (helloHeld p h s) else helloHeld p h s := if_pos hflow
  rw [htake]
  split
  · exact samePorts_ftUnlock _
  · exact ⟨fun _ _ _ => rfl, rfl⟩

theorem reg_helloHeld {h : Hello} : (helloHeld p h s).reg (IDL_P_STAT p) = helloWord h (s.reg (IDL_P_STAT p)) := by
  have hlo : IDL_P_STAT p ≠ IDL_P_NBRUID_LO p := by unfold IDL_P_STAT IDL_P_NBRUID_LO; omega
  have hhi : IDL_P_STAT p ≠ IDL_P_NBRUID_HI p := by unfold IDL_P_STAT IDL_P_NBRUID_HI; omega
  exact (reg_setReg_ne _ _ hhi).trans ((reg_setReg_ne _ _ hlo).trans (reg_setReg_self ..))

theorem uid_helloHeld {h : Hello} : (helloHeld p h s).reg64 (IDL_P_NBRUID_LO p) (IDL_P_NBRUID_HI p) = h.uid.toNat :=
  reg64_setReg64 (by unfold IDL_P_NBRUID_LO IDL_P_NBRUID_HI; omega) h.uid.isLt

theorem helloWord_fields {h : Hello} {w : Word} :
    wbit (helloWord h w) 28 = h.valid ∧ fld (helloWord h w) 26 24 = h.port.toNat ∧ fld (helloWord h w) 13 0 = h.id.toNat := by
  refine ⟨?_, ?_, ?_⟩
  · rw [helloWord, wbit_putFld_out _ (by omega), wbit_putFld_out _ (by omega), wbit_putBit_ne _ _ (by decide), wbit_putBit_self _ _ (by decide)]
  · rw [helloWord, fld_putFld_out _ _ (by omega), fld_putFld_self _ _ (by decide)]
    exact Nat.mod_eq_of_lt h.port.isLt
  · rw [helloWord, fld_putFld_self _ _ (by decide)]
    exact Nat.mod_eq_of_lt h.id.isLt

/-- A HELLO in the states HELLO and UP is held. -/
theorem helloTake_fields {p : Fin 6} {h : Hello} (hflow : hellosFlow s p.val = true) : (helloTake p.val h s).helloIn = s.helloIn ||| (1#6 <<< p.val) ∧
    (helloTake p.val h s).rb (IDL_P_STAT p.val) 28 = h.valid ∧ (helloTake p.val h s).rf (IDL_P_STAT p.val) 26 24 = h.port.toNat ∧
    (helloTake p.val h s).rf (IDL_P_STAT p.val) 13 0 = h.id.toNat ∧
    (helloTake p.val h s).reg64 (IDL_P_NBRUID_LO p.val) (IDL_P_NBRUID_HI p.val) = h.uid.toNat := by
  have hp := p.isLt
  have hsame := helloTake_held (h := h) hflow
  obtain ⟨hvalid, hport, hid⟩ := helloWord_fields (h := h) (w := s.reg (IDL_P_STAT p.val))
  have hstat : (helloTake p.val h s).reg (IDL_P_STAT p.val) = helloWord h (s.reg (IDL_P_STAT p.val)) :=
    (hsame.reg _ (by unfold IDL_P_STAT; omega) (by unfold IDL_P_STAT; omega)).trans reg_helloHeld
  refine ⟨hsame.hello, (congrArg (wbit · 28) hstat).trans hvalid, (congrArg (fld · 26 24) hstat).trans hport, (congrArg (fld · 13 0) hstat).trans hid, ?_⟩
  rw [State.reg64, hsame.reg _ (by unfold IDL_P_NBRUID_LO; omega) (by unfold IDL_P_NBRUID_LO; omega),
    hsame.reg _ (by unfold IDL_P_NBRUID_HI; omega) (by unfold IDL_P_NBRUID_HI; omega)]
  exact uid_helloHeld

end Hellos

/-! ### The link layer -/

section Link
variable {p : Fin 6} {s : State}

/-- A transmitted packet is sent again, up to eight times in a row. -/
theorem linkRetry_again {q : BitVec 8} (hup : portUp s p.val = true) (hsent : ∃ e ∈ s.linkTx, e.port = p.val ∧ e.sent = true ∧ e.seq = q)
    {r : BitVec 8 × Nat} {n : Nat} (hr : r = s.retries[p.val]) (hn : n = if r.1 = q then r.2 + 1 else 1) :
    linkRetry p.val q s = if 8 < n then deliverEnded (portFall p.val s)
      else { portCount IDL_P_RETRY p.val s with retries := s.retries.setIfInBounds p.val (q, n) } := by
  have hget : s.retries.toList.getD p.val (0, 0) = r := by
    rw [hr]
    simp [List.getD]
  have hany : (s.linkTx.any fun e => e.port == p.val && e.sent && e.seq == q) = true := by
    obtain ⟨e, hmem, hport, hs, hseq⟩ := hsent
    exact List.any_eq_true.mpr ⟨e, hmem, by simp [hport, hs, hseq]⟩
  refine (if_pos (by simp [hup, hany])).trans ?_
  rw [hget]
  subst hn
  rfl

/-- A bad packet is counted, and the count stops at its largest value. -/
theorem crcErr_linkCrcError (hup : portUp s p.val = true) :
    (linkCrcError p.val s).rf (IDL_P_CRCERR p.val) 15 0 = Nat.min 0xFFFF (s.rf (IDL_P_CRCERR p.val) 15 0 + 1) := by
  have hp := p.isLt
  have hcalm : Calm (IDL_P_CRCERR p.val) := .inr ⟨by unfold IDL_P_CRCERR; omega, by unfold IDL_P_CRCERR; omega⟩
  have hcount : (portCount IDL_P_CRCERR p.val s).rf (IDL_P_CRCERR p.val) 15 0 = Nat.min 0xFFFF (s.rf (IDL_P_CRCERR p.val) 15 0 + 1) :=
    rf_countUp _ _
  have hring : Rings (portCount IDL_P_CRCERR p.val s) (crcCount p.val s) := .ite (fun _ => rings_icuEvent _ _) fun _ => .refl _
  have heq : linkCrcError p.val s = { crcCount p.val s with retryReq := s.retryReq ||| (1#6 <<< p.val) } := if_pos hup
  rw [heq]
  exact (hring.rf hcalm 15 0).trans hcount

theorem c0Launch_due {k : Nat} {e : C0Slot} (he : s.c0.find? (fun e => e.k == k) = some e) (hdue : e.start + 256 ≤ tbNs s) :
    c0Launch k s = c0Send k e.data { s with c0 := s.c0.erase e } := by
  unfold c0Launch
  rw [he]
  exact if_pos hdue

end Link

/-- Settles O48: ports come up and fall, HELLOs are held, packets acknowledged and sent again, and times exchanged. -/
theorem linkPortEventsComplete : Obligations.LinkPortEventsComplete := by
  unfold Obligations.LinkPortEventsComplete
  refine fun m p v s hp => ⟨fun h => ⟨?_, fun hon => ?_⟩, fun hon hpll => ⟨fun h1 h4 => clocked_next hp (portAdvance_next hon hpll h1 h4),
    fun h5 hin => clocked_next hp (portAdvance_up hon hpll h5 hin)⟩, fun h1 h5 => clocked_next hp ((if_pos ⟨h1, h5⟩).trans (portDown_quiet h5)),
    fun hup => ⟨clocked_next hp (if_pos hup), clocked_next hp (if_pos hup)⟩, fun hst => ?_, fun q hup => clocked_next hp (if_pos hup),
    fun q hup hsent r n hr hn => clocked_next hp (linkRetry_again hup hsent hr hn), fun hup => ⟨clocked_next hp rfl, crcErr_linkCrcError hup⟩,
    fun t1 t2 t3 t4 _ _ _ => clocked_next hp rfl, fun hup q u hdraw => clocked_next hp ?_, fun k e he hdue => clocked_next hp (c0Launch_due he hdue)⟩
  · exact congrArg (fun t => Host.Outcome.next (deliverEnded t)) ((masterWrite_reg m _ v s (regWf_portCtl p) h.1 h.2).trans (ctlWrite_portCtl p))
  · refine congrArg (fun t => Host.Outcome.next (deliverEnded t)) ((masterWrite_reg m _ _ s (regWf_portCtl p) h.1 h.2).trans ?_)
    rw [ctlWrite_portCtl, portCtlWrite_retrain hon]
  · have hflow : hellosFlow s p.val = true := by simpa [hellosFlow] using hst
    exact ⟨clocked_next hp (if_pos hflow), fun h => ⟨_, clocked_next hp rfl, helloTake_fields hflow⟩⟩
  · unfold exchangeReply
    rw [if_pos hup, hdraw]

end Sys2Proof.LinkPortEvents

/-! Packets of the Idene Link (R353, R357 to R361, R369 to R371). -/
namespace Sys2Proof.LinkPackets
open Sys2Proof.Machine Stated VectorEvents MemoryEvents

/-! ### Arrival -/

section Arrival
variable {p : Nat} {k : Packet} {s s0 : State}

theorem stomped_of_ok (h : packetOk k = true) : stomped k = false := by
  have hne : ∀ x : Word, x ≠ ~~~x := fun x hx => by
    have := congrArg (·.getLsbD 0) hx
    simp at this
  unfold packetOk at h
  simp only [Bool.and_eq_true, Bool.or_eq_true, beq_iff_eq] at h
  obtain ⟨-, hempty | hcrc⟩ := h
  · simp [stomped, hempty]
  · have hcrc' : k.crc = BitVec.ofNat 32 (crc32c k.payload) := by
      rw [← hcrc, BitVec.ofNat_toNat, BitVec.setWidth_eq]
    have hstomp : k.crc ≠ stompCrc k := by
      unfold stompCrc
      rw [← hcrc']
      exact hne k.crc
    simp [stomped, hstomp]

/-- A good packet at an UP port: its body acts on the state in which nothing is to be sent again. -/
theorem arrival_good (hup : portUp s p = true) (hok : packetOk k = true) (h0 : s0 = { s with retryReq := s.retryReq &&& ~~~(1#6 <<< p) })
    (body : State → State) : arrival p k body s = body s0 := by
  subst h0
  exact (if_neg (by simp [hup])).trans ((if_neg (by simp [stomped_of_ok hok])).trans (if_neg (by simp [hok])))

end Arrival

/-! ### Packets for this node -/

section Inbound
variable {p : Nat} {k : Packet} {s : State}

theorem isLocal_iff : isLocal s k = true ↔ nodeValid s = true ∧ pktDst k = nodeId s := by simp [isLocal]

theorem takeIn_local {ty : Nat} (hloc : isLocal s k = true) (hlen : ty = 0 ∨ k.payload.length = pktLen k) :
    (if isLocal s k && (ty == 0 || lenOk k) then takeIn p k s else s) = serveInList (s.inHeld ++ [(p, k)]) s :=
  if_pos (by simpa [hloc, lenOk] using hlen)

theorem responseEnds_answer {ty : Nat} (hty : ty ≠ 0xA) (hloc : isLocal s k = true) : responseEnds ty k s = if awaited s ty (pktTag k) = true then
    (if pktCode k ≤ 3 then deliverEnded (endRequest (pktTag k) (pktCode k) (pktCode k) k.payload s) else s) else lateAnswer (pktTag k) s := by
  refine (if_pos hloc).trans ?_
  rw [if_neg hty]

theorem responseEnds_nack (hloc : isLocal s k = true) : responseEnds 0xA k s = if awaited s 0xA (pktTag k) = true then
    (if 4 ≤ pktCode k ∧ pktCode k ≤ 6 then deliverEnded (endRequest (pktTag k) rLINK (pktCode k) [] s) else s) else lateAnswer (pktTag k) s := by
  refine (if_pos hloc).trans ?_
  simp only [if_true, Bool.and_eq_true, decide_eq_true_eq]

end Inbound

/-! ### Packets that go on -/

section Transit
variable {p : Nat} {k : Packet} {s : State}

theorem directed_eq {n : Nat} (hn : n = hopNibble k.w2 (fld k.w1 13 11)) : directed p k s = if n = 15 then mgmtDeliver p k (tbNs s) s
    else if pktTtl k = 0 ∨ portUp s n = false then portCount IDL_P_DROP p s else outputPut n (hopOn p (fld k.w1 13 11) k) s := by
  subst hn
  unfold directed
  simp only [Bool.or_eq_true, decide_eq_true_eq, Bool.not_eq_true']

theorem forward_eq (htransit : transit s k = true) : forward p k s =
    if pktTtl k = 0 then (if pktTy k ≤ 2 then sendNack k 5 (portCount IDL_P_DROP p s) else portCount IDL_P_DROP p s)
    else match routePort s (pktDst k) with
      | none => if pktTy k ≤ 2 then sendNack k 4 (portCount IDL_P_DROP p s) else portCount IDL_P_DROP p s
      | some q => outputPut q (ttlLess k) s := by
  refine (if_neg (by simp [htransit])).trans ?_
  simp only [isRequest, decide_eq_true_eq] <;> rfl

theorem transit_of_foreign (hknown : knownType (pktTy k) = true) (hty : pktTy k ≠ 0xD) (hfor : ¬ (nodeValid s = true ∧ pktDst k = nodeId s)) :
    transit s k = true := by
  have hloc : isLocal s k = false := Bool.eq_false_iff.mpr fun h => hfor (isLocal_iff.mp h)
  simp [transit, hknown, hty, hloc]

end Transit

/-! ### Late answers -/

theorem lateAnswer_abandoned {tag : Nat} {s : State} (h : tag ∈ s.lateTags) : (lateAnswer tag s).reg IDL_LATE = s.reg IDL_LATE := by
  unfold lateAnswer
  rw [if_pos (by simpa using h)]
  rfl

theorem lateAnswer_counted {tag : Nat} {s : State} (h : tag ∉ s.lateTags) : (lateAnswer tag s).rf IDL_LATE 15 0 = Nat.min 0xFFFF (s.rf IDL_LATE 15 0 + 1) := by
  unfold lateAnswer
  rw [if_neg (by simpa using h)]
  exact rf_countUp _ _

/-- A write of GO starts a packet where none is on its way. -/
theorem ctlWrite_mtxgo {m : Nat} {s : State} : ctlWrite m 0 .m IDL_MTXGO 1 s = if s.rb IDL_MTXGO 31 = true then s else mtxGo s := by
  have h0 : wbit 1 0 = true := by decide
  have h1 : wbit 1 1 = false := by decide
  show mtxgoWrite 1 s = _
  unfold mtxgoWrite
  simp only [h0, h1, Bool.false_eq_true, if_false, Bool.true_and, Bool.not_eq_true']
  cases s.rb IDL_MTXGO 31 with
  | true => exact (if_neg (by decide)).trans (if_pos rfl).symm
  | false => exact (if_pos rfl).trans (if_neg (by decide)).symm

/-- Settles O49: packets of every type are taken in, delivered, sent on or discarded. -/
theorem linkPacketsComplete : Obligations.LinkPacketsComplete := by
  unfold Obligations.LinkPacketsComplete
  refine fun m p k s hp => ⟨fun hup hok s0 h0 => ?_, fun tag => ⟨lateAnswer_abandoned, lateAnswer_counted⟩, fun tag => clocked_next hp rfl,
    fun h => exec_sent h (by decide) rfl ctlWrite_mtxgo, fun v h => exec_sent h (by decide) rfl rfl⟩
  have harr := arrival_good hup hok h0
  refine ⟨fun hvalid hdst => ?_, fun hty n hn => clocked_next hp ?_, fun hknown => clocked_next hp ?_, fun hknown hty hfor => clocked_next hp ?_⟩
  · have hloc : isLocal s0 k = true := by
      rw [h0]
      exact isLocal_iff.mpr ⟨hvalid, hdst⟩
    have hheld : s0.inHeld = s.inHeld := by rw [h0]
    have htb : tbNs s0 = tbNs s := by rw [h0]; rfl
    have hawait : ∀ ty tag, awaited s0 ty tag = awaited s ty tag := fun ty tag => by rw [h0]; rfl
    have hin : ∀ ty, pktTy k = ty → (ty = 0 ∨ k.payload.length = pktLen k) → inbound p.val ty k s = serveInList (s.inHeld ++ [(p.val, k)]) s0 :=
      fun ty hty hlen => (if_pos hty).trans ((harr _).trans ((takeIn_local hloc hlen).trans (by rw [hheld])))
    refine ⟨fun hty => clocked_next hp (hin 0 hty (.inl rfl)), fun hlen => ⟨fun hty => clocked_next hp (hin 1 hty (.inr hlen)),
      fun hty => clocked_next hp (hin 2 hty (.inr hlen)), fun hty => clocked_next hp (hin 3 hty (.inr hlen))⟩,
      fun hty => clocked_next hp ((if_pos hty).trans ((harr _).trans ((if_pos hloc).trans (by rw [htb])))), fun hty => clocked_next hp ?_,
      fun hty => clocked_next hp ?_, fun hty => clocked_next hp ?_⟩
    · exact (if_pos hty).trans ((harr _).trans ((responseEnds_answer (by decide) hloc).trans (by rw [hawait])))
    · exact (if_pos hty).trans ((harr _).trans ((responseEnds_answer (by decide) hloc).trans (by rw [hawait])))
    · exact (if_pos hty).trans ((harr _).trans ((responseEnds_nack hloc).trans (by rw [hawait])))
  · refine (if_pos hty).trans ((harr _).trans ((directed_eq hn).trans ?_))
    rw [h0]
    rfl
  · have hport : portCount IDL_P_DROP p.val s0 = arrival p.val k (portCount IDL_P_DROP p.val) s := (harr _).symm
    exact (if_neg (by simp [hknown])).trans hport.symm
  · have htransit : transit s0 k = true := by
      rw [h0]
      exact transit_of_foreign hknown hty hfor
    refine (if_neg (by simp [hok])).trans ((harr _).trans ((forward_eq htransit).trans ?_))
    rw [h0]
    rfl

end Sys2Proof.LinkPackets

/-! The schedule engine (R381 to R386). -/
namespace Sys2Proof.ScheduleEngine
open Sys2Proof.Machine Stated VectorEvents MemoryEvents Signalling

section Engine
variable {m : Nat} {s : State}

theorem ctlWrite_sceCtl : ctlWrite m 0 .m SCE_CTL 1 s = if s.rb SCE_CTL 0 = true then s.setReg SCE_CTL 1
    else { s.setReg SCE_CTL 1 with sce := { s.sce with first := sceFirst s, begun := false, ended := false } } := by
  have h0 : wbit 1 0 = true := by decide
  have h1 : BitVec.ofNat 32 (fld 1 0 0) = 1 := by decide
  show sceCtlWrite 1 s = _
  unfold sceCtlWrite
  simp only [h0, h1, Bool.true_and, Bool.not_true, Bool.false_eq_true, if_false, Bool.not_eq_true']
  cases s.rb SCE_CTL 0 with
  | true => exact (if_neg (by decide)).trans (if_pos rfl).symm
  | false => exact (if_pos rfl).trans (if_neg (by decide)).symm

theorem ctlWrite_sceSwap : ctlWrite m 0 .m SCE_SWAP 1 s = if s.rb SCE_SWAP 0 = true then swapRefused 1 s
    else { (s.setRb SCE_SWAP 0 true).setRb SCE_STAT 30 true with sce := { s.sce with stale := false } } := by
  have h0 : wbit 1 0 = true := by decide
  show swapWrite 1 s = _
  unfold swapWrite
  rw [h0]
  exact if_neg (by decide)

/-! ### Swaps -/

/-- The decision of a swap: the active bank is the other one exactly where the check's sum is the one that software gave. -/
structure Decided (s t : State) : Prop where
  done : t.rb SCE_SWAP 0 = false
  active : sceActive t = 1 - sceActive s ↔ (s.sce.stale = false ∧ BitVec.ofNat 32 s.sce.crc = s.reg SCE_SHCRC)
  skips : t.reg SCE_SKIPCNT = s.reg SCE_SKIPCNT

theorem sceActive_le (s : State) : sceActive s ≤ 1 := Nat.le_of_lt_succ (fld_lt ..)

theorem calm_sce : Calm SCE_SWAP ∧ Calm SCE_STAT ∧ Calm SCE_SKIPCNT := by decide

/-- A refused swap leaves the active bank. -/
theorem refused_fields (k : Nat) (s : State) : (swapRefused k s).rb SCE_SWAP 0 = s.rb SCE_SWAP 0 ∧ sceActive (swapRefused k s) = sceActive s ∧
    (swapRefused k s).reg SCE_SKIPCNT = s.reg SCE_SKIPCNT := by
  obtain ⟨hswap, hstat, hskip⟩ := calm_sce
  have hne1 : SCE_SWAP ≠ SCE_STAT := by decide
  have hne2 : SCE_SKIPCNT ≠ SCE_STAT := by decide
  have hring := rings_icuEvent (s.setReg SCE_STAT (putFld (putBit (s.reg SCE_STAT) 5 true) 7 6 k)) 401
  refine ⟨(hring.rb hswap 0).trans (rb_setReg_ne _ _ _ hne1), ?_, (hring.reg _ hskip).trans (reg_setReg_ne _ _ hne2)⟩
  refine (hring.rf hstat 31 31).trans ?_
  rw [State.rf, reg_setReg_self, fld_putFld_out _ _ (by omega), fld_putBit_out _ _ (by omega)]
  rfl

/-- A swap that is performed makes the other bank the active one. -/
theorem swapped_fields {w : Word} : (icuEvent 400 ((((s.setRb SCE_SWAP 0 false).setRf SCE_STAT 31 31 (1 - sceActive s))).setReg SCE_MCYCLE w)).rb SCE_SWAP 0 = false ∧
    sceActive (icuEvent 400 ((((s.setRb SCE_SWAP 0 false).setRf SCE_STAT 31 31 (1 - sceActive s))).setReg SCE_MCYCLE w)) = 1 - sceActive s ∧
    (icuEvent 400 ((((s.setRb SCE_SWAP 0 false).setRf SCE_STAT 31 31 (1 - sceActive s))).setReg SCE_MCYCLE w)).reg SCE_SKIPCNT = s.reg SCE_SKIPCNT := by
  obtain ⟨hswap, hstat, hskip⟩ := calm_sce
  have h1 : SCE_SWAP ≠ SCE_MCYCLE := by decide
  have h2 : SCE_SWAP ≠ SCE_STAT := by decide
  have h3 : SCE_STAT ≠ SCE_MCYCLE := by decide
  have h4 : SCE_SKIPCNT ≠ SCE_MCYCLE := by decide
  have h5 : SCE_SKIPCNT ≠ SCE_STAT := by decide
  have h6 : SCE_SKIPCNT ≠ SCE_SWAP := by decide
  have hring := rings_icuEvent ((((s.setRb SCE_SWAP 0 false).setRf SCE_STAT 31 31 (1 - sceActive s))).setReg SCE_MCYCLE w) 400
  refine ⟨?_, ?_, ?_⟩
  · exact (hring.rb hswap 0).trans ((rb_setReg_ne _ _ _ h1).trans ((rb_setRf_ne _ _ _ _ (.inl h2)).trans (rb_setRb_self _ _ _ (by decide))))
  · refine (hring.rf hstat 31 31).trans ((rf_setReg_ne _ _ _ _ h3).trans ((rf_setRf_self _ _ _ (by decide)).trans ?_))
    exact Nat.mod_eq_of_lt (by omega)
  · exact (hring.reg _ hskip).trans ((reg_setReg_ne _ _ h4).trans ((reg_setRf_ne _ _ _ _ h5).trans (reg_setRb_ne _ _ _ h6)))

theorem decided_swapDecide (s : State) : Decided s (swapDecide s) := by
  have hle := sceActive_le s
  have hne : SCE_STAT ≠ SCE_SWAP := by decide
  have hskip : SCE_SKIPCNT ≠ SCE_SWAP := by decide
  have hsame : sceActive (s.setRb SCE_SWAP 0 false) = sceActive s := rf_setRb_ne _ _ _ _ (.inl hne)
  have hrefused : ∀ k, (swapRefused k (s.setRb SCE_SWAP 0 false)).rb SCE_SWAP 0 = false ∧ ¬ sceActive (swapRefused k (s.setRb SCE_SWAP 0 false)) = 1 - sceActive s ∧
      (swapRefused k (s.setRb SCE_SWAP 0 false)).reg SCE_SKIPCNT = s.reg SCE_SKIPCNT := fun k => by
    obtain ⟨h1, h2, h3⟩ := refused_fields k (s.setRb SCE_SWAP 0 false)
    exact ⟨h1.trans (rb_setRb_self _ _ _ (by decide)), by omega, h3.trans (reg_setRb_ne _ _ _ hskip)⟩
  by_cases hst : s.sce.stale = true
  · obtain ⟨h1, h2, h3⟩ := hrefused 3
    rw [show swapDecide s = swapRefused 3 (s.setRb SCE_SWAP 0 false) from if_pos hst]
    exact ⟨h1, iff_of_false h2 fun h => by simp [hst] at h, h3⟩
  · by_cases hcrc : BitVec.ofNat 32 s.sce.crc = s.reg SCE_SHCRC
    · obtain ⟨h1, h2, h3⟩ := swapped_fields (s := s) (w := BitVec.ofNat 32 (sceCycle (s.reg SCE_SHMCYCLE)))
      rw [show swapDecide s = _ from (if_neg hst).trans (if_pos hcrc)]
      exact ⟨h1, iff_of_true h2 ⟨by simpa using hst, hcrc⟩, h3⟩
    · obtain ⟨h1, h2, h3⟩ := hrefused 2
      rw [show swapDecide s = swapRefused 2 (s.setRb SCE_SWAP 0 false) from (if_neg hst).trans (if_neg hcrc)]
      exact ⟨h1, iff_of_false h2 fun h => hcrc h.2, h3⟩

/-! ### Boundaries -/

/-- The entries of the macrocycle that were not performed. -/
def skipped (s : State) : Nat :=
  if s.sce.begun = true ∧ s.sce.ended = false then sceLast s (sceActive s) (s.rf SCE_INDEX 14 0) + 1 - s.rf SCE_INDEX 14 0 else 0

/-- The state in which they are counted. -/
def skipsCounted (s : State) : State := s.setReg SCE_SKIPCNT (s.reg SCE_SKIPCNT + BitVec.ofNat 32 (skipped s))

/-- A swap that has been checked is decided at the boundary. -/
def boundarySwapped (s : State) : State :=
  if s.rb SCE_SWAP 0 && !s.rb SCE_STAT 30 then swapDecide (skipsCounted s) else skipsCounted s

/-- The active bank begins again, in the macrocycle that starts at `n`. -/
def restarted (n : Nat) (t : State) : State := { t.setReg SCE_INDEX 0 with sce := { t.sce with begun := true, bnd := n, ended := false } }

theorem reg_restarted {a n : Nat} (t : State) (h : a ≠ SCE_INDEX) : (restarted n t).reg a = t.reg a := reg_setReg_ne t 0 h

theorem index_restarted (n : Nat) (t : State) : (restarted n t).rf SCE_INDEX 14 0 = 0 := by
  have hreg : (restarted n t).reg SCE_INDEX = 0 := reg_setReg_self t SCE_INDEX 0
  have hzero : fld 0 14 0 = 0 := by decide
  unfold State.rf
  rw [hreg, hzero]

theorem sceBoundary_due (hdue : boundaryDue s = true) : sceBoundary s = restarted (sceNext s) (boundarySwapped s) := by
  have h1 : SCE_SWAP ≠ SCE_SKIPCNT := by decide
  have h2 : SCE_STAT ≠ SCE_SKIPCNT := by decide
  have hskip : (if s.sce.begun && !s.sce.ended then sceLast s (sceActive s) (s.rf SCE_INDEX 14 0) + 1 - s.rf SCE_INDEX 14 0 else 0) = skipped s := by
    unfold skipped
    simp only [Bool.and_eq_true, Bool.not_eq_true']
  refine (if_pos hdue).trans ?_
  simp only [hskip, rb_setReg_ne _ _ _ h1, rb_setReg_ne _ _ _ h2]
  rfl

theorem skips_boundarySwapped : (boundarySwapped s).reg SCE_SKIPCNT = s.reg SCE_SKIPCNT + BitVec.ofNat 32 (skipped s) := by
  unfold boundarySwapped
  split
  · exact (decided_swapDecide _).skips.trans (reg_setReg_self ..)
  · exact reg_setReg_self ..

theorem boundarySwapped_decides (hswap : s.rb SCE_SWAP 0 = true) (hcheck : s.rb SCE_STAT 30 = false) : (boundarySwapped s).rb SCE_SWAP 0 = false ∧
    (sceActive (boundarySwapped s) = 1 - sceActive s ↔ (s.sce.stale = false ∧ BitVec.ofNat 32 s.sce.crc = s.reg SCE_SHCRC)) := by
  have h1 : SCE_STAT ≠ SCE_SKIPCNT := by decide
  have h2 : SCE_SHCRC ≠ SCE_SKIPCNT := by decide
  obtain ⟨hdone, hactive, -⟩ := decided_swapDecide (skipsCounted s)
  have hact : sceActive (skipsCounted s) = sceActive s := rf_setReg_ne _ _ _ _ h1
  have hcrc : (skipsCounted s).reg SCE_SHCRC = s.reg SCE_SHCRC := reg_setReg_ne _ _ h2
  rw [show boundarySwapped s = swapDecide (skipsCounted s) from if_pos (by simp [hswap, hcheck])]
  rw [hact, hcrc] at hactive
  exact ⟨hdone, hactive⟩

/-! ### Entries and errors -/

/-- A due entry of an action is counted as performed, and then its action acts. -/
theorem sceDo_due {p : Nat → Bool} {g : State → SceEntry → State → State} (hdue : sceDue s = true) (hact : p (fld (sceCur s).w1 31 28) = true) :
    (Host.Outcome.next (clocked (fun s => sceDo p (g s) s) s) : Out) = .next (g s (sceCur s) (sceNextEntry s)) := by
  have hp : s.pwr ≤ 1 := by
    simp only [sceDue, Bool.and_eq_true, decide_eq_true_eq] at hdue
    exact hdue.1.1.2
  exact clocked_next hp (if_pos (by simp [hdue, hact]))

theorem sceWrerr_logged {pa : Word} {r : BitVec 3} (hmem : (pa.toNat, r.toNat) ∈ s.sce.errs) {s1 : State}
    (h1 : s1 = { s with sce := { s.sce with errs := s.sce.errs.erase (pa.toNat, r.toNat) } }) : sceWrerr pa.toNat r.toNat s =
    icuEvent 403 ((if s.rb SCE_STAT 4 = true then s1 else (s1.setReg SCE_WLOG pa).setReg SCE_WLOG_INFO (BitVec.ofNat 32 r.toNat)).setRb SCE_STAT 4 true) := by
  subst h1
  refine (if_pos (by simpa using hmem)).trans ?_
  rw [BitVec.ofNat_toNat, BitVec.setWidth_eq]
  rfl

end Engine

/-- Settles O50: the engine starts, reaches its boundaries, swaps its banks and performs its entries. -/
theorem scheduleEngineComplete : Obligations.ScheduleEngineComplete := by
  unfold Obligations.ScheduleEngineComplete
  refine fun m s => ⟨fun h => exec_sent h (by decide) rfl ctlWrite_sceCtl, fun h => exec_sent h (by decide) rfl ctlWrite_sceSwap,
    fun hp hon hdue => ?_, fun hp hcheck s1 h1 => clocked_next hp ?_, fun row act f hrow hdue hact => ?_,
    fun pa r hp hmem s1 h1 => clocked_next hp (sceWrerr_logged hmem h1)⟩
  · have hbnd : boundaryDue s = true := by simp [boundaryDue, State.power, hp, hon, hdue]
    have h1 : SCE_SKIPCNT ≠ SCE_INDEX := by decide
    have h2 : SCE_SWAP ≠ SCE_INDEX := by decide
    have h3 : SCE_STAT ≠ SCE_INDEX := by decide
    refine ⟨restarted (sceNext s) (boundarySwapped s), clocked_next hp (sceBoundary_due hbnd), index_restarted .., rfl, rfl, rfl,
      (reg_restarted _ h1).trans skips_boundarySwapped, fun hswap hchk => ?_⟩
    obtain ⟨hdone, hactive⟩ := boundarySwapped_decides hswap hchk
    refine ⟨(congrArg (wbit · 0) (reg_restarted _ h2)).trans hdone, ?_⟩
    rw [← hactive]
    exact iff_of_eq (congrArg (fun w => fld w 31 31 = 1 - sceActive s) (reg_restarted _ h3))
  · subst h1
    have hne : SCE_CTL ≠ SCE_STAT := by decide
    have hctl : (s.setRb SCE_STAT 30 false).rb SCE_CTL 0 = s.rb SCE_CTL 0 := rb_setRb_ne _ _ _ _ (.inl hne)
    refine (if_pos hcheck).trans ?_
    rw [← hctl]
  · cases hrow with
    | nop => exact sceDo_due hdue (beq_iff_eq.mpr hact)
    | gate => exact sceDo_due hdue (beq_iff_eq.mpr hact)
    | txtrig => exact sceDo_due hdue (beq_iff_eq.mpr hact)
    | c0slot => exact sceDo_due hdue (beq_iff_eq.mpr hact)
    | event => exact sceDo_due hdue (beq_iff_eq.mpr hact)
    | write => exact sceDo_due hdue (beq_iff_eq.mpr hact)
    | mvbmf => exact sceDo_due hdue (beq_iff_eq.mpr hact)
    | cantx => exact sceDo_due hdue (beq_iff_eq.mpr hact)
    | sgate => exact sceDo_due hdue (beq_iff_eq.mpr hact)
    | badact => exact sceDo_due hdue (decide_eq_true hact)

end Sys2Proof.ScheduleEngine

/-! The train networks: Ethernet, 802.1AS, 802.1CB, TTDP, MVB, CAN, UARTs and the bypass relays (R388 to R402). -/
namespace Sys2Proof.TrainNetworks
open Sys2Proof.Machine Stated VectorEvents MemoryEvents Signalling

section Ethernet
variable {n : Nat} {s : State}

/-! ### Reception -/

/-- What passes filter `k`, after recovery. -/
def passedOn (n k : Nat) (f : List Byte) (ok : Bool) (tb : BitVec 80) : Option Nat × State → State
  | (none, s2) => s2
  | (some q, s2) => if (frerPass k f (frerCheck k f s2)).1 then dmaStart dmaStep (.rx n q f ok tb none none) (frerPass k f (frerCheck k f s2)).2
      else (frerPass k f (frerCheck k f s2)).2

/-- A frame that has been heard, by the filter that it meets. -/
def heardFrame (n : Nat) (f : List Byte) (ok : Bool) (tb : BitVec 80) (s1 : State) : Option Nat → State
  | none => dmaStart dmaStep (.rx n (s1.rf (MAC_CTL n) 2 0) f ok tb none none) s1
  | some k => passedOn n k f ok tb (filterPass k f s1)

theorem ethReceive_on {f : List Byte} {ok : Bool} (hon : s.rb (MAC_CTL n) 31 = true) (hclk : macClocked s n = true) (hpin : macPinned s n = true) {s0 s1 : State}
    (h0 : s0 = if ok = true ∧ frAsEvent f = true then pulse (128 + n) s else s)
    (h1 : s1 = if ok = true ∧ frAsEvent f = true ∧ s.rb TNC_AS_CTL 31 = true then icuEvent (323 + 8 * n) s0 else s0) :
    ethReceive n f ok s = heardFrame n f ok s.tb s1 (filterOf s1 n f) := by
  refine (if_neg (by simp [hon, hclk, hpin])).trans ?_
  simp only [Bool.and_eq_true, and_assoc]
  rw [← h0, ← h1]
  cases filterOf s1 n f with
  | none => rfl
  | some k =>
    unfold heardFrame
    dsimp only
    rcases filterPass k f s1 with ⟨_ | q, s2⟩
    · rfl
    · rfl

/-! ### Transmission -/

theorem macSt_modMac (g : MacSt → MacSt) (s : State) : (s.modMac n g).macSt n = g (s.macSt n) := Vector.getElem_set_self ..

theorem ethStart_starts {q : Nat} (hon : s.rb (MAC_CTL n) 31 = true) (hclk : macClocked s n = true) (htx : (s.macSt n).tx = none)
    (hfetch : (s.macSt n).fetch = none) (htry : txTry s n q = true) (hhigh : ∀ h, q < h → h < 8 → txWants s n h = false) :
    ethStart n q s = match macOwn s n q with
      | some f => macSend n q [] (0, 0) f (s.modMac n fun k => { k with own := k.own.erase (q, f) })
      | none => txGo n ⟨q, [], false, 0, []⟩ s := by
  have hnone : ((List.range 8).any fun p => decide (q < p) && txWants s n p) = false := by
    rw [List.any_eq_false]
    intro p hp
    by_cases hlt : q < p
    · simp [hhigh p hlt (List.mem_range.mp hp)]
    · simp [hlt]
  exact if_neg (by simp only [hon, hclk, htx, hfetch, htry, hnone]; decide)

/-- What goes on the wire, by the frame's descriptors and bytes. -/
theorem frerTag_plain {l : List RingDesc} {b : List Byte} (h : ∀ d ∈ l.head?, wbit d.w2 28 = false) :
    (frerTag n ((l.head?.map fun d => d.w2).getD 0) b s).1 = b := by
  have hword : wbit ((l.head?.map fun d => d.w2).getD 0) 28 = false := by
    cases hl : l.head? with
    | none => decide
    | some d => exact h d hl
  unfold frerTag
  simp only [hword, Bool.false_eq_true, if_false]

/-- A frame whose descriptors and buffers answer, and that may still go, is on the wire. -/
theorem txGo_sends {q i : Nat} {l : List RingDesc} {s1 s2 : State} {st : Nat × Nat} {b : List Byte}
    (hd : txDescs n q (txReady s n q) [] s = (some true, l, s1)) (hb : txBytes l 0 [] s1 = (some st, i, b, s2))
    (hmay : txMay (s2.modMac n fun k => { k with fetch := none }) n q (txLen l) = true) :
    ∃ x, ((txGo n ⟨q, [], false, 0, []⟩ s).macSt n).tx = some x ∧ x.q = q ∧ x.descs = l ∧ (x.status, x.bad) = st ∧
      ((∀ d ∈ l.head?, wbit d.w2 28 = false) → x.frame = b) := by
  have hgo : txGo n ⟨q, [], false, 0, []⟩ s =
      macSend n q l st (frerTag n ((l.head?.map fun d => d.w2).getD 0) b (s2.modMac n fun k => { k with fetch := none })).1
        (frerTag n ((l.head?.map fun d => d.w2).getD 0) b (s2.modMac n fun k => { k with fetch := none })).2 := by
    unfold txGo
    simp only [Bool.false_eq_true, if_false, List.length_nil, Nat.sub_zero, hd, List.drop_zero, hb]
    exact if_pos hmay
  rw [hgo, macSend, macSt_modMac]
  exact ⟨_, rfl, rfl, rfl, rfl, fun h => frerTag_plain h⟩

/-- The head of a queue whose frame has left moves past it. -/
theorem ethFinish_ends {q h : Nat} {x : TxFrame} {s1 s2 s3 : State} (htx : (s.macSt n).tx = some x) (hq : x.q = q) (hh : h = s.rf (MAC_TX_HEAD n q) 11 0)
    (h1 : s1 = s.modMac n fun k => { k with tx := none })
    (h2 : s2 = if frAsEvent x.frame = true ∧ s1.rb TNC_AS_CTL 31 = true then icuEvent (323 + 8 * n) s1 else s1)
    (h3 : s3 = s2.setRf (MAC_TX_HEAD n q) 11 0 ((h + x.descs.length) % Nat.max 1 (ringSize (s.reg (MAC_TX_SIZE n q))))) :
    ethFinish n q s = if x.descs = [] then s1 else dmaStart dmaStep (.back n x h 0) s3 := by
  subst hh h3 h2 h1
  unfold ethFinish
  rw [htx]
  refine (if_pos hq).trans ?_
  simp only [List.isEmpty_iff, Bool.and_eq_true]

/-- A transfer that begins behind none of its port and is done at once. -/
theorem dmaStart_done {step : Dma → State → Option Dma × State} {d : Dma} {u : State} (hfree : ∀ e ∈ s.dmaHeld, e.port ≠ d.port)
    (hstep : step d s = (none, u)) : dmaStart step d s = u := by
  refine (if_neg ?_).trans ?_
  · simpa using hfree
  · rw [hstep]

theorem linkChange_changes {up : Bool} {s1 : State} (hup : (s.macSt n).up ≠ up) (h1 : s1 = icuEvent (324 + 8 * n) (s.modMac n fun k => { k with up := up })) :
    linkChange n up s = if up = false ∧ asSlaveOn s1 = true ∧ s1.rf TNC_AS_CTL 29 28 = n then asUnlock s1 else s1 := by
  subst h1
  refine (if_neg hup).trans ?_
  simp only [Bool.and_eq_true, Bool.not_eq_true', beq_iff_eq, and_assoc]

end Ethernet

/-! ### 802.1AS -/

section TimeSync
variable {s : State}

theorem asSync_taken {d : Int} {r : Word} (hp : s.pwr ≤ 1) (hon : s.rb (MAC_CTL (s.rf TNC_AS_CTL 29 28)) 31 = true) :
    asSync d r s = if asSlaveOn (pulse 146 s) = true then asServo d r (pulse 146 s) else pulse 146 s := by
  refine (if_pos (by simp [State.power, hon, hp])).trans ?_
  split
  · rfl
  case isFalse h => exact if_neg h

theorem pdelayRequest_formed {n : Nat} {q : Nat} {u : State} (hon : s.rb TNC_AS_CTL 31 = true) (hport : s.rb TNC_AS_CTL n = true) (hmac : s.rb (MAC_CTL n) 31 = true)
    (hdraw : s.draw = (q, u)) : pdelayRequest n s =
      icuEvent (323 + 8 * n) (u.modMac n fun k => { k with own := k.own ++ [((Config.asFrame q).2.toNat, (Config.asFrame q).1)] }) := by
  refine (if_pos (by simp [hon, hport, hmac])).trans ?_
  rw [hdraw]

end TimeSync

/-! ### MVB -/

section Mvb
variable {s : State}

theorem mvbWait_of_signalled {t : State} (h : Signalled s t) : t.mvbWait = s.mvbWait := by
  obtain ⟨r, c, hl, e, f, i, rfl, -⟩ := h
  rfl

theorem signalled_mvbIn (dis : Bool) : Signalled s (mvbDisagree dis (mvbLine s)) := by
  have hline : Signalled s (mvbLine s) := (rings_draw s).fields.trans (signalled_setRb ..)
  exact hline.trans (signalled_ite ((signalled_setRb ..).trans (signalled_icuEvent ..)) (.refl _))

theorem mvbMasterIn_heard {w : Nat} {dis : Bool} {q : Nat} {u : State} (hon : mvbOn s = true) (hpin : mvbPinned s = true)
    (hdraw : (mvbDisagree dis (mvbLine s)).draw = (q, u)) :
    mvbMasterIn w dis s = mvbFrame w (if u.rb MVB_CTL 30 = true ∧ Config.mvbMastership q = true then icuEvent 363 u else u) := by
  refine (if_neg (by simp [hon, hpin])).trans ?_
  rw [hdraw]
  simp only [Bool.and_eq_true]

theorem mvbSlave_unasked {data : List Byte} {dis : Bool} (hon : mvbOn s = true) (hpin : mvbPinned s = true) {s0 : State} (h0 : s0 = mvbDisagree dis (mvbLine s))
    (hw : s.mvbWait = none) : mvbSlave data dis s = s0 := by
  have hw0 : s0.mvbWait = none := by rw [h0, mvbWait_of_signalled (signalled_mvbIn dis), hw]
  refine (if_neg (by simp [hon, hpin])).trans ?_
  simp only [← h0, hw0]

theorem mvbSlave_asked {data : List Byte} {dis : Bool} {w : Nat} (hon : mvbOn s = true) (hpin : mvbPinned s = true) {s0 s1 : State}
    (h0 : s0 = mvbDisagree dis (mvbLine s)) (hw : s.mvbWait = some w) (h1 : s1 = { s0 with mvbWait := none, mvbRead := none }) :
    mvbSlave data dis s = if mvbPortFits s1 w = true ∧ s1.rb (MVB_PORT (w % 4096) 0) 30 = false ∧ data.length = mvbBytes (w / 4096)
      then dmaStart mvbStep (.mvb (w % 4096) data) s1 else s1 := by
  have hw0 : s0.mvbWait = some w := by rw [h0, mvbWait_of_signalled (signalled_mvbIn dis), hw]
  refine (if_neg (by simp [hon, hpin])).trans ?_
  simp only [← h0, hw0, ← h1, Bool.and_eq_true, Bool.not_eq_true', beq_iff_eq, and_assoc]

theorem mvbUnanswered_ends {w : Nat} (hw : s.mvbWait = some w) : mvbUnanswered s = pulse 137 (icuEvent 361 { s with mvbWait := none, mvbRead := none }) := by
  unfold mvbUnanswered
  rw [hw]

end Mvb

/-! ### CAN -/

section Can
variable {c : Nat} {s : State}

theorem canAlive_on (hon : s.rb (CAN_CTL c) 31 = true) (htec : (s.canSt c).tec < 256) : canAlive c s = (true, s) :=
  (if_neg (by simp [hon])).trans (if_pos htec)

theorem canAlive_busOff (hon : s.rb (CAN_CTL c) 31 = true) (htec : 256 ≤ (s.canSt c).tec) {q : Nat} {u : State} (hdraw : s.draw = (q, u))
    (hrec : Config.canRecovered q = false) : canAlive c s = (false, u) := by
  refine (if_neg (by simp [hon])).trans ((if_neg (Nat.not_lt.mpr htec)).trans ?_)
  rw [hdraw]
  exact if_neg (by simp [hrec])

theorem canReceive_off {f : Option (List Byte)} {u : State} (h : canAlive c s = (false, u)) : canReceive c f s = u := by
  unfold canReceive
  rw [h]
  rfl

theorem canSend_off {b : Nat} {ok : Bool} {u : State} (h : canAlive c s = (false, u)) : canSend c b ok s = u := by
  unfold canSend
  rw [h]
  rfl

theorem canReceive_on {f : Option (List Byte)} (h : canAlive c s = (true, s)) (hpin : fnPlaced s (0x81 + 3 * c) = true) : canReceive c f s =
    match f with
    | none => icuEvent (370 + 4 * c) s
    | some b => if Config.canAccepts c b then dmaStart dmaStep (.can c (tbNs s) b) s else s := by
  unfold canReceive
  rw [h]
  exact if_neg (by simp [hpin])

theorem canSend_on {b : Nat} {ok : Bool} (h : canAlive c s = (true, s)) (hreq : (s.canSt c).req.getLsbD b = true) : canSend c b ok s =
    if ok then icuEvent (369 + 4 * c) (s.modCan c fun k =>
      { k with req := k.req &&& ~~~(1#32 <<< b), held := k.held &&& ~~~(1#32 <<< b), tec := k.tec - 1 })
    else icuEvent (370 + 4 * c) (s.modCan c fun k => { k with req := k.req ||| (1#32 <<< b), held := k.held ||| (1#32 <<< b), tec := k.tec + 8 }) := by
  have hasked : canAsked c b s = (true, s) := if_pos hreq
  unfold canSend
  rw [h]
  simp only [Bool.not_true, Bool.false_eq_true, if_false, hasked]

end Can

/-! ### UARTs -/

section Uart
variable {u : Nat} {s : State}

theorem uartReceive_heard {ch : BitVec 9} {bad : Bool} (hon : s.rb (UART_CTL u) 31 = true) (hpin : fnPlaced s (0x91 + 4 * u) = true)
    (hde : (s.uartSt u).de = false ∨ s.rb (UART_CTL u) 30 = true) : uartReceive u ch bad s = if bad = true
      then icuEvent (386 + 4 * u) ((s.modUart u fun k => { k with idle := true }).countWrap (UART_ERRCNT u))
      else dmaStart dmaStep (.uart u ch) (s.modUart u fun k => { k with idle := true }) := by
  refine if_pos ?_
  simp only [hon, hpin, Bool.true_and, Bool.or_eq_true, Bool.not_eq_true']
  exact hde

theorem uartTransmit_asked (hon : s.rb (UART_CTL u) 31 = true) (hm : masterOn s 7 = true) (hgo : (s.uartSt u).go = true) :
    uartTransmit u s = s.modUart u fun k => { k with de := true, go := false } := by
  have hasked : uartAsked u s = (true, s) := if_pos hgo
  refine (if_pos (by simp [hon, hm])).trans ?_
  rw [hasked]
  rfl

theorem uartTransmit_free (hon : s.rb (UART_CTL u) 31 = true) (hm : masterOn s 7 = true) (hgo : (s.uartSt u).go = false) {q : Nat} {t : State}
    (hdraw : s.draw = (q, t)) : uartTransmit u s = if Config.uartStarted q = true then t.modUart u fun k => { k with de := true, go := false } else t := by
  have hasked : uartAsked u s = (Config.uartStarted q, t) := by
    refine (if_neg (by simp [hgo])).trans ?_
    rw [hdraw]
  refine (if_pos (by simp [hon, hm])).trans ?_
  rw [hasked]

end Uart

/-! ### Bypass relays -/

theorem bypRelease_expired {s : State} (h : bypExpired s = true) :
    bypRelease 2 s = icuEvent 404 (s.setReg TNC_BYP (putFld (putBit (s.reg TNC_BYP) 31 false) 2 0 2)) := by
  simp only [bypExpired, Bool.and_eq_true] at h
  exact if_pos h.1.1

/-- Settles O51: every command of the train networks that acts. -/
theorem trainNetworksComplete : Obligations.TrainNetworksComplete := by
  unfold Obligations.TrainNetworksComplete
  refine fun m n v s hp => ⟨fun f ok hon hclk hpin s0 s1 h0 h1 => ?_, fun q hon hclk htx hfetch htry hhigh => ?_, fun q x h s1 s2 s3 htx hq hh h1 h2 h3 => ?_,
    fun up s1 hup h1 => clocked_next hp (linkChange_changes hup h1), fun d r hon => clocked_next hp (asSync_taken hp hon),
    fun hon => clocked_next hp (if_pos hon), fun k hk => clocked_next hp (if_neg hk),
    fun hon hport hmac q u hdraw => clocked_next hp (pdelayRequest_formed hon hport hmac hdraw), fun r hr => clocked_next hp (if_pos hr),
    fun fc a q u hon hpin hdraw => clocked_next hp (mvbMasterIn_heard hon hpin hdraw),
    fun data dis hon hpin s0 h0 => ⟨fun hw => clocked_next hp (mvbSlave_unasked hon hpin h0 hw), fun w s1 hw h1 => clocked_next hp (mvbSlave_asked hon hpin h0 hw h1)⟩,
    fun w hw => clocked_next hp (mvbUnanswered_ends hw),
    fun hon htec => ⟨fun hpin => ⟨clocked_next hp (canReceive_on (canAlive_on hon htec) hpin), fun f => clocked_next hp (canReceive_on (canAlive_on hon htec) hpin)⟩,
      fun b hreq => clocked_next hp (canSend_on (canAlive_on hon htec) hreq)⟩,
    fun hon htec q u hdraw hrec => ⟨fun f => clocked_next hp (canReceive_off (canAlive_busOff hon htec hdraw hrec)),
      fun b => clocked_next hp (canSend_off (canAlive_busOff hon htec hdraw hrec))⟩,
    fun ch bad hon hpin hde => clocked_next hp (uartReceive_heard hon hpin hde),
    fun hon => ⟨fun hm => ⟨fun hgo => clocked_next hp (uartTransmit_asked hon hm hgo), fun hgo q u hdraw => clocked_next hp (uartTransmit_free hon hm hgo hdraw)⟩,
      fun hlim hidle => clocked_next hp (if_pos (by simp [hon, hlim, hidle]))⟩,
    fun hde => clocked_next hp (if_pos hde), fun h => exec_sent h (by decide) rfl rfl,
    fun h => ⟨exec_sent h (by decide) rfl rfl, exec_sent h (by decide) rfl rfl⟩,
    fun hexp => clocked_next hp ((if_pos hexp).trans (bypRelease_expired hexp))⟩
  · have hrec := ethReceive_on hon hclk hpin h0 h1
    refine ⟨fun hk => clocked_next hp ?_, fun k hk => clocked_next hp ?_⟩
    · rw [hrec, hk, heardFrame]
    · rw [hrec, hk]
      show passedOn _ _ _ _ _ _ = _
      rcases filterPass k f s1 with ⟨_ | q, s2⟩
      · rfl
      · rfl
  · have hstart := ethStart_starts hon hclk htx hfetch htry hhigh
    refine ⟨fun f hf => clocked_next hp ?_, fun hnone => ⟨clocked_next hp ?_, fun l s1 st i b s2 hd hb hmay => txGo_sends hd hb hmay⟩⟩
    · rw [hstart, hf]
    · rw [hstart, hnone]
  · have hfin := ethFinish_ends htx hq hh h1 h2 h3
    refine ⟨fun hnil => clocked_next hp (hfin.trans (if_pos hnil)), fun hcons => ⟨clocked_next hp (hfin.trans (if_neg hcons)), fun u hfree =>
      ⟨rfl, fun hback => clocked_next hp (hfin.trans ((if_neg hcons).trans (dmaStart_done hfree hback)))⟩⟩⟩

end Sys2Proof.TrainNetworks

/-! The Safety Island's commands and events, and the functions of pins (R405, R410 to R417, R474). -/
namespace Sys2Proof.SafetyIslandEvents
open Sys2Proof.Machine Stated VectorEvents MemoryEvents

section Writes
variable {m : Nat} {v : Word} {s : State}

/-- A protected register takes writes from the masters that it accepts. -/
theorem siFrameWrite_protected {pa : Nat} (hprot : siProtected pa = true) :
    siFrameWrite m pa v s = if m = 4 ∨ m = 8 ∧ siReleased s = false then siFrameAccept pa v s else siRefuse m pa s := by
  have hacc : siwAccepts s m = true ↔ (m = 4 ∨ m = 8 ∧ siReleased s = false) := by
    simp only [siwAccepts, Bool.or_eq_true, Bool.and_eq_true, beq_iff_eq, Bool.not_eq_true']
  unfold siFrameWrite
  rw [hprot]
  by_cases h : siwAccepts s m = true
  · rw [if_neg (by simp [h]), if_pos (hacc.mp h)]
  · rw [if_pos (by simp [h]), if_neg fun h' => h (hacc.mpr h')]

/-- Each command of a protected register is one write of it, and what the register does with it. -/
theorem protected_row {m : Master} {row : Instr} {pa : Nat} {w : Word} {f : State → State}
    (h : (row = Instr.siLsctlTest m ∧ pa = SI_LSCTL ∧ w = 1 ∧ f = fun t : State => t.setRb SI_STAT 30 true) ∨
      (row = .siSscForce m v ∧ pa = SI_SSC ∧ w = v ∧ f = sscWrite v) ∨ (row = .siSscRelease m v ∧ pa = SI_SSC ∧ w = v ∧ f = sscWrite v) ∨
      (row = .siWdctlEn m v ∧ pa = SI_WDCTL ∧ w = v ∧ f = wdctlWrite v) ∨ (row = .siWdkick m v ∧ pa = SI_WDKICK ∧ w = v ∧ f = wdKick v) ∨
      (row = .siS2adbWrite m v ∧ pa = SI_S2ADB ∧ w = v ∧ f = s2aDoorbell v)) (s : State) :
    exec row s = .next (masterWrite m pa w s) ∧ regWf pa = true ∧ siProtected pa = true ∧ ctlWrite m.val 0 .m pa w s = siFrameWrite m.val pa w s ∧
      siFrameAccept pa w s = f s := by
  obtain ⟨rfl, rfl, rfl, rfl⟩ | ⟨rfl, rfl, rfl, rfl⟩ | ⟨rfl, rfl, rfl, rfl⟩ | ⟨rfl, rfl, rfl, rfl⟩ | ⟨rfl, rfl, rfl, rfl⟩ | ⟨rfl, rfl, rfl, rfl⟩ := h
  · exact ⟨rfl, by decide, by decide, rfl, rfl⟩
  · exact ⟨rfl, by decide, by decide, rfl, rfl⟩
  · exact ⟨rfl, by decide, by decide, rfl, rfl⟩
  · exact ⟨rfl, by decide, by decide, rfl, rfl⟩
  · exact ⟨rfl, by decide, by decide, rfl, rfl⟩
  · exact ⟨rfl, by decide, by decide, rfl, rfl⟩

theorem ctlWrite_a2sdb : ctlWrite m 0 .m SI_A2SDB v s = sicEvent 1 (s.setReg SI_A2SDB (BitVec.ofNat 32 (fld v 15 0))) := by
  have hopen : siProtected SI_A2SDB = false := by decide
  show siFrameWrite m SI_A2SDB v s = _
  unfold siFrameWrite
  rw [hopen]
  rfl

theorem regWf_pin {n : Nat} (h : n < 412) : regWf (PCU_PIN n) = true := by
  unfold regWf PCU_PIN
  simp
  omega

theorem ctlWrite_pin {n : Nat} (h : n < 412) : ctlWrite m 0 .m (PCU_PIN n) v s = pinWrite (plainWrite m (PCU_PIN n)) n v s := by
  have hframe : PCU_PIN n / 0x10000 = 0x20F0 := by unfold PCU_PIN; omega
  have hplace : PCU_PIN n % 0x10000 / 4 = n := by unfold PCU_PIN; omega
  unfold ctlWrite
  rw [hframe]
  show pcuFrameWrite m (PCU_PIN n) v s = _
  unfold pcuFrameWrite
  rw [hplace]
  exact if_pos h

end Writes

/-- Settles O52: the latch, the watchdog, the comparator, the clock monitor, the mailbox and the functions of pins. -/
theorem safetyIslandEventsComplete : Obligations.SafetyIslandEventsComplete := by
  unfold Obligations.SafetyIslandEventsComplete
  refine fun m v s hp => ⟨congrArg _ (if_pos (decide_eq_true hp)), fun row pa w f hrow h => ?_, fun h => exec_sent h (by decide) rfl ctlWrite_a2sdb,
    fun hon hcnt => congrArg _ (if_pos ?_), fun hon hcnt => congrArg _ (if_pos ?_), fun w s1 h1 => congrArg _ ((if_pos (decide_eq_true hp)).trans ?_),
    fun n hn h => ?_⟩
  · obtain ⟨hexec, hwf, hprot, hframe, hacc⟩ := protected_row hrow s
    refine exec_sent h hwf hexec (hframe.trans ((siFrameWrite_protected hprot).trans ?_))
    rw [hacc]
  · simp [wdWarns, wdRuns, oscRuns, State.power, hp, hon, hcnt]
  · simp [wdExpires, wdRuns, oscRuns, State.power, hp, hon, hcnt]
  · rw [h1]
  · exact exec_sent h (regWf_pin hn) (congrArg _ (if_pos hn)) (ctlWrite_pin hn)

end Sys2Proof.SafetyIslandEvents

/-! The store's commands and their ends, the release of cores, and the revocation of keys (R443, R455, R459 to R470). -/
namespace Sys2Proof.StoreAndRelease
open Sys2Proof.Machine Stated VectorEvents MemoryEvents Signalling

variable {s : State}

/-- The erase that a commit has left leaves BUSY and the command as they are. -/
theorem storeReady_busy (s : State) : stBusy (storeReady s) = stBusy s := by
  unfold storeReady
  split
  · exact ((rings_icuEvent _ _).rb (.inr (by decide)) 31).trans (rb_setRb_ne _ _ _ _ (.inr (by decide)))
  · rfl

theorem storeReady_op (s : State) : (storeReady s).rf BCU_ST_CTL 1 0 = s.rf BCU_ST_CTL 1 0 := by
  unfold storeReady
  split
  · exact ((rings_icuEvent _ _).rf (.inr (by decide)) 1 0).trans (rf_setRb_ne _ _ _ _ (.inl (by decide)))
  · rfl

theorem storeCtl_busy (s : State) (op : Nat) : stBusy (storeCtl s op) = stBusy s :=
  (storeReady_busy _).trans ((rb_setRb_ne _ _ _ _ (.inl (by decide))).trans (rb_setReg_ne _ _ _ (by decide)))

theorem and_three {op : Nat} (h : op < 4) : BitVec.ofNat 32 op &&& 3#32 = BitVec.ofNat 32 op :=
  match op, h with
  | 0, _ => rfl
  | 1, _ => rfl
  | 2, _ => rfl
  | 3, _ => rfl

/-- What the two low bits of a word spell is its lowest field. -/
theorem fld_of_and_three {w : Word} {op : Nat} (h : op < 4) (hlow : w &&& 3#32 = BitVec.ofNat 32 op) : fld w 1 0 = op := by
  have hnat := congrArg BitVec.toNat hlow
  rw [BitVec.toNat_and, show BitVec.toNat 3#32 = 2 ^ 2 - 1 from rfl, Nat.and_two_pow_sub_one_eq_mod, BitVec.toNat_ofNat, Nat.mod_eq_of_lt (by omega : op < 2 ^ 32)] at hnat
  exact hnat

/-- A word of two high bits and a low field gives that field back. -/
theorem fld_high_or (w : Word) {op : Nat} (h : op < 4) : fld (w &&& 0xC0000000 ||| BitVec.ofNat 32 op) 1 0 = op := by
  refine fld_of_and_three h ?_
  rw [BitVec.and_or_distrib_right, and_three h, BitVec.and_assoc]
  simp

theorem storeCtl_op (s : State) {op : Nat} (h : op < 4) : (storeCtl s op).rf BCU_ST_CTL 1 0 = op := by
  refine (storeReady_op _).trans ((rf_setRb_ne _ _ _ _ (.inr (.inl (by decide)))).trans ?_)
  unfold State.rf
  rw [reg_setReg_self]
  exact fld_high_or _ h

/-- GO written with AUTO as it stands: the word that BCU_ST_CTL then holds, GO aside. -/
theorem goWord (w : Word) {op : Nat} (h : op < 4) : (w &&& 0x80000000) ||| (BitVec.ofNat 32 (2 ^ 31 + b2n (wbit w 30) * 2 ^ 30 + op) &&& 0x40000003)
    = w &&& 0xC0000000 ||| BitVec.ofNat 32 op := by
  have hauto : w &&& 0x40000000 = if wbit w 30 then 0x40000000 else 0 := BitVec.and_twoPow w 30
  have hlow : BitVec.ofNat 32 (2 ^ 31 + b2n (wbit w 30) * 2 ^ 30 + op) &&& 0x40000003 = (if wbit w 30 then 0x40000000 else 0) ||| BitVec.ofNat 32 op := by
    revert op
    generalize wbit w 30 = b
    revert b
    decide
  rw [hlow, ← hauto, ← BitVec.or_assoc, ← BitVec.and_or_distrib_left]
  rfl

theorem wbit_goWord (b : Bool) {op : Nat} (h : op < 4) : wbit (BitVec.ofNat 32 (2 ^ 31 + b2n b * 2 ^ 30 + op)) 31 = true := by
  revert b op
  decide

/-- The operation that OP names begins. -/
def storeBegins (t : State) : Nat → State
  | 0 => commitStart t
  | 1 => eraseStart t
  | 2 => programStart t
  | _ => stError 2 t

/-- What a GO does once the command has been taken. -/
def storeStart (op : Nat) (t : State) : State := if stBusy t then stError 1 t else storeBegins t op

theorem stGo_command {r : State} {op : Nat} (h : (storeReady (r.setRb BCU_ST_CTL 31 false)).rf BCU_ST_CTL 1 0 = op) :
    stGo r = storeStart op (storeReady (r.setRb BCU_ST_CTL 31 false)) := by
  unfold stGo
  dsimp only
  rw [h]
  rfl

theorem stCtlWrite_go {op : Nat} (h : op < 4) :
    stCtlWrite (BitVec.ofNat 32 (2 ^ 31 + b2n (s.rb BCU_ST_CTL 30) * 2 ^ 30 + op)) s = storeStart op (storeCtl s op) := by
  unfold stCtlWrite
  refine (if_pos (wbit_goWord _ h)).trans ?_
  rw [State.rb, goWord _ h]
  exact stGo_command (storeCtl_op s h)

theorem ctlWrite_store (m : Nat) (v : Word) : ctlWrite m 0 .m BCU_ST_CTL v s = stCtlWrite v s :=
  show bcuFrameWrite m BCU_ST_CTL v s = _ from if_pos rfl

theorem ctlWrite_rel (m : Nat) (v : Word) : ctlWrite m 0 .m BCU_REL v s = relWrite v s :=
  show bcuFrameWrite m BCU_REL v s = _ from (if_neg (by decide)).trans (if_pos rfl)

/-- A command of the store begins as its operation does, or is refused while another runs. -/
theorem exec_store {m : Master} {i : Instr} {op : Nat} (h : Sends s m BCU_ST_CTL) (hop : op < 4) (he : exec i s = .next (stWrite m op s)) :
    exec i s = .next (storeStart op (storeCtl s op)) :=
  exec_sent h (by decide) he ((ctlWrite_store _ _).trans (stCtlWrite_go hop))

theorem storeStart_busy {op : Nat} (h : stBusy s = true) : storeStart op (storeCtl s op) = stError 1 (storeCtl s op) :=
  if_pos ((storeCtl_busy s op).trans h)

theorem storeStart_free {op : Nat} (h : stBusy s = false) : storeStart op (storeCtl s op) = storeBegins (storeCtl s op) op :=
  if_neg (by simp [storeCtl_busy s op, h])

theorem commitDone_ends {n : Nat} {q : Word} {d : List Byte} {j : Nat} {u : State} (h : s.nvmOp = .commit n q d) (hd : s.draw = (j, u)) :
    commitDone s = if Config.verifyFails j then stError 5 (stIdle (nvmCut u)) else commitWell n q d u := by
  unfold commitDone
  rw [h, hd]

theorem nvmTimeout_ends (h : s.nvmOp ≠ .idle) : nvmTimeout s = stError 4 (stIdle (nvmCut s)) := if_neg h

/-- Settles O56: the store's commands and their ends, the release of cores and the revocation of keys. -/
theorem storeAndReleaseComplete : Obligations.StoreAndReleaseComplete := by
  unfold Obligations.StoreAndReleaseComplete
  refine fun m v s => ⟨fun h => ⟨fun hb => ?_, fun hb => ?_⟩, fun hp => ⟨fun n q d j u hop hd => ⟨fun hok t ht => clocked_next hp ?_, fun hbad => clocked_next hp ?_⟩,
    fun lo hi hop => clocked_next hp ?_, fun lo d hop => clocked_next hp ?_, fun hop => clocked_next hp (nvmTimeout_ends hop),
    fun n a hop ha => clocked_next hp ?_⟩, fun h => exec_sent h (by decide) rfl (ctlWrite_rel _ _), fun h => exec_sent h (by decide) rfl ?_⟩
  · refine ⟨(exec_store (op := 0) h (by decide) rfl).trans ?_, (exec_store (op := 1) h (by decide) rfl).trans ?_,
      (exec_store (op := 2) h (by decide) rfl).trans ?_, (exec_store (op := 3) h (by decide) rfl).trans ?_⟩
    · rw [storeStart_busy hb]
    · rw [storeStart_busy hb]
    · rw [storeStart_busy hb]
    · rw [storeStart_busy hb]
  · refine ⟨(exec_store (op := 0) h (by decide) rfl).trans ?_, (exec_store (op := 1) h (by decide) rfl).trans ?_,
      (exec_store (op := 2) h (by decide) rfl).trans ?_, (exec_store (op := 3) h (by decide) rfl).trans ?_⟩
    · rw [storeStart_free hb, storeBegins]
    · rw [storeStart_free hb, storeBegins]
    · rw [storeStart_free hb, storeBegins]
    · rw [storeStart_free hb]
      rfl
  · rw [commitDone_ends hop hd, if_neg (by simp [hok]), ht]
    rfl
  · rw [commitDone_ends hop hd, if_pos hbad]
  · unfold nvmDone
    rw [hop]
  · unfold nvmDone
    rw [hop]
  · unfold storeReady
    rw [hop, ha]
  · have hacc : siwAccepts s m.val = true ↔ (m.val = 4 ∨ m.val = 8 ∧ siReleased s = false) := by
      simp only [siwAccepts, Bool.or_eq_true, Bool.and_eq_true, beq_iff_eq, Bool.not_eq_true']
    show (if siwAccepts s m.val then revokeWrite v s else siRefuse m.val KSU_REVOKE s) = _
    by_cases h' : siwAccepts s m.val = true
    · rw [if_pos h', if_pos (hacc.mp h')]
      rfl
    · rw [if_neg h', if_neg fun hn => h' (hacc.mpr hn)]

end Sys2Proof.StoreAndRelease

/-! Power states, the energy ledger's instants and the power-failure sequence (R423 to R442). -/
namespace Sys2Proof.PowerEvents
open Sys2Proof.Machine Stated VectorEvents MemoryEvents Signalling StoreAndRelease

/-! ### Requests for COCOON and DORMANT -/

section Sleep
variable {m : Nat} {s : State}

theorem sleepSpec : regSpec PMU_SLEEP = some ⟨0, 4, 1, 0, 3, 0, 0x10000, 0x100⟩ := by rfl

/-- A write of PMU_SLEEP without GO takes its target. -/
theorem fld_sleepWritten (ok : Bool) (old : Word) {t : Nat} (h : t < 4) :
    fld (regWritten ⟨0, 4, 1, 0, 3, 0, 0x10000, 0x100⟩ ok old (BitVec.ofNat 32 t)) 1 0 = t := by
  refine fld_of_and_three h ?_
  unfold regWritten
  match t, h with
  | 0, _ | 1, _ | 2, _ | 3, _ => cases ok <;> simp [BitVec.and_or_distrib_right, BitVec.and_assoc]

theorem plainWrite_target {t : Nat} (h : t < 4) : (plainWrite m PMU_SLEEP (BitVec.ofNat 32 t) s).rf PMU_SLEEP 1 0 = t := by
  unfold plainWrite State.rf
  rw [sleepSpec]
  dsimp only
  rw [reg_setReg_self, fld_sleepWritten _ _ h]

theorem signalled_siRefuse (m pa : Nat) (s : State) : Signalled s (siRefuse m pa s) := by
  unfold siRefuse
  refine Signalled.trans ?_ (rings_sicEvent _ 4).fields
  split
  · exact signalled_setRb ..
  · exact (signalled_setReg ..).trans (signalled_setReg ..)

theorem signalled_plainWrite (m pa : Nat) (v : Word) (s : State) : Signalled s (plainWrite m pa v s) := by
  unfold plainWrite
  split
  · exact .refl s
  · dsimp only
    refine Signalled.trans ?_ (signalled_setReg ..)
    split
    · exact signalled_siRefuse m pa s
    · exact .refl s

theorem pmu_plainWrite (pa : Nat) (v : Word) : (plainWrite m pa v s).pmu = s.pmu ∧ (plainWrite m pa v s).xclk = s.xclk := by
  obtain ⟨r, c, h, e, f, i, heq, -⟩ := signalled_plainWrite m pa v s
  rw [heq]
  exact ⟨rfl, rfl⟩

/-- A request that may be made is one write of PMU_SLEEP with GO. -/
theorem sleepWrite_go {m : Master} {k : AppCore} {t : Nat} (h : Sends s m PMU_SLEEP) (hgo : s.rb PMU_SLEEP 16 = false) (hlvl : m.val ≤ 1 → s.lvl (appCore k) = .m)
    (ht : t < 4) : sleepWrite m k t s = sleepGo (plainWrite m.val PMU_SLEEP (BitVec.ofNat 32 t) s) := by
  have hword : (2 ^ 16 + t : Nat) = (BitVec.ofNat 32 (2 ^ 16 + t)).toNat := by
    rw [BitVec.toNat_ofNat, Nat.mod_eq_of_lt (by omega)]
  have hplain : putBit (BitVec.ofNat 32 (2 ^ 16 + t)) 16 false = BitVec.ofNat 32 t ∧ wbit (BitVec.ofNat 32 (2 ^ 16 + t)) 16 = true := by
    match t, ht with
    | 0, _ | 1, _ | 2, _ | 3, _ => decide
  have hmaster : (m.val != 1 || masterLvl s m k == .m) = true := by
    unfold masterLvl
    by_cases h1 : m.val = 1
    · simp [h1, hlvl (by omega)]
    · simp [h1]
  unfold sleepWrite
  rw [hword, postWrite_reg _ _ _ _ _ _ (by decide) h.1 h.2]
  show pmuFrameWrite _ _ PMU_SLEEP _ s = _
  refine (if_pos rfl).trans ?_
  rw [hplain.1]
  exact if_pos (by rw [hplain.2, hgo, hmaster]; rfl)

variable {t : Nat}

theorem sleepGo_invalid (h : s.rf PMU_SLEEP 1 0 = 0 ∨ s.rf PMU_SLEEP 1 0 = 3) : sleepGo s = sleepRefused 0 s := if_pos h

theorem sleepGo_valid (h : s.rf PMU_SLEEP 1 0 = 1 ∨ s.rf PMU_SLEEP 1 0 = 2) : sleepGo s =
    if !s.rb PMU_SLEEP 8 then sleepRefused 1 s
    else if (sameXclk s.pmu.wakeAt s).1 then sleepRefused 2 (sameXclk s.pmu.wakeAt s).2
    else { (sameXclk s.pmu.wakeAt s).2.setRb PMU_SLEEP 16 true with wakeReq := 0, pmu := { (sameXclk s.pmu.wakeAt s).2.pmu with goAt := some s.xclk } } :=
  if_neg (by omega)

theorem sameXclk_other {at_ : Option Nat} (h : at_ ≠ some s.xclk) : sameXclk at_ s = (false, s) := if_neg h

theorem sameXclk_here {at_ : Option Nat} {q : Nat} {u : State} (h : at_ = some s.xclk) (hd : s.draw = (q, u)) : sameXclk at_ s = (Config.sameCycle q, u) := by
  unfold sameXclk
  rw [if_pos h, hd]

theorem sleepGo_refused (h : s.rf PMU_SLEEP 1 0 = 1 ∨ s.rf PMU_SLEEP 1 0 = 2) (hok : s.rb PMU_SLEEP 8 = false) : sleepGo s = sleepRefused 1 s := by
  rw [sleepGo_valid h, hok]
  rfl

theorem sleepGo_waits (h : s.rf PMU_SLEEP 1 0 = 1 ∨ s.rf PMU_SLEEP 1 0 = 2) (hok : s.rb PMU_SLEEP 8 = true) (hw : s.pmu.wakeAt ≠ some s.xclk) :
    sleepGo s = { s.setRb PMU_SLEEP 16 true with wakeReq := 0, pmu := { s.pmu with goAt := some s.xclk } } := by
  rw [sleepGo_valid h, hok, sameXclk_other hw]
  rfl

theorem sleepGo_race {q : Nat} {u : State} (h : s.rf PMU_SLEEP 1 0 = 1 ∨ s.rf PMU_SLEEP 1 0 = 2) (hok : s.rb PMU_SLEEP 8 = true)
    (hw : s.pmu.wakeAt = some s.xclk) (hd : s.draw = (q, u)) :
    sleepGo s = if Config.sameCycle q = true then sleepRefused 2 u
      else { u.setRb PMU_SLEEP 16 true with wakeReq := 0, pmu := { u.pmu with goAt := some u.xclk } } := by
  have hx : u.xclk = s.xclk := by
    rw [← show s.draw.2 = u from congrArg Prod.snd hd]
    rfl
  rw [sleepGo_valid h, hok, sameXclk_here hw hd, hx]
  rfl

/-- The two targets that name a state. -/
theorem exec_sleep {row : Instr} {tgt : Word} {m : Master} {k : AppCore} (h : row = Instr.pmuSleepCocoon m k ∧ tgt = 1 ∨ row = .pmuSleepDormant m k ∧ tgt = 2) :
    (tgt.toNat = 1 ∨ tgt.toNat = 2) ∧ ∀ s, exec row s = .next (sleepWrite m k tgt.toNat s) := by
  obtain ⟨rfl, rfl⟩ | ⟨rfl, rfl⟩ := h
  · exact ⟨.inl rfl, fun _ => rfl⟩
  · exact ⟨.inr rfl, fun _ => rfl⟩

theorem exec_sleepInvalid {m : Master} {k : AppCore} {t : BitVec 2} (h : t = 0 ∨ t = 3) : exec (.pmuSleepInvalid m k t) s = .next (sleepWrite m k t.toNat s) :=
  congrArg _ (if_pos h)

theorem sleepAsked_iff : sleepAsked s = true ↔ s.rb PMU_SLEEP 16 = true ∧ s.pwr ≤ 1 := by
  rw [sleepAsked, Bool.and_eq_true, decide_eq_true_iff]
  rfl

end Sleep
end Sys2Proof.PowerEvents

/-! The energy ledger's instants and T0: what an access of the store's leaves of a power failure's record (R431 to R439, R467). -/
namespace Sys2Proof.PowerEvents
open Sys2Proof.Machine Stated VectorEvents MemoryEvents Signalling

/-! ### What a power failure's record survives -/

/-- `t` has the time, the filter and the step of a power failure that `s` has. -/
structure SameFailure (s t : State) : Prop where
  time : t.pfT0 = s.pfT0
  filter : t.pfFilter = s.pfFilter
  step : t.reg PMU_STAT = s.reg PMU_STAT

namespace SameFailure
variable {s t u : State}

theorem refl (s : State) : SameFailure s s := ⟨rfl, rfl, rfl⟩

theorem trans (h : SameFailure s t) (h' : SameFailure t u) : SameFailure s u := ⟨h'.time.trans h.time, h'.filter.trans h.filter, h'.step.trans h.step⟩

theorem ite {p : Prop} [Decidable p] (ht : p → SameFailure s t) (hu : ¬ p → SameFailure s u) : SameFailure s (if p then t else u) := by
  split
  · exact ht ‹_›
  · exact hu ‹_›

theorem foldl {α : Type} {f : State → α → State} {l : List α} (s : State) (h : ∀ t a, SameFailure t (f t a)) : SameFailure s (l.foldl f s) :=
  List.foldlRecOn l f (.refl s) fun t ht a _ => ht.trans (h t a)

theorem of_rings (h : Rings s t) : SameFailure s t := by
  obtain ⟨⟨r, c, i, e, f, si, heq, -⟩, hreg⟩ := h
  have hstep := hreg PMU_STAT (.inr (by decide))
  subst heq
  exact ⟨rfl, rfl, hstep⟩

theorem setReg {a : Nat} (v : Word) (h : PMU_STAT ≠ a) : SameFailure s (s.setReg a v) := ⟨rfl, rfl, reg_setReg_ne s v h⟩

theorem setRb {a : Nat} (b : Nat) (v : Bool) (h : PMU_STAT ≠ a) : SameFailure s (s.setRb a b v) := setReg _ h

theorem setRf {a : Nat} (hi lo x : Nat) (h : PMU_STAT ≠ a) : SameFailure s (s.setRf a hi lo x) := setReg _ h

theorem draw (s : State) : SameFailure s s.draw.2 := ⟨rfl, rfl, rfl⟩

end SameFailure

section Frames
variable (s : State)

theorem sameFailure_icuEvent (n : Nat) : SameFailure s (icuEvent n s) := .of_rings (rings_icuEvent s n)

/-! #### The memories' reads -/

theorem sameFailure_countThresh {a : Nat} (src : Nat) (h : PMU_STAT ≠ a) : SameFailure s (countThresh a src s) :=
  .ite (fun _ => (SameFailure.setReg _ h).trans (sameFailure_icuEvent _ _)) fun _ => .setReg _ h

theorem sameFailure_miuReport (src wa b : Nat) : SameFailure s (miuReport src wa b s) := by
  refine SameFailure.trans (.ite (fun _ => .setRb _ _ (by decide)) fun _ => ?_) (sameFailure_icuEvent _ 128)
  exact (((SameFailure.setRb _ _ (by decide)).trans (.setReg _ (by decide))).trans (.setReg _ (by decide))).trans (.setReg _ (by decide))

/-- A corrected word may wait to be written back (R283). -/
theorem sameFailure_writeBack {p : Prop} [Decidable p] (w : List (Nat × Nat)) : SameFailure s (if p then s else { s with ceWb := w }) :=
  .ite (fun _ => .refl s) fun _ => ⟨rfl, rfl, rfl⟩

theorem sameFailure_ergWordRead (src wa : Nat) (need : Nat → Bool) : SameFailure s (ergWordRead src wa need s).2 := by
  have hgroup : PMU_STAT ≠ MIU_GCECNT (ergGroup s wa) := by
    have := SafetyEvents.ergGroup_lt s wa
    unfold PMU_STAT MIU_GCECNT
    omega
  have hcount : ∀ cor : List (Nat × EccOut),
      SameFailure s (cor.foldl (fun t _ => (countThresh MIU_CECNT 129 t).countUp (MIU_GCECNT (ergGroup s wa)) 15 0 1) s) := fun cor =>
    .foldl s fun t _ => (sameFailure_countThresh t 129 (by decide)).trans (.setReg _ hgroup)
  unfold ergWordRead
  generalize (List.range 8).map (fun k => (k, eccDecode (s.wrong (wa + k)))) = outs
  exact ((hcount _).trans (sameFailure_writeBack _ _)).trans (.ite (fun _ => .refl _) fun _ => sameFailure_miuReport ..)

theorem sameFailure_ergRead (src pa len : Nat) : SameFailure s (ergRead src pa len s).2 :=
  List.foldlRecOn (motive := fun r : Bool × State => SameFailure s r.2) _ _ (.refl s) fun r hr wa _ =>
    hr.trans (sameFailure_ergWordRead r.2 src wa fun a => decide (pa ≤ a) && decide (a < pa + len))

theorem sameFailure_localRead {pa : Nat} (len : Nat) (h : isErg pa = true) : SameFailure s (localRead pa len s).2 := by
  unfold localRead
  rw [h]
  split
  · exact .refl s
  · rw [if_pos rfl]
    split
    · exact .refl s
    · split
      · exact .refl s
      · have hr := sameFailure_ergRead s 1 pa len
        generalize ergRead 1 pa len s = r at hr ⊢
        obtain ⟨_ | _, _⟩ := r <;> exact hr

theorem sameFailure_xbmLog (m id tgt : Nat) (wr tmo : Bool) (resp : Resp) (pa : Nat) : SameFailure s (xbmLog m id tgt wr tmo resp pa s) :=
  .ite (fun _ => .setRb _ _ (by decide)) fun _ =>
    (((SameFailure.setReg _ (by decide)).trans (.setReg _ (by decide))).trans (.setReg _ (by decide))).trans (sameFailure_icuEvent _ 8)

variable {s}

theorem sameFailure_xbmLogged (m id : Nat) (wr : Bool) (pa : Nat) {r : BusRes × State} (h : SameFailure s r.2) :
    SameFailure s (xbmLogged m id wr pa r).2 := by
  unfold xbmLogged
  split
  · split
    · exact h.trans (sameFailure_xbmLog ..)
    · exact h
  · exact h

/-- What a port's gate adds to a read: the list of what waits, and the record of a timeout. -/
theorem sameFailure_busGate {x : Xact} {go : State → BusRes × State} (hx : x.kind = 0) (hgo : ∀ t, SameFailure t (go t).2) :
    SameFailure s (busGate x go s).2 := by
  have hheld : ∀ (t : State) l, SameFailure t { t with held := l } := fun _ _ => ⟨rfl, rfl, rfl⟩
  unfold busGate tmoGone
  dsimp only
  rw [if_pos hx]
  split
  · exact (hheld s _).trans (sameFailure_xbmLog ..)
  · split
    · have hg := (hheld s _).trans (hgo { s with held := s.held.filter fun g => !(heldOf x).same g })
      split
      · rename_i heq
        rw [heq] at hg
        exact .ite (fun _ => hg) fun _ => hg.trans (hheld _ _)
      · exact hg
    · exact .refl s

/-! #### The store -/

variable (s)

theorem sameFailure_stBit (b : Nat) (v : Bool) : SameFailure s (stBit b v s) := .setRb _ _ (by decide)

theorem sameFailure_stError (code : Nat) : SameFailure s (stError code s) :=
  ((sameFailure_stBit s 28 true).trans (.setRf _ _ _ (by decide))).trans (sameFailure_icuEvent _ 621)

theorem sameFailure_stIdle : SameFailure s (stIdle s) :=
  ((sameFailure_stBit s 30 false).trans (sameFailure_stBit _ 31 false)).trans ⟨rfl, rfl, rfl⟩

theorem sameFailure_nvmPut (bytes : List Byte) (a : Nat) : SameFailure s (nvmPut a bytes s) := by
  induction bytes generalizing a s with
  | nil => exact .refl s
  | cons b t ih => exact (⟨rfl, rfl, rfl⟩ : SameFailure s { s with nvm := smPut nvmDefault s.nvm a b }).trans (ih _ (a + 1))

theorem sameFailure_nvmTear (lo hi : Nat) : SameFailure s (nvmTear lo hi s) := (SameFailure.draw s).trans (sameFailure_nvmPut _ _ lo)

theorem sameFailure_nvmErase (lo hi : Nat) : SameFailure s (nvmErase lo hi s) := ⟨rfl, rfl, rfl⟩

theorem sameFailure_eraseCut (fin : Bool) (lo hi : Nat) : SameFailure s (eraseCut fin lo hi s) :=
  ((SameFailure.draw s).trans (sameFailure_nvmErase _ lo _)).trans (.ite (fun _ => .refl _) fun _ => sameFailure_nvmTear ..)

theorem sameFailure_programCut (fin : Bool) (dst : Nat) (data : List Byte) : SameFailure s (programCut fin dst data s) :=
  ((SameFailure.draw s).trans (sameFailure_nvmPut _ _ dst)).trans (.ite (fun _ => .refl _) fun _ => sameFailure_nvmTear ..)

theorem sameFailure_nvmPart (fin : Bool) : SameFailure s (nvmPart fin s) := by
  unfold nvmPart
  split
  · exact .refl s
  · exact (sameFailure_nvmErase s _ _).trans (sameFailure_nvmTear ..)
  · exact sameFailure_eraseCut ..
  · exact sameFailure_programCut ..
  · exact sameFailure_eraseCut ..

theorem sameFailure_stEndAtUnit : SameFailure s (stEndAtUnit s) :=
  .ite (fun _ => .refl s) fun _ => (sameFailure_nvmPart s true).trans (sameFailure_stIdle _)

theorem sameFailure_stRead (h : isErg (stSrc s) = true) : SameFailure s (stRead s).2 :=
  sameFailure_busGate rfl fun t => sameFailure_xbmLogged _ _ _ _ (sameFailure_localRead t _ h)

theorem sameFailure_stStart (op : NvmOp) : SameFailure s (stStart op s) := (sameFailure_stBit s 31 true).trans ⟨rfl, rfl, rfl⟩

theorem sameFailure_commitStart : SameFailure s (commitStart s) := by
  refine .ite (fun _ => sameFailure_stError s 2) fun _ => .ite (fun _ => sameFailure_stError s 3) fun herg => ?_
  have hread := sameFailure_stRead s (by simpa using herg)
  generalize stRead s = r at hread ⊢
  obtain ⟨_ | ⟨_ | c, b⟩, s1⟩ := r
  · exact hread.trans (.setRb _ _ (by decide))
  · exact ((hread.trans (sameFailure_stBit s1 30 true)).trans (sameFailure_stBit _ 27 false)).trans (sameFailure_stStart ..)
  · exact hread.trans (sameFailure_stError s1 3)

theorem sameFailure_pfStore : SameFailure s (pfStore s) := by
  unfold pfStore
  split
  · exact .refl s
  · exact (sameFailure_stEndAtUnit s).trans (.ite (fun _ => sameFailure_commitStart _) fun _ => .refl _)

end Frames
end Sys2Proof.PowerEvents

/-! The commands of power states, of the energy ledger and of power failure (R423 to R442). -/
namespace Sys2Proof.PowerEvents
open Sys2Proof.Machine Stated VectorEvents MemoryEvents Signalling

/-! ### Wake events -/

section Wake
variable {s : State} {src : Option (Fin 8)}

theorem wakeEvent_came (hc : wakeCame src s = true) : wakeEvent src s =
    if sleepAsked s then
      if (sameXclk s.pmu.goAt s).1 then sleepRefused 2 (sameXclk s.pmu.goAt s).2
      else { (sameXclk s.pmu.goAt s).2.setRb PMU_SLEEP 16 false with wakeReq := 0 }
    else if decide (s.power = 2) && s.rf PMU_STAT 26 24 == 0 && s.ergSlots == 0 then cocoonWake src s
    else s :=
  if_neg (by simp [hc])

theorem wakeEvent_cancels (hc : wakeCame src s = true) (ha : sleepAsked s = true) (hx : s.pmu.goAt ≠ some s.xclk) :
    wakeEvent src s = { s.setRb PMU_SLEEP 16 false with wakeReq := 0 } := by
  rw [wakeEvent_came hc, if_pos ha, sameXclk_other hx]
  rfl

theorem wakeEvent_race {q : Nat} {u : State} (hc : wakeCame src s = true) (ha : sleepAsked s = true) (hx : s.pmu.goAt = some s.xclk) (hd : s.draw = (q, u)) :
    wakeEvent src s = if Config.sameCycle q = true then sleepRefused 2 u else { u.setRb PMU_SLEEP 16 false with wakeReq := 0 } := by
  rw [wakeEvent_came hc, if_pos ha, sameXclk_here hx hd]

theorem wakeEvent_cocoon (hc : wakeCame src s = true) (hp : s.pwr = 2) (hf : pfStep s = 0) (he : s.ergSlots = 0) : wakeEvent src s = cocoonWake src s := by
  have hasked : sleepAsked s ≠ true := fun h => by
    have := (sleepAsked_iff.mp h).2
    omega
  have hstep : s.rf PMU_STAT 26 24 = 0 := hf
  rw [wakeEvent_came hc, if_neg hasked, if_pos (by simp [State.power, hp, hstep, he])]

end Wake

/-! ### The ledger -/

/-- The power state and the ledger's instants are as they were. -/
structure SameInstants (s t : State) : Prop where
  pwr : t.pwr = s.pwr
  elg : t.elg = s.elg

section Ledger
variable {s t u : State}

theorem SameInstants.refl (s : State) : SameInstants s s := ⟨rfl, rfl⟩

theorem SameInstants.trans (h : SameInstants s t) (h' : SameInstants t u) : SameInstants s u := ⟨h'.pwr.trans h.pwr, h'.elg.trans h.elg⟩

theorem SameInstants.of_rings (h : Rings s t) : SameInstants s t := by
  obtain ⟨⟨r, c, i, e, f, si, heq, -⟩, -⟩ := h
  subst heq
  exact ⟨rfl, rfl⟩

variable (s)

theorem rings_alert (p n : Nat) : Rings s (pulse p (icuEvent n s)) := (rings_icuEvent s n).trans (rings_pulse _ p)

theorem sameInstants_setCredit (x : Int) : SameInstants s (setCredit x s) := by
  unfold setCredit
  dsimp only
  split
  · split
    · exact ⟨rfl, rfl⟩
    · exact (⟨rfl, rfl⟩ : SameInstants s (({ s with elgCredit := creditWrap x } : State).setRb ELG_STAT 29 true)).trans (.of_rings (rings_alert _ 162 610))
  · exact ⟨rfl, rfl⟩

theorem sameInstants_creditRefill : SameInstants s (elgCreditRefill s) := by
  unfold elgCreditRefill
  dsimp only
  split
  · exact sameInstants_setCredit s _
  · exact .refl s

theorem sameInstants_elgSample (d x : Nat) : SameInstants s (elgSample d x s) := by
  unfold elgSample
  split
  · dsimp only
    split
    · exact ⟨rfl, rfl⟩
    · exact ⟨rfl, rfl⟩
  · exact .refl s

theorem sameInstants_samples (e : List Nat) : SameInstants s ((List.range 8).foldl (fun t d => elgSample d (e.getD d 0) t) (elgCreditRefill s)) :=
  (sameInstants_creditRefill s).trans (List.foldlRecOn _ _ (.refl _) fun t ht d _ => ht.trans (sameInstants_elgSample t d _))

variable {s}

theorem elgRefill_due {e : List Nat} {s1 : State} (hp : s.pwr ≤ 2) (hdue : s.elg.due = true)
    (h1 : s1 = (List.range 8).foldl (fun t d => elgSample d (e.getD d 0) t) (elgCreditRefill s)) :
    elgRefill e s = { s1 with elg := { s1.elg with due := false, win := s.elg.win + elgDrawn s e } } := by
  unfold elgRefill
  rw [if_pos (by rw [hdue]; exact decide_eq_true hp), ← h1]

theorem elgRefill_notDue {e : List Nat} (hdue : s.elg.due = false) : elgRefill e s = s := if_neg (by simp [hdue])

/-- A refill leaves the power state and whether 1 ms has ended. -/
theorem elgRefill_plim (e : List Nat) (hp : s.pwr ≤ 2) : (elgRefill e s).pwr = s.pwr ∧ (elgRefill e s).elg.plimDue = s.elg.plimDue := by
  cases hdue : s.elg.due with
  | false =>
    rw [elgRefill_notDue hdue]
    exact ⟨rfl, rfl⟩
  | true =>
    obtain ⟨u, hu⟩ : ∃ u, u = (List.range 8).foldl (fun t d => elgSample d (e.getD d 0) t) (elgCreditRefill s) := ⟨_, rfl⟩
    obtain ⟨hpwr, helg⟩ := hu ▸ sameInstants_samples s e
    rw [elgRefill_due hp hdue hu]
    refine ⟨hpwr, ?_⟩
    show u.elg.plimDue = s.elg.plimDue
    rw [helg]

theorem elgWindow_due {u : State} (hp : u.pwr ≤ 2) (hdue : u.elg.plimDue = true) :
    elgWindow u = elgPlim u.elg.win { u with elg := { u.elg with plimDue := false, win := 0 } } :=
  if_pos (by rw [hdue]; exact decide_eq_true hp)

theorem elgPlim_compares (nj : Nat) (s : State) : elgPlim nj s = if s.rf ELG_PLIM 23 0 = 0 then s
    else if s.rf ELG_PLIM 23 0 * 1000 < nj then (if s.rb ELG_STAT 31 = true then s else pulse 162 (icuEvent 611 (s.setRb ELG_STAT 31 true)))
    else s.setRb ELG_STAT 31 false := rfl

theorem ctlWrite_snap (m : Nat) : ctlWrite m 0 .m ELG_SNAP 1 s = elgSnapshot s :=
  show elgFrameWrite m ELG_SNAP 1 s = _ from (if_neg (by decide)).trans ((if_neg (by decide)).trans ((if_pos rfl).trans (if_pos (by decide))))

theorem ctlWrite_credit (m : Nat) (v : Word) {pa : Nat} (hpa : pa = ELG_CREDIT_LO) : ctlWrite m 0 .m pa v s = creditWrite v s := by
  have hframe : pa / 0x10000 = 0x20E1 := by
    rw [hpa]
    rfl
  unfold ctlWrite
  rw [hframe]
  show elgFrameWrite m pa v s = _
  exact if_pos hpa

end Ledger

/-! ### Power failure -/

section Failure
variable {s : State}

theorem pfStep_setPfStep {n : Nat} (h : n < 8) (s : State) : pfStep (setPfStep n s) = n := by
  unfold pfStep setPfStep
  rw [rf_setRf_self _ _ _ (by decide)]
  exact Nat.mod_eq_of_lt h

/-- The record as T0 begins. -/
def failureBegun (s : State) : State :=
  setPfStep (if s.power ≤ 1 then 2 else 1) (({ s with pfFilter := false, pfT0 := tbNs s, wakeReq := 0 } : State).setReg64 ELG_PFE_LO ELG_PFE_HI 0)

theorem pfStep_failureBegun (s : State) : pfStep (failureBegun s) = if s.pwr ≤ 1 then 2 else 1 :=
  pfStep_setPfStep (by split <;> omega) _

/-- The alerts of T0. -/
theorem sameFailure_alerts (s : State) : SameFailure s (sicEvent 10 (pulse 161 (icuEvent 608 s))) :=
  .of_rings (((rings_icuEvent s 608).trans (rings_pulse _ 161)).trans (rings_sicEvent _ 10))

/-- A start in progress ends with T0, and the store is told. -/
def failureStore (s : State) : State :=
  let s3 := (chkFlush s).setRb PMU_SLEEP 16 false
  pfStore (if starting s3 then { s3 with boot := .reset } else s3)

theorem sameFailure_failureStore (s : State) : SameFailure s (failureStore s) := by
  have hflush : SameFailure s ((chkFlush s).setRb PMU_SLEEP 16 false) :=
    (⟨rfl, rfl, rfl⟩ : SameFailure s (chkFlush s)).trans (.setRb _ _ (by decide))
  refine (hflush.trans ?_).trans (sameFailure_pfStore _)
  split
  · exact ⟨rfl, rfl, rfl⟩
  · exact .refl _

theorem pwrfailT0_begins (hf : s.pfFilter = true) (hn : s.pwrfailN = false) (h0 : pfStep s = 0) :
    pwrfailT0 s = if s.pwr ≤ 1 then failureStore (sicEvent 10 (pulse 161 (icuEvent 608 (failureBegun s))))
      else sicEvent 10 (pulse 161 (icuEvent 608 (failureBegun s))) :=
 by
  unfold pwrfailT0
  rw [if_pos (by simp [hf, hn, h0])]
  rfl

/-- T0 records its time and ends the filter; the step is 2 where the Core domain runs, else 1. -/
theorem pwrfailT0_records (hf : s.pfFilter = true) (hn : s.pwrfailN = false) (h0 : pfStep s = 0) : SameFailure (failureBegun s) (pwrfailT0 s) := by
  rw [pwrfailT0_begins hf hn h0]
  split
  · exact (sameFailure_alerts _).trans (sameFailure_failureStore _)
  · exact sameFailure_alerts _

theorem nvmOp_stAbandon (s : State) : (stAbandon s).nvmOp = .idle := by
  unfold stAbandon
  split
  · assumption
  · rfl

theorem nvmOp_vclkStops (s : State) : (vclkStops s).nvmOp = s.nvmOp := by
  unfold vclkStops
  split
  · rfl
  · rfl

/-- The device as step 5 leaves it. -/
def shutDown (s : State) : State :=
  { ((setPfStep 5 s).setReg PMU_PLL 0).setRb PMU_STAT 31 true with pwr := 4, icuHeld := [], evrHeld := [] }

theorem pfStep_shutDown (s : State) : pfStep (shutDown s) = 5 := by
  show (((setPfStep 5 s).setReg PMU_PLL 0).setRb PMU_STAT 31 true).rf PMU_STAT 26 24 = 5
  rw [rf_setRb_ne _ _ _ _ (.inr (.inl (by decide))), rf_setReg_ne _ _ _ _ (by decide)]
  exact pfStep_setPfStep (by decide) s

theorem shutDown_regs (s : State) : (shutDown s).rb PMU_STAT 31 = true ∧ (shutDown s).reg PMU_PLL = 0 :=
  ⟨rb_setRb_self ((setPfStep 5 s).setReg PMU_PLL 0) _ _ (by decide), (reg_setRb_ne ((setPfStep 5 s).setReg PMU_PLL 0) _ _ (by decide)).trans (reg_setReg_self ..)⟩

theorem pfShutdown_stops (h : pfStep s = 4 ∨ 1 ≤ pfStep s ∧ pfStep s ≤ 3 ∧ s.pwr = 3) : (pfShutdown s).pwr = 4 ∧ pfStep (pfShutdown s) = 5 ∧
    (pfShutdown s).rb PMU_STAT 31 = true ∧ (pfShutdown s).reg PMU_PLL = 0 ∧ (pfShutdown s).nvmOp = .idle := by
  have hstop : pfShutdown s = shutDown (vclkStops (stAbandon (if s.power ≤ 1 then vseAbandoned s else s))) := if_pos h
  have hop : ∀ r, (shutDown r).nvmOp = r.nvmOp := fun _ => rfl
  rw [hstop, pfStep_shutDown, (shutDown_regs _).1, (shutDown_regs _).2, hop, nvmOp_vclkStops, nvmOp_stAbandon]
  exact ⟨rfl, rfl, rfl, rfl, rfl⟩

end Failure

/-- Settles O54: power states, requests for sleep and wakes, the ledger's instants and the power-failure sequence. -/
theorem powerEventsComplete : Obligations.PowerEventsComplete := by
  unfold Obligations.PowerEventsComplete
  refine fun m k s => ⟨fun h0 hw hv => congrArg _ (if_pos ?_), fun h1 hw => congrArg _ (if_pos ?_), fun h hgo hlvl => ⟨fun row tgt s1 hrow h1 => ?_, fun t ht => ?_⟩,
    fun hgo hp hw => congrArg _ (if_pos ?_), fun hgo hp hw hq hin => congrArg _ (if_pos ?_), fun src hc => ⟨fun hgo hp => ⟨fun hx => ?_, fun hx q u hd => ?_⟩, fun hp hf he => ?_⟩,
    fun j hp hw hf => congrArg _ (if_pos ?_), fun e hp hdue s1 h1 => ?_, fun e hp => congrArg _ (if_pos hp), fun e u s1 hp hdue hu h1 => ?_,
    fun h => exec_sent h (by decide) rfl ?_, fun v h => exec_sent h (by decide) rfl ?_, fun hn => (congrArg _ (if_pos hn)).trans ?_, rfl,
    fun hf hn h0 => ⟨_, rfl, ?_⟩, fun hdue => congrArg _ (if_pos hdue), fun h3 => congrArg _ (if_pos h3), fun h4 => ⟨_, rfl, pfShutdown_stops h4⟩,
    fun hp hn => congrArg _ (if_pos ?_)⟩
  · simp [State.power, h0, hw, hv]
  · obtain hw | hw := hw <;> simp [State.power, h1, hw]
  · obtain ⟨htgt, hexec⟩ := exec_sleep hrow
    have hword : BitVec.ofNat 32 tgt.toNat = tgt := BitVec.ofNat_toNat _ _
    have hfld := plainWrite_target (m := m.val) (s := s) (t := tgt.toNat) (by omega)
    obtain ⟨hpmu, hxclk⟩ := pmu_plainWrite (m := m.val) (s := s) PMU_SLEEP tgt
    rw [hword] at hfld
    rw [hexec, sleepWrite_go h hgo hlvl (by omega), hword]
    subst h1
    refine ⟨fun hok => congrArg _ (sleepGo_refused (by omega) hok), fun hok hx => congrArg _ (sleepGo_waits (by omega) hok ?_),
      fun hok hx q u hd => congrArg _ (sleepGo_race (by omega) hok ?_ hd)⟩
    · rwa [hpmu, hxclk]
    · rwa [hpmu, hxclk]
  · have hfld := plainWrite_target (m := m.val) (s := s) (t := t.toNat) (by omega)
    have hinv : t.toNat = 0 ∨ t.toNat = 3 := by
      obtain rfl | rfl := ht
      · exact .inl rfl
      · exact .inr rfl
    rw [exec_sleepInvalid ht, sleepWrite_go h hgo hlvl (by omega), sleepGo_invalid (by omega)]
    obtain rfl | rfl := ht
    · rfl
    · rfl
  · rw [sleepAsked_iff.mpr ⟨hgo, hp⟩, hw]
    rfl
  · rw [sleepAsked_iff.mpr ⟨hgo, hp⟩, hw, hq, hin]
    rfl
  · exact congrArg _ (wakeEvent_cancels hc (sleepAsked_iff.mpr ⟨hgo, hp⟩) hx)
  · exact congrArg _ (wakeEvent_race hc (sleepAsked_iff.mpr ⟨hgo, hp⟩) hx hd)
  · exact congrArg _ (wakeEvent_cocoon hc hp hf he)
  · simp [State.power, hp, hw, hf]
  · exact congrArg _ (elgRefill_due hp hdue h1)
  · obtain ⟨hpwr, hplim⟩ := elgRefill_plim e hp
    refine congrArg _ ((elgWindow_due (by omega) (hplim.trans hdue)).trans ?_)
    rw [← hu, ← h1]
    exact elgPlim_compares _ _
  · exact ctlWrite_snap _
  · exact ctlWrite_credit _ _ rfl
  · rw [Bool.decide_and]
    rfl
  · obtain ⟨htime, hfilter, hstep⟩ := pwrfailT0_records hf hn h0
    exact ⟨htime, hfilter, (congrArg (fld · 26 24) hstep).trans (pfStep_failureBegun s)⟩
  · simp [State.power, hp, hn]

end Sys2Proof.PowerEvents

/-! Resets, and how a start begins and goes on (R9, R30, R413, R429, R441 to R458, R477). -/
namespace Sys2Proof.ResetsAndStarts
open Sys2Proof.Machine Stated VectorEvents MemoryEvents Signalling

/-! ### What a reset keeps as vector work and a store command are abandoned -/

/-- `t` has the OTP, the time base and the step of a power failure that `s` has. -/
structure SameMoth (s t : State) : Prop where
  otp : t.otp = s.otp
  tb : t.tb = s.tb
  step : t.reg PMU_STAT = s.reg PMU_STAT

namespace SameMoth
variable {s t u : State}

theorem refl (s : State) : SameMoth s s := ⟨rfl, rfl, rfl⟩

theorem trans (h : SameMoth s t) (h' : SameMoth t u) : SameMoth s u := ⟨h'.otp.trans h.otp, h'.tb.trans h.tb, h'.step.trans h.step⟩

theorem ite {p : Prop} [Decidable p] (ht : p → SameMoth s t) (hu : ¬ p → SameMoth s u) : SameMoth s (if p then t else u) := by
  split
  · exact ht ‹_›
  · exact hu ‹_›

theorem foldl {α : Type} {f : State → α → State} {l : List α} (s : State) (h : ∀ t a, SameMoth t (f t a)) : SameMoth s (l.foldl f s) :=
  List.foldlRecOn l f (.refl s) fun t ht a _ => ht.trans (h t a)

theorem setReg {a : Nat} (v : Word) (h : PMU_STAT ≠ a) : SameMoth s (s.setReg a v) := ⟨rfl, rfl, reg_setReg_ne s v h⟩

end SameMoth

section Abandons
variable (s : State)

theorem sameMoth_storeBytes (l : List Byte) (a : Nat) : SameMoth s (s.storeBytes a l) := by
  rw [storeBytes_eq]
  exact ⟨rfl, rfl, rfl⟩

theorem sameMoth_eauLost (ins : List SInstr) : SameMoth s (eauLost ins s) :=
  .ite (fun _ => .foldl s fun _ _ => ⟨rfl, rfl, rfl⟩) fun _ => .refl s

theorem sameMoth_abandonRun (x : CtxId) : SameMoth s (abandonRun x s) := by
  unfold abandonRun
  split
  · rename_i r _
    have hdraw : SameMoth s (eauLost r.ins s).draw.2 := (sameMoth_eauLost s r.ins).trans ⟨rfl, rfl, rfl⟩
    exact hdraw.trans (.foldl _ fun t _ => sameMoth_storeBytes t _ _)
  · exact .refl s

theorem sameMoth_surveyAbandon (x : CtxId) : SameMoth s (surveyAbandon x s) := by
  refine .ite (fun _ => ?_) fun _ => .refl s
  have hidx : ∀ t : State, SameMoth t (surveyAbandon.abandonIdx x t) := fun t => .ite (fun _ => ⟨rfl, rfl, rfl⟩) fun _ => .refl t
  have hvc : ∀ f : VCtx → VCtx, SameMoth s (s.modVc x f) := fun _ => ⟨rfl, rfl, rfl⟩
  have hwalks : ∀ (t : State) n, SameMoth t (walksAbandon n t) := fun _ _ => ⟨rfl, rfl, rfl⟩
  exact ((hvc _).trans (hidx _)).trans (hwalks _ _)

theorem sameMoth_vseAbandoned : SameMoth s (vseAbandoned s) := by
  have hrequests : ∀ (t : State) x, SameMoth t (abandonRequests x t) := fun _ _ => ⟨rfl, rfl, rfl⟩
  have hgroups : SameMoth s (abandonGroups s) := .foldl s fun t n =>
    ((sameMoth_abandonRun t (ctxNo n)).trans (sameMoth_surveyAbandon _ _)).trans (hrequests _ _)
  exact hgroups.trans (.setReg _ (by decide))

theorem sameMoth_nvmPut (bytes : List Byte) (a : Nat) : SameMoth s (nvmPut a bytes s) := by
  induction bytes generalizing a s with
  | nil => exact .refl s
  | cons b t ih => exact (⟨rfl, rfl, rfl⟩ : SameMoth s { s with nvm := smPut nvmDefault s.nvm a b }).trans (ih _ (a + 1))

theorem sameMoth_draw : SameMoth s s.draw.2 := ⟨rfl, rfl, rfl⟩

theorem sameMoth_nvmErase (lo hi : Nat) : SameMoth s (nvmErase lo hi s) := ⟨rfl, rfl, rfl⟩

theorem sameMoth_nvmTear (lo hi : Nat) : SameMoth s (nvmTear lo hi s) := (sameMoth_draw s).trans (sameMoth_nvmPut _ _ lo)

theorem sameMoth_eraseCut (fin : Bool) (lo hi : Nat) : SameMoth s (eraseCut fin lo hi s) :=
  ((sameMoth_draw s).trans (sameMoth_nvmErase _ lo _)).trans (.ite (fun _ => .refl _) fun _ => sameMoth_nvmTear ..)

theorem sameMoth_programCut (fin : Bool) (dst : Nat) (data : List Byte) : SameMoth s (programCut fin dst data s) :=
  ((sameMoth_draw s).trans (sameMoth_nvmPut _ _ dst)).trans (.ite (fun _ => .refl _) fun _ => sameMoth_nvmTear ..)

theorem sameMoth_nvmPart (fin : Bool) : SameMoth s (nvmPart fin s) := by
  unfold nvmPart
  split
  · exact .refl s
  · exact (sameMoth_nvmErase s _ _).trans (sameMoth_nvmTear ..)
  · exact sameMoth_eraseCut ..
  · exact sameMoth_programCut ..
  · exact sameMoth_eraseCut ..

theorem sameMoth_stAbandon : SameMoth s (stAbandon s) := by
  have hbit : ∀ (t : State) b v, SameMoth t (stBit b v t) := fun _ _ _ => .setReg _ (by decide)
  have hidle : ∀ t : State, SameMoth t (stIdle t) := fun t => ((hbit t 30 false).trans (hbit _ 31 false)).trans ⟨rfl, rfl, rfl⟩
  exact .ite (fun _ => .refl s) fun _ => (sameMoth_nvmPart s false).trans (hidle _)

/-! ### SRST_N -/

/-- The registers of the Moth domain are kept (R30). -/
theorem srstRegs_moth {a : Nat} (h : mothReg a = true) : smGet regReset (srstRegs s) a = s.reg a := by
  have hdrop : smGet regReset (smDrop (fun a => !mothReg a) s.regs) a = s.reg a := by
    rw [smGet_smDrop, if_neg (by simp [h])]
    rfl
  unfold srstRegs
  refine List.foldlRecOn (motive := fun l => smGet regReset l a = s.reg a) _ _ hdrop fun l hl e he => ?_
  have hne : a ≠ e.1 := fun heq => by simp [← heq, h] at he
  exact (smGet_smPut_ne regReset l _ hne).trans hl

theorem pfStep_softReset : pfStep (softReset s) = pfStep s := by
  have hstep := ((sameMoth_vseAbandoned s).trans (sameMoth_stAbandon _)).step
  unfold softReset
  generalize stAbandon (vseAbandoned s) = s1 at hstep ⊢
  have hkept : (resetKeeping (srstRegs s1) s1).reg PMU_STAT = s1.reg PMU_STAT := srstRegs_moth s1 (by decide)
  refine (rf_setRf_ne (resetKeeping (srstRegs s1) s1) PMU_STAT 0 PMU_STAT (.inr (.inr (by decide)))).trans ?_
  exact congrArg (fld · 26 24) (hkept.trans hstep)

theorem core_reset (c : CoreId) : State.reset.core c = Core.reset := by
  show (Vector.replicate 5 Core.reset)[c] = Core.reset
  simp

theorem softReset_keeps : (softReset s).pwr = 0 ∧ (softReset s).otp = s.otp ∧ (softReset s).tb = s.tb ∧ ∀ c, (softReset s).core c = Core.reset := by
  obtain ⟨hotp, htb, -⟩ := (sameMoth_vseAbandoned s).trans (sameMoth_stAbandon _)
  unfold softReset
  generalize stAbandon (vseAbandoned s) = s1 at hotp htb ⊢
  exact ⟨rfl, hotp, htb, core_reset⟩

/-! ### Step 2 of a start -/

/-- The registers as step 2 of a start writes them. -/
def started (s : State) : State := if lcsField s then bootStage 2 (s.setReg PMU_PLL 0) else masterEnable 11 (bootStage 2 (s.setReg PMU_PLL 0))

theorem reg_started {a : Nat} (hb : a ≠ BCU_BSTAT) (hp : a ≠ PMU_PLL) (hm : a ≠ XBM_MEN) : (started s).reg a = s.reg a := by
  have hstage : (bootStage 2 (s.setReg PMU_PLL 0)).reg a = s.reg a := (reg_setRf_ne (s.setReg PMU_PLL 0) _ _ _ hb).trans (reg_setReg_ne s _ hp)
  unfold started masterEnable
  split
  · exact hstage
  · exact (reg_setRb_ne (bootStage 2 (s.setReg PMU_PLL 0)) _ _ hm).trans hstage

theorem stage_started : (started s).rf BCU_BSTAT 31 28 = 2 := by
  have hstage : (bootStage 2 (s.setReg PMU_PLL 0)).rf BCU_BSTAT 31 28 = 2 := (rf_setRf_self (s.setReg PMU_PLL 0) BCU_BSTAT 2 (by decide)).trans rfl
  unfold started masterEnable
  split
  · exact hstage
  · exact (rf_setRb_ne (bootStage 2 (s.setReg PMU_PLL 0)) XBM_MEN true BCU_BSTAT (.inl (by decide))).trans hstage

theorem started_fields : started s = { s with regs := (started s).regs } := by
  unfold started
  split
  · rfl
  · rfl

/-- Step 2 of a start: the registers that it writes, and the locks that it waits for unless a power failure has begun. -/
theorem startStep2_eq : startStep2 s = { s with regs := (started s).regs, boot := if pfStep s = 0 then { BootSt.reset with phase := .locks } else s.boot } := by
  have hstep : pfStep (started s) = pfStep s := congrArg (fld · 26 24) (reg_started s (by decide) (by decide) (by decide))
  have hstart : startStep2 s = if pfStep (started s) = 0 then { started s with boot := { BootSt.reset with phase := .locks } } else started s := rfl
  rw [hstart, hstep]
  by_cases h : pfStep s = 0
  · rw [if_pos h, if_pos h, started_fields]
  · rw [if_neg h, if_neg h, ← started_fields]

theorem reg_startStep2 {a : Nat} (hb : a ≠ BCU_BSTAT) (hp : a ≠ PMU_PLL) (hm : a ≠ XBM_MEN) : (startStep2 s).reg a = s.reg a := by
  rw [startStep2_eq]
  exact reg_started s hb hp hm

theorem stage_startStep2 : (startStep2 s).rf BCU_BSTAT 31 28 = 2 := by
  rw [startStep2_eq]
  exact stage_started s

theorem startStep2_keeps : (startStep2 s).pwr = s.pwr ∧ (startStep2 s).otp = s.otp ∧ (startStep2 s).tb = s.tb ∧ (∀ c, (startStep2 s).core c = s.core c) ∧
    ∀ a, (startStep2 s).byte a = s.byte a := by
  rw [startStep2_eq]
  exact ⟨rfl, rfl, rfl, fun _ => rfl, fun _ => rfl⟩

theorem startStep2_locks (h : pfStep s = 0) : (startStep2 s).boot.phase = .locks := by
  rw [startStep2_eq, if_pos h]

end Abandons

/-! ### PRST_N -/

section Prst
variable (s : State) (nvm : List (Nat × Byte))

/-- The device as PRST_N leaves it, before its start. -/
def prstState : State :=
  { State.reset with
    pending := s.pending, fresh := s.fresh, otp := s.otp, pwrfailN := s.pwrfailN, cmNow := s.cmNow,
    pfFilter := !s.pwrfailN, nvm := nvm.foldl (fun l e => smPut nvmDefault l e.1 e.2) [] }

theorem prstRelease_starts : ∃ t, exec (.prstNRelease nvm) s = .next t ∧ t.pwr = 0 ∧ t.otp = s.otp ∧ t.boot.phase = .locks ∧ (∀ c, t.core c = Core.reset) ∧
    (∀ a, a ≠ BCU_BSTAT → a ≠ PMU_PLL → a ≠ XBM_MEN → t.reg a = regReset a) ∧ ∀ a, t.byte a = memDefault a := by
  obtain ⟨hpwr, hotp, -, hcore, hbyte⟩ := startStep2_keeps (prstState s nvm)
  exact ⟨startStep2 (prstState s nvm), rfl, hpwr, hotp, startStep2_locks (prstState s nvm) (show fld (regReset PMU_STAT) 26 24 = 0 by decide), fun c => (hcore c).trans (core_reset c),
    fun a hb hp hm => reg_startStep2 (prstState s nvm) hb hp hm, hbyte⟩

end Prst

/-! ### Configuration records -/

section Records
variable {s : State} {r : CfgRec}

/-- A command of a record that is the next one. -/
theorem withRecord_at {op : Nat → Bool} {f : CfgRec → State → State} (h : AtRecord s r) (hop : op r.op = true) :
    clocked (withRecord op f) s = f r s := by
  obtain ⟨hp, hphase, rest, hrecs⟩ := h
  have hnext : withRecord op f s = f r s := by
    unfold withRecord
    rw [hphase, hrecs]
    exact if_pos hop
  exact (if_pos hp).trans hnext

theorem recordRead_done {f : Word → State → State} {b : List Byte} {u : State} (h : bcuRead r.addr s = (.done 0 b, u)) : recordRead r f s = f (leWord b) u := by
  unfold recordRead
  rw [h]
  rfl

theorem recordRead_failed {f : Word → State → State} {c : Nat} {b : List Byte} {u : State} (hc : c ≠ 0) (h : bcuRead r.addr s = (.done c b, u)) :
    recordRead r f s = bootFail 6 u := by
  obtain ⟨n, rfl⟩ := Nat.exists_eq_succ_of_ne_zero hc
  unfold recordRead
  rw [h]
  rfl

theorem recordWrite_done {v : Word} {b : List Byte} {u : State} (h : bcuWrite r.addr (leBytes 4 v.toNat) s = (.done 0 b, u)) :
    recordWrite r v s = recordDone 0 u := by
  unfold recordWrite
  rw [h]
  rfl

theorem recordWrite_failed {v : Word} {c : Nat} {b : List Byte} {u : State} (hc : c ≠ 0) (h : bcuWrite r.addr (leBytes 4 v.toNat) s = (.done c b, u)) :
    recordWrite r v s = bootFail 6 u := by
  obtain ⟨n, rfl⟩ := Nat.exists_eq_succ_of_ne_zero hc
  unfold recordWrite
  rw [h]
  rfl

/-- A register's write by the BCU. -/
theorem bcuWrite_reg {v : Word} (h : Sends s ⟨8, by decide⟩ r.addr) (hw : regWf r.addr = true) :
    bcuWrite r.addr (leBytes 4 v.toNat) s = (.done 0 [], ctlWrite 8 0 .m r.addr v s) := busWrite_reg _ _ _ _ _ _ v _ s hw h.1 h.2

/-- A register's read by the BCU. -/
theorem bcuRead_reg {w : Word} {u : State} (h : Asks s ⟨8, by decide⟩ r.addr) (hw : regWf r.addr = true) (hr : ctlRead 8 0 r.addr s = (w, u)) :
    bcuRead r.addr s = (.done 0 (leBytes 4 w.toNat), u) := by
  unfold bcuRead busRead
  rw [busGate_issue _ _ _ (by simp [newXact]) (by simpa [newXact] using h.1), readIssued, InterruptAndTimeEvents.reg_targetRead _ _ _ _ _ hw h.2, hr]
  rfl

theorem recordFits_iff {w : Word} : recordFits r w = true ↔ w &&& r.mask = r.value := by
  unfold recordFits
  rw [beq_iff_eq]

/-- What WAIT, its timeout and SKIP do with the word that they have read. -/
def WordTaken (s : State) (r : CfgRec) (w : Word) (u : State) : Prop :=
  (r.op = 2 → exec .cfgWait s = .next (if w &&& r.mask = r.value then recordDone 0 u else u) ∧
    exec .cfgWaitTimeout s = .next (if w &&& r.mask = r.value then recordDone 0 u
      else if r.flag = true then bootFail 5 u else recordDone 0 (u.setRb BCU_BSTAT 13 true))) ∧
  (r.op = 4 → exec .cfgSkip s = .next (recordDone (if (w &&& r.mask = r.value) ↔ r.flag = true then 0 else r.n) u))

theorem skip_eq (fits flag : Bool) (n : Nat) : (if fits != flag then n else 0) = if fits = true ↔ flag = true then 0 else n := by
  cases fits <;> cases flag <;> rfl

/-- A word that a record has read, once it is answered. -/
theorem wordTaken {b : List Byte} {u : State} (h : AtRecord s r) (hr : bcuRead r.addr s = (.done 0 b, u)) : WordTaken s r (leWord b) u := by
  refine ⟨fun hop => ⟨congrArg _ ((withRecord_at h (by simp [hop])).trans ?_), congrArg _ ((withRecord_at h (by simp [hop])).trans ?_)⟩,
    fun hop => congrArg _ ((withRecord_at h (by simp [hop])).trans ?_)⟩
  · rw [recordRead_done hr]
    simp only [recordFits_iff]
  · rw [recordRead_done hr]
    simp only [recordFits_iff]
  · rw [recordRead_done hr, skip_eq]
    simp only [recordFits_iff]

theorem wordTaken_reg {w : Word} {u : State} (h : AtRecord s r) (ha : Asks s ⟨8, by decide⟩ r.addr) (hw : regWf r.addr = true)
    (hr : ctlRead 8 0 r.addr s = (w, u)) : WordTaken s r w u := by
  have htaken := wordTaken h (bcuRead_reg ha hw hr)
  rwa [leWord_leBytes] at htaken

/-- WRITE of a whole word. -/
theorem cfgWrite_whole (h : AtRecord s r) (hop : r.op = 1) (hmask : r.mask = 0xFFFFFFFF) : exec .cfgWrite s = .next (recordWrite r r.value s) :=
  congrArg _ ((withRecord_at h (by simp [hop])).trans (if_pos hmask))

/-- WRITE of some bits: the word is read first. -/
theorem cfgWrite_merged (h : AtRecord s r) (hop : r.op = 1) (hmask : r.mask ≠ 0xFFFFFFFF) :
    exec .cfgWrite s = .next (recordRead r (fun w u => recordWrite r ((w &&& ~~~r.mask) ||| (r.value &&& r.mask)) u) s) :=
  congrArg _ ((withRecord_at h (by simp [hop])).trans (if_neg hmask))

end Records

/-- Settles O55: PRST_N and SRST_N, a retry, the PLLs, and each configuration record of a start. -/
theorem resetsAndStartsComplete : Obligations.ResetsAndStartsComplete := by
  unfold Obligations.ResetsAndStartsComplete
  refine fun s => ⟨fun nvm => prstRelease_starts s nvm, ⟨_, rfl, rfl, rfl, core_reset, fun _ => rfl⟩, fun hp => ?_, fun hph hp ht => congrArg _ (if_pos ?_),
    fun p hw => congrArg _ (if_pos hw), fun hp hph => clocked_next hp (if_pos hph), fun r h => ⟨fun hop => ?_, fun hs hw hop hmask => ?_, fun ha hw w u hr => wordTaken_reg h ha hw hr,
    fun hop hmask b u hb => ?_, fun hop hmask b u b' t hb ht => ?_, fun hop hmask c b u hc hb => ?_, fun b u hb => wordTaken h hb, fun c b u hc hb => ⟨fun hop => ⟨?_, ?_⟩, fun hop => ?_⟩,
    fun hop => congrArg _ (withRecord_at h (by simp [hop])), fun hop => congrArg _ (withRecord_at h (by simpa using hop))⟩⟩
  · obtain ⟨hpwr, hotp, htb, hcore⟩ := softReset_keeps s
    obtain ⟨hpwr', hotp', htb', hcore', -⟩ := startStep2_keeps (softReset s)
    exact ⟨startStep2 (softReset s), congrArg _ (if_pos hp), hpwr'.trans hpwr, hotp'.trans hotp, htb'.trans htb, fun c => (hcore' c).trans (hcore c),
      stage_startStep2 _, fun h => startStep2_locks _ ((pfStep_softReset s).trans h)⟩
  · simp [hph, State.power, hp, ht]
  · exact congrArg _ (withRecord_at h (by simp [hop]))
  · rw [cfgWrite_whole h hop hmask, recordWrite_done (bcuWrite_reg hs hw)]
  · rw [cfgWrite_whole h hop hmask, recordWrite_done hb]
  · rw [cfgWrite_merged h hop hmask, recordRead_done hb, recordWrite_done ht]
  · rw [cfgWrite_whole h hop hmask, recordWrite_failed hc hb]
  · exact congrArg _ ((withRecord_at h (by simp [hop])).trans (recordRead_failed hc hb))
  · exact congrArg _ ((withRecord_at h (by simp [hop])).trans (recordRead_failed hc hb))
  · exact congrArg _ ((withRecord_at h (by simp [hop])).trans (recordRead_failed hc hb))

end Sys2Proof.ResetsAndStarts

/-! What a vector command leaves of the cores (R30, R33, R320). -/
namespace Sys2Proof.VectorCommands
open Sys2Proof.Machine Soundness

/-- Settles O39: the run of a command keeps every core, but that one in WAIT may resume. -/
theorem vectorCommandsLeaveCores : Obligations.VectorCommandsLeaveCores := by
  unfold Obligations.VectorCommandsLeaveCores
  exact fun row opc f hrow x s => ⟨_, exec_vecRow hrow x s, (Sound.vectorRun (κ := True) (.refl s)).cores trivial⟩

end Sys2Proof.VectorCommands
